-- ==== Sys2Proof/Word.lean ====
section
/-!
DEFINITION. The words the spec counts in: a register of 32 bits (00_scope, "Numbers, units and figures") and a byte.
-/

namespace Sys2Proof

/-- A register of BAR0: 32 bits (00_scope, "Numbers, units and figures"). -/
abbrev Word := BitVec 32

/-- One byte of a memory. -/
abbrev Byte := BitVec 8

end Sys2Proof
end

