-- ==== Sys2Proof/Syntax.lean ====
section
/-!
DEFINITION. The commands: one constructor of Instr for every row of spec/opcode_table.json, with the row's operands, and
the plain types the operands are made of. A physical fact that the device meets (an ECC finding, a measured offset, a
readback, an arriving strip, block or message, the data of host memory) is an operand of the command that brings it.
-/

namespace Sys2Proof

/-- The 14 functions (R29). -/
inductive Fn where
  | lnk
  | ing
  | anv
  | hrt
  | trg
  | cmp
  | tb
  | tdc
  | ptp
  | aux
  | aou
  | pair
  | hst
  | bgs
deriving DecidableEq, Repr

/-- A lane with the serial receiver of chapter 02: a receive lane or a mirror lane. -/
inductive Lane where
  | rx (l : Fin 96)
  | mir (m : Fin 8)
deriving DecidableEq, Repr

/-- A lane with PRBS registers: a receive lane or a command lane (R80). -/
inductive PrbsLane where
  | rx (l : Fin 96)
  | tx (f : Fin 48)
deriving DecidableEq, Repr

/-- A lane that sends FILL blocks: a command lane or a mirror lane (R72, R375). -/
inductive TxLane where
  | cmd (f : Fin 48)
  | mir (m : Fin 8)
deriving DecidableEq, Repr

/-- The capabilities a CAPS block declares (R65). -/
structure Caps where
  maxStep : Nat
  formats : Nat
  dual : Bool
  compatOnly : Bool
  family : Nat
  version : Nat
  ack : Bool
deriving DecidableEq, Repr

/-- What the adaptation of an equaliser settled at, as LN_EQ0 and LN_EQ1 show it (R84). -/
structure EqSettings where
  eq0 : Nat
  eq1 : Nat
deriving DecidableEq, Repr

/-- What the read side of an ingest queue finds under its ECC (R92): how many single-bit errors it corrects in the item it reads, and
the wide words, counted from the queue's front, whose content, and whose side tag, is uncorrectable.
[DESIGN CHOICE, log entry 5; DEDUCED, log entry 27] -/
structure QueueEcc where
  corrected : Nat := 0
  badWords : List Nat := []
  badTags : List Nat := []
deriving DecidableEq, Repr

/-- A Kamox processor: a stream engine or a supervisor core (R115). -/
inductive ProcId where
  | eng (e : Fin 96)
  | core (c : Fin 4)
deriving DecidableEq, Repr

/-- What a processor's bundle finds under the ECC of its memory (R130): nothing, n corrected words, an uncorrectable word
among those it fetches, or among those it reads or merges. [DESIGN CHOICE, log entry 5; DESIGN CHOICE, log entry 40] -/
inductive LsEcc where
  | clean
  | corrected (n : Nat)
  | badFetch
  | badData
deriving DecidableEq, Repr

/-- Who sent a mailbox command: the host at a USB4 port, or a supervisor core through sys (R191, R414). -/
inductive Src where
  | port (p : Fin 2)
  | core (c : Fin 4)
deriving DecidableEq, Repr
/-- The header of a received PTP message (R320, R322): whether the frame's FCS is good; the VID of its 802.1Q tag, if it has one; whether
it comes over UDP/IPv4, and to the group of the peer-to-peer profile; its unicastFlag, the types of the TLVs it carries, whether its
timescale is not PTP's; versionPTP's major part, domainNumber, the sender's clock and port, sequenceId, correctionField in 2^-16 ns. -/
structure PtpHead where
  fcs : Bool
  tag : Option Nat := none
  udp : Bool := false
  peer : Bool := false
  unicast : Bool := false
  tlvs : List Nat := []
  alternate : Bool := false
  version : Nat
  domain : Nat
  clock : Nat
  port : Nat
  seq : Nat
  corr : Int
deriving DecidableEq, Repr

/-- What an Announce says of its grandmaster (R326). -/
structure PtpData where
  gm : Nat
  prio1 : Nat
  class_ : Nat
  acc : Nat
  variance : Nat
  prio2 : Nat
  steps : Nat
  utc : Nat
  utcValid : Bool
deriving DecidableEq, Repr

/-- A taken trigger as a DECISION carries it (R377): segment, trigger frame, TFRAC, TSTAMP, firing source. -/
structure Decision where
  seg : Nat
  frame : Nat
  tfrac : Nat
  stamp : Nat
  src : Nat
deriving DecidableEq, Repr

/-- A HEARTBEAT of the partner (R377): its role, whether it holds Tongs, its HOME strap, its GLB_ID.PART (R396), the last SEQ
it sent, whether it asks for a full resynchronisation (R376). -/
structure Heartbeat where
  role : Nat
  tongs : Bool
  home : Bool
  part : Nat
  seq : Nat
  resync : Bool := false
deriving DecidableEq, Repr

/-- What a STATE message copies (R383, R391): a piece of the run image (the image's length, the piece's offset), a mirrored
register (with the segment and the tile it goes to), a command to a function carrying capture data with its
stamp, the state of a segment (its phase code, its record count, F0 while it
is armed), the pending time trigger in ns, a step of the holder's time in 2^-16 ns (R297). -/
inductive StateMsg where
  | image (total off : Nat) (body : List Byte)
  | reg (addr seg tile val : Nat)
  | fnCmd (f : Fn) (cmd : Nat) (at_ : Nat)
  | segment (i phase recCount f0 : Nat)
  | timeTrig (ns : Nat)
  | step (d : Int)
deriving DecidableEq, Repr

/-- What a RECORD message says (R377, R383); an ARM says whether it is a re-arm (R252). -/
inductive RecordMsg where
  | arm (seg f0 : Nat) (again : Bool)
  | disarm
  | post (seg recno : Nat)
  | close (seg qact flags cstamp : Nat)
  | release (seg : Nat)
deriving DecidableEq, Repr

/-- A command that the follower forwards (R389), or the hand-over that a home primary asks for (R394): the release instant and the
first frame for the new holder, as the holder chooses them (R393). -/
inductive ForwardCmd where
  | trigger (stamp : Nat) (force : Bool)
  | release (seg : Nat)
  | timeTrigger (ns : Nat)
  | handover (h n : Nat)
  | armCheck (status engine check pCheck : Nat)
deriving DecidableEq, Repr

/-- A mirror message as it waits for its predecessors (R375, R377): a HEARTBEAT and a TIME with the raw time at which they came, a
SEQ that is declared lost (R376). -/
inductive MirMsg where
  | heartbeat (h : Heartbeat) (at_ : Nat)
  | state (m : StateMsg)
  | sched (n t : Nat)
  | decision (d : Option Decision) (k : Option Nat)
  | record (m : RecordMsg) (meas : List (Nat × Nat))
  | time (dep back at_ : Nat)
  | digest (tile frame value : Nat)
  | space (n : Nat)
  | quench (t : Nat)
  | forward (c : ForwardCmd)
  | handover (h n : Nat) (test : Bool)
  | lost
deriving DecidableEq, Repr

/-- Where a message or a strip has waited too long for its predecessors (R59, R375): a tile, or the mirror port. -/
inductive DeskewAt where
  | tile (f : Fin 48)
  | mirror
deriving DecidableEq, Repr

/-- What memory errors a read of Hearth meets (R213, R230): corrected words at these addresses, uncorrectable words at these
addresses, and bytes read wrong in them (address, value as read). [DESIGN CHOICE, log entry 5] -/
structure MemErrs where
  ce : List Nat
  ue : List Nat
  flips : List (Nat × Nat)
deriving DecidableEq, Repr

/-- What the boot sequence finds (R206, R422, R440, R465): the straps STRAP_TB25, HOME and PAIR_PRESENT, the memory channels
that train (channel, ranks, capacity in units of 128 MiB), and the family each tile declares (tile, family). [DESIGN CHOICE, log entry 5] -/
structure BootFacts where
  tb25 : Bool
  home : Bool
  pair : Bool
  chans : List (Nat × Nat × Nat)
  families : List (Nat × Nat)
deriving DecidableEq, Repr


/-- What the scrub finds at its next step (R229): nothing, a single-bit error or an uncorrectable word at a Hearth address, or
a block of tile-frame `tile` of the frame in a slot whose CRC fails. -/
inductive ScrubFinding where
  | clean
  | single (addr : Nat)
  | uncorrectable (addr : Nat)
  | crc (slot tile : Nat)
deriving DecidableEq, Repr

/-- What the sensors say for a telemetry record (R450): temperatures in 1/128 °C, the eight supplies in mV, powers in mW,
Hearth traffic in 0.1 Gbit/s. [DESIGN CHOICE, log entry 5] -/
structure Sensors where
  tjCore : Int
  tjField : Int
  volt : List Nat
  pCore : Nat
  pField : Nat
  memBw : Nat
deriving DecidableEq, Repr

/-- What the partner answers to an ARM (R385): its status, and for PACE_SHORT its engine, check and P_check. -/
structure ArmCheck where
  status : Nat
  engine : Nat
  check : Nat
  pCheck : Nat
deriving DecidableEq, Repr

/-- A mirror message's content, or the first part of it, with the SEQ of its header (R376). -/
structure Seqd (α : Type) where
  seq : Nat
  body : α
deriving DecidableEq, Repr

/-- An access to the registers or memories, with what the ECC finds in the word of local store that it reads, if it reads one: `ce` says
that a single-bit error was corrected (R130, R158). -/
structure Checked (α : Type) where
  access : α
  ce : Bool
deriving DecidableEq, Repr

/-- The bits that arrive at a lane's PRBS checker, the seed first (R76). -/
structure PrbsRun where
  lane : PrbsLane
  bits : List Bool
deriving DecidableEq, Repr

/-- The bits of a RATE block beside its target step (R51, R65). [DEDUCED, log entry 109] -/
structure RateBits where
  accept : Bool
  final : Bool := false
deriving DecidableEq, Repr

/-- The 16 bytes of a control block as a lane received them (R51). -/
structure CtlRx where
  lane : Lane
  bytes : List Byte
deriving DecidableEq, Repr

/-- The commands: those with operands in the order of the table, then those without. -/
inductive Instr where
  /-- R10: A host write to a register with no row of its own applies field by field, refusing ST changes while the
  governing function runs. The port it comes from, the BAR0 address, the byte enables, the word; ho: the release
  instant of the hand-over as the holder chooses it, should the register be PAIR_CMD (R393); its second part is not
  used. -/
  | registerWrite (port : Fin 2) (addr : Nat) (be : BitVec 4) (val : Word) (ho : Nat × Nat)
  /-- R13: A read of an RC counter returns its value and clears it without losing a concurrent increment. The port it
  comes from, and the BAR0 address. -/
  | rcCounterRead (port : Fin 2) (addr : Checked Nat)
  /-- R31: A START command moves a STOPPED function to STARTING. -/
  | start (f : Fn)
  /-- R31: A STOP command moves a STARTING or RUNNING function to STOPPING, or a FAULT function to STOPPED. -/
  | stop (f : Fn)
  /-- R31: A QUENCH command moves a function to STOPPED without draining. -/
  | quench (f : Fn)
  /-- R31: A function ends STARTING in RUNNING, or in FAULT when its start checks fail. -/
  | startingComplete (f : Fn)
  /-- R32: A function's drain ends and it enters STOPPED. -/
  | stoppingComplete (f : Fn)
  /-- R41: The die temperature crosses 105 °C or 100 °C, setting or clearing OT_ALARM. The temperature in 1/128 °C.
  -/
  | dieTempThreshold (temp : Int)
  /-- R28: A 1 µs event-log window closes, and its events and pending late events are published in order. The epoch
  and the number of the last window that closes. -/
  | logWindowClose (e k : Nat)
  /-- R56: A whole strip arrives on a receive lane and is checked, discarded or accepted. The lane, the bytes as
  received, the raw arrival stamp of the first header bit, and whether reception was cut short. -/
  | stripRx (l : Fin 96) (bytes : List Byte) (t : Nat) (cut : Bool)
  /-- R59: A strip waits beyond DESKEW_WIN, so its missing predecessors are declared lost and it is released. The
  tile, or the mirror port, and the SEQ of the strip or message that waited. -/
  | deskewTimeout (d : DeskewAt) (seq : Nat)
  /-- R50: A block with an invalid sync header is counted in LN_CNT_BLK. -/
  | invalidSyncHeader (ln : Lane)
  /-- R50: A lane sees 64 consecutive valid headers and gains block lock. -/
  | blockLockGained (ln : Lane)
  /-- R67: 16 of 64 headers are invalid, so the lane loses lock and repeats stages 1–3. -/
  | blockLockLost (ln : Lane)
  /-- R61: A FILL block arrives and may be deleted by the elastic buffer. held is what the elastic buffer holds, in
  blocks. -/
  | fillRx (ln : Lane) (held : Nat)
  /-- R51: An IDLE block arrives carrying the counter and the front-end buffer fill. The block counter and the
  front-end buffer fill. -/
  | idleRx (ln : Lane) (counter fill : Nat)
  /-- R51: A TRAIN block arrives with the peer's lock state and the ALIGN marker. Whether it carries the ALIGN
  marker, the bit of the word it starts at as bring-up found it, the two lock bits, the block counter. -/
  | trainRx (ln : Lane) (align : Bool) (pos : Nat) (lock0 lock1 : Bool) (counter : Nat)
  /-- R65: A CAPS block arrives and is checked and acknowledged, completing capability exchange. What the CAPS block
  declares. -/
  | capsRx (l : Fin 96) (c : Caps)
  /-- R65: A RATE block with ACCEPT arrives in the rate-step handshake. The target step, ACCEPT and FINAL. -/
  | rateRx (ln : Lane) (step : Nat) (bits : RateBits)
  /-- R65: 16 blocks after ACCEPT, both ends switch to the next rate step. -/
  | rateSwitch (ln : Lane)
  /-- R74: A CFGA block arrives and completes the front-end access or reload answer with its tag. Tag, status and
  data of the CFGA block. -/
  | cfgaRx (l : Fin 96) (tag status data : Nat)
  /-- R61: The elastic buffer overflows, and the lane retrains with FAIL_CAUSE 4. -/
  | elasticOverflow (ln : Lane)
  /-- R60: The measured ppm departs by more than 50 ppm, so a new CAPS with FILL_GAP is sent. The measured offset in
  0.1 ppm. -/
  | fillGapResend (l : Fin 96) (ppm10 : Int)
  /-- R64: CDR and equaliser converge and the peer reports lock, completing stage 1. The measured offset in 0.1 ppm
  and the equaliser settings. -/
  | trainingComplete (ln : Lane) (ppm10 : Int) (eq : EqSettings)
  /-- R66: A bring-up stage times out, and the lane falls back a step or schedules a retry. -/
  | stageTimeout (ln : Lane)
  /-- R66: After 100 ms, a lane that failed at step 0 retries from stage 1. -/
  | stageRetry (ln : Lane)
  /-- R68: A write of LN_SLIP.SLIP in stage 3 drops one received bit. -/
  | slip (l : Fin 96)
  /-- R82: LN_CTL.RETRAIN restarts bring-up from stage 1 at step 0. -/
  | retrain (l : Fin 96)
  /-- R82: LN_CTL.CLR_CEIL removes the step ceiling at the lane's next retrain. -/
  | clrCeil (l : Fin 96)
  /-- R82: LN_CTL.ALIGN_DONE ends manual stage 3. -/
  | alignDone (l : Fin 96)
  /-- R69: After 1,024 consecutive FILL or IDLE blocks, equaliser adaptation freezes. -/
  | eqFreeze (ln : Lane)
  /-- R69: After 64 data blocks since the freeze, adaptation resumes. -/
  | eqResume (ln : Lane)
  /-- R73: A FRAME block leaves in its slot ahead of the scheduled instant, carrying DELTA. How much earlier than
  need be the slot of the block begins on each command lane, in units of 2^-6 ns. -/
  | frameCommand (slots : List Nat)
  /-- R72: A command or mirror lane sends FILL after its count of other blocks. -/
  | fillInsert (t : TxLane)
  /-- R74: LN_FECTL.GO sends CFGW or CFGR with a fresh tag. -/
  | feAccessGo (f : Fin 48)
  /-- R74: No matching CFGA within 100 µs, so the access completes TIMEOUT. -/
  | feAccessTimeout (f : Fin 48)
  /-- R76: After 64 correct bits, the PRBS checker locks. What arrives at the checker. -/
  | prbsLock (p : PrbsRun)
  /-- R76: More than 512 of 1,024 bits are wrong, so the checker re-seeds. The wrong bits counted while locked. -/
  | prbsReseed (p : PrbsLane) (errors : Nat)
  /-- R77: LN_PRBSINJ.LEN inverts n consecutive bits once. LEN, and the lane. -/
  | prbsInject (n : Nat) (p : PrbsLane)
  /-- R97: ING_QCTL.FLUSH empties the queue and writes a FLUSH slag word. Queue 96 is the auxiliary queue. -/
  | queueFlush (q : Fin 97)
  /-- R111: ING_QCTL.CLR_PEAK sets PEAK to the current fill. Queue 96 is the auxiliary queue. -/
  | clrPeak (q : Fin 97)
  /-- R99: The wired level of a BLW pin changes, as seen in ING_BLW.PIN. The sector, and whether another driver
  asserts the pin. -/
  | bellowsPinChange (k : Fin 12) (asserted : Bool)
  /-- R114: A write of ING_BLW.FORCE asserts or releases the Bellows pin regardless of the queues. The sector and the
  value of FORCE. -/
  | blwForce (k : Fin 12) (on : Bool)
  /-- R102: With an input buffer free, the dispatcher begins copying the next item to the engine. -/
  | itemCopyStart (l : Fin 96)
  /-- R102: The copy completes and is checked, and a strip or slag token is posted to the engine. What the ECC finds
  in the item. -/
  | tokenPost (l : Fin 96) (ecc : QueueEcc)
  /-- R104: For a faulted engine, the dispatcher passes a strip uncorrected to the compressor with ENGINE_FAULT. What
  the ECC finds in the item. -/
  | bypassDispatch (l : Fin 96) (ecc : QueueEcc)
  /-- R124: A processor issues one bundle, whose instructions read their operands and then write together. The
  processor, and what the ECC finds in its memory. -/
  | bundleIssue (p : ProcId) (ecc : LsEcc)
  /-- R138: Every earlier emission and store is accepted, and the fence ends. -/
  | fenceComplete (p : ProcId)
  /-- R132: A token is posted, and wait.strip returns its buffer address and kind. -/
  | waitStripReturn (e : Fin 96)
  /-- R134: The compressor or comparator accepts a stalled emission, and the engine continues. -/
  | emitAccepted (e : Fin 96)
  /-- R140: Space frees in a full pending-post list, and the stalled post.ls proceeds. -/
  | postLsResume (c : Fin 4)
  /-- R191: The next log entry is written to core memory, and Gd := DONE. -/
  | waitEventReturn (c : Fin 4)
  /-- R191: The wait.event limit expires, and Gd := TIMEOUT. -/
  | waitEventTimeout (c : Fin 4)
  /-- R191: The firmware service completes, and its reply and status return to the core. -/
  | sysComplete (c : Fin 4)
  /-- R148: A mailbox command that checks and loads a run image and starts cores 2 and 3. Who sent it, what memory
  errors the copy meets, and the pace of islands woken for the check (island, ps). -/
  | loadRunImage (src : Src) (e : MemErrs) (meas : List (Nat × Nat))
  /-- R268: A closed fragment enters its tile stream in release order. -/
  | fragmentEnterStream (f : Fin 48)
  /-- R273: Room for a block's reservation frees in the commit buffer, and coding begins. -/
  | blockCodingStart (k : Fin 12)
  /-- R274: The shadow decode completes, and the block passes or is rebuilt RAW. bad says that a hardware error makes
  the comparison fail. -/
  | blockVerifyDone (k : Fin 12) (bad : Bool)
  /-- R276: Hearth accepts a block and writes it into its tile stream. -/
  | blockCommit (k : Fin 12)
  /-- R225: K advances so that eviction is permitted, and a waiting stream write proceeds. -/
  | hearthWriteResume (k : Fin 12)
  /-- R217: A tile-frame timer expires after TILE_TMO, and the tile-frame closes. The tile and the frame. -/
  | tileFrameTimeout (f : Fin 48) (n : Nat)
  /-- R229: Temper scrubs the next ECC word or block CRC, correcting, counting and marking. What is found, and how
  far the pass has come in 1/65,536. -/
  | scrubStep (finding : ScrubFinding) (prog : Fin 65536)
  /-- R245: An edge on a dual-channel trigger input makes it pending or takes a trigger. The input, the counter value
  of the tick the edge falls in, and how far into the tick, in fs. -/
  | trigEdge (ch : Fin 4) (c : Nat) (e : Fin 2500000)
  /-- R245: DISC passes without the second channel, and a discrepancy fault is raised. -/
  | discrepancyTimeout (i : Fin 2)
  /-- R246: Both channels are inactive for 1 µs, so the input unlocks or returns to idle. -/
  | dualInputIdle (i : Fin 2)
  /-- R242: Once H has passed, the combiner is evaluated at a stamp. The stamp up to which the combiner is evaluated.
  -/
  | triggerEvaluation (t : Nat)
  /-- R249: A mailbox command that checks and arms a segment and starts the frame sequencer. Who sent it, the pace of
  islands woken for the check, and what a follower answers. -/
  | arm (src : Src) (meas : List (Nat × Nat)) (partner : ArmCheck)
  /-- R249: A mailbox command that stops the sequencer and ends the armed or POST segment. -/
  | disarm (src : Src)
  /-- R251: A mailbox command that raises source 50, optionally FORCE. Who sent it, and the status a holder returns
  to a follower. -/
  | trigger (src : Src) (hs : Nat)
  /-- R254: A mailbox command that sets the pending time trigger. Who sent it, and the status a holder returns to a
  follower. -/
  | timeTrigger (src : Src) (hs : Nat)
  /-- R255: An interval end plus H passes, and a reduction record is sent to the preview path. -/
  | reductionIntervalEnd (ch : Fin 32)
  /-- R417: A mailbox command that returns a measurement record of a CLOSED segment. -/
  | measure (src : Src)
  /-- R258: A FRAME- or TIME-mode output reaches its scheduled instant plus DELAY and pulses. The output and the
  instant. -/
  | outputTimedPulse (o : Fin 9) (t : Nat)
  /-- R258: An output pulse's WIDTH expires, and the output returns to idle. -/
  | outputPulseEnd (o : Fin 9)
  /-- R259: TEST_PERIOD expires, and a 300 ns test pulse begins. -/
  | outputTestStart (o : Fin 9)
  /-- R259: A test readback is taken and compared, and TESTFAIL may set. The output and the level read back. -/
  | outputTestReadback (o : Fin 9) (level : Bool)
  /-- R259: The test pulse ends after 300 ns, and the output returns to idle. -/
  | outputTestEnd (o : Fin 9)
  /-- R281: An offload COMPRESS job starts and codes one run of blocks. The blocks whose shadow decode a hardware
  error fails, and the memory errors the read of the source meets. -/
  | compress (bad : List Nat) (e : MemErrs)
  /-- R281: An offload DECOMPRESS job starts and walks blocks to the destination. The memory errors the read of the
  source meets. -/
  | decompress (e : MemErrs)
  /-- R281: An offload CHECK job starts and decodes and checks without output. The memory errors the read of the
  source meets. -/
  | check (e : MemErrs)
  /-- R290: A TB_INC write sets the increment from the next tick, clamped to ±1,000 ppm. -/
  | tbIncWrite (v : Word)
  /-- R305: An edge on a TDC input is converted and accepted, or lost in dead time or hold-off. The input, the
  counter value of the tick the edge falls in, and how far into the tick, in fs. -/
  | tdcEdge (n : Fin 16) (c : Nat) (e : Fin 2500000)
  /-- R311: An accepted GATE_IN edge arms measurement units. The input, the counter value of the tick the edge falls
  in, and how far into the tick, in fs. -/
  | gateEdge (i : Fin 2) (c : Nat) (e : Fin 2500000)
  /-- R311: TDC_UCMD.ARM arms a measurement unit. -/
  | tdcSoftwareArm (u : Fin 8)
  /-- R313: TDC_UCMD.SCLR clears and restarts a unit's statistics. -/
  | statisticsClear (u : Fin 8)
  /-- R311: A measurement window expires, and the measurement ends, possibly SHORT. -/
  | tdcWindowEnd (u : Fin 8)
  /-- R309: 10 minutes or 5 °C since calibration, and the spare interpolator starts collecting. -/
  | interpolatorRecalStart (target : Fin 22)
  /-- R309: 2^22 hits are collected, and the table is accepted or failed. The 800 counts of the histogram. -/
  | codeDensityCollected (hist : List Nat)
  /-- R310: At a tick boundary, the spare takes over the input. The measured OFFS in 2^-16 ns and the die temperature
  in °C. -/
  | interpolatorHandover (offs temp : Int)
  /-- R321: 500 ms pass without lock, and the port switches between 25G and 10G. -/
  | ethRateFallback (p : Fin 2)
  /-- R321: A sync port gains block lock. -/
  | ethBlockLock (p : Fin 2)
  /-- R321: A sync port loses lock and restarts its rate sequence. -/
  | ethLockLoss (p : Fin 2)
  /-- R327: A Sync is received, and the servo measures offset and acts. The port, the header, twoStepFlag, the origin
  time in ns, the raw arrival stamp. -/
  | syncRx (p : Fin 2) (h : PtpHead) (twoStep : Bool) (origin raw : Nat)
  /-- R322: A Follow_Up completes a held two-step Sync, or is discarded. The port, the header, the precise origin
  time in ns. -/
  | followUpRx (p : Fin 2) (h : PtpHead) (origin : Nat)
  /-- R322: A Delay_Req is received on a master port and answered. The port, the header, the raw arrival stamp. -/
  | delayReqRx (p : Fin 2) (h : PtpHead) (raw : Nat)
  /-- R327: A Delay_Resp gives the path-delay measurement. The port, the header, the receive time in ns, the
  requesting port. -/
  | delayRespRx (p : Fin 2) (h : PtpHead) (recv reqClock reqPort : Nat)
  /-- R324: A Pdelay_Req is received and a one-step Pdelay_Resp is sent. The port, the header, the raw arrival stamp.
  -/
  | pdelayReqRx (p : Fin 2) (h : PtpHead) (raw : Nat)
  /-- R327: A Pdelay_Resp gives the peer-delay measurement. The port, the header, twoStepFlag, the receive time in
  ns, the requesting port, the raw arrival stamp. -/
  | pdelayRespRx (p : Fin 2) (h : PtpHead) (twoStep : Bool) (recv reqClock reqPort raw : Nat)
  /-- R322: A Pdelay_Resp_Follow_Up completes a two-step peer delay. The port, the header, the response’s origin time
  in ns, the requesting port. -/
  | pdelayRespFollowUpRx (p : Fin 2) (h : PtpHead) (origin reqClock reqPort : Nat)
  /-- R326: An Announce is received and the BMCA runs. The port, the header, the announced data set. -/
  | announceRx (p : Fin 2) (h : PtpHead) (d : PtpData)
  /-- R324: A master port sends a one-step Sync at its interval. -/
  | syncTx (p : Fin 2)
  /-- R322: A master port sends Announce at its interval. -/
  | announceTx (p : Fin 2)
  /-- R324: A slave port sends Delay_Req and keeps its departure stamp. -/
  | delayReqTx (p : Fin 2)
  /-- R324: A port sends Pdelay_Req at its interval. -/
  | pdelayReqTx (p : Fin 2)
  /-- R327: The announce receipt or sync timeout expires, and the timebase enters HOLDOVER or FREE. The port, and
  whether it is the announce or the sync timeout. -/
  | masterTimeout (p : Fin 2) (announce : Bool)
  /-- R331: A TRIGGER rig message is received, forwarded and passed to the trigger engine. The port, whether the FCS
  is good, the frame from its destination address on, and the status of a holder, should this member be a follower.
  -/
  | rigTriggerRx (p : Fin 2) (fcs : Bool) (frame : List Byte) (hs : Nat)
  /-- R333: An IMG_BLOCK piece is received, staged and acknowledged. The port, whether the FCS is good, the frame in
  three parts (its two addresses, its tag and Ethertype, the rest), and whether programming fails its read-back. -/
  | imgBlockRx (p : Fin 2) (fcs : Bool) (addrs kind body : List Byte) (fail : Bool)
  /-- R333: An IMG_ACK acknowledges a sent image block. The port, whether the FCS is good, the frame from its
  destination address on, the raw arrival stamp. -/
  | imgAckRx (p : Fin 2) (fcs : Bool) (frame : List Byte) (raw : Nat)
  /-- R333: 1 ms passes without an acknowledgement, and the block is resent or the transfer abandoned. The offset of
  the piece. -/
  | imgResendTimeout (p : Fin 2) (off : Nat)
  /-- R332: A mailbox command that originates a rig trigger on every port with link. Who sent it, and the status a
  holder returns to a follower. -/
  | rigTrigger (src : Src) (hs : Nat)
  /-- R339: AUX_CHCMD.RESET closes a charge amplifier's reset switch for 1 ms. -/
  | chargeAmpReset (mask : BitVec 8)
  /-- R339: The 1 ms reset ends and the switch opens. -/
  | chargeResetEnd (n : Fin 8)
  /-- R341: An AUX_EXCn write that changes FREQ or AMP waits for the next zero crossing. -/
  | excWrite (n : Fin 2) (v : Word)
  /-- R341: At a positive zero crossing, the new excitation applies and the settling count starts. -/
  | excitationApply (n : Fin 2)
  /-- R341: 20 new periods pass, and SETTLING ends. -/
  | excitationSettled (n : Fin 2)
  /-- R343: RPERIOD expires, and a regular scan is triggered. -/
  | adcPeriodicTrigger (x : Fin 2)
  /-- R343: AUX_CHCMD.RSCANA or RSCANB triggers a regular scan. -/
  | rscan (x : Fin 2)
  /-- R344: AUX_CHCMD.ISCANA or ISCANB starts the injected sequence. -/
  | iscan (x : Fin 2)
  /-- R342: Settling ends, and the converter samples. The raw stamp of the instant. -/
  | adcSamplingInstant (x : Fin 2) (t : Nat)
  /-- R342: A conversion ends and its result is written to the data register. The raw result in codes. -/
  | adcConversionDone (x : Fin 2) (raw : Int)
  /-- R342: No entry starts within 2 µs, and the converter powers down. -/
  | adcPowerDown (x : Fin 2)
  /-- R345: The forwarder reads a result, gives it an SSEQ and writes it to the auxiliary queue. -/
  | sampleForward (x : Fin 2)
  /-- R347: The router takes a sample from the queue to the channels and the sample ring. -/
  | sampleRoute (ecc : QueueEcc)
  /-- R357: 2.5 µs after a record closes, the LAST ring index is fixed. -/
  | ringRangeLast (seg : Fin 64)
  /-- R349: AUX_CHCMD.CALA or CALB calibrates a converter now. -/
  | adcCalibration (x : Fin 2)
  /-- R349: CALINT expires, and Temper starts a converter calibration. -/
  | adcCalibrationDue (x : Fin 2)
  /-- R349: A calibration completes, and its coefficients are accepted or rejected. The measured offset and gain. -/
  | adcCalibrationDone (x : Fin 2) (ofs : Int) (gain : Nat)
  /-- R352: The window comparator of a voltage input trips, flagging INVALID and then BREAK. -/
  | voltageBreakTrip (v : Fin 4)
  /-- R352: The comparator releases, and the next conversion clears BREAK. -/
  | voltageBreakRelease (v : Fin 4)
  /-- R353: An LVDT secondary sum falls below 20%, and BREAK sets. -/
  | lvdtSumTrip (k : Fin 2)
  /-- R353: 20 periods after the sum recovers, BREAK clears. -/
  | lvdtSumRelease (k : Fin 2)
  /-- R354: Every 60 s, Temper starts a charge-input break test. -/
  | chargeInputTest (n : Fin 8)
  /-- R354: A charge-input test ends and sets or clears BREAK. The inferred capacitance in pF. -/
  | chargeInputTestDone (cap : Nat)
  /-- R359: A slot supplies no value for STALETMO, so the output goes SAFE and STALE. -/
  | aouStaleTimeout (o : Fin 8)
  /-- R361: Readback differs by more than 0.2 mA for over 1 ms, and ERR sets. The output and its readback in output
  codes. -/
  | aouLoopError (o : Fin 6) (readback : BitVec 16)
  /-- R361: The difference falls below 0.2 mA, and ERR clears. The output and its readback. -/
  | aouLoopErrorClear (o : Fin 6) (readback : BitVec 16)
  /-- R362: TESTINT expires with its conditions met, and the output is stepped. The output and its readback. -/
  | aouLoopTestStart (o : Fin 6) (readback : BitVec 16)
  /-- R362: 500 µs into the test, the readback change is compared. The output and its readback. -/
  | aouTestCompare (o : Fin 6) (readback : BitVec 16)
  /-- R362: 1 ms into the test, the output is restored. -/
  | aouTestRestore (o : Fin 6)
  /-- R362: 1.5 ms into the test, the readback is checked and the result logged. The output and its readback. -/
  | aouTestResult (o : Fin 6) (readback : BitVec 16)
  /-- R377: A partner HEARTBEAT is received with its role, Tongs view and HOME. The mirror lane and the message. -/
  | heartbeatRx (m : Fin 8) (h : Seqd Heartbeat)
  /-- R383: A STATE message copies the run image and mirrored register writes. What the message copies. -/
  | stateRx (m : Seqd StateMsg)
  /-- R383: A SCHED message gives frame numbers and T_k to the follower. The frame number, with SEQ, and T_k. -/
  | schedRx (n : Seqd Nat) (t : Nat)
  /-- R385: A DECISION message is compared with the follower's own decision and applied. The decision, with SEQ, or
  the decided-through frame K. -/
  | decisionRx (d : Seqd (Option Decision)) (k : Option Nat)
  /-- R383: A RECORD message applies ARM, DISARM, POST, close or RELEASE. What the message says, and the pace of
  islands woken for the check of an ARM. -/
  | recordRx (m : Seqd (RecordMsg × List (Nat × Nat)))
  /-- R378: A TIME message's arrival is stamped for the offset computation. The holder’s departure stamp, with SEQ,
  and its arrival stamp of the last TIME sent. -/
  | timeRx (dep : Seqd Nat) (back : Nat)
  /-- R384: A partner fragment digest is compared, and DIVERGENT may be set. The tile, with SEQ, the frame, the
  partner’s digest. -/
  | fdigestRx (tile : Seqd (Fin 48)) (frame value : Nat)
  /-- R384: A partner frame digest is compared, and DIVERGENT may be set. The frame, with SEQ, the partner’s digest.
  -/
  | digestRx (frame : Seqd Nat) (value : Nat)
  /-- R386: A SPACE message closes the record at the lower truncation frame. The truncation frame. -/
  | spaceRx (n : Seqd Nat)
  /-- R387: A QUENCH message makes the partner quench at once. The partner’s stamp. -/
  | quenchRx (t : Seqd Nat)
  /-- R389: The holder executes a command forwarded by the follower. The command. -/
  | forwardRx (c : Seqd ForwardCmd)
  /-- R393: A HANDOVER names the release instant and the first frame for the new holder. The release instant, with
  SEQ, the first frame for the new holder, and whether it is a swap test. -/
  | handoverRx (h : Seqd Nat) (n : Nat) (test : Bool)
  /-- R376: A mirror message with bad CRC or type is discarded, and its SEQ is declared lost. The type byte as
  received. -/
  | mirrorMessageBad (type : Seqd Nat)
  /-- R381: TONGS_IN changes level, and a tie may make the HOME = 0 member yield. The level: whether the partner
  asserts. -/
  | tongsInChange (asserted : Bool)
  /-- R392: SWAPINT or SWAPTEST expires, and a planned hand-over is started. The release instant as the holder
  chooses it; the first frame is the schedule’s, and the operand for it is not used. -/
  | roleSwapDue (h _n : Nat)
  /-- R392: A mailbox command that makes a planned hand-over at once. Who sent it; the release instant as the holder
  chooses it; the first frame is the schedule’s, and the operand for it is not used. -/
  | swapRole (src : Src) (h _n : Nat)
  /-- R397: PAIR_CMD.SWAP acts as SWAP_ROLE. The release instant as the holder chooses it; the first frame is the
  schedule’s, and the operand for it is not used. -/
  | pairSwap (h _n : Nat)
  /-- R408: A port's link returns, and its queues resume at HST_QSQHEAD. The port and the USB4 generation. -/
  | usb4LinkUp (p : Fin 2) (gen : Nat)
  /-- R408: A port's link goes down, and its queues stop with LINKLOST. -/
  | usb4LinkDown (p : Fin 2)
  /-- R403: An FLR of one port stops its queues, aborts its mailbox and clears its MSI-X. -/
  | functionLevelReset (p : Fin 2)
  /-- R404: A BAR2 read is served from Hearth, or returns all ones and is counted. The port, the BAR2 offset, the
  bytes to be read, and the memory errors the read meets. -/
  | apertureRead (p : Fin 2) (o n : Nat) (e : MemErrs)
  /-- R404: A BAR2 write reaches Hearth, or is discarded and counted. The port, the BAR2 offset, the data. -/
  | apertureWrite (p : Fin 2) (o : Nat) (data : List Byte)
  /-- R405: A write of HST_QSQTAIL submits descriptors. -/
  | sqDoorbell (q : Fin 16) (v : Word)
  /-- R405: A write of HST_QCQHEAD releases completion slots, and a waiting queue resumes. -/
  | cqHeadWrite (q : Fin 16) (v : Word)
  /-- R411: A write of HST_EQHEAD releases event-queue slots, and EQ_LOST is posted first. -/
  | eqHeadWrite (v : Word)
  /-- R412: A write of HST_PVHEAD releases preview-ring slots. -/
  | pvHeadWrite (v : Word)
  /-- R406: A DMA descriptor reading Hearth bytes into host memory is taken. The queue, the descriptor as read from
  the ring, and the memory errors the read meets. -/
  | readRange (q : Fin 16) (desc : List Byte) (e : MemErrs)
  /-- R406: A DMA descriptor reading record frames is taken. The queue, the descriptor as read from the ring, and the
  memory errors the read meets. -/
  | readFrame (q : Fin 16) (desc : List Byte) (e : MemErrs)
  /-- R406: A DMA descriptor reading decoded frames is taken. The queue, the descriptor as read from the ring, and
  the memory errors the read meets. -/
  | readDecoded (q : Fin 16) (desc : List Byte) (e : MemErrs)
  /-- R406: A DMA descriptor writing host bytes into Hearth is taken. The queue, the descriptor, and the host data
  that has come. -/
  | writeRange (q : Fin 16) (desc data : List Byte)
  /-- R409: A descriptor finishes, and its completion entry is written. -/
  | dmaDescriptorDone (q : Fin 16)
  /-- R407: A host read completion misses 50 ms, and WRITE_RANGE completes TIMEOUT. The queue, and the completions
  that come after the timeout. -/
  | writeRangeTimeout (q : Fin 16) (late : Nat)
  /-- R414: SUP_MBOX.GO copies the request block and sets BUSY. -/
  | mboxGo (p : Fin 2)
  /-- R416: SUP_MBOX.ABORT stops the command in progress as an abort. -/
  | mboxAbort (p : Fin 2)
  /-- R416: A command's LIMIT expires, and it ends TIMEOUT. -/
  | mboxLimitExpiry (src : Src)
  /-- R417: A mailbox command that acts as a GLB_FNCMD write. -/
  | fncmd (src : Src)
  /-- R417: A mailbox command that writes a BAR0 register. ho is as in registerWrite. -/
  | regWrite (src : Src) (ho : Nat × Nat)
  /-- R417: A mailbox command that returns a BAR0 register value. Who sent it. -/
  | regRead (src : Checked Src)
  /-- R417: A mailbox command that releases a CLOSED segment. Who sent it, and the status a holder returns to a
  follower. -/
  | release (src : Src) (hs : Nat)
  /-- R415: The mailbox QUENCH command applies a global QUENCH at acceptance. -/
  | mboxQuench (src : Src)
  /-- R429: A mailbox command that saves stored fields to the settings store. -/
  | store (src : Src)
  /-- R429: A mailbox command that writes named groups from the user or factory set. -/
  | recallSet (src : Src)
  /-- R435: A mailbox command that starts an image update. -/
  | updateBegin (src : Src)
  /-- R435: A mailbox command that stages an image piece and checks the header or block. What memory errors reading
  the piece meets. -/
  | updateBlock (src : Src) (e : MemErrs)
  /-- R436: UPDATE_COMMIT mode 0 programs, reads back and verifies the staged image. Whether programming fails its
  read-back. -/
  | updateCommit (src : Src) (fail : Bool)
  /-- R437: UPDATE_COMMIT mode 1 confirms the running TRIAL slot. -/
  | updateConfirm (src : Src)
  /-- R436: UPDATE_COMMIT mode 2 commits and then resets the device. Whether programming fails its read-back. -/
  | updateCommitReset (src : Src) (fail : Bool)
  /-- R441: A recovery BEGIN request selects the target. The target as R441 numbers it. -/
  | recoveryBegin (target : Nat)
  /-- R441: A recovery BLOCK request delivers image bytes in order. The image offset and the bytes. -/
  | recoveryBlock (off : Nat) (bytes : List Byte)
  /-- R441: A recovery COMMIT request commits the image. Whether programming fails its read-back. -/
  | recoveryCommit (fail : Bool)
  /-- R426: Temper moves a rarely rewritten settings page onto a worn page. The page that moves and the page it moves
  to. -/
  | wearPageMove (page target : Nat)
  /-- R422: The device leaves reset, straps are sampled and boot runs. What boot finds. -/
  | resetRelease (x : BootFacts)
  /-- R483: TRST_N or power-on resets the TAP to Test-Logic-Reset. What boot finds, should the device boot. -/
  | tapReset (x : BootFacts)
  /-- R480: The SAMPLE/PRELOAD instruction samples or preloads the boundary register. What the scan shifts into the
  boundary register, and the pins as captured. -/
  | samplePreload (cells pins : List Byte)
  /-- R482: The EXTEST instruction drives boundary cells with the device held in reset. What the scan shifts into the
  boundary register, and the pins as captured. -/
  | extest (cells pins : List Byte)
  /-- R482: The EXTEST_PULSE instruction runs the 1149.6 pulse test in reset. What the scan shifts into the boundary
  register, and the pins as captured. -/
  | extestPulse (cells pins : List Byte)
  /-- R482: The EXTEST_TRAIN instruction runs the 1149.6 train test in reset. What the scan shifts into the boundary
  register, and the pins as captured. -/
  | extestTrain (cells pins : List Byte)
  /-- R442: DBG_CHALLENGE shifts out a fresh 32-byte challenge. The 16 noise bytes. -/
  | dbgChallenge (noise : List Byte)
  /-- R442: DBG_RESPONSE checks a signed response and unlocks or counts a failure. The slot number and the signature.
  -/
  | dbgResponse (slot : BitVec 8) (sig : List Byte)
  /-- R480: The unlocked DBG_ACCESS instruction reads or writes a BAR0 word. The 64-bit data register; ho is as in
  registerWrite. -/
  | dbgAccess (w : Checked (BitVec 64)) (ho : Nat × Nat)
  /-- R480: IMG_LOAD delivers 4 image bytes per Update-DR to the recovery path. The 32-bit data register. -/
  | imgLoad (w : Word)
  /-- R447: Every 1 ms, replica paths are measured and P_live is updated. The island, and the pace of its slowest
  replica in ps. -/
  | paceMeasurement (island : Fin 12) (ps : Nat)
  /-- R449: Every 10 ms, a telemetry record is written to the ring. What the sensors show. -/
  | telemetryRecord (x : Sensors)
  /-- R452: A domain's condition has held for RET_DELAY, and it enters RETENTION. -/
  | domainRetentionEntry (n : Fin 51)
  /-- R452: A request reaches a domain in RETENTION and starts its wake. -/
  | domainWake (n : Fin 51)
  /-- R452: The wake bound passes, and the stalled request proceeds. -/
  | domainWakeDone (n : Fin 51)
  /-- R452: A domain leaves OFF when its powering-up event completes. -/
  | domainPowerUp (n : Fin 51)
  /-- R51: A received control block with a bad CRC-8 or an unknown type is discarded, counted in LN_CNT_BLK, and ends
  any partial strip. The block as received. -/
  | discardedControlBlock (ln : CtlRx)
  /-- R452: A USB4 port domain sees no USB4 link on the sideband for 1 s and enters OFF when OFF_EN permits. -/
  | sidebandIdleTimeout (p : Fin 2)
  /-- R452: Activity on the USB4 sideband of a port whose domain is OFF starts that domain's power-up, due within 20
  ms. -/
  | sidebandActivity (p : Fin 2)
  /-- R482: The TAP enters Test-Logic-Reset under TMS, which ends a held reset instruction and runs boot from step 1.
  What boot finds, should the device boot. -/
  | testLogicResetEntry (x : BootFacts)
  /-- R34: GLB_FNCMD with GLOBAL = 1 quenches ING, ANV, CMP, HRT and TRG at one stamp. -/
  | globalQuench
  /-- R44: A write of GLB_DIE.FD_RESET = 1 holds the field die in reset, and AUX and AOU go OFF. -/
  | fieldDieResetAssert
  /-- R19: A write of FD_RESET = 0 begins die-to-die link training. -/
  | fieldDieResetRelease
  /-- R19: The die-to-die link comes up, and firmware begins reinitialising the field die. -/
  | d2dLinkUp
  /-- R19: The die-to-die link goes down, setting D2D_FAULT and moving AUX and AOU to OFF. -/
  | d2dLinkDown
  /-- R19: Firmware finishes training and coefficient reload, and moves AUX and AOU to STOPPED. -/
  | fieldDieReinitDone
  /-- R79: The REFCLK_LN lane PLL loses lock, and LNK enters FAULT 1. -/
  | lanePllLoss
  /-- R79: A transmit-group PLL loses lock, and LNK enters FAULT 2. -/
  | txGroupPllLoss
  /-- R91: No sample arrives for 1 µs, so the packer closes a partly filled auxiliary word. -/
  | auxPackerTimeout
  /-- R107: ING STOPPING reaches DRAIN_TMO, and remaining items are flushed with cause DRAIN. -/
  | ingDrainTimeout
  /-- R152: ANV STOPPING reaches 2 ms, and the engines still running are quenched. -/
  | anvStopTimeout
  /-- R218: A waiting metadata-slot write proceeds once its old frame may be evicted. -/
  | slotWriteResume
  /-- R227: HRT_SEGCMD.RELEASE makes a CLOSED segment EMPTY. -/
  | segcmdRelease
  /-- R233: After an HRT quench, slots and the directory entry are written, and FLUSHING clears. -/
  | quenchSlotWritesDone
  /-- R247: The exposure-start instant T_k of an issued frame is reached. -/
  | frameStart
  /-- R252: After a record closes, the NEXT segment is re-armed, or the failure is logged. -/
  | rearm
  /-- R254: TRG_HOSTTRIG.GO raises source 50. -/
  | hosttrigGo
  /-- R254: The pending time trigger's time is reached, and source 52 fires. -/
  | timeTriggerFire
  /-- R256: Per-record measurements complete and are posted to the event queue. -/
  | measurementReady
  /-- R281: CMP_JSUBMIT.GO queues a job descriptor, or sets REFUSED when the queue is full. -/
  | jobSubmit
  /-- R283: A job ends and posts its job record with its status. -/
  | jobDone
  /-- R288: CMP_JABORT.ALL ends the running and queued jobs with ABORTED. -/
  | jobAbort
  /-- R284: CMP STOPPING reaches 200 µs, and remaining data is discarded as under QUENCH. -/
  | cmpStopTimeout
  /-- R291: A read of TB_NOW_LO latches the high word, the fraction and the raw counter. -/
  | tbNowRead
  /-- R293: TB_STEPCMD.GO requests a host step. -/
  | stepGo
  /-- R294: TB_STEPCMD.CANCEL discards a pending step. -/
  | stepCancel
  /-- R294: At a window end with no segment active, a pending step is applied and the epoch advances. -/
  | stepApply
  /-- R359: Every UPD_US, the route takes slot values and applies output codes. -/
  | aouUpdate
  /-- R377: Every 1 µs, a HEARTBEAT is sent on every mirror lane in run. -/
  | heartbeatTx
  /-- R382: No heartbeat for HBTMO, so the follower takes hold or becomes ORPHAN. -/
  | heartbeatTimeout
  /-- R378: Every 100 µs, a TIME message is sent and its departure stamped. -/
  | timeTx
  /-- R378: Every 1 ms, the follower writes OFS, RATE and TREF. -/
  | pairTimeUpdate
  /-- R384: No partner digest within DIGTMO, so the frame is left UNCOMPARED. -/
  | digestTimeout
  /-- R381: TONGS_IN stays released for 2 µs, and the member asserts TONGS_OUT. -/
  | tongsTakeHold
  /-- R391: At frame boundary F_j after resynchronisation, the member becomes FOLLOWER. -/
  | joinComplete
  /-- R393: At the release instant h, the holder releases TONGS_OUT. -/
  | handoverRelease
  /-- R394: The home primary's take-back conditions are met, and it requests a hand-over. -/
  | takebackDue
  /-- R396: No mirror lane reaches run within 1 s of START, and PAIR enters FAULT 3. -/
  | mirrorLaneFault
  /-- R437: UPD_CTL.CANCEL ends the update in progress. -/
  | updateCancel
  /-- R437: CONFIRM_S passes after ready, and the TRIAL slot becomes ACTIVE. -/
  | trialConfirmTimeout
  /-- R440: UPD_CTL.FERELOAD reloads every front-end's firmware. -/
  | fereload
  /-- R440: 300 ms pass without a tile's answer, so the reload repeats or fails. -/
  | feReloadTimeout
  /-- R443: UPD_CTL.RECOVER makes the next boot enter recovery. -/
  | recover
  /-- R441: A recovery STATUS request returns UPD_STAT and the ROM version. -/
  | recoveryStatus
  /-- R441: A recovery RESET request leaves recovery by reset. -/
  | recoveryReset
  /-- R468: PWR_OK goes low and holds the device in power-on reset. -/
  | pwrOkDeassert
  /-- R468: RESET_N goes low for long enough and resets the whole device. -/
  | resetNAssert
  /-- R480: The BYPASS instruction selects the 1-bit bypass register. -/
  | bypass
  /-- R481: The IDCODE instruction selects the device identification register. -/
  | idcode
  /-- R482: The CLAMP instruction holds boundary outputs with the device in reset. -/
  | clamp
  /-- R482: The HIGHZ instruction floats outputs with the device in reset. -/
  | highz
  /-- R445: Every 100 ms, Temper reads lane adaptation status. -/
  | laneAdaptMonitor
  /-- R381: A holder's own heartbeat generator falls silent for HBTMO, and the hardware releases TONGS_OUT within 100
  ns. -/
  | heartbeatSilent
deriving DecidableEq, Repr

end Sys2Proof
end

