-- ==== Sys2Proof/Machine/Bits.lean ====
section
/-!
DEFINITION. Bit fields, signed readings and byte orders: the one place where a number is cut into fields or bytes
(00_scope: bit ranges are written [msb:lsb], multi-byte fields are little-endian unless their chapter says otherwise).
-/

namespace Sys2Proof.Machine

/-- Bits [hi:lo] of a number (00_scope, bit ranges). -/
def bits (n hi lo : Nat) : Nat := (n >>> lo) % 2 ^ (hi + 1 - lo)

/-- Bit i of a number. -/
def bitOf (n i : Nat) : Bool := n.testBit i

/-- A truth value as one bit. -/
def b2n (b : Bool) : Nat := if b then 1 else 0

/-- The number n with bits [hi:lo] replaced by the low bits of v. -/
def putBits (n hi lo v : Nat) : Nat :=
  let w := hi + 1 - lo
  n - (bits n hi lo) * 2 ^ lo + (v % 2 ^ w) * 2 ^ lo

/-- The two's-complement reading of the low w bits of n. -/
def sx (w n : Nat) : Int :=
  let m := n % 2 ^ w
  if w ≠ 0 ∧ 2 ^ (w - 1) ≤ m then (m : Int) - 2 ^ w else m

/-- The low w bits of an integer, as a number (two's complement). -/
def ux (w : Nat) (z : Int) : Nat := (z % (2 ^ w : Int)).toNat

/-- The integer z limited to the range [lo, hi]. -/
def clampI (lo hi z : Int) : Int := if z < lo then lo else if hi < z then hi else z

/-- The k low bytes of n, least significant first (little-endian, 00_scope). -/
def leBytes : Nat → Nat → List Byte
  | 0, _ => []
  | k + 1, n => BitVec.ofNat 8 n :: leBytes k (n / 256)

/-- The number whose little-endian bytes are given (00_scope). -/
def fromLE : List Byte → Nat
  | [] => 0
  | b :: bs => b.toNat + 256 * fromLE bs

/-- The number whose big-endian bytes are given. -/
def fromBE (bs : List Byte) : Nat := fromLE bs.reverse

/-- The k low bytes of n, most significant first. -/
def beBytes (k n : Nat) : List Byte := (leBytes k n).reverse

/-- n zero bytes. -/
def zeros (n : Nat) : List Byte := List.replicate n 0

/-- The bytes xs with ys laid over them from offset i on; what would lie beyond the end of xs is dropped. -/
def overlay (xs : List Byte) (i : Nat) (ys : List Byte) : List Byte :=
  (xs.take i ++ ys ++ xs.drop (i + ys.length)).take xs.length

/-- A structure of n bytes, zero but for the given fields (offset, size in bytes, value), each little-endian. -/
def pack (n : Nat) (fields : List (Nat × Nat × Nat)) : List Byte :=
  fields.foldl (fun xs f => overlay xs f.1 (leBytes f.2.1 f.2.2)) (zeros n)

/-- The little-endian field of k bytes at offset i of a structure; bytes beyond its end count as zero. -/
def fieldLE (xs : List Byte) (i k : Nat) : Nat := fromLE ((xs.drop i).take k)

/-- Byte i of a structure, as a number. -/
def byteAt (xs : List Byte) (i : Nat) : Nat := ((xs[i]?).getD 0).toNat

/-- Every byte of xs from i on for n bytes is zero. -/
def zeroAt (xs : List Byte) (i n : Nat) : Bool := ((xs.drop i).take n).all (· = 0)

/-- A value lies within bounds. -/
def within (lo hi v : Nat) : Bool := decide (lo ≤ v) && decide (v ≤ hi)

/-- Ceiling division. -/
def cdiv (a b : Nat) : Nat := (a + b - 1) / b

/-- Least multiple of m that is not below n (m positive). -/
def roundUp (n m : Nat) : Nat := cdiv n m * m

/-- The list cut into pieces of k elements; fuel bounds the number of pieces. -/
def chunksAux {α : Type} (k : Nat) : Nat → List α → List (List α)
  | 0, _ => []
  | fuel + 1, xs => if xs.isEmpty then [] else xs.take k :: chunksAux k fuel (xs.drop k)

/-- The list cut into pieces of k elements (the last may be shorter). -/
def chunks {α : Type} (k : Nat) (xs : List α) : List (List α) := chunksAux k xs.length xs

/-- The indices 0 … n−1. -/
def upTo (n : Nat) : List Nat := List.range n

/-- Insert in an ordered list before the first element that x precedes; equal elements keep their order. -/
def insertBy {α : Type} (lt : α → α → Bool) (x : α) : List α → List α
  | [] => [x]
  | y :: ys => if lt x y then x :: y :: ys else y :: insertBy lt x ys

/-- A stable insertion sort. -/
def sortBy {α : Type} (lt : α → α → Bool) (xs : List α) : List α :=
  xs.foldl (fun acc x => insertBy lt x acc) []

/-- The number of 1 bits among the w low bits of n. -/
def popcount : Nat → Nat → Nat
  | 0, _ => 0
  | w + 1, n => n % 2 + popcount w (n / 2)

/-- The integer square root, ⌊√n⌋, by bisection over the bits from position k down. -/
def isqrtAux (n : Nat) : Nat → Nat → Nat
  | 0, r => r
  | k + 1, r =>
    let r' := r + 2 ^ k
    if r' * r' ≤ n then isqrtAux n k r' else isqrtAux n k r

/-- ⌊√n⌋ for n below 2^(2k). -/
def isqrt (k n : Nat) : Nat := isqrtAux n k 0

end Sys2Proof.Machine
end

