-- ==== Sys2Proof/Machine/Crc.lean ====
section
/-!
DEFINITION. The cyclic redundancy checks of the spec: CRC-32C (R54) and the CRC-8 of control blocks and block headers (R51).
-/

namespace Sys2Proof.Machine

/-- One bit of the reflected CRC-32C register. -/
def crcStep (c : Nat) : Nat := if c % 2 = 1 then c / 2 ^^^ 0x82F63B78 else c / 2

/-- One byte into the reflected CRC-32C register (R54: polynomial 0x1EDC_6F41 reflected). -/
def crcByte (c : Nat) (b : Byte) : Nat :=
  let c := c ^^^ b.toNat
  crcStep (crcStep (crcStep (crcStep (crcStep (crcStep (crcStep (crcStep c)))))))

/-- CRC-32C: initial 0xFFFF_FFFF, final XOR 0xFFFF_FFFF (R54). -/
def crc32c (bs : List Byte) : Nat := bs.foldl crcByte 0xFFFFFFFF ^^^ 0xFFFFFFFF

/-- One bit of the CRC-8 register, most significant bit first (R51: polynomial 0x07). -/
def crc8Step (c : Nat) : Nat := if 128 ≤ c then (2 * c % 256) ^^^ 0x07 else 2 * c

/-- CRC-8 of R51: initial 0, not reflected, no final XOR. -/
def crc8 (bs : List Byte) : Nat :=
  bs.foldl (fun c b =>
    crc8Step (crc8Step (crc8Step (crc8Step (crc8Step (crc8Step (crc8Step (crc8Step (c ^^^ b.toNat))))))))) 0

end Sys2Proof.Machine
end

