-- ==== Sys2Proof/Config.lean ====
section
/-!
DEFINITION. What the spec leaves open (free values, with no body: nothing can be proved of them beyond their type) and the
constants of the implementation that no register shows.
-/

namespace Sys2Proof.Config

/-- A digital ball, or group of balls, of R462 that may have cells in the boundary chain (R479). -/
inductive Ball where
  | lnRx (l : Nat) | lnTx (f : Nat) | mirTx (m : Nat) | mirRx (m : Nat)
  | mem (c : Nat) | memGroup (g : Nat)
  | usbTx (p : Nat) | usbRx (p : Nat) | usbSide (p : Nat) | usb2
  | ethTx (p : Nat) | ethRx (p : Nat)
  | refLn | refTb | strapTb25
  | tdcIn (n : Nat) | gateIn (n : Nat) | trig (n : Nat) | out (o : Nat)
  | blw (k : Nat) | tongsOut | tongsIn | home | pairPresent | resetN | pwrOk
deriving DecidableEq, Repr, Inhabited

/-- The cells of the boundary chain, the nearest to TDO first, by the ball each belongs to: one chain on every variant (R479). The spec
leaves its order and its cells to the BSDL files. [DESIGN CHOICE, log entry 9] -/
opaque chain : List Ball

/-- What the cell at a place of the chain captures where it belongs to a ball of an absent unit, and so observes nothing (R479).
[DESIGN CHOICE, log entry 9] -/
opaque absentCell : Nat → Bool

/-- Where in a strip the bits that LN_PRBSINJ inverts in link mode stand (R77 does not say): the use count gives the offset.
[DESIGN CHOICE, log entry 9; DESIGN CHOICE, log entry 19] -/
opaque injectOffset : Nat → Nat

/-- The bits that LN_PRBSINJ inverts on a lane in run fall into the next strip, not on blocks outside strips (R77 does not say): the
use count gives it. [DESIGN CHOICE, log entry 19] -/
opaque injectStrip : Nat → Bool

/-- How many sync headers and control blocks outside strips the inverted bits damage, before reduction modulo 5 (R77: at most 255
bits, so at most three blocks with two headers between): the use count gives it. [DESIGN CHOICE, log entry 19] -/
opaque injectDamage : Nat → Nat

/-- Where an equaliser's adaptation stands once more data blocks have arrived (R69): LN_EQ0 and LN_EQ1, by the use count.
[DESIGN CHOICE, log entry 9] -/
opaque adapted : Nat → BitVec 64

/-- The flags for the front-end in byte 7 of a FRAME block (R51 names them and gives none): the use count gives them. [DESIGN CHOICE, log entry 9] -/
opaque frameFlags : Nat → BitVec 8

/-- The stamp that a computation gives whose result falls before the start of the epoch (a correction, an interpolation or a step
back that passes 0; R292 has unsigned stamps, and no rule states one here): how far below gives it. [DEDUCED, log entry 12] -/
opaque stampBelow : Nat → Nat

/-- The stamp of a frame that opens without having been issued (R247 places only issued frames): the use count gives it.
[DESIGN CHOICE, log entry 9] -/
opaque unissuedStamp : Nat → Nat

/-- The check byte that ECC mode stores for a 64-bit word (R213 names no code). [DESIGN CHOICE, log entry 9; DESIGN CHOICE, log entry 64] -/
opaque eccCheck : BitVec 64 → BitVec 8

/-- FREQ of a measurement whose PERIOD is 0 or whose quotient does not fit its 32 bits (R256 states no result there). [DESIGN CHOICE, log entry 58] -/
opaque freqOpen : Nat → BitVec 32

/-- The time of a rising crossing whose interpolation R256 does not state (HYST = 0: no earlier sample, or an earlier sample
of the same value): the use count gives it. [DESIGN CHOICE, log entry 58] -/
opaque crossingOpen : Nat → Nat

/-- A byte of a region whose contents the spec leaves undefined (the destination of a job that ended without its output,
R282; what a transfer abandoned part way has left, R407): the use count and the byte's offset give it.
[DESIGN CHOICE, log entry 9; DESIGN CHOICE, log entry 64] -/
opaque undefinedByte : Nat → Nat → BitVec 8

/-- The address in the TILES entry of a used tile whose tile-frame closed with count 0, which has no first byte (R219): the frame's
number and the tile give it. [DESIGN CHOICE, log entry 43] -/
opaque emptyTileAddr : Nat → Nat → BitVec 40

/-- CODE (8 bits) and bytes 20–31 of the event log entry of a score that fires (class 8: R302 leaves them to a chapter that does not
give them): the use count gives them. [DESIGN CHOICE, log entry 9] -/
opaque scoreEntry : Nat → BitVec 104

/-- The increment fraction the rig servo sets in LOCKED, as an offset into the range that R290 does not clamp: R327 states
no control law. [DESIGN CHOICE, log entry 66] -/
opaque servoInc : Nat → BitVec 32

/-- RATE as the pair logic sets it (R297, R378): no control law is stated. [DESIGN CHOICE, log entry 66] -/
opaque pairRate : Nat → BitVec 32

/-- The logical page of the user set that a stored field stands on (R425 does not place the fields): the field's key gives it.
[DESIGN CHOICE, log entry 81] -/
opaque pageOf : Nat → Fin 512

/-- The physical pages that the factory set occupies in the settings area (R425 does not say). [DESIGN CHOICE, log entry 81] -/
opaque factoryPages : Fin 256

/-- The public key installed at manufacture (R431). [DESIGN CHOICE, log entry 86] -/
opaque makerKey : Vector (BitVec 8) 32

/-- The payload of the maker's firmware image on a new device (R423). [DESIGN CHOICE, log entry 86] -/
opaque makerPayload : List (BitVec 8)

/-- VERSION as read from a slot that is RECEIVING and holds no whole image (R443 states 0 for EMPTY alone). [DESIGN CHOICE, log entry 9] -/
opaque blankVersion : Nat → BitVec 32

/-- The vendor ID that the manufacture fuses hold (R400, R441): the spec gives no number. [DESIGN CHOICE, log entry 9] -/
opaque vendorId : BitVec 16

/-- The subsystem vendor ID of the fuses (R400). [DESIGN CHOICE, log entry 9] -/
opaque subsysVendorId : BitVec 16

/-- The version of the boot ROM, which a recovery reply shows (R441 gives no value). [DESIGN CHOICE, log entry 9] -/
opaque romVersion : BitVec 32

end Sys2Proof.Config
end

