-- ==== Sys2Proof/Machine/State.lean ====
section
/-!
DEFINITION. The state of the concentrator as plain data: every register, queue, buffer, counter, mode and pin the spec
gives the block, the queue of commands that are waiting, and the machine right after reset (R421). A register that software
sees is held once, in the sparse register file (BAR0 address, word; an unlisted address reads its reset value), or is
computed from the structured state beside it; what the spec gives the block without a register stands in the structures
below. Each structure names the chapter it follows.
-/

namespace Sys2Proof.Machine

/-- Why the machine stops. No rule of the spec stops the device with an effect that the model could not carry: the type has
no reason, so no command faults. -/
inductive Fault where
deriving DecidableEq, Repr

/-- Why a command has no meaning here. -/
inductive Refusal where
  /-- Raised by an arm of exec whose command has no meaning yet; safe (the machine stops by name). -/
  | notModelled (mnemonic : String)
deriving DecidableEq, Repr

/-- The stamps of the spec: an 80-bit count of 2^-16 ns (R292). -/
abbrev Stamp := Nat

/-- The three parts of the family (R1). [DESIGN CHOICE, log entry 6] -/
inductive Part where
  | p7196
  | p7148
  | p7124
deriving DecidableEq, Repr

/-- The state of a function (R30). -/
inductive FnState where
  | absent
  | off
  | stopped
  | starting
  | running
  | stopping
  | fault
deriving DecidableEq, Repr

/-- What <PFX>_STATE holds of a function (R45): its state, the cause of its last fault, the status of its last command. -/
structure FnInfo where
  state : FnState := .off
  faultCode : Nat := 0
  lastStatus : Nat := 0
deriving DecidableEq, Repr

/-- The UDP/IPv4 part of a frame's head (R322): source address, group, port, TTL, UDP checksum. -/
structure UdpHead where
  src : Nat
  group : Nat
  port : Nat
  ttl : Nat := 1
  checksum : Nat := 0
deriving DecidableEq, Repr

/-- The head of a frame that a sync port sends (R320, R322, R330): destination and source MAC address, the 802.1Q tag's priority and
VID, Ethertype, and what UDP/IPv4 adds. -/
structure EthHead where
  dst : Nat
  src : Nat
  tag : Option (Nat × Nat)
  etherType : Nat
  udp : Option UdpHead
deriving DecidableEq, Repr

/-- One of the things that leave the device: a block on a command or mirror lane, a message, a write into host memory,
an interrupt, the data of a completed read, a pulse. The newest stands first in State.out. [DESIGN CHOICE, log entry 8] -/
inductive Out where
  /-- the data of a completed BAR0 read -/
  | readData (addr val : Nat)
  /-- a control block on command lane f or, from 48 on, the downstream side of mirror lane f − 48 (R51): type byte, bytes 1–15 -/
  | block (lane : Nat) (type : Nat) (content : List Byte)
  /-- command lane f begins to drive its ball (R76, R78, R88): mode 0 electrical idle, 1 link, 2 PRBS; POLY; down-spread in ppm -/
  | drive (lane mode poly spread : Nat)
  /-- n consecutive bits of a lane's generated pattern inverted (R77) -/
  | invert (lane n : Nat)
  /-- a mirror-port message (R376): type, body -/
  | mirror (type : Nat) (body : List Byte)
  /-- a frame sent on an Ethernet sync port: its head, kind, fields in wire order, bytes -/
  | eth (port : Nat) (head : EthHead) (kind : Nat) (fields : List Int) (body : List Byte)
  /-- a write into the memory of the host at a USB4 port -/
  | hostWrite (port addr : Nat) (body : List Byte)
  /-- an MSI-X message: port, vector -/
  | msix (port vec : Nat)
  /-- a request to read host memory: port, address, length -/
  | hostRead (port addr len : Nat)
  /-- the answer to an aperture read (R404) -/
  | apData (port : Nat) (body : List Byte)
  /-- an event output's pulse begins (R258): output, stamp -/
  | pulse (o : Nat) (t : Stamp)
  /-- an answer of the recovery path (R441) -/
  | recovery (status : Nat) (body : List Byte)
  /-- bits shifted out of the test access port -/
  | tdo (body : List Byte)
deriving DecidableEq, Repr

/-- An event on its way to the event log (R301): it keeps the stamp and the epoch of its instant; `late` is set when it
reached the ordering after its window closed (R28). -/
structure LogPend where
  stamp : Stamp
  epoch : Nat
  cls : Nat
  idx : Nat
  code : Nat
  flags : Nat
  late : Bool
  data : List Byte
deriving DecidableEq, Repr

/-- A requested timebase step (R293): by a signed amount in 2^-16 ns, or to a value in ns. -/
inductive StepReq where
  | by (d : Int)
  | to (ns : Nat)
deriving DecidableEq, Repr

/-- The timebase and the event log (chapter 10). SYNC, EPOCH, STEPPEND, the increment and the latched time stand in the
register file. -/
structure TbState where
  /-- the raw counter: 2^-32 ns, 96 bits (R289) -/
  counter : Nat := 0
  /-- epochs since reset, of which TB_STAT.EPOCH shows the low 8 bits (R294) -/
  epochs : Nat := 0
  pend : Option StepReq := none
  /-- the timebase has been LOCKED since reset (R301, TBFLAGS.FREE) -/
  everLocked : Bool := false
  /-- the window that closes next: its epoch, its number (R28) -/
  closeEpoch : Nat := 0
  closeWin : Nat := 0
  log : List LogPend := []
  /-- log entries written since reset (R300) -/
  logCount : Nat := 0
  /-- timebase ticks since TB was initialised, whatever the increment -/
  ticks : Nat := 0
  /-- ticks in HOLDOVER not yet counted as a second (R317) -/
  holdTicks : Nat := 0
  /-- increments that were in force of late: (counter up to which, increment), oldest first (R290, R308) -/
  incs : List (Nat × Nat) := []
  /-- the signed amounts of the steps, 2^-16 ns: element e ended epoch e (R28) -/
  steps : List Int := []
  /-- the last log window of each epoch that has ended: element e for epoch e (R28, R295) -/
  ends : List Nat := []
  /-- a member that is no follower any more keeps its translation until a step (R293, R297) -/
  transl : Bool := false
deriving DecidableEq, Repr

/-- A downstream side's block slots (R48, R51): the time of the slot under way in 1/16 ns, the counters of its IDLE and TRAIN blocks. -/
structure TxClock where
  acc : Nat := 0
  idle : Nat := 0
  train : Nat := 0
  /-- blocks other than FILL since the last FILL (R72, R375) -/
  since : Nat := 0
deriving DecidableEq, Repr

/-- What a receive lane (or a mirror lane) holds beside its registers (chapter 02). -/
structure RxLane where
  /-- retries at step 0 since bring-up began (R66) -/
  retries : Nat := 0
  /-- a failed lane at step 0 waits 100 ms for its retry (R66) -/
  waiting : Bool := false
  /-- CLR_CEIL was written and acts at the next retrain (R82) -/
  clrCeil : Bool := false
  /-- the peer's capabilities, once its CAPS arrived in stage 4 -/
  caps : Option Caps := none
  /-- the peer acknowledged our CAPS -/
  acked : Bool := false
  /-- capability exchange has completed since bring-up from stage 1 at step 0 -/
  capsDone : Bool := false
  /-- RATE with FINAL has been sent (R65) -/
  final : Bool := false
  /-- a step the front-end accepted, entered 16 blocks later -/
  nextStep : Option Nat := none
  /-- δ behind the last FILL_GAP sent, in 0.1 ppm (R60) -/
  gapBase : Int := 0
  /-- blocks the elastic buffer holds (R61) -/
  elastic : Nat := 0
  /-- the last IDLE counter and front-end buffer fill (R51) -/
  idleCount : Nat := 0
  idleFill : Nat := 0
  /-- what the peer's TRAIN blocks say of its two receivers (R51) -/
  peerLock0 : Bool := false
  peerLock1 : Bool := false
  trainCount : Nat := 0
  /-- the last ALIGN marker started at bit 0; one has arrived since the last slip; slips since stage 1 (R68) -/
  hit : Bool := false
  markSeen : Bool := false
  slips : Nat := 0
  /-- slips that firmware's search has made in this stage 3 (R68) -/
  tries : Nat := 0
  /-- runs of bits still to be inverted after the deserialiser (R77) -/
  inject : List Nat := []
  /-- the front-end's last CAPS declared no dual transmitter (R63) -/
  noDual : Bool := false
  /-- the downstream side of a mirror lane (R375) -/
  tx : TxClock := {}
  /-- a mirror lane's other direction: the partner's receiver has reached its last step, and trains (R375, R397) -/
  peerFinal : Bool := false
  peerTrains : Bool := false
deriving DecidableEq, Repr

/-- What goes with a stamp into the event log (R28, R301): the epoch and the TBFLAGS in force when it was taken. -/
structure StampMark where
  epoch : Nat := 0
  flags : Nat := 0
deriving DecidableEq, Repr

/-- A strip as it waits in deskew or in an ingest queue: the header and trailer as received, its payload, its stamp (R90),
and its place in the tile's release order (R267). -/
structure StripItem where
  lane : Nat
  header : List Byte
  trailer : List Byte
  payload : List Byte
  stamp : Stamp
  rel : Nat
  /-- the epoch and the TBFLAGS in force at its stamp (R294, R301) -/
  mark : StampMark := {}
deriving DecidableEq, Repr

/-- A strip held in deskew (R59): its SEQ, and whether it was discarded because ING was not RUNNING (R57). -/
structure Held where
  seq : Nat
  item : StripItem
  disc : Bool
  /-- the cause of a flush that came while it was arriving (R96, R97) -/
  gone : Option Nat := none
deriving DecidableEq, Repr

/-- The identity of a lost item (R96). -/
structure Ident where
  frame : Nat
  seq : Nat
  tile : Nat
  stamp : Stamp
  mark : StampMark := {}
deriving DecidableEq, Repr

/-- A tile's sequence and deskew (R57, R59) and its release counter (R267). -/
structure TileRx where
  next : Option Nat := none
  pred : Option Ident := none
  held : List Held := []
  released : Nat := 0
deriving DecidableEq, Repr

/-- A command lane beside its registers: the running tag, the access in flight, and whether its checker is locked. -/
structure CmdLane where
  tag : Nat := 0
  isWrite : Bool := false
  prbsLock : Bool := false
  tx : TxClock := {}
deriving DecidableEq, Repr

/-- A slag word (R95). -/
structure Slag where
  cause : Nat := 0
  queue : Nat := 0
  noid : Bool := false
  nFull : Nat := 0
  nLink : Nat := 0
  nEcc : Nat := 0
  nFlush : Nat := 0
  first : Option Ident := none
  last : Option Ident := none
deriving DecidableEq, Repr

/-- The kind of a wide word, as its side tag says (R89). -/
inductive TagKind where
  | desc
  | data
  | last
  | slag
deriving DecidableEq, Repr

/-- One item of an ingest queue: a strip (R90), a slag word (R95), or an auxiliary wide word of one to five samples of 12
bytes (R91). -/
inductive QItem where
  | strip (i : StripItem)
  | slag (w : Slag)
  | samples (xs : List (List Byte))
deriving DecidableEq, Repr

/-- An ingest queue (R89–R98): its stored items, oldest first, whether its front is being copied to the engine, the
pending slag word, the open auxiliary word of the packer, and what ING_QSTAT shows of its past. -/
structure Queue where
  items : List QItem := []
  copying : Bool := false
  pend : Option Slag := none
  /-- samples in the wide word the packer has not closed (auxiliary queue, R91) -/
  openWord : List (List Byte) := []
  high : Bool := false
  peak : Nat := 0
  /-- a drain timeout flushed it in this STOPPING (R107) -/
  drained : Bool := false
  /-- the raw time of the last flush, and its cause: a strip that was arriving then is a partial item of it (R97) -/
  cutAt : Option (Stamp × Nat) := none
deriving DecidableEq, Repr

/-- A Bellows pin (R98, R99): asserted by the partner or another driver, the wired level last seen, ticks of the µs under way. -/
structure Bellows where
  ext : Bool := false
  pin : Bool := false
  ticks : Nat := 0
deriving DecidableEq, Repr

/-- Where a tile's release order stands for the compressor (R267): every strip released before `ptr` has contributed or
left; `left` holds those beyond it that have. -/
structure TileOrder where
  ptr : Nat := 0
  left : List Nat := []
deriving DecidableEq, Repr

/-- One of an engine's four input buffers (R128, R133): empty, being filled by the dispatcher, holding an item whose token
is posted, or holding the item of the held token. -/
inductive Buf where
  | free
  | filling
  | posted (i : QItem)
  | held (i : QItem)
deriving DecidableEq, Repr

/-- An emission of an engine (R134): pixels appended to the held strip's fragment (which lanes' values, at which pixel
width, closing or flushing the fragment), or a signed score for a comparator. -/
inductive Emission where
  | frag (pixels : List Nat) (close flush : Bool)
  | score (k : Nat) (value : Int)
  | closeEot (auto : Bool)
deriving DecidableEq, Repr

/-- What a processor is doing (R156 for engines): off, waiting in wait.strip for register Gd, executing, stalled on an
emission, held by a fence, stalled on a keyed post, waiting in wait.event, waiting for a firmware service, faulted,
stopped. -/
inductive RunSt where
  | off
  | waitStrip (gd : Nat)
  | exec
  | stalled (em : Emission)
  | fence
  | postStall (gd : Nat) (mask addr value key : Nat)
  | waitEvent (gd ga : Nat) (limited : Bool)
  | sys (gd ga : Nat)
  | faulted
  | stopped
deriving DecidableEq, Repr

/-- A keyed post that waits for its key frame (R140): the post it belongs to, its key frame, address, value. -/
structure Post where
  id : Nat
  key : Nat
  addr : Nat
  value : Nat
deriving DecidableEq, Repr

/-- A post.ls that is not complete (R192): its number, the core and address of its descriptor, the engines it has not been
applied or discarded in, and whether it was late in one. -/
structure PostRec where
  id : Nat
  core : Nat
  addr : Nat
  left : List Nat
  late : Bool
deriving DecidableEq, Repr

/-- The registers and memory of a Kamox processor (R117): 64 vectors of 64 lanes, 4 accumulators of 64 lanes, 8 predicates,
the address registers with their modulo base and length, the scalars, LC, ROT, the decision file (512 entries of 64 lanes
of 2 bits, sparse), DP, KSR, the return stack, the bundle address, and the local store or core memory byte by byte. -/
structure Proc where
  v : Vector (List (BitVec 16)) 64
  q : Vector (List (BitVec 40)) 4
  p : Vector (BitVec 64) 8
  a : Vector Word 16
  ab : Vector Word 16
  am : Vector Word 16
  g : Vector Word 32
  lc : Word
  rot : BitVec 5
  d : List (Nat × BitVec 128)
  dp : BitVec 9
  ksr : Word
  stack : List Nat
  pc : Nat
  mem : List Host.Cell
deriving DecidableEq, Repr

/-- A processor's registers at the start (R118) without its memory. [DESIGN CHOICE, log entry 86] -/
def Proc.zero (mem : List Host.Cell) : Proc where
  v := Vector.replicate 64 (List.replicate 64 0)
  q := Vector.replicate 4 (List.replicate 64 0)
  p := (Vector.replicate 8 0).set 0 (BitVec.allOnes 64)
  a := Vector.replicate 16 0
  ab := Vector.replicate 16 0
  am := Vector.replicate 16 0
  g := Vector.replicate 32 0
  lc := 0
  rot := 0
  d := []
  dp := 0
  ksr := 0
  stack := []
  pc := 0
  mem := mem

/-- A stream engine (chapter 04): its processor, what it does, its buffers, the order of its posted tokens, the steps of
the token it holds, the keyed posts that wait and the highest FRAME it has received, and the pixels of the fragment of the
held strip that are in its staging (chapter 09). -/
structure Engine where
  proc : Proc := Proc.zero []
  run : RunSt := .off
  /-- address of the bundle it issued last, in which it waits or stalls (R156) -/
  bundle : Nat := 0
  bufs : Vector Buf 4 := Vector.replicate 4 .free
  posted : List Nat := []
  steps : Nat := 0
  /-- the input buffer that the dispatcher fills next: they are used in turn (R132, R139) -/
  nextBuf : Nat := 0
  posts : List Post := []
  lastFrame : Option Nat := none
  /-- a fragment of the held strip has been flushed since its token was taken (R135) -/
  flushed : Bool := false
  /-- ticks of a stall microsecond under way -/
  stallTicks : Nat := 0
deriving DecidableEq, Repr

/-- A supervisor core (R116): its processor with 256 KiB of memory, what it does, the SEQ of the next log entry its
wait.event reads (R304), and the reply of its firmware service once it is ready. -/
structure Core where
  proc : Proc := Proc.zero []
  run : RunSt := .stopped
  nextSeq : Nat := 0
  reply : Option (List Byte × Nat) := none
deriving DecidableEq, Repr

/-! ### Chapter 07: Hearth -/

/-- Where a defined segment stands (R223): EMPTY, ARMED, POST, CLOSED. UNDEFINED is LENGTH = 0. -/
inductive SegPhase where
  | empty
  | armed
  | post
  | closed
deriving DecidableEq, Repr

/-- A record as its directory entry describes it (R228). -/
structure Record where
  recno : Nat
  pact : Nat
  qact : Nat
  slot0 : Nat
  tframe : Nat
  tstamp : Stamp
  tfrac : Nat
  cstamp : Stamp
  rflags : Nat
  bytes : Nat
  /-- STAMP of frame T − P′, CSTAMP of the record's last frame (R256, R357) -/
  from_ : Stamp
  upto : Stamp
deriving DecidableEq, Repr

/-- A segment (R214): its geometry, its state, its record count, N_seg as computed at START, and the record it holds. -/
structure Segment where
  base : Nat := 0
  length : Nat := 0
  ecc : Bool := false
  p : Nat := 0
  q : Nat := 1
  mbase : Nat := 0
  mslots : Nat := 0
  next : Nat := 0x7F
  quota : List (Nat × Nat) := []
  phase : SegPhase := .empty
  recCount : Nat := 0
  cap : Nat := 0
  record : Option Record := none
deriving DecidableEq, Repr

/-- A tile-frame (R217). `placed` bytes stand in the armed segment's stream from the unwrapped position `pos` on; the bytes
of a tile-frame that no armed segment takes yet wait in `data`. `dPix` and `dId` are the CRC registers of its fragment
digest (R384). -/
structure TileFrame where
  opened : Bool := false
  closing : Bool := false
  /-- no more fragments belong to it: a later FRAME has come, or its timer has expired (R217, R278) -/
  shut : Bool := false
  closed : Bool := false
  placed : Bool := false
  pos : Nat := 0
  count : Nat := 0
  data : List Byte := []
  dPix : Nat := 0xFFFFFFFF
  dId : Nat := 0xFFFFFFFF
deriving DecidableEq, Repr

/-- A frame that has been issued or opened (R217–R222): its number, its stamp, its tile-frames, its masks, its flags other
than those the masks give, whether its bytes were abandoned (R226), and, once closed, its slot and its CSTAMP. -/
structure Frame where
  n : Nat
  stamp : Stamp
  tfs : List (Nat × TileFrame) := []
  gap : Nat := 0
  fault : Nat := 0
  miss : Nat := 0
  oversz : Nat := 0
  vraw : Nat := 0
  marks : Nat := 0
  tfrac : Nat := 0
  lost : Bool := false
  slot : Nat := 0
  cstamp : Stamp := 0
  /-- the epoch of its stamp, counted since reset (R294) -/
  epoch : Nat := 0
deriving DecidableEq, Repr

/-- The trigger an open record was placed at (R226). -/
structure PostInfo where
  t : Nat
  tfrac : Nat
  tstamp : Stamp
  pact : Nat
  recno : Nat
deriving DecidableEq, Repr

/-- The ARMED or POST segment: its ring's first frame, the slots it has assigned, where each stream's next byte goes, the
trigger, the truncation frame (R226), and the last frame it waits for when it is to end without a full record (R249). -/
structure Active where
  seg : Nat
  f0 : Nat
  slots : Nat := 0
  wpos : List (Nat × Nat) := []
  post : Option PostInfo := none
  trunc : Option Nat := none
  endAfter : Option Nat := none
deriving DecidableEq, Repr

/-- A mark on frames that have not been issued yet: tile, first frame, frames after it, and whether it is a QUENCH (R103). -/
structure RangeMark where
  tile : Nat
  a : Nat
  len : Nat
  quench : Bool
deriving DecidableEq, Repr

/-- The capture memory. `opens` are the frames issued or opened and not closed, ascending; `ring` the closed frames of the
active segment. -/
structure Hearth where
  mem : List Host.Cell := []
  segs : Vector Segment 64 := Vector.replicate 64 {}
  act : Option Active := none
  opens : List Frame := []
  ring : List Frame := []
  /-- the last tile-frame of each tile that closed -/
  tileDone : List (Nat × Nat) := []
  /-- a slot write waits (R218) -/
  slotWait : Bool := false
  marks : List RangeMark := []
  /-- tiles whose next tile-frame to open takes a NOID mark, with or without QUENCH (R103) -/
  noid : List (Nat × Bool) := []
  /-- the segment and frames whose slots are written after a QUENCH (R233) -/
  flush : Option (Active × List Frame) := none
  /-- when the frames were closed whose slots are being written after a QUENCH -/
  flushAt : Option Stamp := none
  /-- what the host has written into the check parts of EMPTY ECC segments: address and length (R213, R231) -/
  rawCheck : List (Nat × Nat) := []
  /-- segments whose record closed and whose measurements (R256) or sample-ring range (R357) are still due -/
  measDue : List Nat := []
  rangeDue : List Nat := []
  /-- ticks of a HOLDSTALL microsecond under way -/
  stallTicks : Nat := 0
deriving DecidableEq, Repr

/-! ### Chapter 08: triggering -/

/-- A frame that the sequencer issued (or SCHED gave, R383): its scheduled stamp with FRAMEOFS, its T_k, and whether it was
refined (R247), has come from the holder, started, and looked at for a missing strobe. -/
structure FrameTime where
  n : Nat
  sched : Stamp
  t : Stamp
  refined : Bool := false
  copied : Bool := false
  started : Bool := false
  checked : Bool := false
  /-- the sequencer ended after this frame: the instant the schedule would have given the next, with FRAMEOFS (R248) -/
  stop : Option Stamp := none
deriving DecidableEq, Repr

/-- What the decision meets at a stamp (R253): no segment, an armed one, one in POST, a re-arm pending, a stop or DISARM. -/
inductive TrigPhase where
  | unarmed
  | armed (seg : Nat)
  | post (seg : Nat)
  | rearm
  | stopped
deriving DecidableEq, Repr

/-- Something that changes what the combiner sees at a stamp (R239): an edge of a source, forced or not, a level's change,
or a change of what the decision meets. -/
inductive TrigItem where
  | edge (src : Nat) (forced : Bool)
  | level (src : Nat) (b : Bool)
  | phase (p : TrigPhase)
deriving DecidableEq, Repr

/-- A dual-channel input (R245, R246): its pending first edge (B, stamp), locked after a fault, waiting for idle after a
trigger. -/
structure DualInput where
  pend : Option (Bool × Stamp) := none
  locked : Bool := false
  taken : Bool := false
deriving DecidableEq, Repr

/-- The phases of an output test (R259). -/
inductive OutTest where
  | none
  | driving (readOk : Option Bool)
  | ended (readOk : Option Bool)
deriving DecidableEq, Repr

/-- An event output (R258): a demand pulse is active, until when; its test, and a test that is deferred (R259). -/
structure OutPin where
  active : Bool := false
  until_ : Stamp := 0
  test : OutTest := .none
  deferred : Bool := false
deriving DecidableEq, Repr

/-- A sample of a stream that reduction and measurement use (R255, R256): kind 1 score, 2 field-die channel; a loss in the
stream is a sample with `gap`. `src` orders samples of equal stamps within the class (R298): the engine of a score. -/
structure StreamSample where
  kind : Nat
  idx : Nat
  stamp : Stamp
  value : Int
  gap : Bool
  src : Nat := 0
deriving DecidableEq, Repr

/-- The frame sequencer (R144): running, the next frame's number, its scheduled instant, the table index of the interval
that follows it, and the frames left (none: no limit). -/
structure Sequencer where
  run : Bool := false
  nextN : Nat := 0
  /-- LOAD_RUN_IMAGE came since the last start: the next one begins at frame 0 (R144) -/
  renumber : Bool := false
  nextT : Stamp := 0
  tab : Nat := 0
  left : Option Nat := none
deriving DecidableEq, Repr

/-- The trigger engine (chapter 08). -/
structure Trig where
  /-- the TRIGGER_CONFIG and FRAME_SCHEDULE sections as the last START of TRG took them; empty: none (R485) -/
  cfg : List Byte := []
  sched : List Byte := []
  seq : Sequencer := {}
  frames : List FrameTime := []
  /-- accepted edges of the EXPTDC channel that no frame known by then took: one that precedes its FRAME command refines it still (R247) -/
  strobes : List Stamp := []
  /-- T_F0 of the armed ring, once that frame is known (R250) -/
  f0T : Option Stamp := none
  /-- the latest stamp evaluated, and K, once there is one (R243, R244) -/
  hp : Option Stamp := none
  k : Option Nat := none
  items : List (Stamp × TrigItem) := []
  /-- edge sources that are true, with the stamp up to which; level sources that are true -/
  held : List (Nat × Stamp) := []
  levels : List Nat := []
  /-- the segment whose set is evaluated, the set's output, and what the decision meets at hp -/
  evalSeg : Option Nat := none
  out : Bool := false
  phase : TrigPhase := .unarmed
  dual : Vector DualInput 2 := Vector.replicate 2 {}
  /-- previous scores since ARM: (comparator × 96 + engine, score) (R240) -/
  prev : List (Nat × Int) := []
  /-- the pending time trigger, rig ns (R254) -/
  timeTrig : Option Nat := none
  pins : Vector OutPin 9 := Vector.replicate 9 {}
  stream : List StreamSample := []
  /-- the next interval of each reduction channel -/
  redNext : List (Nat × Nat) := []
  /-- the segment a re-arm is pending for: (closed segment, NEXT) (R252) -/
  rearm : Option (Nat × Nat) := none
  /-- measurement records of segments: (segment × 8 + channel, record) (R257) -/
  meas : List (Nat × List Byte) := []
  /-- the TIME-mode outputs' stamp -/
  timeStamp : Option Stamp := none
deriving DecidableEq, Repr

/-! ### Chapter 09: compression -/

/-- A fragment in an engine's staging (R268): the release number of its strip, its identity (R134), its pixels, and whether
it is closed, flushes the block, comes from a faulted engine's strip, and is the last of its strip. -/
structure Fragment where
  rel : Nat
  frame : Nat
  tile : Nat
  fmt : Nat
  row : Nat
  col : Nat
  flags : Nat
  lane : Nat
  stamp : Stamp
  pixels : List Nat := []
  closed : Bool := false
  flush : Bool := false
  efault : Bool := false
  final : Bool := false
deriving DecidableEq, Repr

/-- A block of a tile's stream (R269): its tile, FRAME, FMT, pixels, flags, and once coded its bytes and history. -/
structure Block where
  tile : Nat
  frame : Nat
  fmt : Nat
  pixels : List Nat := []
  /-- the tick it was begun in (R217) -/
  born : Nat := 0
  first : Bool := false
  flushed : Bool := false
  forced : Bool := false
  efault : Bool := false
  vraw : Bool := false
  kind : Nat := 1
  bound : Nat := 0
  pred : Nat := 0
  bytes : List Byte := []
  hist : List Nat := []
deriving DecidableEq, Repr

/-- A sector compressor: the open block of each of its tiles, the FRAME each tile's last block began in, the blocks that
wait for a reservation, are being coded and checked, and wait for Hearth. -/
structure Compressor where
  open_ : Vector (Option Block) 4 := Vector.replicate 4 none
  begun : Vector (Option Nat) 4 := Vector.replicate 4 none
  waiting : List Block := []
  coding : List Block := []
  ready : List Block := []
  /-- Hearth withholds acceptance (R277) -/
  hstall : Bool := false
  cfault : Bool := false
  mismatches : Nat := 0
  /-- bytes not yet counted as a KiB of input and output; ticks of a stall microsecond -/
  inBytes : Nat := 0
  outBytes : Nat := 0
  ticks : Nat := 0
deriving DecidableEq, Repr

/-- An offload job that runs (R281): its descriptor, its result so far. -/
structure JobRun where
  desc : List Byte
  status : Nat := 0
  nblk : Nat := 0
  nmis : Nat := 0
  ncrc : Nat := 0
  outLen : Nat := 0
  firstBad : Option Nat := none
  /-- what stands in the destination once the job has ended -/
  out : List Byte := []
  /-- its destination has ceased to be host-writable: a segment that holds it has been armed (R282, R283) -/
  cut : Bool := false
deriving DecidableEq, Repr

/-- The offload job unit: the queue of submitted descriptors and the running job. -/
structure JobUnit where
  queue : List (List Byte) := []
  run : Option JobRun := none
  lastStatus : Nat := 0
  lastTag : Nat := 0
deriving DecidableEq, Repr
/-! ### Chapter 10: event timing -/

/-- An interpolator (R307–R310): its code-density table, none while it has none that is valid, and its OFFS. -/
structure Interp where
  table : Option (List Nat) := none
  offs : Int := 0
deriving DecidableEq, Repr

/-- One of the 22 timed inputs (R305, R310): what served it before the last handover, the counter at the handover's tick,
the tick of its last calibration, the last converted edge's and the last accepted edge's stamp. -/
structure TimedInput where
  oldIpol : Nat := 0
  since : Nat := 0
  calTick : Nat := 0
  lastConv : Option Stamp := none
  lastAcc : Option Stamp := none
deriving DecidableEq, Repr

/-- What a measurement unit takes in stamp order (R311): an arm of a source (the ARM code), or an accepted edge of a channel. -/
inductive UnitItem where
  | arm (src : Nat)
  | edge (ch : Nat)
deriving DecidableEq, Repr

/-- Where a unit stands (R311): idle, armed at a stamp, started at one, off. -/
inductive UnitPhase where
  | idle
  | armed (at_ : Stamp)
  | started (s : Stamp)
  | off
deriving DecidableEq, Repr

/-- A measurement unit (R311–R313): its inputs that are not processed yet, by stamp; stops since the arm that precede the
start so far; the intervals of the measurement; measurements ended; its statistics. -/
structure TdcUnit where
  phase : UnitPhase := .idle
  inputs : List (Stamp × UnitItem) := []
  early : List Stamp := []
  ivals : List Nat := []
  coinc : Bool := false
  ended : Nat := 0
  lastN : Nat := 0
  n : Nat := 0
  sum : Nat := 0
  sumSq : Nat := 0
  min_ : Nat := 0
  max_ : Nat := 0
deriving DecidableEq, Repr

/-- The event timing (chapter 10): interpolators, timed inputs 0–15 TDC_IN, 16–19 TRIG, 20–21 GATE, units, and the input
whose spare has a new table that waits for its handover. -/
structure TdcState where
  ipols : Vector Interp 23 := Vector.replicate 23 {}
  ins : Vector TimedInput 22 := Vector.replicate 22 {}
  units : Vector TdcUnit 8 := Vector.replicate 8 {}
  handover : Option Nat := none
  /-- calibrations that failed (R309) -/
  calFails : Nat := 0
deriving DecidableEq, Repr

/-! ### Chapter 11: rig synchronisation -/

/-- A foreign master heard on a port (R326): its identity, its port, what it announces, how many Announces it has sent. -/
structure Foreign where
  clock : Nat
  port : Nat
  data : PtpData
  heard : Nat
deriving DecidableEq, Repr

/-- An image passed on from a port (R333, R438): the image, the offset of its next piece, the pieces that wait for their
acknowledgement, with how often they were sent and the raw time of the last. -/
structure Transfer where
  image : List Byte
  next : Nat := 0
  wait : List (Nat × Nat × Stamp) := []
deriving DecidableEq, Repr

/-- A sync port (R321–R327): the rate it tries, the sequence numbers it sends with, a two-step Sync held for its Follow_Up
(sender's sequenceId, corrected arrival, correction), the departure of the Delay_Req or Pdelay_Req in flight (sequenceId,
corrected stamp), a two-step Pdelay_Resp held (sequenceId, arrival, requestReceiptTimestamp, correction), the last Sync's
t2 − t1 corrected (for the mean path delay), the foreign masters, the parent, and the image it passes on. -/
structure PtpPort where
  try25 : Bool := true
  syncSeq : Nat := 0
  annSeq : Nat := 0
  reqSeq : Nat := 0
  heldSync : Option (Nat × Stamp × Int) := none
  req : Option (Nat × Stamp) := none
  heldResp : Option (Nat × Stamp × Int × Int) := none
  down : Option Int := none
  foreign : List Foreign := []
  parent : Option (Nat × Nat) := none
  /-- the mean path delay, once it is measured -/
  mpd : Option Int := none
  /-- the raw time at which the sync timeout expired, until a Sync arrives after it -/
  silent : Option Stamp := none
  /-- the raw time at which a port in PRE_MASTER becomes MASTER (R326, R337) -/
  qualify : Stamp := 0
  send : Option Transfer := none
  /-- the image that last came whole over this port, until another update begins (R333), and whether its commit failed -/
  taken : List Byte := []
  redo : Bool := false
  /-- the piece from this port that last ended an update, and the status of that (R333) -/
  refused : Option (Nat × List Byte × Nat) := none
deriving DecidableEq, Repr

/-- The PTP function beside its registers: its ports, the last TRIGGER SEQ of up to 16 origins (newest first), the SEQ of the
own TRIGGER, IMG_BLOCK and IMG_ACK messages, the grandmaster the timebase follows, offsets within LOCKTHR in a row. -/
structure PtpState where
  ports : Vector PtpPort 2 := Vector.replicate 2 {}
  origins : List (Nat × Nat) := []
  rigSeq : Nat := 0
  imgSeq : Nat := 0
  ackSeq : Nat := 0
  gm : Option Nat := none
  good : Nat := 0
deriving DecidableEq, Repr

/-! ### Chapter 12: the field die -/

/-- A result between its sampling instant and the end of its conversion (R342): channel, injected or regular, corrected stamp of the
instant (R346), flags so far, the coefficients that apply to it (R349), and whether its charge amplifier's switch is closed, so that its output reads
zero (R339). -/
structure AdcSample where
  ch : Nat
  inj : Bool
  t : Stamp
  flags : Nat
  ofs : Int
  gain : Nat
  zero : Bool := false
  /-- what goes with the stamp into the event log (R301) -/
  mark : StampMark := {}
deriving DecidableEq, Repr

/-- A converter's data register (R345, R370), with the corrected stamp of the sampling instant the register's result has. -/
structure AdcResult where
  isNew : Bool := false
  inj : Bool := false
  ch : Nat := 0
  flags : Nat := 0
  code : Int := 0
  t : Stamp := 0
  mark : StampMark := {}
deriving DecidableEq, Repr

/-- A converter (R342–R350): its scan and the regular entry it is at, the injected entry it is at, what it has sampled, its
data register, calibration (under way, waiting, started by Temper), and its latest sample of PLCH. -/
structure Adc where
  scan : Bool := false
  pos : Nat := 0
  inj : Option Nat := none
  down : Bool := false
  cal : Bool := false
  calWait : Bool := false
  calTemper : Bool := false
  smp : Option AdcSample := none
  res : AdcResult := {}
  lastPl : Option (Stamp × Int) := none
deriving DecidableEq, Repr

/-- A charge amplifier's reset switch (R339, R354): closed, closed by a test that was ended, the raw stamp it opened at. -/
structure Amp where
  closed : Bool := false
  test : Bool := false
  openAt : Option Stamp := none
deriving DecidableEq, Repr

/-- An exciter (R341): the frequency and amplitude in force, and whether a write waits for its zero crossing. -/
structure Exciter where
  freq : Nat := 50000
  amp : Nat := 200
  pend : Bool := false
deriving DecidableEq, Repr

/-- A voltage input's window comparator (R352): tripped, and the next conversion sets BREAK. -/
structure VoltIn where
  tripped : Bool := false
  next : Bool := false
deriving DecidableEq, Repr

/-- The ring range of a segment's record (R357). -/
structure RingRange where
  seg : Nat
  first : Nat
  last : Option Nat := none
  cut : Bool := false
  gap : Bool := false
deriving DecidableEq, Repr

/-- A loop test in progress (R362): the code before it, the step, the readback before it, whether it has failed; whether the output has
been restored, and a demand has changed it since (R363). -/
structure LoopTest where
  base : Nat
  delta : Int
  before : Nat
  failed : Bool := false
  restored : Bool := false
  demanded : Bool := false
deriving DecidableEq, Repr

/-- The field die and its core-die path. -/
structure FieldState where
  /-- the FIELD_PLAN as the last START of AUX, and of AOU, took it -/
  plan : List Byte := []
  aplan : List Byte := []
  adcs : Vector Adc 2 := Vector.replicate 2 {}
  amps : Vector Amp 8 := Vector.replicate 8 {}
  excs : Vector Exciter 2 := Vector.replicate 2 {}
  volts : Vector VoltIn 4 := Vector.replicate 4 {}
  /-- the charge input under test -/
  testing : Option Nat := none
  sseq : Nat := 0
  /-- comparators that are true, one bit each -/
  comps : Nat := 0
  /-- next ring index, not reduced; samples not written while writing is suspended, as a gap: stamp, count, flags -/
  ringNext : Nat := 0
  ringGap : Option (Stamp × Nat × Nat) := none
  ringFull : Bool := false
  ranges : List RingRange := []
  tests : Vector (Option LoopTest) 8 := Vector.replicate 8 none
deriving DecidableEq, Repr


/-! ### Chapter 13: the pair -/

/-- A digest that waits for its counterpart (R384): tile (0xFF: the frame digest), FRAME, value. -/
structure DigestNote where
  tile : Nat
  frame : Nat
  value : Nat
deriving DecidableEq, Repr

/-- A two-way exchange of TIME messages on the mirror port (R378), as the follower holds it: the holder's departure, the own
arrival, the own departure, the holder's arrival. -/
structure TimeXchg where
  t1 : Stamp := 0
  t2 : Stamp := 0
  t3 : Stamp := 0
  t4 : Stamp := 0
deriving DecidableEq, Repr

/-- What a pair member holds beside its registers (chapter 13). -/
structure PairState where
  /-- SEQ of the last mirror message sent -/
  seq : Nat := 0
  own : List DigestNote := []
  theirs : List DigestNote := []
  /-- frames left uncompared as DIGTMO expired, whose digests may still come (R23, R384) -/
  gaveUp : List Nat := []
  /-- frames that a global QUENCH caught: one of them may be kept by one member only (R387) -/
  quenched : List Nat := []
  /-- fragment digests that differed, (FRAME, tile), until their frame's digest is compared -/
  fragDiff : List (Nat × Nat) := []
  /-- the last K received from the holder (R383) -/
  lastK : Option Nat := none
  /-- a follower's own K, its own decisions that wait for the holder's, the holder's that wait for its own (R385) -/
  ownK : Option Nat := none
  ownDecs : List Decision := []
  theirDecs : List Decision := []
  /-- the partner's last HEARTBEAT -/
  partner : Option Heartbeat := none
  /-- the raw time at which this member last took hold (R381) -/
  tookAt : Option Stamp := none
  /-- a planned hand-over under way: the release instant and the first frame for the new holder (R393) -/
  handover : Option (Stamp × Nat) := none
  /-- the first frame whose command this member sends, after a hand-over (R393) -/
  from_ : Option Nat := none
  /-- F0 of the holder's armed segment, while this member joins (R391) -/
  joinF0 : Option Nat := none
  /-- the hand-over under way is the one of a swap test, or one is to be returned (R392) -/
  testing : Bool := false
  /-- the departure of the last TIME message sent, the arrival of the partner's last, the last exchange and the one before it (R378) -/
  sent : Option Stamp := none
  timeAt : Option Stamp := none
  xchg : Option TimeXchg := none
  xprev : Option TimeXchg := none
  /-- what the holder told of a record's close: segment, QACT, RFLAGS, CSTAMP (R383) -/
  closes : List (Nat × Nat × Nat × Nat) := []
  /-- the raw time at which the heartbeat timeout expired, until the next heartbeat (R382) -/
  lost : Option Stamp := none
  /-- the frame from which a joining member's ring began (R391) -/
  joinedAt : Option Nat := none
  /-- the pieces of the run image that have come in STATE messages -/
  img : List Byte := []
  /-- the SEQ of the next mirror message in order, and the messages that wait for their predecessors (R375) -/
  rxNext : Option Nat := none
  held : List (Nat × MirMsg) := []
  /-- the holder's stamp of the command to a function that is being applied (R383) -/
  cmdAt : Option Stamp := none
  /-- the next HEARTBEAT asks for a full resynchronisation (R376) -/
  resync : Bool := false
deriving DecidableEq, Repr

/-! ### Chapter 14: the host -/

/-- A DMA descriptor in progress or finished and waiting for its completion slot (R405–R409). -/
structure DmaOp where
  desc : List Byte
  status : Nat := 0
  frames : Nat := 0
  bytes : Nat := 0
  /-- a WRITE_RANGE still waits for host data -/
  want : Nat := 0
  finished : Bool := false
deriving DecidableEq, Repr

/-- A DMA queue: completions written since START, the TAIL that was last written while HST was RUNNING (R419), the descriptor taken, and whether a lost link or a function-level reset has
stopped it (R403, R408). -/
structure DmaQueue where
  cpl : Nat := 0
  tail : Nat := 0
  op : Option DmaOp := none
  stopped : Bool := false
deriving DecidableEq, Repr

/-- A port's mailbox (R414): request words, reply words, BUSY, DONE. -/
structure Mbox where
  req : List (Nat × Word) := []
  rep : List (Nat × Word) := []
  busy : Bool := false
  done : Bool := false
deriving DecidableEq, Repr

/-- A command that firmware has accepted (R414): who sent it, its request bytes, and whether an abort or a LIMIT ended it
(the status). -/
structure FwCmd where
  src : Src
  req : List Byte
  /-- the stamp at which it was accepted -/
  stamp : Stamp := 0
  mark : StampMark := {}
deriving DecidableEq, Repr

/-- The host side (chapter 14). -/
structure HostState where
  eqSeq : Nat := 0
  eqLost : Nat := 0
  /-- when the entries of the last 100 µs entered the preview ring (R413), raw stamps -/
  pvTimes : List Stamp := []
  queues : Vector DmaQueue 16 := Vector.replicate 16 {}
  mbox : Vector Mbox 2 := Vector.replicate 2 {}
  fw : List FwCmd := []
  /-- the MSI-X tables and pending bits of the two functions (R402) -/
  msix : Vector (List (Nat × Word)) 2 := Vector.replicate 2 []
  pba : Vector (List Nat) 2 := Vector.replicate 2 []
  /-- bytes delivered by DMA not yet counted as a KiB -/
  rdBytes : Nat := 0
deriving DecidableEq, Repr
/-! ### Chapter 15: settings store, update, recovery, debug lock; chapter 18: test access port -/

/-- A firmware slot of the store (R423, R424, R443): its state code, ATTEMPTED, the image programmed into it; `maker` says that
it holds the maker's own image, whose bytes the spec does not give and whose checks pass. -/
structure ImgSlot where
  state : Nat := 0
  attempted : Bool := false
  maker : Bool := false
  image : List Byte := []
deriving DecidableEq, Repr

/-- A key slot (R431): its state code, its permissions, its public key; `maker` says that it holds the key installed at manufacture,
whose bytes the spec does not give. -/
structure KeySlot where
  state : Nat := 0
  perm : Nat := 0
  maker : Bool := false
  key : List Byte := []
deriving DecidableEq, Repr

/-- A settings set (R425, R428): the stored registers (address, value; an unlisted one is at its reset value), the geometries
of segments, the code-density tables of timed inputs with their OFFS, and the identity of group 0. -/
structure Settings where
  regs : List (Nat × Word) := []
  segs : List (Nat × Segment) := []
  tables : List (Nat × Interp) := []
  mac : Nat := 0
  subsys : Nat := 0
  bar2 : Bool := false
deriving DecidableEq, Repr

/-- What stands on a physical page of the settings area (R425): the logical number of its trailer (512: a commit page), the trailer's
generation, and whether its CRC-32C is right. -/
structure NvPage where
  logical : Nat
  gen : Nat
  sound : Bool := true
deriving DecidableEq, Repr

/-- A generation of the user set (R425): its number, the settings on its pages, and the pages its commit page names, itself among
them (logical page, physical page, the generation that wrote it). -/
structure UserSet where
  gen : Nat
  set : Settings
  names : List (Nat × Nat × Nat)
deriving DecidableEq, Repr

/-- The settings store (R424–R426): firmware slots, places of the front-end area, key slots, the RECOVER flag of the boot
record, the factory set, the generations of the user set that stand in the settings area (newest first), the erase cycles of pages
(page, count), and what stands on the physical pages of the settings area. -/
structure Nvs where
  slots : Vector ImgSlot 2 := (Vector.replicate 2 {}).set 0 { state := 1, maker := true }
  fe : Vector (List Byte) 8 := Vector.replicate 8 []
  keys : Vector KeySlot 4 := (Vector.replicate 4 {}).set 0 { state := 1, perm := 3, maker := true }
  recover : Bool := false
  factory : Settings := { regs := [(0x900104, 600), (0x700040, 0x80000000), (0x700044, 0x80000000)] }
  sets : List UserSet := []
  cycles : List (Nat × Nat) := []
  phys : List (Nat × NvPage) := []
deriving DecidableEq, Repr

/-- An image on its way in (R432–R435): who sends it (0 and 1 the host's ports, 2 and 3 the sync ports, 4 recovery, 5 the test
access port), its target as R435 numbers it, the firmware slot it is for, the staged bytes and which of them are there (start, end), whether its header has passed, the payload
blocks that have, the pieces of a chain whose handling found a block wrong (image offset, bytes), and whether its commit is running. -/
structure ImgIn where
  src : Nat
  target : Nat
  slot : Nat := 0
  data : List Host.Cell := []
  got : List (Nat × Nat) := []
  header : Bool := false
  blocks : List Nat := []
  failed : List (Nat × List Byte) := []
  committing : Bool := false
deriving DecidableEq, Repr

/-- A reload of front-end firmware (R440): the groups still to come (family, tiles), the payloads that it loads (family, payload), the
group under way, the tiles that have not answered, those to be repeated, whether this is the repeat, the tiles to be retrained at its
end, and the counts of tiles loaded and failed. -/
structure FeReload where
  todo : List (Nat × List Nat) := []
  images : List (Nat × List Byte) := []
  fam : Nat := 0
  wait : List Nat := []
  bad : List Nat := []
  again : Bool := false
  ended : List Nat := []
  loaded : Nat := 0
  failed : Nat := 0
deriving DecidableEq, Repr

/-- Where the device is between reset and ready (R422, R441): held, in steps 9 and 10, ready, in recovery. -/
inductive Boot where
  | held
  | loading
  | ready
  | recovery
deriving DecidableEq, Repr

/-- Start-up, update and debug beside their registers. -/
structure SysState where
  boot : Boot := .held
  upd : Option ImgIn := none
  reload : Option FeReload := none
  /-- the source whose STORE is being written (R429, R443) -/
  storing : Option Src := none
  /-- the challenge that a response applies to (R442) -/
  challenge : Option (List Byte) := none
  /-- MAC address, Subsystem ID and BAR2 enable as boot read them (R428 group 0) -/
  subsys : Nat := 0
  bar2 : Bool := false
deriving DecidableEq, Repr

/-- The test access port (R479–R483) and the reset pins (R468): the current instruction, the boundary register's update
chain (R479; the cell nearest TDO first), the data of the last DBG_ACCESS, whether RESET_N and PWR_OK are high. A device reset leaves it. -/
structure Tap where
  ir : Nat := 0x01
  /-- an instruction of R482 holds the device until the port next enters Test-Logic-Reset -/
  hold : Bool := false
  boundary : List Bool := []
  access : Nat := 0
  resetN : Bool := false
  pwrOk : Bool := false
deriving DecidableEq, Repr

/-! ### Chapter 16: background services and power -/

/-- What Temper keeps (R445–R451): replica measurements (tick, island, ps), P_lim, what has been seen since the last
telemetry record (slowest pace of each island, highest fill of each sector, BLW pins), the tick each periodic service last
ran at and the services that ran late, and the state of the scrub; the domains whose wake is under way (R452), the service steps that fell due while they could not run (R445), and what the status
registers of domains that are OFF read last (address, value; R452). -/
structure BgsState where
  meas : List (Nat × Nat × Nat) := []
  plim : Nat := 0
  slow : List (Nat × Nat) := []
  qpeak : List (Nat × Nat) := []
  blwSeen : Nat := 0
  runs : List (Nat × Nat) := []
  late : List Nat := []
  eyeLow : Bool := false
  supplyBad : Bool := false
  scrubProg : Nat := 0
  scrubPasses : Nat := 0
  /-- ticks with no window open since the current pass began; the tick at which it began -/
  scrubTicks : Nat := 0
  scrubFrom : Nat := 0
  waking : List Nat := []
  due : List Nat := []
  last : List (Nat × Nat) := []
deriving DecidableEq, Repr


/-- The whole machine. -/
structure State where
  /-- the commands that wait, first in, first out -/
  pending : List Instr
  /-- what has left the device, newest first -/
  out : List Out
  /-- uses of free values so far (the model's own field, not the spec's) -/
  freeUse : Nat
  part : Part
  stepping : Nat
  fns : Vector FnInfo 14
  /-- the register file: BAR0 address, value; an unlisted address reads its reset value -/
  regs : List (Nat × Word)
  tb : TbState
  rx : Vector RxLane 96
  tiles : Vector TileRx 48
  cmd : Vector CmdLane 48
  mirLanes : Vector RxLane 8
  order : Vector TileOrder 48
  queues : Vector Queue 97
  bellows : Vector Bellows 12
  engines : Vector Engine 96
  cores : Vector Core 4
  /-- posts under way and the number of the next one -/
  postRecs : List PostRec
  postSeq : Nat
  /-- the result-route slots (R190): value, stamp -/
  slots : Vector (Option (Word × Stamp)) 8
  tdc : TdcState
  bgs : BgsState
  field : FieldState
  hearth : Hearth
  trig : Trig
  staging : Vector (List Fragment) 96
  comps : Vector Compressor 12
  jobs : JobUnit
  pair : PairState
  host : HostState
  ptp : PtpState
  nvs : Nvs
  sys : SysState
  tap : Tap
  /-- the kept image (R149); none: no image is loaded -/
  kept : Option (List Byte)
  /-- an uncorrectable word stands in the kept image -/
  keptBad : Bool
deriving DecidableEq, Repr

/-- The machine right after reset (R421): every function OFF, every register at its reset value, every memory empty.
[DESIGN CHOICE, log entry 6; DESIGN CHOICE, log entry 7; DESIGN CHOICE, log entry 86] -/
def State.reset : State where
  pending := []
  out := []
  freeUse := 0
  part := .p7196
  stepping := 0
  fns := Vector.replicate 14 {}
  regs := []
  tb := {}
  rx := Vector.replicate 96 {}
  tiles := Vector.replicate 48 {}
  cmd := Vector.replicate 48 {}
  mirLanes := Vector.replicate 8 {}
  order := Vector.replicate 48 {}
  queues := Vector.replicate 97 {}
  bellows := Vector.replicate 12 {}
  engines := Vector.replicate 96 {}
  cores := Vector.replicate 4 {}
  postRecs := []
  postSeq := 0
  slots := Vector.replicate 8 none
  tdc := {}
  bgs := {}
  field := {}
  hearth := {}
  trig := {}
  staging := Vector.replicate 96 []
  comps := Vector.replicate 12 {}
  jobs := {}
  pair := {}
  host := {}
  ptp := {}
  nvs := {}
  sys := {}
  tap := {}
  kept := none
  keptBad := false

end Sys2Proof.Machine
end

