-- ==== Sys2Proof/Machine/Codec.lean ====
section
/-!
DEFINITION. Pixels and blocks as bytes (R55, R269–R272, R279): packing, the block header, the coder and the decoder of R271,
the growth bound.
-/

namespace Sys2Proof.Machine

/-! ### Packing (R55) -/

/-- The pixels as one number, pixel 0 in the lowest b bits. -/
def packNat (b : Nat) : List Nat → Nat
  | [] => 0
  | x :: xs => x % 2 ^ b + 2 ^ b * packNat b xs

/-- Pixels of b bits packed least significant bit first, the last byte filled with zeros (R55). -/
def packPixels (b : Nat) (xs : List Nat) : List Byte := leBytes (cdiv (xs.length * b) 8) (packNat b xs)

/-- n numbers of b bits from a bit stream. -/
def unpackNat (b : Nat) : Nat → Nat → List Nat
  | 0, _ => []
  | n + 1, v => v % 2 ^ b :: unpackNat b n (v / 2 ^ b)

/-- n pixels of b bits from packed bytes (R55). -/
def unpackPixels (b n : Nat) (bs : List Byte) : List Nat := unpackNat b n (fromLE bs)

/-- Bits of a pixel format (R53, R269); 12 for an unknown one, which no strip or block carries. -/
def bitsOf (fmt : Nat) : Nat := if fmt = 0x0A then 10 else if fmt = 0x10 then 16 else 12

/-- P_max of a format (R269). -/
def pMax (fmt : Nat) : Nat := if fmt = 0x0A then 13107 else if fmt = 0x10 then 8192 else 10922

/-- Bytes of n packed pixels. -/
def packedLen (fmt n : Nat) : Nat := cdiv (n * bitsOf fmt) 8

/-- F_b: bytes of a full block (R269). -/
def fullBytes (fmt : Nat) : Nat := packedLen fmt (pMax fmt)

/-- The growth bound G(N, b) (R272). -/
def growth (fmt n : Nat) : Nat :=
  let k := cdiv n (pMax fmt)
  (k - 1) * (fullBytes fmt + 16) + packedLen fmt (n - (k - 1) * pMax fmt) + 16

/-! ### Bit streams -/

/-- A bit stream as it grows: the value of its bits, the first in the lowest place, and their number. -/
structure BitOut where
  val : Nat := 0
  len : Nat := 0
deriving DecidableEq, Repr

/-- n bits of v put behind the others. -/
def BitOut.put (o : BitOut) (n v : Nat) : BitOut := { val := o.val + v % 2 ^ n * 2 ^ o.len, len := o.len + n }

/-- The stream as bytes, the last filled with zeros (R271). -/
def BitOut.bytes (o : BitOut) : List Byte := leBytes (cdiv o.len 8) o.val

/-! ### The coder of R271 -/

/-- A and N of the four contexts, and mprev. -/
structure Ctx where
  a : List Nat := [4, 4, 4, 4]
  n : List Nat := [1, 1, 1, 1]
  mprev : Nat := 0
deriving DecidableEq, Repr

/-- The context of the next pixel. -/
def Ctx.c (x : Ctx) : Nat := if x.mprev = 0 then 0 else if x.mprev ≤ 2 then 1 else if x.mprev ≤ 14 then 2 else 3

/-- The smallest k with N × 2^k ≥ A. -/
def riceK (n a : Nat) : Nat → Nat → Nat
  | 0, k => k
  | fuel + 1, k => if a ≤ n * 2 ^ k then k else riceK n a fuel (k + 1)

/-- k of the current context. -/
def Ctx.k (x : Ctx) : Nat := riceK ((x.n[x.c]?).getD 1) ((x.a[x.c]?).getD 4) 40 0

/-- The contexts after a code m. -/
def Ctx.next (x : Ctx) (m : Nat) : Ctx :=
  let c := x.c
  let a := (x.a[c]?).getD 4 + m
  let n := (x.n[c]?).getD 1 + 1
  let (a, n) := if n = 64 then (a / 2, 32) else (a, n)
  { a := x.a.set c a, n := x.n.set c n, mprev := m }

/-- The predictor: p of pixel i, from h[i−1], h[i−2] and h[0] (R271); `hist` is the history, newest first. -/
def predict (pred b : Nat) (hist : List Nat) : Nat :=
  match hist with
  | [] => 2 ^ (b - 1)
  | x :: rest =>
    if pred = 0 then x
    else match rest with
      | y :: _ => y
      | [] => x

/-- The signed error e as m. -/
def foldE (e : Int) : Nat := if 0 ≤ e then (2 * e).toNat else (-2 * e - 1).toNat

/-- e from m. -/
def unfoldM (m : Nat) : Int := if m % 2 = 0 then ((m / 2 : Nat) : Int) else -(((m + 1) / 2 : Nat) : Int)

/-- The history value that error e gives: kind 2 CODED, 3 BOUNDED with bound E (R271). -/
def histOf (kind e2 b p : Nat) (e : Int) : Nat :=
  if kind = 3 then (clampI 0 (2 ^ b - 1) ((p : Int) + e * (2 * e2 + 1))).toNat
  else (((p : Int) + e) % (2 ^ b : Int)).toNat

/-- The error of pixel x against p. -/
def errOf (kind e2 b p x : Nat) : Int :=
  if kind = 3 then
    let d : Int := (x : Int) - p
    (if 0 ≤ d then 1 else -1) * (((d.natAbs + e2) / (2 * e2 + 1) : Nat) : Int)
  else sx b (ux b ((x : Int) - p))

/-- One code word: unary and remainder, or the escape (R271). -/
def putCode (b k m : Nat) (o : BitOut) : BitOut :=
  let q := m / 2 ^ k
  if q < 24 then ((o.put q (2 ^ q - 1)).put 1 0).put k m else (o.put 24 (2 ^ 24 - 1)).put b m

/-- The encoder over the pixels: the bit stream, and the history newest first. -/
def encodeLoop (kind e2 pred b : Nat) : List Nat → Ctx → List Nat → BitOut → BitOut × List Nat
  | [], _, h, o => (o, h)
  | x :: xs, c, h, o =>
    let p := predict pred b h
    let e := errOf kind e2 b p x
    let m := foldE e
    encodeLoop kind e2 pred b xs (c.next m) (histOf kind e2 b p e :: h) (putCode b c.k m o)

/-- The body of a CODED (2) or BOUNDED (3) block and the history in pixel order. -/
def encodeBody (kind e2 pred b : Nat) (xs : List Nat) : List Byte × List Nat :=
  let (o, h) := encodeLoop kind e2 pred b xs {} [] {}
  (o.bytes, h.reverse)

/-- The number of one bits before the next zero, at most 24, of a stream of n bits. -/
def unaryCount : Nat → Nat → Nat → Nat
  | 0, _, _ => 0
  | fuel + 1, v, n => if n ≠ 0 ∧ v % 2 = 1 then 1 + unaryCount fuel (v / 2) (n - 1) else 0

/-- The decoder: from v (len bits left), n pixels to go; none when the bits run out (R271). -/
def decodeLoop (kind e2 pred b : Nat) : Nat → Nat → Nat → Ctx → List Nat → Option (List Nat)
  | 0, _, _, _, h => some h
  | n + 1, v, len, c, h =>
    let q := unaryCount 24 v len
    let k := c.k
    let used := if q < 24 then q + 1 + k else 24 + b
    if len < used then none
    else
      let m := if q < 24 then q * 2 ^ k + (v >>> (q + 1)) % 2 ^ k else (v >>> 24) % 2 ^ b
      let p := predict pred b h
      decodeLoop kind e2 pred b n (v >>> used) (len - used) (c.next m) (histOf kind e2 b p (unfoldM m) :: h)

/-- The pixels of a CODED or BOUNDED body. -/
def decodeBody (kind e2 pred b n : Nat) (body : List Byte) : Option (List Nat) :=
  (decodeLoop kind e2 pred b n (fromLE body) (8 * body.length) {} []).map List.reverse

/-! ### Blocks (R270) -/

/-- The 16-byte header of a block. -/
def blockHeader (kind fmt tile flags len npix param frame crc : Nat) : List Byte :=
  let h := pack 16 [(0, 1, kind), (1, 1, fmt), (2, 1, tile), (3, 1, flags), (4, 2, len), (6, 2, npix), (8, 1, param),
    (10, 2, frame), (12, 4, crc)]
  overlay h 9 [BitVec.ofNat 8 (crc8 (h.take 9 ++ h.drop 10))]

/-- The BFLAGS of a block. -/
def Block.flags (k : Block) : Nat :=
  b2n k.first + 2 * b2n k.flushed + 4 * b2n k.forced + 8 * b2n k.vraw + 16 * b2n k.efault

/-- The block stored RAW. [DEDUCED, log entry 62] -/
def Block.raw (k : Block) : Block :=
  let body := packPixels (bitsOf k.fmt) k.pixels
  let k := { k with kind := 1, bound := 0, hist := k.pixels }
  { k with bytes := blockHeader 1 k.fmt k.tile k.flags body.length k.pixels.length 0 (k.frame % 65536) (crc32c body) ++ body }

/-- The block coded as kind 1 RAW, 2 CODED, 3 BOUNDED: a coded body is stored only if it is shorter than the RAW one (R273). -/
def Block.code (k : Block) (kind e2 pred : Nat) : Block :=
  if kind = 1 then k.raw
  else
    let b := bitsOf k.fmt
    let (body, hist) := encodeBody kind e2 pred b k.pixels
    if body.length < packedLen k.fmt k.pixels.length then
      let k := { k with kind := kind, bound := if kind = 3 then e2 else 0, pred := pred, hist := hist }
      { k with bytes := blockHeader kind k.fmt k.tile k.flags body.length k.pixels.length (pred + 2 * k.bound)
                 (k.frame % 65536) (crc32c (packPixels b hist)) ++ body }
    else k.raw

/-- A block header read back: kind, format, flags, body length, pixels, predictor, bound, CRC. -/
structure BlockHead where
  kind : Nat
  fmt : Nat
  flags : Nat
  len : Nat
  npix : Nat
  pred : Nat
  bound : Nat
  crc : Nat
deriving DecidableEq, Repr

/-- A header is valid only if every field holds a listed value, HCRC matches and BODYLEN fits the type (R270). -/
def parseHead (h : List Byte) : Option BlockHead :=
  let kind := byteAt h 0
  let fmt := byteAt h 1
  let param := byteAt h 8
  let bound := bits param 3 1
  let npix := fieldLE h 6 2
  let len := fieldLE h 4 2
  let full := packedLen fmt npix
  let ok : Bool := h.length = 16 && 1 ≤ kind && kind ≤ 3 && (fmt = 0x0A || fmt = 0x0C || fmt = 0x10)
    && (byteAt h 2 < 48 || byteAt h 2 = 0xFF) && byteAt h 3 < 32 && 1 ≤ npix && npix ≤ pMax fmt && param < 16
    && (if kind = 3 then bound ≠ 0 else bound = 0) && crc8 (h.take 9 ++ h.drop 10) = byteAt h 9
    && (if kind = 1 then len = full else 1 ≤ len && len < full)
  if ok then
    some { kind := kind, fmt := fmt, flags := byteAt h 3, len := len, npix := npix, pred := param % 2, bound := bound,
           crc := fieldLE h 12 4 }
  else none

/-- The pixels a block's body gives; none where the decoder runs out of bits: an invalid block (R271). -/
def BlockHead.decode (k : BlockHead) (body : List Byte) : Option (List Nat) :=
  if k.kind = 1 then some (unpackPixels (bitsOf k.fmt) k.npix body)
  else decodeBody k.kind k.bound k.pred (bitsOf k.fmt) k.npix body

/-- The shadow decoder's checks of a CODED or BOUNDED block (R274): header, pixels, bound, CRC. -/
def Block.verify (k : Block) : Bool :=
  match parseHead (k.bytes.take 16) with
  | some h => match h.decode (k.bytes.drop 16) with
    | some xs =>
      xs = k.hist && crc32c (packPixels (bitsOf k.fmt) xs) = h.crc
        && (if k.kind = 3 then
              (k.pixels.zip xs).all (fun c => decide (((c.1 : Int) - c.2).natAbs ≤ k.bound)) else xs = k.pixels)
    | none => false
  | none => false

/-- What the walk over the blocks of a byte string finds. -/
structure Walk where
  pixels : List (List Nat) := []
  heads : List BlockHead := []
  ncrc : Nat := 0
  firstBad : Option Nat := none
  cut : Bool := false
  /-- the blocks kept that failed their CRC: number and offset -/
  bads : List (Nat × Nat) := []
  /-- the valid header of the block that ended the walk -/
  next : Option BlockHead := none
deriving DecidableEq, Repr

/-- Blocks walked from offset o on until the bytes are consumed (R281, R229, R279): a CRC failure is counted and the block
kept; an invalid header or block ends the walk. `same` demands the first block's FMT (R282). -/
def walkBlocks (same : Bool) : Nat → Nat → List Byte → Walk → Walk
  | 0, _, _, w => w
  | fuel + 1, o, bs, w =>
    if bs.isEmpty then w
    else
      let stop : Walk := { w with cut := true, firstBad := w.firstBad.or (some o) }
      match parseHead (bs.take 16) with
      | none => stop
      | some h =>
        if same && (match w.heads.head? with | some f => f.fmt ≠ h.fmt | none => false) then stop
        else if bs.length < 16 + h.len then { stop with next := some h }
        else match h.decode ((bs.drop 16).take h.len) with
          | none => { stop with next := some h }
          | some xs =>
            let bad : Bool := crc32c (packPixels (bitsOf h.fmt) xs) ≠ h.crc
            walkBlocks same fuel (o + 16 + h.len) (bs.drop (16 + h.len))
              { w with pixels := w.pixels ++ [xs], heads := w.heads ++ [h], ncrc := w.ncrc + b2n bad,
                       firstBad := if bad then w.firstBad.or (some o) else w.firstBad,
                       bads := if bad then w.bads ++ [(w.heads.length, o)] else w.bads }

/-- The walk over a whole byte string. -/
def walk (same : Bool) (bs : List Byte) : Walk := walkBlocks same bs.length 0 bs {}

end Sys2Proof.Machine
end

