-- ==== Sys2Proof/Machine/Mem.lean ====
section
/-!
DEFINITION. A sparse map: pairs of a key and a value in one canonical form, keys strictly rising and no entry equal to
what an unlisted key reads as. Memories (byte by byte) and the register file (word by word) are held in it.
-/

namespace Sys2Proof.Machine

/-- What key k reads as in the map m, where an unlisted key reads as d. -/
def sget {β : Type} (d : β) : List (Nat × β) → Nat → β
  | [], _ => d
  | (k', v) :: m, k => if k = k' then v else sget d m k

/-- The map m, which lists no key k, with k written to v: what an unlisted key reads as is not listed. -/
def sins {β : Type} [DecidableEq β] (d : β) : List (Nat × β) → Nat → β → List (Nat × β)
  | [], k, v => if v = d then [] else [(k, v)]
  | (k', v') :: m, k, v =>
    if k < k' then (if v = d then (k', v') :: m else (k, v) :: (k', v') :: m)
    else (k', v') :: sins d m k v

/-- The map m with key k written to v; writing what an unlisted key reads as removes the entry. -/
def sput {β : Type} [DecidableEq β] (d : β) (m : List (Nat × β)) (k : Nat) (v : β) : List (Nat × β) :=
  sins d (m.filter (fun c => !(c.1 == k))) k v

/-- Every key of the map is above b, keys rise strictly, and no entry is redundant. -/
def swfFrom {β : Type} [DecidableEq β] (d : β) : Nat → List (Nat × β) → Bool
  | _, [] => true
  | b, (k, v) :: m => decide (b ≤ k) && decide (v ≠ d) && swfFrom d (k + 1) m

/-- The canonical form of a sparse map. -/
def swf {β : Type} [DecidableEq β] (d : β) (m : List (Nat × β)) : Bool := swfFrom d 0 m

/-- A memory: addressed bytes in the canonical form; an unlisted address reads as 0 (DESIGN CHOICE, see the log). -/
abbrev Memory := List (Nat × Byte)

/-- One byte of a memory. [DESIGN CHOICE, log entry 10] -/
def Memory.get (m : Memory) (a : Nat) : Byte := sget 0 m a

/-- The memory with one byte written. [DESIGN CHOICE, log entry 10] -/
def Memory.set (m : Memory) (a : Nat) (v : Byte) : Memory := sput 0 m a v

/-- The memory is in its canonical form. -/
def Memory.wf (m : Memory) : Bool := swf (0 : Byte) m

/-- n bytes of a memory from address a on. -/
def Memory.read (m : Memory) (a : Nat) : Nat → List Byte
  | 0 => []
  | n + 1 => m.get a :: Memory.read m (a + 1) n

/-- The memory with the given bytes written from address a on. -/
def Memory.write (m : Memory) (a : Nat) : List Byte → Memory
  | [] => m
  | b :: bs => Memory.write (m.set a b) (a + 1) bs

/-- The little-endian number of k bytes at address a. -/
def Memory.readLE (m : Memory) (a k : Nat) : Nat := fromLE (m.read a k)

/-- The memory with the k low bytes of v written little-endian at address a. -/
def Memory.writeLE (m : Memory) (a k v : Nat) : Memory := m.write a (leBytes k v)

/-- The memory with every byte of [a, a + n) reading as 0. -/
def Memory.clear (m : Memory) (a n : Nat) : Memory := m.filter (fun c => !(decide (a ≤ c.1) && decide (c.1 < a + n)))

end Sys2Proof.Machine
end

