-- ==== Sys2Proof/Machine/Regs.lean ====
section
/-!
DEFINITION. The register map of BAR0 (chapter 17): for every register its reset value, the masks of its access codes (R9)
and the function whose state governs its ST fields (R457). A register that is computed from the structured state, and one
whose write only commands something, has no writable mask here; Machine/Bus.lean reads and commands those.
-/

namespace Sys2Proof.Machine

/-- A register as its home chapter lays it out: offset in its block, reset value, and the bits that are RW, ST, W1C and RC.
Every other bit is RO, WO or reserved. -/
structure RegSpec where
  off : Nat
  rst : Nat := 0
  rw : Nat := 0
  st : Nat := 0
  w1c : Nat := 0
  rc : Nat := 0
deriving DecidableEq, Repr

/-- All 32 bits. -/
def all32 : Nat := 0xFFFFFFFF

/-- An RC counter at an offset. -/
def rcAt (o : Nat) : RegSpec := { off := o, rc := all32 }

/-- An ST register of the given mask. -/
def stAt (o m : Nat) (r : Nat := 0) : RegSpec := { off := o, st := m, rst := r }

/-- An RW register of the given mask. -/
def rwAt (o m : Nat) (r : Nat := 0) : RegSpec := { off := o, rw := m, rst := r }

/-- n registers at a stride, laid out alike. -/
def repeatAt (n stride : Nat) (r : RegSpec) : List RegSpec := (upTo n).map (fun i => { r with off := r.off + i * stride })

/-- The GLB block (R36–R45). -/
def glbRegs : List RegSpec :=
  [{ off := 0x020, rst := 0x00FF0000, w1c := 0xF0000000 }, stAt 0x050 0x100]

/-- The SUP block (R419): the request words of the accessing port stand in the state of its mailbox. -/
def supRegs : List RegSpec := []

/-- The TB block (R316, R317). -/
def tbRegs : List RegSpec :=
  [{ off := 0x000, st := 0xC0FFFFFF, rw := 0x30000000, rst := 1000 }, { off := 0x004, w1c := 0x08000000 },
   { off := 0x010, rst := 0x80000000 }, { off := 0x014, rst := 2 }, stAt 0x040 all32, stAt 0x044 all32,
   rwAt 0x050 all32, rwAt 0x054 all32, stAt 0x084 0x3FFF 2] ++ repeatAt 5 4 (rcAt 0x100)

/-- A sync port (R337). -/
def ptpPort (o : Nat) : List RegSpec :=
  [stAt o 0xFFC00FFF 0x01C00000, stAt (o + 0x04) 0xFFFF0000 0xC0C30000, stAt (o + 0x08) all32] ++ repeatAt 7 4 (rcAt (o + 0x40))

/-- The PTP block (R336, R337). -/
def ptpRegs : List RegSpec :=
  [stAt 0x00 0xFC0000FF, stAt 0x04 0xFFFFFF00 0x8080F800, stAt 0x08 0xFFFF0000 0x640000, stAt 0x0C all32] ++ ptpPort 0x100
    ++ ptpPort 0x200

/-- One TDC channel (R318); n is its interpolator after reset. -/
def tdcChannel (n : Nat) : List RegSpec :=
  [stAt (0x20 * n) 0xFC0003FF, stAt (0x20 * n + 4) all32, { off := 0x20 * n + 8, w1c := 0x40000000, rst := n * 0x100 }]
    ++ repeatAt 3 4 (rcAt (0x20 * n + 0xC))

/-- One TDC unit (R319). -/
def tdcUnit (u : Nat) : List RegSpec :=
  [stAt (0x400 + 0x40 * u) 0xF8FFFF1F 0x0000110A, stAt (0x404 + 0x40 * u) 0xFFFFFF 400]
    ++ repeatAt 4 4 (rcAt (0x42C + 0x40 * u))

/-- The TDC block (R318, R319). -/
def tdcRegs : List RegSpec :=
  (upTo 16).flatMap tdcChannel ++ repeatAt 6 4 (stAt 0x200 all32)
    ++ (upTo 6).map (fun i => { off := 0x308 + 0x20 * i, w1c := 0x40000000, rst := (16 + i) * 0x100 })
    ++ (upTo 8).flatMap tdcUnit ++ [{ off := 0x600, rst := 22 * 0x1000000 }]

/-- The TRG block (R264–R266). -/
def trgRegs : List RegSpec :=
  [{ off := 0x020, w1c := 0x808 }, { off := 0x024, w1c := 0x1FF0000 }] ++ repeatAt 14 4 (rcAt 0x100)

/-- The HRT block (R234–R236); the HRT_SEG registers stand in the state of the selected segment. -/
def hrtRegs : List RegSpec :=
  [stAt 0x000 0xFFFF 1000, rwAt 0x010 0x3F, rwAt 0x03C 0x3F] ++ repeatAt 7 4 (rcAt 0x100)

/-- The MEM block (R237). -/
def memRegs : List RegSpec := repeatAt 64 4 (rcAt 0x200) ++ repeatAt 64 4 (rcAt 0x300)

/-- One compressor (R286, R287). -/
def cmpRegs : List RegSpec :=
  repeatAt 4 4 (stAt 0x00 0x3F 0x9) ++ [stAt 0x10 0xFFFF 16] ++ repeatAt 8 4 (rcAt 0x40)

/-- The offload job unit (R288), from 0x1000 on. -/
def jobRegs : List RegSpec := repeatAt 16 4 (rwAt 0x1000 all32) ++ [{ off := 0x1044, w1c := 0x40000000 }]

/-- A receive lane (R81–R86); even lanes have PAIRED, COMPAT and DESKEW_WIN. -/
def laneRegs (even : Bool) : List RegSpec :=
  [(if even then stAt 0x00 0xFFF00FFF 0x14000040 else stAt 0x00 0xCFF00000 0x04000000),
   { off := 0x08, rst := 4 * 2 ^ 22 }, stAt 0x14 all32] ++ repeatAt 7 4 (rcAt 0x30) ++ [stAt 0x50 0xF8000000, rcAt 0x58]

/-- A command lane (R87). -/
def cmdRegs : List RegSpec :=
  [stAt 0x00 0xC7000000 0x01000000, rwAt 0x0C 0x8000FFFF, rwAt 0x10 all32, stAt 0x50 0xF8000000, rcAt 0x58]

/-- An ingest queue (R110–R113). -/
def queueRegs : List RegSpec := [stAt 0x00 0x1F1FFF 0x181064] ++ repeatAt 7 4 (rcAt 0x10)

/-- The Bellows registers of a sector (R114), from 0x1400 on. -/
def bellowsRegs : List RegSpec := [rwAt 0x1400 0x20000000, rcAt 0x1404, rcAt 0x1408]

/-- An engine (R155–R158). -/
def engineRegs : List RegSpec := [{ off := 0x14, rc := 0xFFFFF }] ++ repeatAt 8 4 (rcAt 0x20)

/-- The PAIR block (R397, R398). -/
def pairRegs : List RegSpec :=
  [stAt 0x00 all32 (0xC0000000 + 20 * 2 ^ 20 + 15 * 2 ^ 12 + 60), stAt 0x04 all32 (10 * 2 ^ 20 + 100 * 2 ^ 10 + 100),
   { off := 0x10, w1c := 0x8000 }, stAt 0x20 all32, stAt 0x24 all32]
    ++ repeatAt 8 4 { off := 0x40, rst := 4 * 2 ^ 22 } ++ repeatAt 7 4 (rcAt 0x100)

/-- A DMA queue (R419). -/
def dmaRegs (o : Nat) : List RegSpec :=
  repeatAt 4 4 (stAt o all32) ++ [stAt (o + 0x10) 0x803F000F 0x30000, rwAt (o + 0x14) 0xFFF, rwAt (o + 0x1C) all32,
    { off := o + 0x20, w1c := 0x40000000 }]

/-- The HST block (R419, R420). -/
def hstRegs : List RegSpec :=
  [rwAt 0x10 0x3FF, stAt 0x20 all32, stAt 0x24 all32, stAt 0x28 0x801F3FFE 0x40000, rwAt 0x30 all32, stAt 0x40 all32,
   stAt 0x44 all32, { off := 0x48, st := 0x401F0000, rw := 0x800003FF, rst := 0x60000 }, rwAt 0x50 all32]
    ++ repeatAt 4 4 (rcAt 0x100) ++ (upTo 16).flatMap (fun q => dmaRegs (0x400 + 0x40 * q))

/-- One output (R373). -/
def aouRegs (k : Nat) : List RegSpec :=
  let o := 0x800 + 0x20 * k
  [rwAt o 0xFFFF, { off := o + 4, w1c := 0x08000000, rst := 0x10000000 }, rcAt (o + 0xC), rcAt (o + 0x10), rcAt (o + 0x14)]

/-- The AUX window (R370–R373), with the auxiliary queue (R109). -/
def auxRegs : List RegSpec :=
  let exc := 0x87FFFFFF
  [rwAt 0x020 exc (200 * 2 ^ 18 + 50000), rwAt 0x024 exc (200 * 2 ^ 18 + 50000), rwAt 0x050 0x3F]
    ++ repeatAt 8 4 (rcAt 0x100) ++ (upTo 8).flatMap aouRegs
    ++ queueRegs.map (fun r => { r with off := r.off + 0xF00 })

/-- The BGS, TEL and PWR block (R456). -/
def bgsRegs : List RegSpec :=
  [stAt 0x000 0xFF000000 (40 * 2 ^ 24), { off := 0x048, w1c := 0xFF }]
    ++ repeatAt 51 4 (rwAt 0x100 0xC0FF0000 0xC00A0000) ++ repeatAt 51 4 (rcAt 0x200)

/-- The NVS and UPD block (R443). -/
def nvsRegs : List RegSpec := [{ off := 0x100, w1c := 0x01000000 }, rwAt 0x104 0xC001FFFF]

/-- The DBG block (R443). -/
def dbgRegs : List RegSpec := []

/-- The register of a table at an offset; an offset that no register occupies reads zero and ignores writes (R12). -/
def specAt (t : List RegSpec) (o : Nat) : RegSpec := (t.find? (fun r => r.off = o)).getD { off := o }

/-- The sector window (chapter 17): receive lanes, command lanes, LN_TXGRP, queues, Bellows, engines. -/
def sectorSpec (o : Nat) : Nat × RegSpec :=
  if o < 0x800 then (0, specAt (laneRegs (o / 0x100 % 2 = 0)) (o % 0x100))
  else if o < 0xC00 then (0, specAt cmdRegs (o % 0x100))
  else if o = 0xC00 then (0, stAt o 0x80001FFF)
  else if o < 0x1000 then (14, { off := o })
  else if o < 0x1200 then (1, specAt queueRegs (o % 0x40))
  else if o < 0x1400 then (14, { off := o })
  else if o < 0x1500 then (1, specAt bellowsRegs o)
  else if 0x2000 ≤ o ∧ o < 0x2200 then (2, specAt engineRegs (o % 0x40))
  else (14, { off := o })

end Sys2Proof.Machine
end

