-- ==== Sys2Proof/Machine/RegMap.lean ====
section
/-!
DEFINITION. BAR0 decoded (R457, R458): the register at an address, the function that governs its ST fields, and whether the
unit it belongs to is present on a part (R2).
-/

namespace Sys2Proof.Machine

/-- The register at a BAR0 address with the function number that governs its ST fields (R457); 14 where none does. -/
def specAndFn (a : Nat) : Nat × RegSpec :=
  let o20 := a % 0x100000
  if a < 0x100000 then (9, specAt glbRegs a)
  else if a < 0x200000 then (14, specAt supRegs o20)
  else if a < 0x280000 then (6, specAt tbRegs o20)
  else if a < 0x300000 then (8, specAt ptpRegs (a - 0x280000))
  else if a < 0x400000 then (7, specAt tdcRegs o20)
  else if a < 0x500000 then (14, specAt trgRegs o20)
  else if a < 0x580000 then (3, specAt hrtRegs o20)
  else if a < 0x600000 then (14, specAt memRegs (a - 0x580000))
  else if a < 0x601000 then (5, specAt cmpRegs (a % 0x100))
  else if a < 0x700000 then (5, specAt jobRegs o20)
  else if a < 0x780000 then (9, specAt auxRegs o20)
  else if a < 0x800000 then (11, specAt pairRegs (a - 0x780000))
  else if a < 0x900000 then (12, specAt hstRegs o20)
  else if a < 0xA00000 then (14, specAt nvsRegs o20)
  else if a < 0xB00000 then (13, specAt bgsRegs o20)
  else if a < 0xC00000 then (14, specAt dbgRegs o20)
  else if 0x1000000 ≤ a ∧ a < 0x1C00000 then sectorSpec o20
  else (14, { off := a })

/-- The register at a BAR0 address. [DEDUCED, log entry 11] -/
def specOf (a : Nat) : RegSpec := (specAndFn a).2

/-- Power domain n serves a unit that is present (R452). -/
def domainPresent (sectors channels : Nat) (field mirror : Bool) (usb n : Nat) : Bool :=
  if n < 36 then decide (n % 12 < sectors)
  else if n < 44 then decide ((n - 36) * 8 < channels)
  else if n < 46 then decide (n - 44 < usb)
  else if n = 46 then mirror
  else if n = 47 then true
  else field && decide (n ≤ 50)

/-- The unit of a BAR0 address is present on a part with so many sectors and channels, a field die or none, a mirror port
or none, so many USB4 and Ethernet ports (R1, R2). [DEDUCED, log entry 13] -/
def addrPresent (sectors channels : Nat) (field mirror : Bool) (usb eth : Nat) (a : Nat) : Bool :=
  if a < 0x280000 then (field || !(a = 0x050 || a = 0x148 || a = 0x14C || a = 0x150 || a = 0x154))
    && (mirror || !(a = 0x158 || a = 0x15C))
  else if a < 0x300000 then decide (a < 0x280100 + 0x100 * eth)
  else if a < 0x580000 then true
  else if a < 0x600000 then
    let o := a - 0x580000
    if o < 0x100 then true else decide ((o % 0x100) / 4 < channels)
  else if a < 0x601000 then decide ((a - 0x600000) / 0x100 < sectors)
  else if a < 0x700000 then true
  else if a < 0x780000 then field
  else if a < 0x800000 then mirror
  else if a < 0x900000 then true
  else if 0xA00100 ≤ a ∧ a < 0xA002CC then domainPresent sectors channels field mirror usb ((a % 0x100) / 4)
  else if a < 0x1000000 then true
  else if a < 0x2000000 then decide ((a - 0x1000000) / 0x100000 < sectors)
  else decide ((a - 0x2000000) / 0x40000 < 8 * sectors)

end Sys2Proof.Machine
end

