-- ==== Sys2Proof/Machine/Ops.lean ====
section
/-!
DEFINITION. The operations every command is built from: the register file and its counters, the states of the functions,
what leaves the device, the stamps of events and their way to the event log.
-/

namespace Sys2Proof

/-- The number of a function (R29). -/
def Fn.num : Fn → Nat
  | .lnk => 0 | .ing => 1 | .anv => 2 | .hrt => 3 | .trg => 4 | .cmp => 5 | .tb => 6 | .tdc => 7 | .ptp => 8 | .aux => 9
  | .aou => 10 | .pair => 11 | .hst => 12 | .bgs => 13

end Sys2Proof

namespace Sys2Proof.Machine

/-! ### Functions and parts (R1, R29, R30) -/

/-- The function a number names; 14 and 15 name none (R43). -/
def fnOf : Nat → Option Fn
  | 0 => some .lnk | 1 => some .ing | 2 => some .anv | 3 => some .hrt | 4 => some .trg | 5 => some .cmp | 6 => some .tb
  | 7 => some .tdc | 8 => some .ptp | 9 => some .aux | 10 => some .aou | 11 => some .pair | 12 => some .hst | 13 => some .bgs
  | _ => none

/-- Every function, in the order of R29. -/
def allFns : List Fn := [.lnk, .ing, .anv, .hrt, .trg, .cmp, .tb, .tdc, .ptp, .aux, .aou, .pair, .hst, .bgs]

/-- The code of a function state (R30). -/
def FnState.code : FnState → Nat
  | .absent => 0 | .off => 1 | .stopped => 2 | .starting => 3 | .running => 4 | .stopping => 5 | .fault => 6

/-- The sectors present on a part (R1). -/
def Part.sectors : Part → Nat
  | .p7196 => 12 | .p7148 => 6 | .p7124 => 3

/-- The memory channels a part supports (R1). -/
def Part.channels : Part → Nat
  | .p7196 => 64 | .p7148 => 32 | .p7124 => 16

/-- The part number in GLB_ID (R36). -/
def Part.number : Part → Nat
  | .p7196 => 0x7196 | .p7148 => 0x7148 | .p7124 => 0x7124

/-- GLB_CAP0 of a part (R37). -/
def Part.cap0 : Part → Nat
  | .p7196 => 0x003F0FFF | .p7148 => 0x003B003F | .p7124 => 0x00000007

/-- The part has a field die (R1). -/
def Part.field (p : Part) : Bool := p != .p7124

/-- The part has the mirror port (R1). -/
def Part.mirror (p : Part) : Bool := p != .p7124

/-- The USB4 ports of a part (R1). -/
def Part.usbPorts : Part → Nat
  | .p7196 => 2 | _ => 1

/-- The Ethernet sync ports of a part (R1). -/
def Part.ethPorts : Part → Nat
  | .p7124 => 1 | _ => 2

/-- The part has bounded-error compression (R1). -/
def Part.bounded (p : Part) : Bool := p != .p7124

/-! ### One part of the state replaced -/

def State.putOut (s : State) (x : List Out) : State := { s with out := x }
def State.putFreeUse (s : State) (x : Nat) : State := { s with freeUse := x }
def State.putFns (s : State) (x : Vector FnInfo 14) : State := { s with fns := x }
def State.putRegs (s : State) (x : List (Nat × Word)) : State := { s with regs := x }
def State.putTb (s : State) (x : TbState) : State := { s with tb := x }
def State.putRx (s : State) (x : Vector RxLane 96) : State := { s with rx := x }
def State.putTiles (s : State) (x : Vector TileRx 48) : State := { s with tiles := x }
def State.putCmd (s : State) (x : Vector CmdLane 48) : State := { s with cmd := x }
def State.putMirLanes (s : State) (x : Vector RxLane 8) : State := { s with mirLanes := x }
def State.putOrder (s : State) (x : Vector TileOrder 48) : State := { s with order := x }
def State.putQueues (s : State) (x : Vector Queue 97) : State := { s with queues := x }
def State.putBellows (s : State) (x : Vector Bellows 12) : State := { s with bellows := x }
def State.putEngines (s : State) (x : Vector Engine 96) : State := { s with engines := x }
def State.putCores (s : State) (x : Vector Core 4) : State := { s with cores := x }
def State.putPostRecs (s : State) (x : List PostRec) : State := { s with postRecs := x }
def State.putPostSeq (s : State) (x : Nat) : State := { s with postSeq := x }
def State.putSlots (s : State) (x : Vector (Option (Word × Stamp)) 8) : State := { s with slots := x }
def State.putTdc (s : State) (x : TdcState) : State := { s with tdc := x }
def State.putBgs (s : State) (x : BgsState) : State := { s with bgs := x }
def State.putField (s : State) (x : FieldState) : State := { s with field := x }
def State.putHearth (s : State) (x : Hearth) : State := { s with hearth := x }
def State.putMem (s : State) (x : Memory) : State := { s with hearth := { s.hearth with mem := x } }
def State.putTrig (s : State) (x : Trig) : State := { s with trig := x }
def State.putStaging (s : State) (x : Vector (List Fragment) 96) : State := { s with staging := x }
def State.putComps (s : State) (x : Vector Compressor 12) : State := { s with comps := x }
def State.putJobs (s : State) (x : JobUnit) : State := { s with jobs := x }
def State.putPair (s : State) (x : PairState) : State := { s with pair := x }
def State.putHost (s : State) (x : HostState) : State := { s with host := x }
def State.putPtp (s : State) (x : PtpState) : State := { s with ptp := x }
def State.putNvs (s : State) (x : Nvs) : State := { s with nvs := x }
def State.putSys (s : State) (x : SysState) : State := { s with sys := x }
def State.putTap (s : State) (x : Tap) : State := { s with tap := x }
def State.putKept (s : State) (x : Option (List Byte)) : State := { s with kept := x }
def State.putKeptBad (s : State) (x : Bool) : State := { s with keptBad := x }

/-! ### Functions and registers -/

/-- What is held of a function. -/
def State.fn (s : State) (f : Fn) : FnInfo := (s.fns[f.num]?).getD {}

/-- The part lacks the function (R1, R2): the field die's inputs and outputs, the pairing. -/
def Part.lacks (p : Part) : Fn → Bool
  | .aux | .aou => !p.field
  | .pair => !p.mirror
  | _ => false

/-- The state of a function; one that the part lacks is ABSENT (R2, R30). -/
def State.fnState (s : State) (f : Fn) : FnState := if s.part.lacks f then .absent else (s.fn f).state

/-- The machine with a function's record changed; a function in ABSENT stays there (R30). -/
def State.onFn (s : State) (f : Fn) (g : FnInfo → FnInfo) : State :=
  let i := s.fn f
  let j := g i
  s.putFns (s.fns.setIfInBounds f.num { j with state := if i.state = .absent then .absent else j.state })

/-- The machine with a function in a state. -/
def State.setFn (s : State) (f : Fn) (x : FnState) : State := s.onFn f (fun i => { i with state := x })

/-- The machine with a function in FAULT for a cause (R30, R45). [DEDUCED, log entry 14] -/
def State.faultFn (s : State) (f : Fn) (code : Nat) : State :=
  s.onFn f (fun i => { i with state := .fault, faultCode := code })

/-- The function is RUNNING. -/
def State.runs (s : State) (f : Fn) : Bool := s.fnState f = .running

/-- The function is STOPPED or OFF, so that its ST fields may change (R9). An absent function holds no field. -/
def State.idle (s : State) (f : Fn) : Bool :=
  match s.fnState f with
  | .stopped | .off => true
  | _ => false

/-! ### Status codes (R35) -/

def stDONE : Nat := 0x00
def stREFUSED : Nat := 0x01
def stBADARG : Nat := 0x02
def stABSENT : Nat := 0x03
def stNOSPACE : Nat := 0x04
def stVERIFY : Nat := 0x05
def stCHECK : Nat := 0x06
def stSIGN : Nat := 0x07
def stTIMEOUT : Nat := 0x08
def stNOTHOLDER : Nat := 0x09
def stPACE : Nat := 0x0A
def stWEAR : Nat := 0x0B
def stABORTED : Nat := 0x0C
def stINTERNAL : Nat := 0xFF

/-! ### The register file -/

/-- The unit that a BAR0 address belongs to is present on the part (R2). -/
def State.present (s : State) (a : Nat) : Bool := addrPresent s.part.sectors s.part.channels s.part.field s.part.mirror
  s.part.usbPorts s.part.ethPorts a

/-- What a register reads before anything is written to it. [DEDUCED, log entry 11] -/
def State.rst (s : State) (a : Nat) : Word := if s.present a then BitVec.ofNat 32 (specOf a).rst else 0

/-- The stored value of a register. [DEDUCED, log entry 11] -/
def State.reg (s : State) (a : Nat) : Nat := (sget (s.rst a) s.regs a).toNat

/-- The machine with a register holding a value. [DEDUCED, log entry 11] -/
def State.setReg (s : State) (a v : Nat) : State := s.putRegs (sput (s.rst a) s.regs a (BitVec.ofNat 32 v))

/-- Bits [hi:lo] of a register. -/
def State.fld (s : State) (a hi lo : Nat) : Nat := bits (s.reg a) hi lo

/-- One bit of a register. -/
def State.bit (s : State) (a i : Nat) : Bool := bitOf (s.reg a) i

/-- The machine with bits [hi:lo] of a register replaced. -/
def State.setFld (s : State) (a hi lo v : Nat) : State := s.setReg a (putBits (s.reg a) hi lo v)

/-- The machine with one bit of a register set or cleared. -/
def State.setBit (s : State) (a i : Nat) (b : Bool) : State := s.setFld a i i (b2n b)

/-- A 32-bit counter increased by n, saturating (R85, R113 and their like); an absent unit counts nothing. -/
def State.count (s : State) (a : Nat) (n : Nat := 1) : State :=
  if s.present a then s.setReg a (min (s.reg a + n) 0xFFFFFFFF) else s

/-! ### Answers -/

/-- What a command answers. -/
abbrev Answer := Host.Outcome State Fault Refusal

/-- The answer of a command whose effect leaves the machine at t: the next state, with the queue of s untouched (a command acts
on everything but the queue). [DESIGN CHOICE, log entry 1] -/
def State.answer (s t : State) : Answer := .next { t with pending := s.pending }

/-! ### What leaves the device -/

/-- The machine with one more thing sent. [DESIGN CHOICE, log entry 8] -/
def State.emit (s : State) (o : Out) : State := s.putOut (o :: s.out)

/-! ### Updating one of many units -/

def State.onRx (s : State) (l : Nat) (g : RxLane → RxLane) : State :=
  s.putRx (s.rx.setIfInBounds l (g ((s.rx[l]?).getD {})))
def State.rxAt (s : State) (l : Nat) : RxLane := (s.rx[l]?).getD {}
def State.onTile (s : State) (f : Nat) (g : TileRx → TileRx) : State :=
  s.putTiles (s.tiles.setIfInBounds f (g ((s.tiles[f]?).getD {})))
def State.tileAt (s : State) (f : Nat) : TileRx := (s.tiles[f]?).getD {}
def State.onCmd (s : State) (f : Nat) (g : CmdLane → CmdLane) : State :=
  s.putCmd (s.cmd.setIfInBounds f (g ((s.cmd[f]?).getD {})))
def State.cmdAt (s : State) (f : Nat) : CmdLane := (s.cmd[f]?).getD {}
def State.queueAt (s : State) (q : Nat) : Queue := (s.queues[q]?).getD {}
def State.onQueue (s : State) (q : Nat) (g : Queue → Queue) : State :=
  s.putQueues (s.queues.setIfInBounds q (g (s.queueAt q)))
def State.bellowsAt (s : State) (i : Nat) : Bellows := (s.bellows[i]?).getD {}
def State.onBellows (s : State) (i : Nat) (g : Bellows → Bellows) : State :=
  s.putBellows (s.bellows.setIfInBounds i (g (s.bellowsAt i)))
def State.engineAt (s : State) (e : Nat) : Engine := (s.engines[e]?).getD {}
def State.onEngine (s : State) (e : Nat) (g : Engine → Engine) : State :=
  s.putEngines (s.engines.setIfInBounds e (g (s.engineAt e)))
def State.coreAt (s : State) (c : Nat) : Core := (s.cores[c]?).getD {}
def State.onCore (s : State) (c : Nat) (g : Core → Core) : State :=
  s.putCores (s.cores.setIfInBounds c (g (s.coreAt c)))

/-- A fold of state changes over a list. -/
def State.each {α : Type} (s : State) (xs : List α) (g : State → α → State) : State := xs.foldl g s

/-! ### Free values -/

/-- The machine with one more free value used; the value itself is an opaque function of the count before. [DESIGN CHOICE, log entry 9] -/
def State.useFree (s : State) : State := s.putFreeUse (s.freeUse + 1)

/-! ### Addresses of registers -/

def TB : Nat := 0x00200000
def aGlbErr : Nat := 0x020
def aGlbDie : Nat := 0x050
def aTbCfg : Nat := TB
def aTbStat : Nat := TB + 4
def aTbInc : Nat := TB + 0x10

/-! ### Time -/

/-- Units of 2^-16 ns in one nanosecond. -/
def NS : Nat := 65536

/-- A stamp keeps 80 bits (R292). -/
def stampMod : Nat := 2 ^ 80

/-- The raw counter as a stamp, by truncation (R292). -/
def State.rawNow (s : State) : Stamp := s.tb.counter / 65536 % stampMod

/-- TB_STAT.SYNC (R293). -/
def State.sync (s : State) : Nat := s.fld aTbStat 31 29

/-- Stamps are translated (R297): on a follower, and on a member that was one until a step, since nothing but a step moves the counter
(R293). -/
def State.translates (s : State) : Bool := s.sync = 4 || s.tb.transl

/-- The translation of a follower's raw stamp to the holder's time (R297). [DEDUCED, log entry 12] -/
def State.translate (s : State) (t : Stamp) : Stamp :=
  if s.translates then
    let ofs : Int := sx 64 (s.reg (TB + 0x60) + 2 ^ 32 * s.reg (TB + 0x64))
    let rate : Int := sx 32 (s.reg (TB + 0x68))
    let tref : Int := (s.reg (TB + 0x6C) + 2 ^ 32 * s.reg (TB + 0x70) : Nat)
    (((t : Int) + ofs + ((t : Int) - tref * 65536) * rate / (2 ^ 40 : Int)) % (stampMod : Int)).toNat
  else t

/-- A computed stamp, modulo 2^80 (R292); one below 0 is a free value. [DEDUCED, log entry 12] -/
def stampInt (z : Int) : Stamp := (if z < 0 then Config.stampBelow z.natAbs else z.toNat) % stampMod

/-- The corrected stamp of an event (R298): translated, truncated to the resolution r, less the skew constant. [DEDUCED, log entry 12] -/
def State.stampOf (s : State) (raw : Stamp) (r : Nat) (skew : Int) : Stamp :=
  let t := s.translate raw
  stampInt (((t - t % r : Nat) : Int) - skew)

/-- The resolution of 2.5 ns (R298). -/
def res25 : Nat := 163840

/-- The resolution of 312.5 ps (R298). -/
def res312 : Nat := 20480

/-- The stamp of an event that happens now, at the resolution of the classes 1, 11, 12 and 13. -/
def State.now (s : State) : Stamp := s.stampOf s.rawNow res25 0

/-- The time now, translated, at full resolution. -/
def State.nowFine (s : State) : Stamp := s.translate s.rawNow

/-- The epoch in force (R294). -/
def State.epoch (s : State) : Nat := s.tb.epochs % 256

/-! ### The event log's input (R28, R301) -/

/-- The TBFLAGS of an entry stamped now: HOLDOVER, FOLLOWER, FREE (R301). -/
def State.tbFlags (s : State) : Nat :=
  (if s.sync = 3 then 1 else 0) + (if s.translates then 2 else 0) + (if s.tb.everLocked then 0 else 4)

/-- What goes with a stamp taken now (R28, R301). -/
def State.stampMark (s : State) : StampMark := { epoch := s.tb.epochs, flags := s.tbFlags }

/-- The log window a stamp falls in (R28). -/
def windowOf (t : Stamp) : Nat := t / (1000 * NS)

/-- The window (epoch, number) of an event has closed. -/
def State.windowClosed (s : State) (epoch : Nat) (t : Stamp) : Bool :=
  epoch < s.tb.closeEpoch || (epoch = s.tb.closeEpoch && windowOf t < s.tb.closeWin)

/-- An event stamped t, with what goes with its stamp, reaches the ordering (R28): it waits for its window, or is late. While TB is
OFF there is no log (R314). -/
def State.logMarked (s : State) (t : Stamp) (m : StampMark) (cls idx code : Nat) (fields : List (Nat × Nat × Nat)) : State :=
  if s.fnState .tb = .off then s
  else
    let e : LogPend :=
      { stamp := t, epoch := m.epoch, cls := cls, idx := idx % 65536, code := code % 256, flags := m.flags,
        late := s.windowClosed m.epoch t, data := pack 12 (fields.map (fun f => (f.1 - 20, f.2.1, f.2.2))) }
    s.putTb { s.tb with log := s.tb.log ++ [e] }

/-- An event that was stamped in the epoch in force reaches the ordering. -/
def State.log (s : State) (t : Stamp) (cls idx code : Nat) (fields : List (Nat × Nat × Nat)) : State :=
  s.logMarked t s.stampMark cls idx code fields

/-- An event of class 13: a decision, close, fault or alarm of a function, detected now (R302, R484). -/
def State.logDev (s : State) (f : Fn) (kind status : Nat) (fields : List (Nat × Nat × Nat)) : State :=
  s.log s.now 13 f.num (f.num * 16 + kind) ((20, 1, status) :: fields)

/-- The fields of a stamp in memory: fraction, then nanoseconds, 10 bytes little-endian (R292). -/
def stampBytes (t : Stamp) : List Byte := leBytes 10 t

/-! ### Reset (R468) -/

/-- The device is held in reset: nothing but the pins and the test access port acts. -/
def State.inReset (s : State) : Bool := s.sys.boot = .held

/-- Boot firmware runs and has set the pins (R469). -/
def State.booted (s : State) : Bool := s.sys.boot = .loading || s.sys.boot = .ready

/-! ### Schedules of the background services (R445) -/

/-- The service step of a key runs now; it is late when it ran more than two of its periods after the last one. -/
def State.ranAt (s : State) (key period : Nat) : State :=
  let slow : Bool := s.bgs.runs.any (fun r => r.1 = key && decide (r.2 + 2 * period < s.tb.ticks))
  let rest := s.bgs.late.filter (fun k => k ≠ key)
  let lates := if slow then key :: rest else rest
  s.putBgs { s.bgs with runs := sput 0 s.bgs.runs key s.tb.ticks, late := lates }

/-- Ticks of the timebase in a second (R289). -/
def ticksPerSec : Nat := 400000000

/-! ### Frame numbers -/

/-- Frame a is earlier than frame b, modulo 2^32 (R103). -/
def frameLt (a b : Nat) : Bool :=
  let d := (b + 2 ^ 32 - a % 2 ^ 32) % 2 ^ 32
  d ≠ 0 && d < 2 ^ 31

/-- The later of two frame numbers, either of which may be missing. -/
def laterFrame (a : Option Nat) (n : Nat) : Option Nat :=
  match a with
  | some m => if frameLt m n then some n else some m
  | none => some n

/-- Frame a is b or earlier. -/
def frameLe (a b : Nat) : Bool := a % 2 ^ 32 = b % 2 ^ 32 || frameLt a b

/-- Frame a + d modulo 2^32. -/
def frameAdd (a : Nat) (d : Int) : Nat := (((a : Int) + d) % (2 ^ 32 : Int)).toNat

/-- b − a modulo 2^32. -/
def frameDiff (b a : Nat) : Nat := (b + 2 ^ 32 - a % 2 ^ 32) % 2 ^ 32

/-! ### Refusals (R10, R31, R41) -/

/-- An ST write of function n was refused (R10, R41). -/
def State.refuseSt (s : State) (n : Nat) : State :=
  let s := if s.bit aGlbErr 31 then s else s.setFld aGlbErr 19 16 n
  let s := s.setBit aGlbErr 31 true
  s.setFld aGlbErr 7 0 (min (s.fld aGlbErr 7 0 + 1) 255)

/-- A command with no transition was ignored (R31, R41); n is 0xF when it named no function. -/
def State.badCmd (s : State) (n : Nat) : State :=
  let s := if s.bit aGlbErr 30 then s else s.setFld aGlbErr 23 20 n
  s.setBit aGlbErr 30 true

end Sys2Proof.Machine
end

