-- ==== Sys2Proof/Machine/HostRings.lean ====
section
/-!
DEFINITION. What the device posts to the host on its own (chapter 14): MSI-X messages (R402), the event queue (R411), the
preview ring (R412, R413).
-/

namespace Sys2Proof.Machine

def HST : Nat := 0x00800000
def aHstStat : Nat := HST
def aEqBase : Nat := HST + 0x20
def aEqCfg : Nat := HST + 0x28
def aEqTail : Nat := HST + 0x2C
def aEqHead : Nat := HST + 0x30
def aPvBase : Nat := HST + 0x40
def aPvCfg : Nat := HST + 0x48
def aPvTail : Nat := HST + 0x4C
def aPvHead : Nat := HST + 0x50

/-- A 64-bit address held in two registers. -/
def State.reg64 (s : State) (a : Nat) : Nat := s.reg a + 2 ^ 32 * s.reg (a + 4)

/-- A word of a function's MSI-X table: word w of vector v; after a reset every vector is masked (PRESUMED, PCI Express). [PRESUMED, log entry 93] -/
def State.msixWord (s : State) (port v w : Nat) : Nat :=
  (sget (if w = 3 then 1 else 0) ((s.host.msix[port]?).getD []) (4 * v + w) : Word).toNat

/-- A vector is signalled: the message is sent, or stays pending while the vector is masked. [PRESUMED, log entry 93] -/
def State.signal (s : State) (port v : Nat) : State :=
  if bitOf (s.msixWord port v 3) 0 then
    let p := (s.host.pba[port]?).getD []
    s.putHost { s.host with pba := s.host.pba.setIfInBounds port (if p.contains v then p else v :: p) }
  else s.emit (.msix port v)

/-- The event queue's entries, and the slots the host has released. -/
def State.eqSize (s : State) : Nat := 2 ^ s.fld aEqCfg 20 16
def State.eqFree (s : State) : Nat := s.eqSize - (s.reg aEqTail + 2 ^ 32 - s.reg aEqHead) % 2 ^ 32

/-- PHASE of ring position n in a ring of the given size: 1 on the first pass, inverted on each wrap (R409). -/
def ringPhase (n size : Nat) : Nat := (n / size + 1) % 2

/-- One event-queue entry is written into the next slot (R411). -/
def State.eqWrite (s : State) (type seg recno : Nat) (payload : List Byte) : State :=
  let n := s.reg aEqTail
  let size := s.eqSize
  let h := pack 16 [(0, 1, type), (1, 1, ringPhase n size), (2, 2, payload.length), (4, 4, s.host.eqSeq), (8, 1, seg), (12, 4, recno)]
  let port := s.fld aEqCfg 31 31
  let s := s.putHost { s.host with eqSeq := (s.host.eqSeq + 1) % 2 ^ 32 }
  let s := s.setReg aEqTail (n + 1)
  let s := s.emit (.hostWrite port (s.reg64 aEqBase + 128 * (n % size)) (overlay (zeros 128) 0 (h ++ payload)))
  s.signal port 0

/-- Once a slot is free, the entries that were not posted are reported first (R411). [DEDUCED, log entry 80] -/
def State.eqReportLost (s : State) : State :=
  if s.host.eqLost ≠ 0 && 0 < s.eqFree then
    let n := s.host.eqLost
    let s := s.putHost { s.host with eqLost := 0 }
    s.eqWrite 5 0 0 (leBytes 4 n)
  else s

/-- An entry is posted to the event queue, or dropped and counted (R411). Posting stops while HST is not RUNNING (R418). -/
def State.eqPost (s : State) (type seg recno : Nat) (payload : List Byte) : State :=
  if !s.runs .hst then s
  else
    let s := s.eqReportLost
    if 0 < s.eqFree && s.host.eqLost = 0 then s.eqWrite type seg recno payload
    else
      let s := s.putHost { s.host with eqSeq := (s.host.eqSeq + 1) % 2 ^ 32, eqLost := min (s.host.eqLost + 1) 0xFFFFFFFF }
      s.count (HST + 0x108)

/-- A log entry goes to the event queue if its class is selected, or it is one of PAIR's (R411). -/
def State.eqLog (s : State) (cls idx : Nat) (entry : List Byte) : State :=
  if s.bit aEqCfg cls || (cls = 13 && idx = 11) then s.eqPost 4 0 0 entry else s

/-- An entry is offered to the preview ring; the answer says whether it was accepted (R412, R413). -/
def State.pvPost (s : State) (header payload : List Byte) : State × Bool :=
  let size := 2 ^ s.fld aPvCfg 20 16
  let n := s.reg aPvTail
  let free := size - (n + 2 ^ 32 - s.reg aPvHead) % 2 ^ 32
  let rate := s.fld aPvCfg 9 0
  let recent := s.host.pvTimes.filter (fun t => s.rawNow < t + 100000 * NS)
  let fits : Bool := rate = 0 || (recent.length + 1) * 1152 ≤ rate * 10000
  if s.runs .hst && s.bit aPvCfg 31 && 0 < free && fits then
    let port := s.fld aPvCfg 30 30
    let h := overlay header 1 [BitVec.ofNat 8 (ringPhase n size)]
    let s := s.putHost { s.host with pvTimes := s.rawNow :: recent }
    let s := s.setReg aPvTail (n + 1)
    let s := s.emit (.hostWrite port (s.reg64 aPvBase + 144 * (n % size)) (overlay (zeros 144) 0 (h ++ payload)))
    (s.signal port 2, true)
  else (s, false)

end Sys2Proof.Machine
end

