-- ==== Sys2Proof/Machine/Image.lean ====
section
/-!
DEFINITION. Run images (R145–R147): the header, the section table, the sections the rest of the device reads.
-/

namespace Sys2Proof.Machine

/-- One entry of the section table (R146). -/
structure Section where
  type : Nat
  flags : Nat
  offset : Nat
  length : Nat
  dest : Nat
  target : Nat
  crc : Nat
  entry : List Byte
deriving DecidableEq, Repr

/-- Bytes of an image. -/
def slice (b : List Byte) (i n : Nat) : List Byte := (b.drop i).take n

/-- NSECT. -/
def imgNsect (img : List Byte) : Nat := fieldLE img 6 2

/-- The section table (R146). -/
def imgSections (img : List Byte) : List Section :=
  (upTo (imgNsect img)).map (fun i =>
    let e := slice img (64 + 32 * i) 32
    { type := byteAt e 0, flags := byteAt e 1, offset := fieldLE e 4 4, length := fieldLE e 8 4, dest := fieldLE e 12 4,
      target := fieldLE e 16 12, crc := fieldLE e 28 4, entry := e })

/-- The bytes of a section. -/
def sectionBytes (img : List Byte) (c : Section) : List Byte := slice img c.offset c.length

/-- The first section of a type, empty when the image has none (R485). -/
def sectionOf (img : List Byte) (type : Nat) : List Byte :=
  match (imgSections img).find? (fun c => c.type = type) with
  | some c => sectionBytes img c
  | none => []

/-- The sections of a type that target engine or core e. -/
def sectionsFor (img : List Byte) (type e : Nat) : List Section :=
  (imgSections img).filter (fun c => c.type = type && bitOf c.target e)

/-- HCRC and every section CRC hold (R145, R146). -/
def imgCrcOk (img : List Byte) : Bool :=
  crc32c (slice img 0 12 ++ slice img 64 (32 * imgNsect img)) = fieldLE img 12 4
    && (imgSections img).all (fun c => crc32c (sectionBytes img c) = c.crc)

/-- The TILE_MAP entry of a lane in the loaded image (R147); no image: not used. -/
def State.tileMapEntry (s : State) (l : Nat) : Nat :=
  match s.kept with
  | some img => fieldLE (sectionOf img 0x08) (4 * l) 4
  | none => 0

/-- The loaded image's TILE_MAP marks lane l used. -/
def State.usedLane (s : State) (l : Nat) : Bool := bitOf (s.tileMapEntry l) 24

/-- A tile is used when either of its lanes is (R217). -/
def State.usedTile (s : State) (f : Nat) : Bool := s.usedLane (2 * f) || s.usedLane (2 * f + 1)

/-- The used tiles, in order. -/
def State.usedTiles (s : State) : List Nat := (upTo 48).filter s.usedTile

/-- An image is loaded and its kept copy passes its CRC checks: 0 it does, 1 none is loaded, 2 the checks fail
(R151, R263). -/
def State.imageFault (s : State) : Nat :=
  match s.kept with
  | none => 1
  | some img => if s.keptBad || !imgCrcOk img then 2 else 0

end Sys2Proof.Machine
end

