-- ==== Sys2Proof/Machine/Role.lean ====
section
/-!
DEFINITION. What the rest of the device needs to know of the pair (R380), and how a mirror message leaves (R376, R377).
-/

namespace Sys2Proof.Machine

def PAIR : Nat := 0x00780000
def aPairCfg : Nat := PAIR
def aPairCfg1 : Nat := PAIR + 4
def aPairStat : Nat := PAIR + 0x10
def roSOLO : Nat := 0
def roWAITING : Nat := 1
def roJOINING : Nat := 2
def roFOLLOWER : Nat := 3
def roHOLDER : Nat := 4
def roALONE : Nat := 5
def roORPHAN : Nat := 6

/-- PAIR_STAT.ROLE (R380). -/
def State.role (s : State) : Nat := s.fld aPairStat 31 29

/-- This member asserts TONGS_OUT (R381). -/
def State.holds (s : State) : Bool := s.bit aPairStat 28

/-- The PAIR_PRESENT strap (R374). -/
def State.pairPresent (s : State) : Bool := s.bit aPairStat 25

/-- This device is a pair member that does not hold Tongs (R75, R374). -/
def State.nonHolder (s : State) : Bool := s.pairPresent && !s.holds

/-- This member is the follower. -/
def State.follower (s : State) : Bool := s.role = roFOLLOWER

/-- The partner is in contact: this member is follower, joining, or holder with a partner. -/
def State.paired2 (s : State) : Bool := s.role = roFOLLOWER || s.role = roHOLDER || s.role = roJOINING

/-- The stage of mirror lane m (R375, R397). -/
def State.mlStage (s : State) (m : Nat) : Nat := s.fld (PAIR + 0x40 + 4 * m) 31 28

/-- A mirror lane is in run. -/
def State.mirrorUp (s : State) : Bool := (upTo 8).any (fun m => s.mlStage m = 6)

/-- The 16-byte header of a mirror message (R376), with the sender's role. -/
def State.mirrorHeader (s : State) (role type len : Nat) : List Byte :=
  pack 16 [(0, 1, type), (1, 1, role), (2, 2, len), (4, 4, s.pair.seq + 1)]

/-- A mirror message on its lane (R376): header, body, CRC-32C over both, zeros to a whole block. [DESIGN CHOICE, log entry 74] -/
def mirrorBytes (header body : List Byte) : List Byte :=
  let m := header ++ body ++ pack 4 [(0, 4, crc32c (header ++ body))]
  m ++ zeros ((16 - m.length % 16) % 16)

/-- A mirror message is sent, with the next SEQ, while PAIR runs or stops and a lane is in run (R375, R376). [DESIGN CHOICE, log entry 74] -/
def State.mirrorSend (s : State) (type : Nat) (body : List Byte) : State :=
  if (s.runs .pair || s.fnState .pair = .stopping) && s.mirrorUp then
    let h := s.mirrorHeader s.role type body.length
    let s := s.putPair { s.pair with seq := (s.pair.seq + 1) % 2 ^ 32 }
    s.emit (.mirror type (mirrorBytes h body))
  else s

def mHEARTBEAT : Nat := 1
def mSTATE : Nat := 2
def mSCHED : Nat := 3
def mDECISION : Nat := 4
def mRECORD : Nat := 5
def mTIME : Nat := 6
def mFDIGEST : Nat := 7
def mDIGEST : Nat := 8
def mSPACE : Nat := 9
def mQUENCH : Nat := 10
def mFORWARD : Nat := 11
def mHANDOVER : Nat := 12

/-- What a RECORD message says (R377): ARM, DISARM, POST, close, RELEASE. -/
def rcARM : Nat := 1
def rcDISARM : Nat := 2
def rcPOST : Nat := 3
def rcCLOSE : Nat := 4
def rcRELEASE : Nat := 5

/-- The holder of a pair tells its follower what happened to a segment (R377, R383). The body's layout is the model's.
[DESIGN CHOICE, log entry 74] -/
def State.tellRecord (s : State) (what seg a b c : Nat) : State :=
  if s.role = roHOLDER then
    s.mirrorSend mRECORD (pack 32 [(0, 1, what), (1, 1, seg), (4, 4, a), (8, 4, b), (12, 10, c)])
  else s

end Sys2Proof.Machine
end

