-- ==== Sys2Proof/Machine/Lanes.lean ====
section
/-!
DEFINITION. The serial lanes (chapter 02): bring-up with its stages, fallback and retries (R64–R68), rate matching (R60, R61),
equaliser freezing (R69), command lanes (R72–R75) and the PRBS test (R76, R77). The mirror lanes run the same bring-up (R375).
-/

namespace Sys2Proof.Machine

/-- The window of sector k in BAR0 (R80, R109, R154). -/
def secBase (k : Nat) : Nat := 0x01000000 + k * 0x00100000

/-- A register of receive lane l (R80). -/
def aRx (l off : Nat) : Nat := secBase (l / 8) + 0x100 * (l % 8) + off

/-- A register of command lane f (R80). -/
def aCmd (f off : Nat) : Nat := secBase (f / 4) + 0x800 + 0x100 * (f % 4) + off

def oCFG : Nat := 0x00
def oSTAT : Nat := 0x08
def oSKEWC : Nat := 0x14
def oPPM : Nat := 0x18
def oSTRIP : Nat := 0x30
def oLOST : Nat := 0x34
def oCRC : Nat := 0x38
def oHDR : Nat := 0x3C
def oLATE : Nat := 0x40
def oDISC : Nat := 0x44
def oBLK : Nat := 0x48
def oPRBSERR : Nat := 0x58

/-- The index of a lane among all 104 serial receivers. -/
def laneIdx : Lane → Nat
  | .rx l => l.val
  | .mir m => 96 + m.val

/-- The status register of a lane: LN_STAT or PAIR_MLSTAT, laid out alike (R83, R397). -/
def statOf : Lane → Nat
  | .rx l => aRx l.val oSTAT
  | .mir m => 0x00780040 + 4 * m.val

/-- The present tile a receive lane belongs to (R5). -/
def tileOf (l : Nat) : Nat := l / 2

def laneGet (s : State) : Lane → RxLane
  | .rx l => s.rxAt l.val
  | .mir m => (s.mirLanes[m.val]?).getD {}

def laneOn (s : State) (g : RxLane → RxLane) : Lane → State
  | .rx l => s.onRx l.val g
  | .mir m => s.putMirLanes (s.mirLanes.setIfInBounds m.val (g ((s.mirLanes[m.val]?).getD {})))

/-- LN_CFG of a receive lane. -/
def State.lnCfg (s : State) (l : Nat) : Nat := s.reg (aRx l oCFG)

/-- MODE of a receive lane: 3 acts as 0 (R81). -/
def State.laneMode (s : State) (l : Nat) : Nat := let m := bits (s.lnCfg l) 31 30; if m = 3 then 0 else m

/-- The tile runs in compatibility mode (R62). -/
def State.compat (s : State) (l : Nat) : Bool := bitOf (s.lnCfg (l / 2 * 2)) 29

/-- The tile uses both lanes (R59). -/
def State.paired (s : State) (f : Nat) : Bool := bitOf (s.lnCfg (2 * f)) 28

/-- The highest step this end offers on a lane: 5–7 act as 4, at most 3 in compatibility mode (R65, R81). -/
def State.maxStep (s : State) : Lane → Nat
  | .rx l => let m := min (bits (s.lnCfg l.val) 26 24) 4; if s.compat l.val then min m 3 else m
  | .mir _ => 4

/-- RETRIES of a lane; 0 without limit (R66). -/
def State.laneRetries (s : State) : Lane → Nat
  | .rx l => bits (s.lnCfg l.val) 23 20
  | .mir _ => 0

/-- The lane waits for the host in stage 3 (R68); alignment of a mirror lane is always automatic (R375). -/
def State.manualAlign (s : State) : Lane → Bool
  | .rx l => bitOf (s.lnCfg l.val) 27
  | .mir _ => false

/-- The lane never deletes blocks (R62). -/
def State.laneCompat (s : State) : Lane → Bool
  | .rx l => s.compat l.val
  | .mir _ => false

/-- The function a lane belongs to (R78, R396). -/
def laneFn : Lane → Fn
  | .rx _ => .lnk
  | .mir _ => .pair

/-- The lane exists on the part and its function is STARTING or RUNNING. [DEDUCED, log entry 4] -/
def State.laneLive (s : State) (ln : Lane) : Bool :=
  s.present (statOf ln) && (s.fnState (laneFn ln) = .running || s.fnState (laneFn ln) = .starting)

def State.stage (s : State) (ln : Lane) : Nat := s.fld (statOf ln) 31 28
/-- The lane's receiver hears blocks: its function is STARTING or RUNNING, or STOPPING, where it completes what it is receiving
(R78). -/
def State.laneHears (s : State) (ln : Lane) : Bool :=
  s.laneLive ln || (s.present (statOf ln) && s.fnState (laneFn ln) = .stopping)
def State.step (s : State) (ln : Lane) : Nat := s.fld (statOf ln) 27 25
def State.ceil (s : State) (ln : Lane) : Nat := s.fld (statOf ln) 24 22
def State.setStage (s : State) (ln : Lane) (n : Nat) : State := s.setFld (statOf ln) 31 28 n
def State.setStep (s : State) (ln : Lane) (n : Nat) : State := s.setFld (statOf ln) 27 25 n
def State.setLock (s : State) (ln : Lane) (b : Bool) : State := s.setBit (statOf ln) 18 b

/-- A stage in which a lane sends and hears blocks: bring-up or run (R64). -/
def linked (stage : Nat) : Bool := within 1 6 stage

/-- FILL_GAP of R60 for an offset in 0.1 ppm; 0 in compatibility mode (R62). -/
def fillGap (compat : Bool) (ppm10 : Int) : Nat :=
  if compat then 0 else min 10000 (10000000 / ((max ppm10 0).toNat + 1000))

/-- The number under which a lane's downstream side sends: its tile's command lane, or 48 + m for a mirror lane. -/
def downOf : Lane → Nat
  | .rx l => l.val / 2
  | .mir m => 48 + m.val

/-- Stage 1 at the lane's current step (R64): lock, alignment and the slip count start anew. [DEDUCED, log entry 22] -/
def State.beginStage1 (s : State) (ln : Lane) : State :=
  let s := (s.setStage ln 1).setLock ln false
  let s := s.setBit (statOf ln) 17 false
  laneOn s (fun r => { r with waiting := false, hit := false, markSeen := false, slips := 0, tries := 0, nextStep := none, elastic := 0 }) ln

/-- Bring-up from stage 1 at step 0 (R64, R82): a ceiling that was cleared goes, capabilities are exchanged anew. [DEDUCED, log entry 22] -/
def State.bringUp (s : State) (ln : Lane) : State :=
  let s := if (laneGet s ln).clrCeil then s.setFld (statOf ln) 24 22 4 else s
  let s := laneOn s (fun r => { r with retries := 0, clrCeil := false, caps := none, acked := false, capsDone := false,
                                         final := false, peerFinal := false, peerTrains := false }) ln
  (s.setStep ln 0).beginStage1 ln

/-- A lane enters its mode as its function starts (R78): bring-up in link mode, the PRBS stage in PRBS mode, else off. -/
def State.enterMode (s : State) (ln : Lane) : State :=
  match ln with
  | .rx l =>
    if !s.present (statOf ln) then s
    else if s.laneMode l.val = 1 then s.bringUp ln
    else if s.laneMode l.val = 2 then ((s.setStage ln 8).setStep ln 0).setLock ln false
    else s.setStage ln 0
  | .mir _ => if s.present (statOf ln) then s.bringUp ln else s

/-- A lane stops: receiver off (R78). -/
def State.laneOff (s : State) (ln : Lane) : State :=
  if s.present (statOf ln) then
    let s := ((s.setStage ln 0).setStep ln 0).setLock ln false
    let s := (s.setBit (statOf ln) 17 false).setBit (statOf ln) 16 false
    laneOn s (fun r => { r with waiting := false, nextStep := none, elastic := 0, inject := [], peerFinal := false }) ln
  else s

/-- A control block as it leaves a lane (R51): its type, and bytes 1 to 15, the last the CRC-8 over the others. -/
def ctlBlock (lane kind : Nat) (content : List Byte) : Out :=
  .block lane kind (content ++ [BitVec.ofNat 8 (crc8 (BitVec.ofNat 8 kind :: content))])
/-- A received control block is discarded (R51): its CRC-8 is wrong, or its type is none of the table's. -/
def blockBad (b : List Byte) : Bool :=
  crc8 (b.take 15) ≠ byteAt b 15 || !([0x1E, 0x2D, 0x33, 0x4B, 0x55, 0x66, 0x78, 0x87, 0x99, 0xAA].contains (byteAt b 0))
/-- Mirror lane f − 48 of a downstream side's number. -/
def mirOf (f : Nat) : Lane := .mir ⟨f % 8, Nat.mod_lt _ (by decide)⟩

/-- The block slots of downstream side f: a command lane, or from 48 on the mirror lane f − 48 (R51). -/
def State.txClock (s : State) (f : Nat) : TxClock := if f < 48 then (s.cmdAt f).tx else (laneGet s (mirOf f)).tx
def State.putTxClock (s : State) (f : Nat) (c : TxClock) : State :=
  if f < 48 then s.onCmd f (fun l => { l with tx := c }) else laneOn s (fun x => { x with tx := c }) (mirOf f)

/-- LNK is STARTING or RUNNING: a command lane begins blocks. In STOPPING it only completes the block under way (R78). -/
def State.lnkLive (s : State) : Bool := s.fnState .lnk = .starting || s.fnState .lnk = .running

/-- A block other than FILL leaves on a downstream side, behind a FILL once 2,048 others have passed since the last (R72, R375). A
command lane of a member without Tongs sends only FILL (R75). [DESIGN CHOICE, log entry 2; DESIGN CHOICE, log entry 18; DEDUCED, log entry 24] -/
def State.sendBlock (s : State) (f kind : Nat) (content : List Byte) : State :=
  if decide (f < 48) && (s.nonHolder || !s.lnkLive) then s
  else
    let c := s.txClock f
    let due : Bool := decide (2048 ≤ c.since)
    let s := s.putTxClock f { c with since := if due then 1 else c.since + 1 }
    let s := if due then s.emit (ctlBlock f 0x1E (zeros 14)) else s
    s.emit (ctlBlock f kind content)

/-- A CAPS block from the concentrator (R65): step offered, mode, tile, FILL_GAP, ACK. [DEDUCED, log entry 24] -/
def State.sendCaps (s : State) (l : Nat) (gap : Nat) (ack : Bool) : State :=
  let ln := s.maxStep (.rx ⟨l % 96, Nat.mod_lt _ (by decide)⟩)
  s.sendBlock (tileOf l) 0x4B (pack 14 [(0, 1, ln), (1, 1, b2n (s.compat l)), (2, 1, tileOf l), (3, 2, gap), (5, 1, b2n ack)])

/-- CAPS with the FILL_GAP for a measured offset (R60), acknowledging the peer's or not: LN_PPM.FILL_GAP is the last one sent (R84), so
it stays on a member that sends only FILL. -/
def State.sendGap (s : State) (l : Nat) (ppm10 : Int) (ack : Bool) : State :=
  if s.nonHolder then s
  else
    let gap := fillGap (s.compat l) ppm10
    ((s.setFld (aRx l oPPM) 31 16 gap).onRx l (fun r => { r with gapBase := ppm10 })).sendCaps l gap ack
/-- A RATE block (R51, R65): target step, ACCEPT, FINAL. [DEDUCED, log entry 24] -/
def State.sendRate (s : State) (ln : Lane) (step : Nat) (accept final : Bool) : State :=
  s.sendBlock (downOf ln) 0x55 (pack 14 [(0, 1, step), (1, 1, b2n accept + 2 * b2n final)])

/-- The highest step the other end of a lane declares (R65, R83): that of its CAPS; the ends of a mirror lane exchange none, and
each rises to step 4 unless a stage fails (R375). -/
def State.peerMax (s : State) : Lane → Nat
  | .rx l => s.fld (statOf (.rx l)) 21 19
  | .mir _ => 4

/-- The step a lane rises to: the lower declared highest step, limited by the ceiling (R65). -/
def State.targetStep (s : State) (ln : Lane) : Nat := min (min (s.maxStep ln) (s.peerMax ln)) (s.ceil ln)

/-- The lane is aligned and capable: it rises a step, or has reached its target and runs (R65). FINAL is sent once. [DEDUCED, log entry 22] -/
def State.riseOrRun (s : State) (ln : Lane) : State :=
  if s.step ln < s.targetStep ln then (s.setStage ln 5).sendRate ln (s.step ln + 1) false false
  else
    let s := if (laneGet s ln).final then s else s.sendRate ln (s.step ln) false true
    let s := laneOn s (fun r => { r with final := true, retries := 0 }) ln
    s.setStage ln 6

/-- Stage 3 ends (R64): capability exchange at step 0, unless it is done; then the rise (R65). -/
def State.alignedDone (s : State) (ln : Lane) : State :=
  let r := laneGet s ln
  let s := s.setBit (statOf ln) 17 r.hit
  if r.capsDone then s.riseOrRun ln
  else
    let s := s.setStage ln 4
    match ln with
    | .mir _ => s
    | .rx l =>
      let ppm10 := sx 16 (s.fld (aRx l.val oPPM) 15 0)
      s.sendGap l.val ppm10 false

/-- A failure recorded in the status register (R66, R83). -/
def State.recordFail (s : State) (ln : Lane) (stage cause : Nat) : State :=
  let s := (s.setFld (statOf ln) 15 12 stage).setFld (statOf ln) 11 8 cause
  s.setFld (statOf ln) 7 0 (min (s.fld (statOf ln) 7 0 + 1) 255)

/-- A lane fails a stage (R66): at a step above 0 it falls back one step under a lower ceiling; at step 0 it waits for its
retry, or is DOWN after the last. [DEDUCED, log entry 22] -/
def State.failStage (s : State) (ln : Lane) (stage cause : Nat) : State :=
  let s := s.recordFail ln stage cause
  let k := s.step ln
  if 0 < k then ((s.setStep ln (k - 1)).setFld (statOf ln) 24 22 (k - 1)).beginStage1 ln
  else
    let n := s.laneRetries ln
    if n ≠ 0 ∧ n ≤ (laneGet s ln).retries then (s.setStage ln 7).setLock ln false
    else laneOn (s.setLock ln false) (fun r => { r with waiting := true }) ln

/-- One slip: one received bit is dropped (R68). -/
def State.slipOne (s : State) (ln : Lane) : State :=
  laneOn s (fun r => { r with markSeen := false, slips := (r.slips + 1) % 32 }) ln

/-- Lock or the elastic buffer is lost in run: stages 1–3 again at the same step (R67). [DEDUCED, log entry 21] -/
def State.repeatStages (s : State) (ln : Lane) (cause : Nat) : State := (s.recordFail ln 6 cause).beginStage1 ln

/-! ### The commands -/

/-- R64 stage 1 completes; at step 0 the offset is measured (R60). -/
def trainingComplete (ln : Lane) (ppm10 : Int) (eq : EqSettings) (s : State) : State :=
  if s.laneLive ln && s.stage ln = 1 && !(laneGet s ln).waiting then
    let s := match ln with
      | .rx l =>
        let s := if s.step ln = 0 then s.setFld (aRx l.val oPPM) 15 0 (ux 16 ppm10) else s
        (s.setReg (aRx l.val 0x1C) (eq.eq0 &&& 0xF8FFFFFF)).setReg (aRx l.val 0x20) eq.eq1
      | .mir _ => s
    s.setStage ln 2
  else s

/-- R50: 64 consecutive valid headers; completes stage 2. -/
def blockLockGained (ln : Lane) (s : State) : State :=
  if s.laneLive ln && 2 ≤ s.stage ln && s.stage ln ≤ 6 && !(laneGet s ln).waiting then
    let s := s.setLock ln true
    if s.stage ln = 2 then s.setStage ln 3 else s
  else s

/-- R50, R67: 16 of 64 headers are invalid. In run the stages repeat at the same step; in a later stage of bring-up the
stage fails with cause 3. [DEDUCED, log entry 21] -/
def blockLockLost (ln : Lane) (s : State) : State :=
  if s.laneLive ln && s.bit (statOf ln) 18 && s.stage ln ≠ 8 then
    if s.stage ln = 6 then s.repeatStages ln 3
    else if 3 ≤ s.stage ln ∧ s.stage ln ≤ 5 then s.failStage ln (s.stage ln) 3
    else s.setLock ln false
  else s

/-- R50: an invalid sync header is counted; what it interrupts is the cut strip of STRIP_RX. -/
def invalidSyncHeader (ln : Lane) (s : State) : State :=
  match ln with
  | .rx l => if s.laneHears ln then s.count (aRx l.val oBLK) else s
  | .mir _ => s

/-- R51: a control block with a bad CRC-8 or an unknown type is discarded and counted. -/
def discardedControlBlock (ln : Lane) (bytes : List Byte) (s : State) : State :=
  if blockBad bytes then invalidSyncHeader ln s else s

/-- R61, R62: a FILL block is deleted when the elastic buffer holds more than 4 blocks, never in compatibility mode. -/
def fillRx (ln : Lane) (held : Nat) (s : State) : State :=
  if s.laneLive ln then
    laneOn s (fun r => { r with elastic := if 4 < held && !s.laneCompat ln then held - 1 else held }) ln
  else s

/-- R51: an IDLE block carries the counter and the front-end's buffer fill. -/
def idleRx (ln : Lane) (counter fill : Nat) (s : State) : State :=
  if s.laneLive ln then laneOn s (fun r => { r with idleCount := counter % 2 ^ 32, idleFill := fill % 65536, peerTrains := false }) ln
  else s

/-- R51, R68: a TRAIN block carries the peer's receiver locks and perhaps the ALIGN marker, which stands at position pos of
the word as bring-up found it, less one for each slip since, the host's included. Firmware's search goes on with it: it fails after its own
31 tries. On a mirror lane it also says that the partner's receiver trains. -/
def trainRx (ln : Lane) (align : Bool) (pos : Nat) (lock0 lock1 : Bool) (counter : Nat) (s : State) : State :=
  if s.laneLive ln then
    let s := laneOn s (fun r => { r with peerLock0 := lock0, peerLock1 := lock1, trainCount := counter % 65536, peerTrains := true }) ln
    if align && s.stage ln = 3 && !(laneGet s ln).waiting then
      let hit : Bool := (pos + 32 - (laneGet s ln).slips) % 32 = 0
      let s := laneOn s (fun r => { r with hit := hit, markSeen := true }) ln
      if s.manualAlign ln then s
      else if hit then s.alignedDone ln
      else if (laneGet s ln).tries = 31 then s.failStage ln 3 1
      else laneOn (s.slipOne ln) (fun r => { r with tries := r.tries + 1 }) ln
    else s
  else s

/-- Stage 4 ends when both CAPS are sent and acknowledged (R64). -/
def State.capsStep (s : State) (ln : Lane) : State :=
  let r := laneGet s ln
  if s.stage ln = 4 && r.caps.isSome && r.acked then
    (laneOn s (fun r => { r with capsDone := true }) ln).riseOrRun ln
  else s

/-- R65: a CAPS block arrives, is checked and acknowledged. -/
def capsRx (l : Fin 96) (c : Caps) (s : State) : State :=
  let ln : Lane := .rx l
  if s.laneLive ln && !(laneGet s ln).waiting then
    let s := if c.ack then s.onRx l.val (fun r => { r with acked := true }) else s
    let s := s.onRx l.val (fun r => { r with noDual := !c.dual })
    if s.stage ln = 4 then
      let s := s.setFld (statOf ln) 21 19 (min c.maxStep 7)
      if c.compatOnly && !s.compat l.val then s.failStage ln 4 5
      else
        let s := s.onRx l.val (fun r => { r with caps := some c })
        let s := s.sendGap l.val (sx 16 (s.fld (aRx l.val oPPM) 15 0)) true
        s.capsStep ln
    else s
  else s

/-- R65: the front-end answers RATE: it accepts the next step, or declines (cause 2). [DEDUCED, log entry 109] -/
def State.rateAnswer (s : State) (ln : Lane) (step : Nat) (accept : Bool) : State :=
  if s.laneLive ln && s.stage ln = 5 && !(laneGet s ln).waiting && (laneGet s ln).nextStep.isNone then
    if accept && step = s.step ln + 1 then laneOn s (fun r => { r with nextStep := some step }) ln
    else if accept then s
    else s.failStage ln 5 2
  else s

/-- R65, R375: a RATE block arrives. One without ACCEPT on a mirror lane is the partner's own, for the direction this member sends: a
step is answered with ACCEPT, and FINAL says that the partner's receiver runs. [DEDUCED, log entry 109] -/
def rateRx (ln : Lane) (step : Nat) (bits : RateBits) (s : State) : State :=
  match ln with
  | .rx _ => s.rateAnswer ln step bits.accept
  | .mir _ =>
    if bits.accept then s.rateAnswer ln step true
    else if !(s.laneLive ln && linked (s.stage ln)) then s
    else if bits.final then laneOn s (fun r => { r with peerFinal := true, peerTrains := false }) ln
    else s.sendRate ln step true false

/-- R65: 16 blocks after ACCEPT both ends switch; stages 1–3 follow at the new step. -/
def rateSwitch (ln : Lane) (s : State) : State :=
  match (laneGet s ln).nextStep with
  | some k => if s.laneLive ln && s.stage ln = 5 then (s.setStep ln k).beginStage1 ln else s
  | none => s

/-- R61, R67: the elastic buffer overflows in run. [DEDUCED, log entry 21] -/
def elasticOverflow (ln : Lane) (s : State) : State :=
  if s.laneLive ln && s.stage ln = 6 then s.repeatStages ln 4 else s

/-- R60: the measured offset departs by more than 50 ppm from the value behind the last FILL_GAP; a new CAPS is sent. -/
def fillGapResend (l : Fin 96) (ppm10 : Int) (s : State) : State :=
  let ln : Lane := .rx l
  if s.laneLive ln && s.stage ln = 6 then
    let s := s.setFld (aRx l.val oPPM) 15 0 (ux 16 ppm10)
    if 500 < (ppm10 - (s.rxAt l.val).gapBase).natAbs && !s.compat l.val then s.sendGap l.val ppm10 false else s
  else s

/-- R64, R66: a stage's timeout expires. Manual alignment has none, and in stage 5 it bounds the RATE handshake alone. [DESIGN CHOICE, log entry 3] -/
def stageTimeout (ln : Lane) (s : State) : State :=
  let k := s.stage ln
  if s.laneLive ln && 1 ≤ k && k ≤ 5 && !(laneGet s ln).waiting && !(k = 3 && s.manualAlign ln)
      && !(k = 5 && (laneGet s ln).nextStep.isSome) then s.failStage ln k 1
  else s

/-- R66: after 100 ms a failed lane at step 0 retries from stage 1. [DEDUCED, log entry 22] -/
def stageRetry (ln : Lane) (s : State) : State :=
  if s.laneLive ln && (laneGet s ln).waiting then
    (laneOn s (fun r => { r with retries := r.retries + 1, caps := if r.capsDone then r.caps else none,
                                  acked := r.acked && r.capsDone }) ln).beginStage1 ln
  else s

/-- R68: a write of 1 to LN_SLIP.SLIP acts in stage 3. -/
def slip (l : Fin 96) (s : State) : State :=
  if s.laneLive (.rx l) && s.stage (.rx l) = 3 && !(s.rxAt l.val).waiting then s.slipOne (.rx l) else s

/-- R82: RETRAIN restarts bring-up while LNK is STARTING or RUNNING. [DEDUCED, log entry 22] -/
def retrain (l : Fin 96) (s : State) : State :=
  if s.laneLive (.rx l) && s.laneMode l.val = 1 then s.bringUp (.rx l) else s

/-- R82: CLR_CEIL acts in every LNK state except OFF and ABSENT, at the lane's next retrain. [DEDUCED, log entry 21] -/
def clrCeil (l : Fin 96) (s : State) : State :=
  if s.present (aRx l.val oSTAT) && s.fnState .lnk ≠ .off && s.fnState .lnk ≠ .absent then
    s.onRx l.val (fun r => { r with clrCeil := true })
  else s

/-- R68, R82: ALIGN_DONE ends stage 3 of a lane with MANUAL_ALIGN, whatever HIT says. -/
def alignDone (l : Fin 96) (s : State) : State :=
  if s.laneLive (.rx l) && s.stage (.rx l) = 3 && s.manualAlign (.rx l) && !(s.rxAt l.val).waiting then s.alignedDone (.rx l) else s

/-- R69: 1,024 consecutive FILL or IDLE blocks freeze the adaptation. -/
def eqFreeze (ln : Lane) (s : State) : State :=
  if s.laneLive ln && linked (s.stage ln) then s.setBit (statOf ln) 16 true else s

/-- R69: 64 data blocks since the freeze resume it. -/
def eqResume (ln : Lane) (s : State) : State :=
  if s.laneHears ln then s.setBit (statOf ln) 16 false else s

/-! ### Command lanes -/

/-- MODE of a command lane: 3 acts as 0 (R87). -/
def State.txMode (s : State) (f : Nat) : Nat := let m := s.fld (aCmd f 0) 31 30; if m = 3 then 0 else m

/-- STAGE and STEP of a command lane (R65, R87): a linked command lane goes with lane 2f of its tile, and is at step 1 once
that lane is, where both ends declare it. [DEDUCED, log entry 25] -/
def State.txStage (s : State) (f : Nat) : Nat :=
  if s.fnState .lnk = .running || s.fnState .lnk = .starting || s.fnState .lnk = .stopping then
    if s.txMode f = 1 then s.fld (aRx (2 * f) oSTAT) 31 28 else if s.txMode f = 2 then 8 else 0
  else 0

/-- The step of a command lane: that of its tile's receive lane, at most 1 (R48, R65). [DEDUCED, log entry 25] -/
def State.txStep (s : State) (f : Nat) : Nat :=
  b2n (s.txStage f ≠ 0 && s.txMode f = 1 && 1 ≤ s.fld (aRx (2 * f) oSTAT) 27 25 && 1 ≤ s.fld (aRx (2 * f) oSTAT) 21 19
    && 1 ≤ s.fld (aCmd f 0) 26 24)

/-- The command lane of tile f is in run, and begins blocks (R74, R78). -/
def State.txRun (s : State) (f : Nat) : Bool := s.lnkLive && s.txStage f = 6

/-- LN_TXSTAT as read (R87). -/
def State.txStat (s : State) (f : Nat) : Nat :=
  if s.present (aCmd f 8) then s.txStage f * 2 ^ 28 + s.txStep f * 2 ^ 25 + b2n s.nonHolder * 2 ^ 24 else 0

/-- LN_ALIGN as read (R84). -/
def State.lnAlign (s : State) (l : Nat) : Nat :=
  let r := s.rxAt l
  b2n r.hit * 2 ^ 31 + b2n r.markSeen * 2 ^ 30 + r.slips

/-- R72, R375: a command or mirror lane, in bring-up or in run, sends a FILL block. [DESIGN CHOICE, log entry 2] -/
def fillInsert (t : TxLane) (s : State) : State :=
  match t with
  | .cmd f =>
    if s.lnkLive && linked (s.txStage f.val) then
      (s.putTxClock f.val { s.txClock f.val with since := 0 }).emit (ctlBlock f.val 0x1E (zeros 14))
    else s
  | .mir m =>
    if linked (s.stage (.mir m)) then
      (s.putTxClock (48 + m.val) { s.txClock (48 + m.val) with since := 0 }).emit (ctlBlock (48 + m.val) 0x1E (zeros 14))
    else s

/-- The block time of a rate step in 1/16 ns (R48). -/
def blockTime16 : Nat → Nat
  | 0 => 832 | 1 => 208 | 2 => 104 | 3 => 65 | _ => 52

/-- What a downstream side sends while no other block is due (R51): FILL once 2,048 other blocks have passed (R72, R375), TRAIN in
stages 1 to 3, with the ALIGN marker every 32nd and the lock of the two receivers, IDLE after them, each with its counter. -/
def TxClock.block (c : TxClock) (lane stage : Nat) (lock0 lock1 : Bool) : TxClock × Out :=
  if 2048 ≤ c.since then ({ c with since := 0 }, ctlBlock lane 0x1E (zeros 14))
  else if stage ≤ 3 then
    ({ c with train := (c.train + 1) % 65536, since := c.since + 1 },
     ctlBlock lane 0x33 (pack 14 [(0, 1, b2n (c.train % 32 = 0) + 2 * b2n lock0 + 4 * b2n lock1), (1, 2, c.train)]))
  else ({ c with idle := (c.idle + 1) % 2 ^ 32, since := c.since + 1 }, ctlBlock lane 0x2D (pack 14 [(0, 4, c.idle)]))

/-- A tick of 2.5 ns on a downstream side with a block time bt: the block that a slot begins with it, where one does. -/
def TxClock.tick (c : TxClock) (bt lane stage : Nat) (lock0 lock1 : Bool) : TxClock × Option Out :=
  if c.acc + 40 < bt then ({ c with acc := c.acc + 40 }, none)
  else
    let r := { c with acc := c.acc + 40 - bt }.block lane stage lock0 lock1
    (r.1, some r.2)

/-- A tick on command lane f; a member without Tongs sends only FILL (R75). What TRAIN says of a receiver is its LN_STAT.LOCK.
[DESIGN CHOICE, log entry 2; DEDUCED, log entry 102] -/
def State.tickCmd (s : State) (f : Nat) : State :=
  if !(s.lnkLive && linked (s.txStage f)) then s
  else
    let r := (s.cmdAt f).tx.tick (blockTime16 (s.txStep f)) f (s.txStage f) (s.bit (aRx (2 * f) oSTAT) 18) (s.bit (aRx (2 * f + 1) oSTAT) 18)
    let s := s.onCmd f (fun c => { c with tx := r.1 })
    match r.2 with
    | some o => s.emit (if s.nonHolder then ctlBlock f 0x1E (zeros 14) else o)
    | none => s

/-- A tick on the downstream side of mirror lane m. [DESIGN CHOICE, log entry 2] -/
def State.tickMir (s : State) (m : Nat) : State :=
  let ln := mirOf m
  if !linked (s.stage ln) then s
  else
    let lock := s.bit (statOf ln) 18
    let r := (laneGet s ln).tx.tick (blockTime16 (s.step ln)) (48 + m) (s.stage ln) lock lock
    let s := laneOn s (fun x => { x with tx := r.1 }) ln
    match r.2 with
    | some o => s.emit o
    | none => s

/-- R74: LN_FECTL.GO sends CFGW or CFGR with a fresh tag, never 0xFF (R439), or completes at once. [DESIGN CHOICE, log entry 23] -/
def feAccessGo (f : Fin 48) (s : State) : State :=
  let st := aCmd f.val 0x18
  if !s.present st || s.bit st 31 || s.inReset then s
  else if s.nonHolder then s.setFld st 23 16 stNOTHOLDER
  else if !s.txRun f.val then s.setFld st 23 16 stBADARG
  else
    let tag := ((s.cmdAt f.val).tag + 1) % 255
    let w := s.bit (aCmd f.val 0x0C) 31
    let addr := s.fld (aCmd f.val 0x0C) 15 0
    let s := s.onCmd f.val (fun c => { c with tag := tag, isWrite := w })
    let s := (s.setBit st 31 true).setFld st 7 0 tag
    s.sendBlock f.val (if w then 0x78 else 0x87)
      (pack 14 ((0, 1, tag) :: (1, 2, addr) :: (if w then [(3, 4, s.reg (aCmd f.val 0x10))] else [])))

/-- R74: no CFGA with the tag within 100 µs. -/
def feAccessTimeout (f : Fin 48) (s : State) : State :=
  let st := aCmd f.val 0x18
  if s.bit st 31 then (s.setBit st 31 false).setFld st 23 16 stTIMEOUT else s

/-- R74: the answer of a register access; one that no access waits for is counted on the receive lane. [DESIGN CHOICE, log entry 23] -/
def State.cfgaAnswer (s : State) (l : Nat) (tag status data : Nat) : State :=
  let f := tileOf l
  let st := aCmd f 0x18
  if s.bit st 31 && s.fld st 7 0 = tag then
    let s := (s.setBit st 31 false).setFld st 23 16 (if status = 0 then stDONE else stBADARG)
    if (s.cmdAt f).isWrite then s else s.setReg (aCmd f 0x10) data
  else s.count (aRx l oLATE)

/-! ### PRBS (R76, R77) -/

def prbsBase : PrbsLane → Nat
  | .rx l => aRx l.val 0x50
  | .tx f => aCmd f.val 0x50

/-- The degree of a lane's PRBS polynomial x^n + x^m + 1, and its other exponent, by POLY (R76). -/
def prbsTaps : Nat → Nat × Nat
  | 0 => (7, 6) | 1 => (15, 14) | 2 => (23, 18) | _ => (31, 28)
/-- Every bit of a stretch follows from those before it under the polynomial (R76): bit i is bit i − n plus bit i − m. -/
def prbsFollows (poly : Nat) (bs : List Bool) : Bool :=
  let n := (prbsTaps poly).1
  let m := (prbsTaps poly).2
  (upTo (bs.length - n)).all (fun i => bs[n + i]? = some (((bs[i]?).getD false) ^^ ((bs[n - m + i]?).getD false)))
/-- The pattern a generator sends from a seed of n bits (R76): the seed, then k bits that follow. -/
def prbsPattern (poly : Nat) (seed : List Bool) : Nat → List Bool
  | 0 => seed
  | k + 1 =>
    let bs := prbsPattern poly seed k
    let at_ (i : Nat) : Bool := (bs[bs.length - i]?).getD false
    bs ++ [at_ (prbsTaps poly).1 ^^ at_ (prbsTaps poly).2]
/-- POLY of a lane. -/
def State.prbsPoly (s : State) (p : PrbsLane) : Nat := s.fld (prbsBase p) 31 30
/-- The lane's generator is on. -/
def State.prbsGen (s : State) (p : PrbsLane) : Bool := s.bit (prbsBase p) 29
/-- The checker reads its own generator's pattern through the internal loopback (R76, R86): always so on a command lane. -/
def State.prbsLoop (s : State) : PrbsLane → Bool
  | .rx l => s.bit (prbsBase (.rx l)) 27
  | .tx _ => true
/-- The lane is in PRBS mode with its checker on, and with a pattern to check: in loopback, its generator's. -/
def State.checking (s : State) (p : PrbsLane) : Bool :=
  s.bit (prbsBase p) 28 && (!s.prbsLoop p || s.prbsGen p) && (match p with
    | .rx l => s.stage (.rx l) = 8
    | .tx f => s.txStage f.val = 8)

def State.prbsLocked (s : State) : PrbsLane → Bool
  | .rx l => s.bit (aRx l.val oSTAT) 18
  | .tx f => (s.cmdAt f.val).prbsLock

def State.setPrbsLock (s : State) (p : PrbsLane) (b : Bool) : State :=
  match p with
  | .rx l => s.setLock (.rx l) b
  | .tx f => s.onCmd f.val (fun c => { c with prbsLock := b })

/-- R76: the checker seeds itself and locks after 64 consecutive correct bits: bs are the bits that arrive from the front-end, the
seed first; in loopback every bit of the lane's own pattern is correct. -/
def prbsLock (p : PrbsLane) (bs : List Bool) (s : State) : State :=
  let good : Bool := s.prbsLoop p
    || (decide ((prbsTaps (s.prbsPoly p)).1 + 64 ≤ bs.length) && prbsFollows (s.prbsPoly p) bs)
  if s.checking p && good then s.setPrbsLock p true else s

/-- R76: of 1,024 bits that a locked checker has read, `errors` are wrong: they count, and more than 512 make it seed itself anew. -/
def prbsReseed (p : PrbsLane) (errors : Nat) (s : State) : State :=
  if s.checking p && s.prbsLocked p then
    let s := s.count ((prbsBase p) + 8) errors
    if 512 < errors then s.setPrbsLock p false else s
  else s

/-- R77: n consecutive bits are inverted once: in the generated pattern where the generator runs, else after the deserialiser
of a receive lane in link mode. Through the loopback a locked checker counts them. In link mode a free value says whether they fall
into the next strip of a lane in run, or on blocks outside strips, of which it damages a few. [DESIGN CHOICE, log entry 19] -/
def prbsInject (n : Nat) (p : PrbsLane) (s : State) : State :=
  let n := n % 256
  if n = 0 || !s.present (prbsBase p) then s
  else
    match p with
    | .tx f =>
      if s.prbsGen p && s.txStage f.val = 8 then
        let s := s.emit (.invert f.val n)
        if s.checking p && s.prbsLocked p then s.count ((prbsBase p) + 8) n else s
      else s
    | .rx l =>
      if s.prbsGen p && s.stage (.rx l) = 8 then
        if s.prbsLoop p && s.checking p && s.prbsLocked p then s.count ((prbsBase p) + 8) n else s
      else if s.laneHears (.rx l) && linked (s.stage (.rx l)) then
        if s.stage (.rx l) = 6 && Config.injectStrip s.freeUse then (s.onRx l.val (fun r => { r with inject := r.inject ++ [n] })).useFree
        else (s.count (aRx l.val oBLK) (Config.injectDamage s.freeUse % 5)).useFree
      else s

/-! ### The LNK function (R78, R79) -/

def allRx : List Nat := upTo 96

/-- A lane number as a receive lane. -/
def rxLane (l : Nat) : Lane := .rx ⟨l % 96, Nat.mod_lt _ (by decide)⟩

/-- Down-spread of command lane f in ppm (R62, R88): its sector's LN_TXGRP acts in compatibility mode alone, at most 5,000. -/
def State.downSpread (s : State) (f : Nat) : Nat :=
  let g := secBase (f / 4) + 0xC00
  if s.compat (2 * f) && s.bit g 31 then min (s.fld g 12 0) 5000 else 0

/-- A command transmitter begins to drive its ball (R78): link blocks at its down-spread, or its generator's pattern (R76), which R75 does
not replace by FILL on a member without Tongs: it has no blocks. [DEDUCED, log entry 103] -/
def State.txEnter (s : State) (f : Nat) : State :=
  if !s.present (aCmd f 0) then s
  else if s.txMode f = 1 then s.emit (.drive f 1 0 (s.downSpread f))
  else if s.txMode f = 2 && s.bit (aCmd f 0x50) 29 then s.emit (.drive f 2 (s.fld (aCmd f 0x50) 31 30) (s.downSpread f))
  else s

/-- Every enabled lane enters stage 1 or PRBS mode; the tiles' sequence values are unset (R57, R78). -/
def State.lnkEnter (s : State) : State :=
  let s := s.each allRx (fun s l => s.enterMode (rxLane l))
  let s := s.each (upTo 48) State.txEnter
  let s := s.each (upTo 48) (fun s f => s.onTile f (fun t => { t with next := none, pred := none }))
  s.each (upTo 48) (fun s f => s.onCmd f (fun c => { c with prbsLock := false }))

/-- Every lane stops, and the command transmitters go to electrical idle (R78). [DEDUCED, log entry 20] -/
def State.lnkOff (s : State) : State :=
  let s := s.each allRx (fun s l => s.laneOff (rxLane l))
  s.each (upTo 48) (fun s f => if s.present (aCmd f 0) && (s.txMode f = 1 || s.txMode f = 2) then s.emit (.drive f 0 0 0) else s)

/-- LNK enters FAULT and every lane stops (R79). -/
def State.lnkFault (s : State) (code : Nat) : State :=
  match s.fnState .lnk with
  | .starting | .running | .stopping => (s.faultFn .lnk code).lnkOff
  | _ => s

/-- R79: the REFCLK_LN lane PLL loses lock. -/
def lanePllLoss (s : State) : State := s.lnkFault 1

/-- R79: a transmit-group PLL loses lock. -/
def txGroupPllLoss (s : State) : State := s.lnkFault 2

end Sys2Proof.Machine
end

