-- ==== Sys2Proof/Machine/HearthMem.lean ====
section
/-!
DEFINITION. Hearth as a memory (chapter 07): channels and addresses, the geometry of segments and streams (R214, R215),
metadata slots and the marks on them (R219–R222), the digests a pair compares (R384).
-/

namespace Sys2Proof.Machine

def HRT : Nat := 0x00500000
def MEM : Nat := 0x00580000
def extent : Nat := 18432
def slotArea : Nat := 0x10000000
def dirArea : Nat := 0x09000000
def logArea : Nat := 0x04000000
def telArea : Nat := 0x08000000

def State.onH (s : State) (g : Hearth → Hearth) : State := s.putHearth (g s.hearth)
def State.segAt (s : State) (i : Nat) : Segment := (s.hearth.segs[i]?).getD {}
def State.onSeg (s : State) (i : Nat) (g : Segment → Segment) : State :=
  s.onH (fun h => { h with segs := h.segs.setIfInBounds i (g ((h.segs[i]?).getD {})) })

/-! ### The descriptor of an offload job (R280) -/

def jdOp (d : List Byte) : Nat := byteAt d 0
def jdDst (d : List Byte) : Nat := fieldLE d 24 8
def jdDstLen (d : List Byte) : Nat := fieldLE d 32 8

/-! ### Channels (R205–R209) -/

/-- The channels in service, ascending (R209). -/
def State.channels (s : State) : List Nat :=
  (upTo 64).filter (fun c => if c < 32 then s.bit (MEM + 0x10) c else s.bit (MEM + 0x14) (c - 32))

/-- The installed capacity C in bytes (R206). -/
def State.capacity (s : State) : Nat := s.channels.length * s.fld MEM 5 0 * 2 ^ 27

/-- The channel an address lies on (R209). -/
def State.channelOf (s : State) (a : Nat) : Nat :=
  let ch := s.channels
  let n := ch.length
  let g := a / 2048
  (ch[(g + g / n + g / (n * n)) % n]?).getD 0

/-- A corrected word of an ECC region is counted (R213). -/
def State.countCE (s : State) (a : Nat) : State := s.count (MEM + 0x200 + 4 * s.channelOf a)

/-- An uncorrectable word of an ECC region is counted (R213). -/
def State.countUE (s : State) (a : Nat) : State := s.count (MEM + 0x300 + 4 * s.channelOf a)

/-- n bytes of Hearth as stored. [DESIGN CHOICE, log entry 10] -/
def State.hread (s : State) (a n : Nat) : List Byte := Memory.read s.hearth.mem a n

/-- Bytes stored in Hearth. -/
def State.hwrite (s : State) (a : Nat) (bs : List Byte) : State :=
  s.putMem (Memory.write s.hearth.mem a bs)

/-! ### Segments and streams (R214, R215) -/

/-- The data bytes D of a segment (R212). -/
def Segment.dataBytes (g : Segment) : Nat := g.length * (if g.ecc then 16384 else extent)

/-- QUOTA_f. -/
def Segment.quotaOf (g : Segment) (f : Nat) : Nat := sget 0 g.quota f

/-- ΣQ. -/
def Segment.sumQuota (g : Segment) : Nat := (g.quota.map (·.2)).foldl (· + ·) 0

/-- L_f (R215). -/
def Segment.streamLen (g : Segment) (f : Nat) : Nat := 64 * (g.dataBytes * g.quotaOf f / (64 * g.sumQuota))

/-- Where stream f begins: the streams lie in increasing tile number from the segment's first byte (R215). -/
def Segment.streamBase (g : Segment) (f : Nat) : Nat :=
  g.base * extent + ((upTo f).map g.streamLen).foldl (· + ·) 0

/-- N_seg (R215): the least number of worst-case frames over the streams. -/
def Segment.nSeg (g : Segment) : Nat :=
  let ns := g.quota.map (fun c => g.streamLen c.1 / c.2)
  match ns with
  | [] => 0
  | n :: ns => ns.foldl min n

/-- The Hearth address of the byte at an unwrapped position of stream f. -/
def Segment.streamAddr (g : Segment) (f pos : Nat) : Nat := g.streamBase f + pos % (max (g.streamLen f) 1)

/-- Bytes stored into a stream, wrapping at its end (R217). -/
def State.streamWrite (s : State) (g : Segment) (f pos : Nat) (bs : List Byte) : State :=
  let room := g.streamLen f - pos % (max (g.streamLen f) 1)
  (s.hwrite (g.streamAddr f pos) (bs.take room)).hwrite (g.streamBase f) (bs.drop room)

/-- Bytes of a stream from an unwrapped position on. -/
def State.streamRead (s : State) (g : Segment) (f pos n : Nat) : List Byte :=
  let room := g.streamLen f - pos % (max (g.streamLen f) 1)
  s.hread (g.streamAddr f pos) (min n room) ++ s.hread (g.streamBase f) (n - room)

/-- The bytes of a tile-frame, unwrapped, from the address and count its slot gives. -/
def State.tileBytes (s : State) (g : Segment) (f addr n : Nat) : List Byte :=
  s.streamRead g f (addr - g.streamBase f) n

/-! ### The active segment (R223, R234) -/

/-- The segment that is ARMED or in POST; one that a QUENCH caught in POST is until its record is written (R233). [DEDUCED, log entry 47] -/
def State.shownActive (s : State) : Option Active :=
  match s.hearth.act, s.hearth.flush with
  | some a, _ => some a
  | none, some (a, _) => if a.post.isSome then some a else none
  | none, none => none

/-- A segment is ARMED or POST (HRT_STAT.ACTIVE). -/
def State.segActive (s : State) : Bool := s.shownActive.isSome

/-- A segment is in POST: a post-trigger window is open (R445). -/
def State.inPost (s : State) : Bool := match s.shownActive with | some a => a.post.isSome | none => false

/-! ### Metadata slots (R219–R222) -/

def fTRIGGER : Nat := 0
def fDIVERGENT : Nat := 6
def fQUENCH : Nat := 7
def fMEMUE : Nat := 8
def fCRCFAIL : Nat := 9
def fLAST : Nat := 10

/-- No record (R219). -/
def noRidx : Nat := 0x80000000

/-- The tile-frame of tile f in a frame. -/
def Frame.tf (fr : Frame) (f : Nat) : TileFrame := sget {} fr.tfs f

/-- The frame with the tile-frame of tile f changed. -/
def Frame.onTf (fr : Frame) (f : Nat) (g : TileFrame → TileFrame) : Frame :=
  { fr with tfs := sput {} fr.tfs f (g (fr.tf f)) }

/-- The frame FLAGS field (R220). -/
def Frame.flags (fr : Frame) : Nat :=
  fr.marks ||| (2 * b2n (fr.gap ≠ 0) + 4 * b2n (fr.fault ≠ 0) + 8 * b2n (fr.miss ≠ 0) + 16 * b2n (fr.oversz ≠ 0)
    + 32 * b2n (fr.vraw ≠ 0))

/-- A slot with its SCRC (R219). -/
def sealSlot (b : List Byte) : List Byte :=
  let z := overlay b 60 (zeros 4)
  overlay z 60 (leBytes 4 (crc32c z))

/-- The TILES table of a frame (R219): the address and count of each used tile-frame, zero for an unused tile; the address of
a tile-frame that stored nothing is a free value. [DESIGN CHOICE, log entry 43] -/
def tilesTable (g : Segment) (used : List Nat) (fr : Frame) : List Byte :=
  (upTo 48).flatMap (fun f =>
    let t := fr.tf f
    let at_ := if t.count = 0 then (Config.emptyTileAddr fr.n f).toNat else g.streamAddr f t.pos
    if used.contains f then leBytes 5 at_ ++ leBytes 3 t.count else zeros 8)

/-- DIGEST (R221): the XOR of the tile-frames' CRCs, and the CRC of slot bytes 64–447. -/
def State.digestOf (s : State) (g : Segment) (used : List Nat) (fr : Frame) : Nat :=
  let x := (used.map (fun f => crc32c (s.streamRead g f (fr.tf f).pos (fr.tf f).count))).foldl Nat.xor 0
  x + 2 ^ 32 * crc32c (tilesTable g used fr)

/-- The 512 bytes of a frame's slot (R219). -/
def State.slotBytes (s : State) (seg : Nat) (fr : Frame) (recno ridx : Nat) : List Byte :=
  let g := s.segAt seg
  let used := s.usedTiles
  let total := (used.map (fun f => (fr.tf f).count)).foldl (· + ·) 0
  let b := pack 512 [(0, 4, fr.n), (4, 10, fr.stamp), (14, 2, fr.tfrac), (16, 4, fr.flags), (20, 4, total),
    (24, 8, s.digestOf g used fr), (32, 4, recno), (36, 4, ridx), (40, 1, seg), (41, 1, used.length), (48, 10, fr.cstamp),
    (448, 6, fr.gap), (454, 6, fr.fault), (460, 6, fr.miss), (466, 6, fr.oversz), (472, 6, fr.vraw)]
  sealSlot (overlay b 64 (tilesTable g used fr))

/-- The address of slot i (R208). -/
def slotAddr (i : Nat) : Nat := slotArea + 512 * i

/-- A slot as it stands in Hearth. -/
def State.slotRead (s : State) (i : Nat) : List Byte := s.hread (slotAddr i) 512

/-- A slot rewritten in place, SCRC with it (R222). -/
def State.slotPatch (s : State) (i : Nat) (g : List Byte → List Byte) : State :=
  s.hwrite (slotAddr i) (sealSlot (g (s.slotRead i)))

/-- A field of k bytes of a slot changed. -/
def patchLE (i k : Nat) (g : Nat → Nat) (b : List Byte) : List Byte := overlay b i (leBytes k (g (fieldLE b i k)))

/-- The masks a mark can go to (R219): gap, fault, missing, oversize, verify; or none but the flags. -/
inductive MaskKind where
  | gap
  | fault
  | miss
  | vraw
  | none
deriving DecidableEq, Repr

def MaskKind.offset : MaskKind → Nat
  | .gap => 448 | .fault => 454 | .miss => 460 | .vraw => 472 | .none => 478

def MaskKind.flag : MaskKind → Nat
  | .gap => 2 | .fault => 4 | .miss => 8 | .vraw => 32 | .none => 0

/-- A mark applied to an open frame: the tile's bit in a mask, and frame flags. -/
def Frame.mark (fr : Frame) (m : MaskKind) (f flags : Nat) : Frame :=
  let fr := { fr with marks := fr.marks ||| flags }
  let b := 2 ^ f
  match m with
  | .gap => { fr with gap := fr.gap ||| b }
  | .fault => { fr with fault := fr.fault ||| b }
  | .miss => { fr with miss := fr.miss ||| b }
  | .vraw => { fr with vraw := fr.vraw ||| b }
  | .none => fr

/-- A mark applied to a written slot: FLAGS, mask, SCRC (R222). -/
def State.slotMark (s : State) (i : Nat) (m : MaskKind) (f flags : Nat) : State :=
  s.slotPatch i (fun b =>
    let b := patchLE 16 4 (· ||| (flags ||| m.flag)) b
    if m = .none then b else patchLE m.offset 6 (· ||| 2 ^ f) b)

/-- The frames of which no slot is written yet: the open ones, and those whose slots are written after a QUENCH (R233). -/
def Hearth.unwritten (h : Hearth) : List Frame := h.opens ++ (h.flush.map (·.2)).getD []

/-- A frame whose slot is not written yet is changed. -/
def Hearth.onFrame (h : Hearth) (n : Nat) (g : Frame → Frame) : Hearth :=
  let at_ (fr : Frame) : Frame := if fr.n = n then g fr else fr
  { h with opens := h.opens.map at_, flush := h.flush.map (fun x => (x.1, x.2.map at_)) }

/-- A mark for tile f of frame n: on the frame while its slot is not written, or on its slot while it is in the ring; otherwise the frame
is beyond marking (R222). -/
def State.markFrame (s : State) (n : Nat) (m : MaskKind) (f flags : Nat) : State :=
  match s.hearth.ring.find? (fun fr => fr.n = n) with
  | some fr => s.slotMark fr.slot m f flags
  | none => s.onH (fun h => h.onFrame n (fun fr => fr.mark m f flags))

/-- Frame n can still be marked. -/
def State.markable (s : State) (n : Nat) : Bool :=
  s.hearth.ring.any (fun fr => fr.n = n) || s.hearth.unwritten.any (fun fr => fr.n = n)

/-- Frame n carries a flag already. -/
def State.frameHas (s : State) (n flag : Nat) : Bool :=
  match s.hearth.ring.find? (fun fr => fr.n = n) with
  | some fr => bitOf (fieldLE (s.slotRead fr.slot) 16 4) flag
  | none => s.hearth.unwritten.any (fun fr => fr.n = n && bitOf fr.marks flag)

/-- Frame n lies in the range that begins at a and runs len frames further, modulo 2^32 (R103). -/
def inRange (a len n : Nat) : Bool := frameDiff n a ≤ len

/-- The newest frame issued, opened or closed. -/
def State.newestFrame (s : State) : Option Nat :=
  (s.hearth.opens.map (·.n) ++ s.hearth.tileDone.map (·.2)).foldl laterFrame none

/-- The gap marks of the frames from x to y, for either order of the two; those not issued yet take their marks when they are
(R103). -/
def State.gapRange (s : State) (tile x y : Nat) (quench : Bool) : State :=
  let a := if frameLt y x then y else x
  let len := if frameLt y x then frameDiff x y else frameDiff y x
  let ns := (s.hearth.ring ++ s.hearth.unwritten).map (·.n)
  let s := s.each (ns.filter (inRange a len)) (fun s n => s.markFrame n .gap tile (if quench then 2 ^ fQUENCH else 0))
  let ahead := match s.newestFrame with | some n => frameLt n (frameAdd a len) | none => true
  if ahead then s.onH (fun h => { h with marks := h.marks ++ [{ tile := tile, a := a, len := len, quench := quench }] }) else s

/-- The mark of a report without identity: on the tile's open tile-frame, or the next to open (R103). -/
def State.gapNoid (s : State) (tile : Nat) (quench : Bool) : State :=
  match s.hearth.opens.find? (fun fr => (fr.tf tile).opened && !(fr.tf tile).closed && !(fr.tf tile).shut) with
  | some fr => s.markFrame fr.n .gap tile (if quench then 2 ^ fQUENCH else 0)
  | none => s.onH (fun h => { h with noid := h.noid ++ [(tile, quench)] })

/-- The gap marks of a slag or gap report (R103). -/
def State.gapMarks (s : State) (tile : Nat) (range : Option (Nat × Nat)) (noid quench : Bool) : State :=
  let s := match range with | some (x, y) => s.gapRange tile x y quench | none => s
  if noid then s.gapNoid tile quench else s

/-- The stamp of a class 6 report of lane l that is stamped with the time of the report (R103), at the resolution of its class
and less LN_SKEWC (R299). -/
def State.reportNow (s : State) (l : Nat) : Stamp × StampMark :=
  (s.stampOf s.rawNow res312 (sx 32 (s.reg (aRx l oSKEWC))), s.stampMark)

/-- A slag word delivered from a lane queue is reported (R103): marks, and a class 6 entry. -/
def State.slagReport (s : State) (q cause : Nat) (noid : Bool) (first last : Option Ident) : State :=
  let f := q / 2
  let a := (first.map (·.frame)).getD 0
  let b := (last.map (·.frame)).getD 0
  let s := s.gapMarks f (if first.isSome && last.isSome then some (a, b) else none) noid (bitOf cause 4)
  let t := (last.map (fun i => (i.stamp, i.mark))).getD (s.reportNow q)
  s.logMarked t.1 t.2 6 q 1 [(20, 1, q), (21, 1, cause), (24, 4, a), (28, 4, b)]

/-- A gap report for a loss after the queues (R103, R153, R278, R284): one FRAME of a tile, as FIRST and LAST, with the stamp of the
lost strip where it is held. -/
def State.gapReport (s : State) (lane tile frame cause : Nat) (t : Option (Stamp × StampMark)) : State :=
  let s := s.gapMarks tile (some (frame, frame)) false (bitOf cause 4)
  let t := t.getD (s.reportNow lane)
  s.logMarked t.1 t.2 6 lane 1 [(20, 1, lane), (21, 1, cause), (24, 4, frame), (28, 4, frame)]

/-! ### Digests (R384) -/

/-- Digests are sent and compared while the partner is in contact as follower or holder. -/
def State.comparing (s : State) : Bool := (s.role = roFOLLOWER || s.role = roHOLDER) && s.runs .pair

/-- A frame is flagged DIVERGENT and counted, while it can still be marked (R384). -/
def State.diverge (s : State) (n : Nat) : State :=
  if s.markable n && !s.frameHas n fDIVERGENT then
    (s.markFrame n .none 0 (2 ^ fDIVERGENT)).count (PAIR + 0x100)
  else s

/-- The DIVERGENT entries of a frame (R395 kind 5). -/
def State.logDivergent (s : State) (n : Nat) (frameDiffers : Bool) : State :=
  let tiles := (s.pair.fragDiff.filter (fun c => c.1 = n)).map (·.2)
  let s := s.putPair { s.pair with fragDiff := s.pair.fragDiff.filter (fun c => c.1 ≠ n) }
  let s := s.each tiles (fun s f => s.logDev .pair 5 0 [(21, 1, f), (22, 1, 1 + 2 * b2n frameDiffers), (28, 4, n)])
  if tiles.isEmpty && frameDiffers then s.logDev .pair 5 0 [(21, 1, 0xFF), (22, 1, 2), (28, 4, n)] else s

/-- Both members' digests of one tile-frame or frame are known: they are compared. -/
def State.compareDigest (s : State) (a b : DigestNote) : State :=
  if a.tile = 0xFF then
    let differs : Bool := a.value ≠ b.value
    let s := if differs then s.diverge a.frame else s
    s.logDivergent a.frame differs
  else if a.value ≠ b.value then
    (s.diverge a.frame : State) |> fun s =>
      s.putPair { s.pair with fragDiff := s.pair.fragDiff ++ [(a.frame, a.tile)] }
  else s

/-- This member's digest is sent, and compared if the partner's has come (R384); of a frame given up as uncompared none is awaited. -/
def State.ownDigest (s : State) (d : DigestNote) : State :=
  if s.comparing then
    let s := if d.tile = 0xFF then s.mirrorSend mDIGEST (pack 12 [(0, 4, d.frame), (4, 8, d.value)])
             else s.mirrorSend mFDIGEST (pack 16 [(0, 1, d.tile), (4, 4, d.frame), (8, 8, d.value)])
    if s.pair.gaveUp.contains d.frame then s else
    match s.pair.theirs.find? (fun e => e.tile = d.tile && e.frame = d.frame) with
    | some e => (s.putPair { s.pair with theirs := s.pair.theirs.erase e }).compareDigest d e
    | none => s.putPair { s.pair with own := s.pair.own ++ [d] }
  else s

end Sys2Proof.Machine
end

