-- ==== Sys2Proof/Machine/Hearth.lean ====
section
/-!
DEFINITION. Frames and records (chapter 07): tile-frames open and close (R217), frames take their slots (R218), stream space
and eviction (R225, R226), records open and close (R226–R228), HRT starts, stops and is quenched (R216, R232, R233).
-/

namespace Sys2Proof.Machine

/-- The ranges [a, a + n) and [b, b + m) share an element. -/
def overlaps (a n b m : Nat) : Bool := a < b + m && b < a + n && n ≠ 0 && m ≠ 0

/-! ### What is in the compressor of a tile -/

def State.compAt (s : State) (k : Nat) : Compressor := (s.comps[k]?).getD {}
def State.onComp (s : State) (k : Nat) (g : Compressor → Compressor) : State :=
  s.putComps (s.comps.setIfInBounds k (g (s.compAt k)))

/-- A tile's open block. -/
def Compressor.openBlock (c : Compressor) (i : Nat) : Option Block := (c.open_[i]?).getD none

/-- The compressor holds a block of tile-frame (f, n) that is not committed. -/
def State.uncommitted (s : State) (f n : Nat) : Bool :=
  let c := s.compAt (f / 4)
  (c.waiting ++ c.coding ++ c.ready ++ (c.openBlock (f % 4)).toList).any (fun b => b.tile = f && b.frame = n)

/-! ### Streams and eviction (R225, R226) -/

/-- A frame may be evicted: at or below K − P while ARMED, below T − P′ in POST (R225, R226). -/
def State.evictable (s : State) (a : Active) (m : Nat) : Bool :=
  match a.post with
  | some p => frameLt m (frameAdd p.t (-p.pact))
  | none => match s.trig.k with
    | some k => frameLe m (frameAdd k (-(s.segAt a.seg).p))
    | none => false

/-- The oldest frame of the ring loses its place; its slot reads RIDX 0x8000_0000 (R225). -/
def State.evictOne (s : State) : State :=
  match s.hearth.ring with
  | fr :: rest => (s.slotPatch fr.slot (patchLE 36 4 (fun _ => noRidx))).onH (fun h => { h with ring := rest })
  | [] => s

/-- Where stream f's oldest live byte stands. -/
def State.streamTail (s : State) (a : Active) (f : Nat) : Nat :=
  let w := sget 0 a.wpos f
  ((s.hearth.ring ++ s.hearth.opens).filterMap (fun fr =>
    let t := fr.tf f
    if t.placed && t.count ≠ 0 then some t.pos else none)).foldl min w

/-- Free bytes of stream f. -/
def State.streamFree (s : State) (a : Active) (f : Nat) : Nat :=
  (s.segAt a.seg).streamLen f - (sget 0 a.wpos f - s.streamTail a f)

/-- The oldest open frame that has bytes in stream f. -/
def State.oldestOpen (s : State) (f : Nat) : Option Frame :=
  s.hearth.opens.find? (fun fr => (fr.tf f).placed && (fr.tf f).count ≠ 0)

/-- The open frame changed. -/
def State.onOpen (s : State) (n : Nat) (g : Frame → Frame) : State :=
  s.onH (fun h => { h with opens := h.opens.map (fun fr => if fr.n = n then g fr else fr) })

/-- An open frame's tile-frames are evicted: the space they held is free, and the frame has no place in the ring (R225). [DEDUCED, log entry 44] -/
def State.evictOpen (s : State) (n : Nat) : State :=
  s.onOpen n (fun fr =>
    { fr with lost := true, tfs := fr.tfs.map (fun c => (c.1, { c.2 with placed := false, pos := 0, count := 0, data := [] })) })

/-- Frames are evicted, oldest first and as far as allowed, until stream f has n bytes free: the closed ones of the ring, then those
still open (R225, R226). [DEDUCED, log entry 44] -/
def State.makeRoom (s : State) (f n : Nat) : Nat → State
  | 0 => s
  | fuel + 1 =>
    match s.hearth.act with
    | none => s
    | some a =>
      if n ≤ s.streamFree a f then s
      else match s.hearth.ring with
        | fr :: _ => if s.evictable a fr.n then s.evictOne.makeRoom f n fuel else s
        | [] => match s.oldestOpen f with
          | some fr => if s.evictable a fr.n then (s.evictOpen fr.n).makeRoom f n fuel else s
          | none => s

/-- Frame n belongs to the armed ring or the open record: not before F0, not beyond the record's last frame, not abandoned. -/
def State.inRing (s : State) (a : Active) (n : Nat) : Bool :=
  frameLe a.f0 n
    && (match a.post with | some p => frameLt n (frameAdd p.t (s.segAt a.seg).q) | none => true)
    && (match a.trunc with | some t => frameLt n t | none => true)
    && (match a.endAfter with | some e => frameLe n e | none => true)

/-- An open frame. -/
def State.openFrame? (s : State) (n : Nat) : Option Frame := s.hearth.opens.find? (fun fr => fr.n = n)

/-- Bytes that no stream takes wait with their tile-frame (R252: a frame that closes after a re-arm enters its ring). [DEDUCED, log entry 45] -/
def State.holdBytes (s : State) (f n : Nat) (bs : List Byte) : State :=
  s.onOpen n (fun fr =>
    if fr.lost then fr else fr.onTf f (fun t => { t with data := t.data ++ bs, count := t.count + bs.length }))

/-- Bytes written at the head of stream f for tile-frame (f, n). -/
def State.placeBytes (s : State) (a : Active) (f n : Nat) (bs : List Byte) : State :=
  let w := sget 0 a.wpos f
  let s := s.streamWrite (s.segAt a.seg) f w bs
  let s := s.onOpen n (fun fr => fr.onTf f (fun t =>
    { t with placed := true, pos := if t.placed then t.pos else w, count := t.count + bs.length }))
  s.onH (fun h => { h with act := some { a with wpos := sput 0 a.wpos f (w + bs.length) } })

/-! ### Record close (R226–R228) -/

/-- The record flags of R228 that OR the frames' flags (R220). -/
def recordFlags (frameFlags : Nat) : Nat :=
  8 * b2n (bitOf frameFlags 1) + 16 * b2n (bitOf frameFlags 2) + 32 * b2n (bitOf frameFlags 6)
    + 64 * b2n (bitOf frameFlags 4) + 128 * b2n (bitOf frameFlags 8) + 256 * b2n (bitOf frameFlags 9)

/-- The 64 bytes of a directory entry (R228). -/
def Record.entry (r : Record) (seg state : Nat) : List Byte :=
  let b := pack 64 [(0, 1, state), (1, 1, seg), (2, 2, r.rflags), (4, 4, r.recno), (8, 4, r.pact), (12, 4, r.qact),
    (16, 4, r.slot0), (20, 4, r.tframe), (24, 10, r.tstamp), (34, 2, r.tfrac), (36, 10, r.cstamp), (48, 8, r.bytes)]
  overlay b 56 (leBytes 4 (crc32c (b.take 56)))

/-- The directory entry of segment s is written. -/
def State.writeDir (s : State) (seg : Nat) (r : Record) : State := s.hwrite (dirArea + 64 * seg) (r.entry seg 4)

/-- When what closes now closes: for what a QUENCH closed, the time of the QUENCH (R219, R233). -/
def State.closeStamp (s : State) : Stamp := s.hearth.flushAt.getD s.now

/-- The stamp a command to a function acts at: on a follower, that of the holder's command (R383). -/
def State.cmdStamp (s : State) : Stamp := s.pair.cmdAt.getD s.now

/-- A change of what a trigger decision meets, at a stamp (R253). -/
def State.trigItem (s : State) (t : Stamp) (i : TrigItem) : State :=
  s.putTrig { s.trig with items := s.trig.items ++ [(t, i)] }

/-- Bytes of the open frames that `which` names, standing in the active segment's streams, are taken back, so that they can enter the
next ring. [DEDUCED, log entry 45] -/
def State.unplaceOpens (s : State) (a : Active) (which : Frame → Bool) : State :=
  s.onH (fun h => { h with opens := h.opens.map (fun fr =>
    if which fr then
      { fr with tfs := fr.tfs.map (fun c =>
          if c.2.placed then
            (c.1, { c.2 with placed := false, pos := 0, data := s.streamRead (s.segAt a.seg) c.1 c.2.pos c.2.count })
          else c) }
    else fr) })

/-- A follower's record takes QACT, TRUNCATED, ABORTED, QUENCH and CSTAMP from the holder's RECORD (R383). -/
def Record.asHolder (r : Record) (qact flags : Nat) (cstamp : Stamp) : Record :=
  { r with qact := qact, rflags := r.rflags / 8 * 8 + flags % 8, cstamp := cstamp }

/-- The open record closes (R227): its last frame is flagged LAST, the directory entry is written, the segment is CLOSED, the
close is posted to the host and told to the pair, and a re-arm follows a record that was not aborted (R252).
[DEDUCED, log entry 44; DEDUCED, log entry 51] -/
def State.closeRecord (s : State) (a : Active) (p : PostInfo) (aborted quench : Bool) : State :=
  let frames := s.hearth.ring.filter (fun fr => frameLe (frameAdd p.t (-p.pact)) fr.n && s.inRing a fr.n)
  let s := match frames.getLast? with
    | some fr => s.slotPatch fr.slot (patchLE 16 4 (· ||| 2 ^ fLAST))
    | none => s
  let g := s.segAt a.seg
  let qact := (frames.filter (fun fr => frameLe p.t fr.n)).length
  let pact := frames.length - qact
  let slots := frames.map (fun fr => s.slotRead fr.slot)
  let allFlags := (slots.map (fun b => fieldLE b 16 4)).foldl (· ||| ·) 0
  let trunc : Bool := a.trunc.isSome
  let r : Record :=
    { recno := p.recno, pact := pact, qact := qact,
      slot0 := match frames with | fr :: _ => fr.slot | [] => g.mbase + a.slots % (max g.mslots 1),
      tframe := p.t, tstamp := p.tstamp, tfrac := p.tfrac, cstamp := s.closeStamp,
      rflags := b2n trunc + 2 * b2n aborted + 4 * b2n quench + recordFlags allFlags,
      bytes := (slots.map (fun b => fieldLE b 20 4)).foldl (· + ·) 0,
      from_ := match frames with | fr :: _ => fr.stamp | [] => p.tstamp,
      upto := match frames.getLast? with | some fr => fr.cstamp | none => s.closeStamp }
  let r := match s.follower, s.pair.closes.find? (fun c => c.1 = a.seg) with
    | true, some (_, q, fl, t) => r.asHolder q fl t
    | _, _ => r
  let s : State := s.putPair { s.pair with closes := s.pair.closes.filter (fun c => c.1 ≠ a.seg) }
  let s := s.unplaceOpens a (fun _ => true)
  let s := s.onSeg a.seg (fun g => { g with phase := .closed, record := some r })
  let s := s.writeDir a.seg r
  let s := s.onH (fun h => { h with act := none, ring := [], slotWait := false, measDue := h.measDue ++ [a.seg], rangeDue := h.rangeDue ++ [a.seg] })
  let s := if trunc then s.count (HRT + 0x118) else s
  let s := s.eqPost 3 a.seg r.recno (r.entry a.seg 4)
  let s := s.tellRecord rcCLOSE a.seg qact r.rflags r.cstamp
  let again : Bool := !aborted && a.endAfter.isNone && g.next < 64
  let s := s.trigItem r.cstamp (.phase (if again then .rearm else .unarmed))
  if again then s.putTrig { s.trig with rearm := some (a.seg, g.next) } else s

/-- The open record has all its frames: no open frame precedes its end, and every frame up to its end has been issued. -/
def State.recordEnded (s : State) (a : Active) : Bool :=
  let before (n : Nat) : Bool := s.hearth.opens.any (fun fr => frameLt fr.n n && !fr.lost)
  match a.post with
  | none => false
  | some p =>
    let full := frameAdd p.t (s.segAt a.seg).q
    let last := s.newestFrame
    let issued (n : Nat) : Bool := match last with | some l => frameLe n l | none => false
    (issued (frameAdd full (-1)) && !before full)
      || (match a.trunc with | some t => !before t | none => false)
      || (match a.endAfter with | some e => !before (frameAdd e 1) | none => false)

/-- The record closes if it has all its frames: ABORTED after a DISARM or a STOP or QUENCH of TRG (R249). [DEDUCED, log entry 51] -/
def State.maybeClose (s : State) : State :=
  match s.hearth.act with
  | some a => match a.post with
    | some p =>
      if s.recordEnded a then s.closeRecord a p a.endAfter.isSome false
      else s
    | none => s
  | none => s

/-- The record is truncated at frame n (R226): frames from n on are abandoned, and the lower frame of several counts. The
partner is told (R386). [DEDUCED, log entry 44] -/
def State.truncate (s : State) (n : Nat) (own : Bool) : State :=
  match s.hearth.act with
  | some a =>
    let lower : Bool := match a.trunc with | some t => frameLt n t | none => true
    if a.post.isSome && lower then
      let gone := s.hearth.ring.filter (fun fr => frameLe n fr.n)
      let s := s.each gone (fun s fr => s.slotPatch fr.slot (patchLE 36 4 (fun _ => noRidx)))
      let s := s.onH (fun h =>
        { h with act := some { a with trunc := some n }, ring := h.ring.filter (fun fr => frameLt fr.n n),
                 opens := h.opens.map (fun fr =>
                   if frameLe n fr.n && fr.tfs.any (fun c => c.2.placed && c.2.count ≠ 0) then { fr with lost := true } else fr) })
      let s := if own && s.comparing then s.mirrorSend mSPACE (leBytes 4 n) else s
      if s.comparing then s.logDev .pair 9 0 [(21, 1, b2n !own), (28, 4, n)] else s
    else s
  | none => s

/-- The closed segment whose record holds frame n after its trigger frame, and the record: of several, that which closed last. -/
def State.closedWith (s : State) (n : Nat) : Option (Nat × Record) :=
  let recs := (upTo 64).filterMap (fun i => match (s.segAt i).phase, (s.segAt i).record with
    | .closed, some r => if frameLe r.tframe n && frameLt n (frameAdd r.tframe r.qact) then some (i, r) else none
    | _, _ => none)
  recs.foldl (fun m x => match m with
    | some y => if y.2.cstamp < x.2.cstamp then some x else some y
    | none => some x) none

/-- The slot of the j-th frame of a segment's record. -/
def Segment.slotOf (g : Segment) (r : Record) (j : Nat) : Nat := g.mbase + (r.slot0 - g.mbase + j) % max g.mslots 1

/-- The partner truncates at frame n a record that has closed on this member with frames from n on (R386): it loses them, and their slots
read RIDX 0x8000_0000; its last frame is the one before n. [DEDUCED, log entry 107] -/
def State.truncateClosed (s : State) (n : Nat) : State :=
  match s.closedWith n with
  | none => s
  | some (i, r) =>
    let g := s.segAt i
    let keep := r.pact + frameDiff n r.tframe
    let s := s.each ((upTo (r.pact + r.qact)).filter (fun j => decide (keep ≤ j))) (fun s j =>
      s.slotPatch (g.slotOf r j) (fun b => patchLE 36 4 (fun _ => noRidx) (patchLE 16 4 (fun v => v - (v &&& 2 ^ fLAST)) b)))
    let s := if keep = 0 then s else s.slotPatch (g.slotOf r (keep - 1)) (patchLE 16 4 (· ||| 2 ^ fLAST))
    let slots := (upTo keep).map (fun j => s.slotRead (g.slotOf r j))
    let frameFlags := (slots.map (fun b => fieldLE b 16 4)).foldl (· ||| ·) 0
    let r := { r with qact := frameDiff n r.tframe, rflags := (r.rflags % 8 ||| 1) + recordFlags frameFlags,
                      bytes := (slots.map (fun b => fieldLE b 20 4)).foldl (· + ·) 0,
                      upto := match slots.getLast? with | some b => fieldLE b 48 10 | none => r.upto }
    let s := (s.onSeg i (fun g => { g with record := some r })).writeDir i r
    let s := s.count (HRT + 0x118)
    s.logDev .pair 9 0 [(21, 1, 1), (28, 4, n)]

/-! ### Accepting a block (R225, R226) -/

/-- Hearth takes the bytes of a block of tile-frame (f, n), or answers none: the write waits (R225). A post-trigger
tile-frame without space truncates the record (R226). -/
def State.acceptBytes (s : State) (f n : Nat) (bs : List Byte) : Option State :=
  if !(s.runs .hrt || s.fnState .hrt = .stopping) then none
  else
    match s.hearth.act with
    | none => some (s.holdBytes f n bs)
    | some a =>
      let lost : Bool := match s.openFrame? n with | some fr => fr.lost | none => true
      if !s.inRing a n || lost then some (s.holdBytes f n bs)
      else
        let s := s.makeRoom f bs.length (s.hearth.ring.length + s.hearth.opens.length)
        match s.hearth.act with
        | none => none
        | some a =>
          let gone : Bool := match s.openFrame? n with | some fr => fr.lost | none => true
          if gone then some (s.holdBytes f n bs)
          else if bs.length ≤ s.streamFree a f then some (s.placeBytes a f n bs)
          else
            match a.post with
            | some p =>
              if frameLe p.t n then some ((s.truncate n true).holdBytes f n bs) else none
            | none => none

/-! ### Tile-frames and frames close (R217, R218) -/

/-- The fragment digest of a tile-frame (R384). -/
def TileFrame.digest (t : TileFrame) : Nat := (t.dPix ^^^ 0xFFFFFFFF) + 2 ^ 32 * (t.dId ^^^ 0xFFFFFFFF)

/-- Tile-frame (f, n) closes; one that never opened is marked missing (R217). -/
def State.tfClose (s : State) (f n : Nat) : State :=
  match s.openFrame? n with
  | some fr =>
    let t := fr.tf f
    if t.closed then s
    else
      let s := s.onOpen n (fun fr => (fr.onTf f (fun t => { t with closed := true })))
      let s := if t.opened then s else s.markFrame n .miss f 0
      let s := s.onH (fun h => { h with tileDone := sput 0x100000000 h.tileDone f n })
      s.ownDigest { tile := f, frame := n, value := t.digest }
  | none => s

/-- Every used tile-frame of a frame has closed. -/
def State.allClosed (s : State) (fr : Frame) : Bool := s.usedTiles.all (fun f => (fr.tf f).closed)

/-- A closing frame of the armed segment takes its slot; the answer is none while the slot may not be freed (R218). As HRT ends, and
the ring with it, no slot is waited for (R232). -/
def State.takeSlot (s : State) (a : Active) (ending : Bool) : Nat → Option State
  | 0 => some s
  | fuel + 1 =>
    let g := s.segAt a.seg
    let i := g.mbase + a.slots % (max g.mslots 1)
    if s.hearth.ring.any (fun fr => fr.slot = i) then
      match s.hearth.ring with
      | fr :: _ => if ending || s.evictable a fr.n then s.evictOne.takeSlot a ending fuel else none
      | [] => some s
    else some s

/-- The frame at the head of the open frames closes into the active segment: its slot is written (R218, R219). -/
def State.storeFrame (s : State) (a : Active) (fr : Frame) : State :=
  let g := s.segAt a.seg
  let used := s.usedTiles
  let big := (used.filter (fun f => g.quotaOf f < (fr.tf f).count)).foldl (fun m f => m ||| 2 ^ f) 0
  let nOver := (used.filter (fun f => g.quotaOf f < (fr.tf f).count)).length
  let isLast : Bool := match a.post with
    | some p => frameAdd fr.n 1 = frameAdd p.t g.q
    | none => false
  let fr := { fr with oversz := big, slot := g.mbase + a.slots % (max g.mslots 1), cstamp := s.closeStamp,
                      marks := if isLast then fr.marks ||| 2 ^ fLAST else fr.marks }
  let (recno, ridx) := match a.post with
    | some p => if frameLe (frameAdd p.t (-p.pact)) fr.n then (p.recno, frameDiff fr.n p.t) else (g.recCount, noRidx)
    | none => (g.recCount, noRidx)
  let digest := s.digestOf g used fr
  let s := s.hwrite (slotAddr fr.slot) (s.slotBytes a.seg fr recno ridx)
  let s := s.onH (fun h => { h with act := some { a with slots := a.slots + 1 }, opens := h.opens.tail, ring := h.ring ++ [fr],
                                    slotWait := false })
  let s := (s.count (HRT + 0x100)).count (HRT + 0x10C) nOver
  s.ownDigest { tile := 0xFF, frame := fr.n, value := digest }

/-- Frames close in order as long as the oldest open one is complete (R218); with no segment for it a frame is discarded
(R223). As HRT ends, the record is left to close with it (R232, R233). [DEDUCED, log entry 44] -/
def State.closeFrames (s : State) (ending : Bool) : Nat → State
  | 0 => s
  | fuel + 1 =>
    match s.hearth.opens with
    | [] => s
    | fr :: rest =>
      if !s.allClosed fr then s
      else
        match s.hearth.act with
        | none =>
          (((s.onH (fun h => { h with opens := rest })).count (HRT + 0x108)).logDivergent fr.n false).closeFrames ending fuel
        | some a =>
          if !s.inRing a fr.n || fr.lost then
            ((s.onH (fun h => { h with opens := rest })).logDivergent fr.n false).closeFrames ending fuel
          else
            match s.takeSlot a ending s.hearth.ring.length with
            | none => s.onH (fun h => { h with slotWait := true })
            | some s =>
              match s.hearth.act with
              | some a =>
                let s := s.storeFrame a fr
                (if ending then s else s.maybeClose).closeFrames ending fuel
              | none => s

/-- Frames that can close do, and the record with them. -/
def State.settleFrames (s : State) : State := (s.closeFrames false s.hearth.opens.length).maybeClose

/-- Tile-frames that have been flushed or passed by close once their blocks are committed (R217). -/
def State.settleTile (s : State) (f : Nat) : State :=
  let ns := (s.hearth.opens.filter (fun fr => (fr.tf f).closing && !(fr.tf f).closed && !s.uncommitted f fr.n)).map (·.n)
  (s.each ns (fun s n => s.tfClose f n)).settleFrames

/-- The trigger frame has TFRAC and the flag TRIGGER (R219, R220). -/
def Frame.asTrigger (fr : Frame) (tfrac : Nat) : Frame := { fr with tfrac := tfrac, marks := fr.marks ||| 2 ^ fTRIGGER }

/-- A frame number that the device knows of: an open frame for it, with the marks that were waiting for it (R103), and with the trigger
if one has been placed in it (R219). -/
def State.newFrame (s : State) (n : Nat) (stamp : Stamp) : State :=
  if s.hearth.opens.any (fun fr => fr.n = n) then s
  else
    let hits := s.hearth.marks.filter (fun m => inRange m.a m.len n)
    let fr : Frame := hits.foldl (fun fr m => fr.mark .gap m.tile (if m.quench then 2 ^ fQUENCH else 0))
      { n := n, stamp := stamp, epoch := s.tb.epochs }
    let fr := match s.hearth.act.bind (·.post) with
      | some p => if p.t = n then fr.asTrigger p.tfrac else fr
      | none => fr
    s.onH (fun h =>
      { h with opens := insertBy (fun a b => frameLt a.n b.n) fr h.opens,
               marks := h.marks.filter (fun m => frameLt n (frameAdd m.a m.len)) })

/-- Tile-frame (f, n) takes no more fragments, so that one for it is late (R278). [DEDUCED, log entry 42] -/
def State.tfLate (s : State) (f n : Nat) : Bool :=
  let d := sget 0x100000000 s.hearth.tileDone f
  (d ≠ 0x100000000 && frameLe n d) || (match s.openFrame? n with | some fr => (fr.tf f).shut | none => false)

/-- A frame whose number comes with a fragment before Hearth was told of it: its stamp is the sequencer's, where that has one. -/
def State.learnFrame (s : State) (n : Nat) : State :=
  if s.hearth.opens.any (fun fr => fr.n = n) then s
  else match s.trig.frames.find? (fun fr => fr.n = n) with
    | some fr => s.newFrame n fr.t
    | none => (s.newFrame n (Config.unissuedStamp s.freeUse % stampMod)).useFree

/-- The marks without identity that wait for tile f's next tile-frame go to the one that opens (R103). -/
def State.takeNoid (s : State) (f n : Nat) : State :=
  let mine := s.hearth.noid.filter (fun d => d.1 = f)
  if mine.isEmpty then s
  else (s.markFrame n .gap f (if mine.any (·.2) then 2 ^ fQUENCH else 0)).onH (fun h => { h with noid := h.noid.filter (fun d => d.1 ≠ f) })

/-- The first fragment of FRAME n from tile f (R217): every earlier tile-frame of the tile that has not closed closes, an
unopened one as missing, and (f, n) opens. -/
def State.tfOpen (s : State) (f n : Nat) : State :=
  let s := s.learnFrame n
  let earlier := s.hearth.opens.filter (fun fr => frameLt fr.n n && !(fr.tf f).closed)
  let s := s.each earlier (fun s fr =>
    if (fr.tf f).opened then s.onOpen fr.n (fun fr => fr.onTf f (fun t => { t with closing := true, shut := true })) else s.tfClose f fr.n)
  let fresh : Bool := match s.openFrame? n with | some fr => !(fr.tf f).opened | none => false
  let s := s.onOpen n (fun fr => fr.onTf f (fun t => { t with opened := true }))
  let s := if fresh then s.takeNoid f n else s
  s.settleTile f

/-- The flush of the tile's EOT strip (R217): the tile-frame closes once its blocks are committed. -/
def State.tfFlushed (s : State) (f n : Nat) : State :=
  (s.onOpen n (fun fr => fr.onTf f (fun t => { t with closing := true }))).settleTile f

/-! ### Arming, POST, release -/

/-- A segment is armed: what the host has written into its check part is gone, and a running job whose destination lies in it ends
ABORTED, whatever becomes of the segment (R282, R283). [DEDUCED, log entry 63; DESIGN CHOICE, log entry 64] -/
def State.cutJob (s : State) (g : Segment) : State :=
  let s := s.onH (fun h => { h with rawCheck := h.rawCheck.filter (fun r => !overlaps r.1 r.2 (g.base * extent) (g.length * extent)) })
  match s.jobs.run with
  | some r =>
    if jdOp r.desc ≠ 3 && overlaps (jdDst r.desc) (jdDstLen r.desc) (g.base * extent) (g.length * extent) then
      s.putJobs { s.jobs with run := some { r with cut := true } }
    else s
  | none => s

/-- The segment is armed with first frame F0 (R249, R252): frames open now whose bytes wait enter the ring. [DEDUCED, log entry 45] -/
def State.armSegment (s : State) (seg f0 : Nat) : State :=
  let s := s.cutJob (s.segAt seg)
  let s := (s.onSeg seg (fun g => { g with phase := .armed, record := none })).onH (fun h =>
    { h with act := some { seg := seg, f0 := f0 }, ring := [], slotWait := false })
  s.each s.hearth.opens (fun s fr =>
    if frameLt fr.n f0 || fr.lost then s
    else s.each fr.tfs (fun s c =>
      match s.hearth.act with
      | some a =>
        let bs := c.2.data
        if bs.isEmpty then s
        else if bs.length ≤ s.streamFree a c.1 then
          (s.onOpen fr.n (fun fr => fr.onTf c.1 (fun t => { t with data := [], count := 0, placed := false }))).placeBytes a c.1 fr.n bs
        else s.onOpen fr.n (fun fr => { fr with lost := true })
      | none => s))

/-- The armed segment returns to EMPTY (R249, R232, R233). -/
def State.disarmSegment (s : State) : State :=
  match s.hearth.act with
  | some a =>
    let s := s.unplaceOpens a (fun _ => true)
    (s.onSeg a.seg (fun g => { g with phase := .empty })).onH (fun h => { h with act := none, ring := [], slotWait := false })
  | none => s

/-- A trigger placed at frame t opens the record (R226): it takes its number, the frames it holds take their indices, and
frames beyond its end leave the ring, the open ones among them with the bytes they have. -/
def State.enterPost (s : State) (t tfrac : Nat) (tstamp : Stamp) (pact : Nat) : State :=
  match s.hearth.act with
  | some a =>
    let g := s.segAt a.seg
    let p : PostInfo := { t := t, tfrac := tfrac, tstamp := tstamp, pact := pact, recno := g.recCount }
    let s := s.onSeg a.seg (fun g => { g with phase := .post, recCount := (g.recCount + 1) % 2 ^ 32 })
    let first := frameAdd t (-pact)
    let last := frameAdd t (g.q - 1)
    let ring := s.hearth.ring
    let s := s.each ring (fun s fr =>
      if frameLe first fr.n && frameLe fr.n last then
        s.slotPatch fr.slot (fun b =>
          let b := patchLE 36 4 (fun _ => frameDiff fr.n t) b
          if fr.n = t then patchLE 16 4 (· ||| 2 ^ fTRIGGER) (patchLE 14 2 (fun _ => tfrac) b) else b)
      else s)
    let s := s.onH (fun h =>
      { h with act := some { a with post := some p }, ring := h.ring.filter (fun fr => frameLe fr.n last),
               opens := h.opens.map (fun fr => if fr.n = t then fr.asTrigger tfrac else fr) })
    let s := s.unplaceOpens a (fun fr => frameLt last fr.n)
    let s := s.tellRecord rcPOST a.seg t p.recno tstamp
    s.settleFrames
  | none => s

/-- DISARM's part in Hearth (R249): an armed segment returns to EMPTY, a segment in POST closes ABORTED once its issued
frames have closed. -/
def State.endSegment (s : State) : State :=
  match s.hearth.act with
  | some a =>
    let s := s.tellRecord rcDISARM a.seg 0 0 0
    if a.post.isSome then
      let e := match (s.hearth.opens.map (·.n)).getLast?, s.newestFrame with
        | some n, _ => n
        | none, some n => n
        | none, none => frameAdd a.f0 (-1)
      (s.onH (fun h => { h with act := some { a with endAfter := some e } })).settleFrames
    else s.disarmSegment
  | none => s

/-- A CLOSED segment becomes EMPTY (R227); any other is left. -/
def State.releaseSegment (s : State) (seg : Nat) : State :=
  if (s.segAt seg).phase = .closed then
    let s := s.onSeg seg (fun g => { g with phase := .empty, record := none })
    let s := s.putTrig { s.trig with meas := s.trig.meas.filter (fun c => c.1 / 8 ≠ seg) }
    let s := s.onH (fun h => { h with measDue := h.measDue.filter (· ≠ seg), rangeDue := h.rangeDue.filter (· ≠ seg) })
    let s := s.putField { s.field with ranges := s.field.ranges.filter (fun r => r.seg ≠ seg) }
    s.tellRecord rcRELEASE seg 0 0 0
  else s

/-! ### The HRT function (R216, R232, R233) -/

/-- The first failing check of R216, or 0. -/
def State.hrtFault (s : State) : Nat :=
  let defd := (upTo 64).filter (fun i => (s.segAt i).length ≠ 0)
  let g := s.segAt
  let pairs (p : Segment → Segment → Bool) : Bool := defd.any (fun i => defd.any (fun j => i < j && p (g i) (g j)))
  if defd.any (fun i => (g i).base < 65536 || s.capacity / extent < (g i).base + (g i).length) then 1
  else if pairs (fun a b => overlaps a.base a.length b.base b.length) then 2
  else if defd.any (fun i => 1572864 < (g i).mbase + (g i).mslots)
      || pairs (fun a b => overlaps a.mbase a.mslots b.mbase b.mslots) then 3
  else if defd.any (fun i => (g i).ecc && (g i).dataBytes < (g i).sumQuota) then 4
  else 0

/-- START's end (R232): N_seg of every segment is computed. Tile-frames that opened while HRT was STOPPED stay open, their blocks
waiting in the compressors. [DEDUCED, log entry 47] -/
def State.hrtStart (s : State) : State :=
  s.onH (fun h => { h with segs := h.segs.map (fun g => { g with cap := if g.length = 0 then 0 else g.nSeg }), ring := [], slotWait := false })

/-- HRT stops, or is quenched (R232, R233): frames of which a used tile-frame has opened are to be stored, their unopened tile-frames
missing; the others are dropped. A QUENCH flags the frames of the tile-frames it closes. -/
def State.closeOpens (s : State) (quench : Bool) : State :=
  let s := s.onH (fun h => { h with opens := h.opens.filter (fun fr => fr.tfs.any (fun c => c.2.opened && s.usedTile c.1)) })
  let open_ (fr : Frame) : Bool := s.usedTiles.any (fun f => (fr.tf f).opened && !(fr.tf f).closed)
  let s := s.each ((s.hearth.opens.filter open_).map (·.n)) (fun s n => if quench then s.markFrame n .none 0 (2 ^ fQUENCH) else s)
  s.each (s.hearth.opens.map (·.n)) (fun s n => s.each s.usedTiles (fun s f => s.tfClose f n))

/-- The segment ends with HRT: an armed one returns to EMPTY, one in POST closes ABORTED. -/
def State.abortSegment (s : State) (quench : Bool) : State :=
  match s.hearth.act with
  | some a => match a.post with
    | some p => s.closeRecord a p true quench
    | none =>
      let s := (s.tellRecord rcDISARM a.seg 0 0 0).disarmSegment
      s.trigItem s.cmdStamp (.phase .unarmed)
  | none => s

/-- STOPPING ends (R232); what a QUENCH before left to be written is still written (R233). -/
def State.hrtStopped (s : State) : State :=
  let s := s.closeOpens false
  let s := s.closeFrames true s.hearth.opens.length
  let s := s.abortSegment false
  s.onH (fun h => { h with opens := [], ring := if h.flush.isSome then h.ring else [], slotWait := false })

/-- QUENCH of HRT (R233): acceptance stops, open tile-frames close as they stand with their frames flagged QUENCH; an armed segment
returns to EMPTY. The slots, and the directory entry that makes a segment in POST CLOSED (R227), are written later, and FLUSHING reads
1 until then. With no segment active the frames are discarded (R223); slots of a QUENCH before stay due. [DEDUCED, log entry 47] -/
def State.hrtQuench (s : State) : State :=
  let s := s.closeOpens true
  match s.hearth.act with
  | some a =>
    let s := if a.post.isSome then s else s.onSeg a.seg (fun g => { g with phase := .empty })
    let s := s.trigItem s.cmdStamp (.phase .unarmed)
    let s := s.onH (fun h => { h with flush := some (a, h.opens), flushAt := some s.cmdStamp, act := none, opens := [], slotWait := false })
    s.setBit (HRT + 4) 31 true
  | none => (s.closeFrames true s.hearth.opens.length).onH (fun h => { h with opens := [], slotWait := false })

/-- The slots and the directory entry of a QUENCH are written, and FLUSHING clears (R233). The frames that have opened since stay open.
[DEDUCED, log entry 47] -/
def State.hrtFlushDone (s : State) : State :=
  let s := match s.hearth.flush with
    | some (a, frames) =>
      let since := s.hearth.opens
      let s := s.onH (fun h => { h with flush := none, act := some a, opens := frames })
      let s := s.closeFrames true frames.length
      let s := match s.hearth.act with
        | some a => match a.post with
          | some p => s.closeRecord a p true true
          | none => s.disarmSegment
        | none => s
      s.onH (fun h => { h with opens := since, ring := [] })
    | none => s
  (s.onH (fun h => { h with flush := none, flushAt := none })).setBit (HRT + 4) 31 false

/-- HRT_STAT as read (R234). [DEDUCED, log entry 47] -/
def State.hrtStat (s : State) : Nat :=
  b2n (s.bit (HRT + 4) 31) * 2 ^ 31
    + (match s.shownActive with | some a => 2 ^ 30 + a.seg | none => 0)

/-! ### The commands -/

/-- R218: a waiting slot write proceeds once its old frame may be evicted. -/
def slotWriteResume (s : State) : State :=
  if s.hearth.slotWait && (s.runs .hrt || s.fnState .hrt = .stopping) then s.settleFrames else s

/-- R233: the slot and directory writes after a QUENCH are done. -/
def quenchSlotWritesDone (s : State) : State := if s.bit (HRT + 4) 31 then s.hrtFlushDone else s

end Sys2Proof.Machine
end

