-- ==== Sys2Proof/Machine/Alarms.lean ====
section
/-!
DEFINITION. The live pace (R198, R447) and the telemetry alarms (R201, R451), which many events move.
-/

namespace Sys2Proof.Machine

def BGS : Nat := 0x00A00000
def aTelSeq : Nat := BGS + 0x40
def aTelAlarm : Nat := BGS + 0x44
def aTelSeen : Nat := BGS + 0x48

/-! ### The live pace (R198, R447) -/

/-- The STATE of a power domain: 0 ACTIVE, 1 RETENTION, 2 OFF (R456). -/
def aDomain (n : Nat) : Nat := BGS + 0x100 + 4 * n
def State.domState (s : State) (n : Nat) : Nat := s.fld (aDomain n) 29 28

/-- P_live in ps: the slowest measurement of the last 100 ms in an island whose domain is ACTIVE; 1,250 with none (R198, R447).
[DEDUCED, log entry 41] -/
def State.pLive (s : State) : Nat :=
  let ms := s.bgs.meas.filter (fun m => decide (s.tb.ticks < m.1 + 40000000) && decide (m.2.1 < s.part.sectors)
    && s.domState (12 + m.2.1) = 0)
  match ms.map (fun m => m.2.2) with
  | [] => 1250
  | x :: xs => xs.foldl max x

/-- P_lim of the loaded image as firmware keeps it (R201); 0 when no image is loaded. -/
def State.pLim (s : State) : Nat := if s.kept.isSome then s.bgs.plim else 0

/-! ### Alarms (R201, R451) -/

/-- The alarms in force (R451); bit 5 is HIGH of the auxiliary queue. -/
def State.alarmBits (s : State) : Nat :=
  let aux : Bool := (s.queueAt 96).high
  b2n (s.pLim ≠ 0 && decide (8 * s.pLim < 9 * s.pLive)) + 2 * b2n (s.pLim ≠ 0 && decide (s.pLim < s.pLive))
    + 4 * b2n (s.bit aGlbErr 27) + 8 * b2n s.bgs.eyeLow + 16 * b2n s.bgs.supplyBad + 32 * b2n aux
    + 64 * b2n (decide (1800 * ticksPerSec < s.bgs.scrubTicks)) + 128 * b2n (!s.bgs.late.isEmpty)

/-- TEL_ALARM follows; each alarm that begins or ends is logged, and one that begins is latched (R451, R484). [DEDUCED, log entry 41] -/
def State.updateAlarms (s : State) : State :=
  let old := s.fld aTelAlarm 7 0
  let new := s.alarmBits
  let s := (s.setReg aTelAlarm new).setReg aTelSeen (s.reg aTelSeen ||| (new &&& (old ^^^ 0xFF)))
  s.each ((upTo 8).filter (fun i => bitOf old i != bitOf new i)) (fun s i =>
    s.logDev .bgs 1 0 [(21, 1, i), (22, 1, b2n (bitOf new i)), (24, 2, s.pLive), (26, 2, s.pLim)])

end Sys2Proof.Machine
end

