-- ==== Sys2Proof/Machine/Queues.lean ====
section
/-!
DEFINITION. The ingest queue as a building block (chapter 03): wide words, admission and drops (R93), the pending slag word
(R94–R96), flushing (R97), watermarks and the Bellows pins (R98, R99).
-/

namespace Sys2Proof.Machine

/-! ### Strips and slag words as bytes -/

def StripItem.fmt (i : StripItem) : Nat := byteAt i.header 1
def StripItem.tile (i : StripItem) : Nat := byteAt i.header 2
def StripItem.flags (i : StripItem) : Nat := byteAt i.header 3
def StripItem.row (i : StripItem) : Nat := fieldLE i.header 4 2
def StripItem.col (i : StripItem) : Nat := fieldLE i.header 6 2
def StripItem.npix (i : StripItem) : Nat := fieldLE i.header 8 2
def StripItem.frame (i : StripItem) : Nat := fieldLE i.header 10 4
def StripItem.seq (i : StripItem) : Nat := fieldLE i.header 14 2
/-- FLAGS.EOT: the last strip of its tile for its frame (R53). -/
def StripItem.eot (i : StripItem) : Bool := bitOf i.flags 0

/-- The identity of a strip (R96). -/
def StripItem.ident (i : StripItem) : Ident := { frame := i.frame, seq := i.seq, tile := i.tile, stamp := i.stamp, mark := i.mark }

/-- The descriptor word of a strip (R90). -/
def StripItem.descriptor (i : StripItem) : List Byte :=
  overlay (zeros 64) 0 (i.header ++ i.trailer ++ stampBytes i.stamp ++ leBytes 1 i.lane)

/-- Counts saturate at 0xFFFF_FFFF (R95). -/
def sat32 (n : Nat) : Nat := min n 0xFFFFFFFF

/-- A slag word as 64 bytes (R95). -/
def Slag.bytes (w : Slag) : List Byte :=
  let z : Ident := { frame := 0, seq := 0, tile := 0, stamp := 0 }
  let a := w.first.getD z
  let b := w.last.getD z
  pack 64 [(0, 1, 0xA5), (1, 1, w.cause), (2, 1, w.queue), (3, 1, b2n w.noid + 2 * b2n w.first.isNone),
    (4, 4, w.nFull), (8, 4, w.nLink), (12, 4, w.nEcc), (16, 4, w.nFlush), (20, 4, a.frame), (24, 2, a.seq),
    (26, 1, a.tile), (27, 1, b.tile), (28, 4, b.frame), (32, 2, b.seq), (36, 10, a.stamp), (46, 10, b.stamp)]

/-- Two slag words merged, the second later (R94). -/
def Slag.merge (a b : Slag) : Slag where
  cause := a.cause ||| b.cause
  queue := b.queue
  noid := a.noid || b.noid
  nFull := sat32 (a.nFull + b.nFull)
  nLink := sat32 (a.nLink + b.nLink)
  nEcc := sat32 (a.nEcc + b.nEcc)
  nFlush := sat32 (a.nFlush + b.nFlush)
  first := a.first.or b.first
  last := b.last.or a.last

def cFULL : Nat := 1
def cLINK : Nat := 2
def cFLUSH : Nat := 4
def cECC : Nat := 8
def cQUENCH : Nat := 16
def cDRAIN : Nat := 32
def cLATE : Nat := 64

/-- The QUEUE byte of a queue (R95). -/
def queueByte (q : Nat) : Nat := if q = 96 then 0x80 else q

/-- A slag word of a queue for one loss of known identity. -/
def lossOf (q cause : Nat) (i : Ident) : Slag := { cause := cause, queue := queueByte q, first := some i, last := some i }

/-- The slag word delivered in place of an uncorrectable one (R92). [DEDUCED, log entry 27] -/
def badSlag (q : Nat) : Slag :=
  { cause := cECC, queue := queueByte q, noid := true, nFull := 0xFFFFFFFF, nLink := 0xFFFFFFFF, nEcc := 0xFFFFFFFF,
    nFlush := 0xFFFFFFFF }

/-! ### Wide words -/

/-- The wide words an item occupies (R90, R91). -/
def QItem.words : QItem → Nat
  | .strip i => 1 + cdiv i.payload.length 64
  | .slag _ => 1
  | .samples _ => 1

/-- The side tag's KIND of each of an item's wide words (R89–R91, R95), with its VALID bytes. -/
def QItem.tags : QItem → List (TagKind × Nat)
  | .strip i =>
    let n := i.payload.length
    (.desc, 64) :: (upTo (cdiv n 64)).map (fun k => if k + 1 = cdiv n 64 then (.last, n - 64 * k) else (.data, 64))
  | .slag _ => [(.slag, 64)]
  | .samples xs => [(.last, 12 * xs.length)]

/-- The bytes of each of an item's wide words: an auxiliary word packs its samples' narrow words in arrival order (R89–R91). -/
def QItem.wide : QItem → List (List Byte)
  | .strip i => i.descriptor :: chunks 64 (i.payload ++ zeros (roundUp i.payload.length 64 - i.payload.length))
  | .slag w => [w.bytes]
  | .samples xs => [overlay (zeros 64) 0 xs.flatten]

/-- After an uncorrectable tag in the word before position p, with the words of the items that follow from p on: how many of them begin
among the words that are discarded until one is read whose tag decodes as DESC or SLAG (R92). `bad` are the positions of the words
whose tag is uncorrectable. -/
def lostBegun (bad : List Nat) (p : Nat) : List QItem → Nat
  | [] => 0
  | it :: rest =>
    let open_ : Bool := match it.tags.head? with
      | some (.desc, _) | some (.slag, _) => true
      | _ => false
    if open_ && !bad.contains p then 0 else lostBegun bad (p + it.words) rest + 1

/-- The fill of a queue in wide words (R89). -/
def Queue.fill (q : Queue) : Nat := (q.items.map QItem.words).foldl (· + ·) 0

/-- A register of queue q: a lane's, or the auxiliary queue's for q = 96 (R109). -/
def aQ (q off : Nat) : Nat :=
  if q < 96 then secBase (q / 8) + 0x1000 + 0x40 * (q % 8) + off else 0x00700F00 + off

def oQIN : Nat := 0x10
def oQFULL : Nat := 0x14
def oQFLUSH : Nat := 0x18
def oQSLAG : Nat := 0x1C
def oQCE : Nat := 0x20
def oQUE : Nat := 0x24
def oQOUT : Nat := 0x28

/-- A Bellows register of sector k (R109, R114). -/
def aBlw (k off : Nat) : Nat := secBase k + 0x1400 + off

/-- The device's own drive of Bellows pin k (R98): any HIGH of its 8 queues, or FORCE, which acts unless ING is OFF. -/
def State.blwDrive (s : State) (k : Nat) : Bool :=
  (upTo 8).any (fun i => (s.queueAt (8 * k + i)).high)
    || (s.bit (aBlw k 0) 29 && s.fnState .ing ≠ .off && s.fnState .ing ≠ .absent)

/-- The wired level of Bellows pin k (R99). -/
def State.blwPin (s : State) (k : Nat) : Bool := s.blwDrive k || (s.bellowsAt k).ext

/-- The wired level is looked at again: a transition to asserted counts (R114). -/
def State.blwUpdate (s : State) (k : Nat) : State :=
  let p := s.blwPin k
  let s := if p && !(s.bellowsAt k).pin then s.count (aBlw k 4) else s
  let s : State := if p then s.putBgs { s.bgs with blwSeen := s.bgs.blwSeen ||| 2 ^ k } else s
  s.onBellows k (fun b => { b with pin := p })

/-- The highest fill of sector k since the last telemetry record (R450, QPEAK). -/
def State.seePeak (s : State) (k fill : Nat) : State :=
  s.putBgs { s.bgs with qpeak := sput 0 s.bgs.qpeak k (max fill (sget 0 s.bgs.qpeak k)) }

/-- HIGH and PEAK follow the fill (R98, R112), and the sector's pin follows HIGH, for the auxiliary queue its alarm (R451). The queue of a lane with MODE 0 never sets
HIGH. [DEDUCED, log entry 29] -/
def State.queueUpdate (s : State) (q : Nat) : State :=
  let fill := (s.queueAt q).fill
  let hwm := s.fld (aQ q 0) 20 16 * 64
  let lwm := s.fld (aQ q 0) 12 8 * 64
  let used : Bool := decide (96 ≤ q) || decide (s.laneMode q ≠ 0)
  let s := s.onQueue q (fun x =>
    { x with high := if used && hwm ≤ fill then true else if fill < lwm then false else x.high, peak := max x.peak fill })
  if q < 96 then (s.seePeak (q / 8) fill).blwUpdate (q / 8) else s.updateAlarms

/-- ING_QSTAT as read (R112). -/
def State.qStat (s : State) (q : Nat) (bypass : Bool) : Nat :=
  let x := s.queueAt q
  b2n x.high * 2 ^ 31 + b2n x.pend.isSome * 2 ^ 30 + b2n bypass * 2 ^ 29 + x.peak % 4096 * 2 ^ 16 + x.fill % 4096

/-- ING_BLW as read (R114). -/
def State.blwRead (s : State) (k : Nat) : Nat :=
  b2n (s.blwPin k) * 2 ^ 31 + b2n (s.blwDrive k) * 2 ^ 30 + b2n (s.bit (aBlw k 0) 29) * 2 ^ 29
    + (upTo 8).foldl (fun n i => n + b2n (s.queueAt (8 * k + i)).high * 2 ^ i) 0

/-! ### Losses, admission, flushing -/

/-- A strip has contributed to its tile's stream, or has left the release order (R267). -/
def advance : Nat → TileOrder → TileOrder
  | 0, o => o
  | k + 1, o => if o.left.contains o.ptr then advance k { ptr := o.ptr + 1, left := o.left.erase o.ptr } else o

def State.settle (s : State) (f rel : Nat) : State :=
  let o : TileOrder := (s.order[f]?).getD {}
  let o := if rel < o.ptr || o.left.contains rel then o else { o with left := rel :: o.left }
  s.putOrder (s.order.setIfInBounds f (advance (o.left.length) o))

/-- Strip release rel of tile f may enter the stream: every earlier one has contributed or left (R268). -/
def State.inOrder (s : State) (f rel : Nat) : Bool := decide (rel ≤ ((s.order[f]?).getD {}).ptr)

/-- A loss is merged into the queue's pending slag word (R94). -/
def State.pendLoss (s : State) (q : Nat) (w : Slag) : State :=
  s.onQueue q (fun x => { x with pend := some (match x.pend with | some p => p.merge w | none => w) })

/-- An item is admitted whole, behind the pending slag word, or dropped under FULL (R93). A dropped strip leaves its tile's
release order. [DEDUCED, log entry 26] -/
def State.takeIn (s : State) (q : Nat) (it : QItem) (n : Nat) (lost : Slag) : State :=
  let x := s.queueAt q
  let need := it.words + b2n x.pend.isSome
  if x.fill + need ≤ 2048 then
    let slag := match x.pend with | some p => [QItem.slag p] | none => []
    let s := s.onQueue q (fun x => { x with items := x.items ++ slag ++ [it], pend := none })
    let s := if x.pend.isSome then s.count (aQ q oQSLAG) else s
    (s.count (aQ q oQIN) n).queueUpdate q
  else
    let s := (s.pendLoss q lost).count (aQ q oQFULL) n
    match it with
    | .strip i => s.settle i.tile i.rel
    | _ => s

/-- R122: the dispatcher holds a complete item for engine e, no input buffer is free, and the engine executes: KSR.PACE. -/
def State.paceCheck (s : State) (e : Nat) : State :=
  let q := s.queueAt e
  let g := s.engineAt e
  let waits : Bool := !q.items.isEmpty && !q.copying
  if waits && g.run = .exec && g.bufs.toList.all (fun b => b ≠ .free) then
    s.onEngine e (fun g => { g with proc := { g.proc with ksr := g.proc.ksr ||| 0x80 } })
  else s

/-- A released strip is offered to its lane's queue. One that deskew releases after ING has stopped is lost as at a drain
timeout (R105, R107). [DEDUCED, log entry 26; DEDUCED, log entry 28] -/
def State.admitStrip (s : State) (i : StripItem) : State :=
  if s.runs .ing || s.fnState .ing = .stopping then
    (s.takeIn i.lane (.strip i) 1 { lossOf i.lane cFULL i.ident with nFull := 1 }).paceCheck i.lane
  else
    let s := s.pendLoss i.lane { lossOf i.lane cDRAIN i.ident with nFlush := 1 }
    (s.count (aQ i.lane oQFLUSH)).settle i.tile i.rel

/-- The stamp of a sample (R347): the latest time, not later than now, with the low 32 bits the sample carries, and HALF. -/
def State.sampleStamp (s : State) (b : List Byte) : Stamp :=
  let ns := s.nowFine / NS
  let lo := fieldLE b 8 4
  let t := ns / 2 ^ 32 * 2 ^ 32 + lo
  let t := if ns < t ∧ 2 ^ 32 ≤ t then t - 2 ^ 32 else t
  t * NS + (if bitOf (byteAt b 2) 7 then 0x8000 else 0)

/-- The identity of a sample item (R96): SSEQ, channel, stamp. -/
def State.sampleIdent (s : State) (b : List Byte) : Ident :=
  { frame := fieldLE b 4 4, seq := 0, tile := byteAt b 2 % 32, stamp := s.sampleStamp b }

/-- The loss of the samples of a word under a cause. -/
def State.sampleLoss (s : State) (cause : Nat) (xs : List (List Byte)) (one : Ident → Slag) : Slag :=
  xs.foldl (fun w b => w.merge (one (s.sampleIdent b))) { cause := cause, queue := queueByte 96 }

/-- What a flushed item becomes in the new slag word: a stored slag word is merged, any other item counts one loss. -/
def State.flushed (s : State) (q cause : Nat) : QItem → Slag × Nat
  | .strip i => ({ lossOf q cause i.ident with nFlush := 1 }, 1)
  | .slag w => ({ w with cause := w.cause ||| cause }, 0)
  | .samples xs => (s.sampleLoss cause xs (fun i => { lossOf 96 cause i with nFlush := 1 }), xs.length)

/-- The queue is emptied with a cause (R97, R107, R108); `partials` are items under way that are lost with it, and one that is still
arriving is counted as it ends. -/
def State.flushQueue (s : State) (q cause : Nat) (partials : List QItem) : State :=
  let x := s.queueAt q
  let own := if x.openWord.isEmpty then [] else [QItem.samples x.openWord]
  let pend := match x.pend with | some p => [QItem.slag p] | none => []
  let all := x.items ++ pend ++ own ++ partials
  let n := (all.map (fun i => (s.flushed q cause i).2)).foldl (· + ·) 0
  let w := all.foldl (fun w i => w.merge (s.flushed q cause i).1) { cause := cause, queue := queueByte q }
  let s := s.onQueue q (fun x =>
    { x with items := if all.isEmpty then [] else [.slag w], pend := none, copying := false, openWord := [],
             cutAt := some (s.rawNow, cause) })
  let s := s.count (aQ q oQFLUSH) n
  let s := if all.isEmpty then s else s.count (aQ q oQSLAG)
  let s := s.each x.items (fun s i => match i with | .strip i => s.settle i.tile i.rel | _ => s)
  s.queueUpdate q

/-- The cause of a flush of queue q that a strip met whose first bit had arrived at raw time t (R97). [DEDUCED, log entry 26] -/
def State.overtaken (s : State) (q : Nat) (t : Stamp) : Option Nat :=
  match (s.queueAt q).cutAt with
  | some (t0, c) => if t < t0 then some c else none
  | none => none

/-- A strip that a flush met as it was arriving is a partial item of that flush (R96, R97): it is counted once, under its cause.
[DEDUCED, log entry 26] -/
def State.partialLost (s : State) (i : StripItem) (cause : Nat) : State :=
  (s.pendLoss i.lane { lossOf i.lane cause i.ident with nFlush := 1 }).count (aQ i.lane oQFLUSH)

/-- The engine's buffer that the dispatcher was filling is free again. -/
def State.dropFilling (s : State) (e : Nat) : State :=
  s.onEngine e (fun g => { g with bufs := g.bufs.map (fun b => if b = .filling then .free else b) })

/-! ### The commands -/

/-- R97: FLUSH empties the queue in every state but OFF of the function that governs it. [DEDUCED, log entry 26; DEDUCED, log entry 30] -/
def queueFlush (q : Fin 97) (s : State) : State :=
  let f : Fn := if q.val < 96 then .ing else .aux
  if s.present (aQ q.val 0) && s.fnState f ≠ .off && s.fnState f ≠ .absent then
    (s.flushQueue q.val cFLUSH []).dropFilling q.val
  else s

/-- R111: CLR_PEAK sets PEAK to the current fill. [DEDUCED, log entry 30] -/
def clrPeak (q : Fin 97) (s : State) : State := s.onQueue q.val (fun x => { x with peak := x.fill })

/-- R99: the level of Bellows pin k as another driver sets it. -/
def bellowsPinChange (k : Fin 12) (asserted : Bool) (s : State) : State :=
  if !s.present (aBlw k.val 0) then s
  else if s.inReset then s.onBellows k.val (fun b => { b with ext := asserted, pin := asserted })
  else (s.onBellows k.val (fun b => { b with ext := asserted })).blwUpdate k.val

/-- R114: a write of FORCE. -/
def blwForce (k : Fin 12) (on : Bool) (s : State) : State :=
  if s.present (aBlw k.val 0) && !s.inReset then (s.setBit (aBlw k.val 0) 29 on).blwUpdate k.val else s

end Sys2Proof.Machine
end

