-- ==== Sys2Proof/Machine/Compressor.lean ====
section
/-!
DEFINITION. The sector compressors (R267–R278, R284–R287): fragments enter the tile streams in release order, blocks end, are
coded, verified and committed to Hearth.
-/

namespace Sys2Proof.Machine

/-- A register of compressor k. -/
def aCmp (k off : Nat) : Nat := 0x00600000 + 0x100 * k + off

def State.stagingAt (s : State) (e : Nat) : List Fragment := (s.staging[e]?).getD []
def State.setStaging (s : State) (e : Nat) (fs : List Fragment) : State := s.putStaging (s.staging.setIfInBounds e fs)

/-- CMP takes and moves data. [DEDUCED, log entry 4] -/
def State.cmpLive (s : State) : Bool := s.runs .cmp || s.fnState .cmp = .stopping

/-- Bytes of packed pixels. -/
def Fragment.size (g : Fragment) : Nat := packedLen g.fmt g.pixels.length

/-- Bytes in an engine's staging (R268). -/
def State.staged (s : State) (e : Nat) : Nat := ((s.stagingAt e).map Fragment.size).foldl (· + ·) 0

/-! ### Staging (R134, R135, R268) -/

/-- An engine's staging has room for n more packed bytes, and CMP accepts (R268, R277). -/
def State.stagingRoom (s : State) (e n : Nat) : Bool := s.runs .cmp && s.staged e + n ≤ 16384

/-- The identity a fragment carries (R134). -/
def StripItem.fragment (i : StripItem) : Fragment where
  rel := i.rel
  frame := i.frame
  tile := i.tile
  fmt := i.fmt
  row := i.row
  col := i.col
  flags := i.flags
  lane := i.lane
  stamp := i.stamp

/-- Pixels appended to the held strip's open fragment, or to a new one; at 8,192 bytes it closes by itself (R268). -/
def State.stagePixels (s : State) (e : Nat) (i : StripItem) (xs : List Nat) (close flush : Bool) : State :=
  let fs := s.stagingAt e
  let (old, cur) := match fs.getLast? with
    | some g => if !g.closed && g.rel = i.rel then (fs.dropLast, g) else (fs, i.fragment)
    | none => (fs, i.fragment)
  let g := { cur with pixels := cur.pixels ++ xs }
  let g := { g with closed := close || flush || decide (8192 ≤ g.size), flush := flush }
  s.setStaging e (old ++ [g])

/-- The engine leaves the held strip (R135, R267): its open fragment closes, the last of its fragments is marked, an EOT
strip that no flush ended is flushed; a strip without a fragment leaves the release order. -/
def State.stageEnd (s : State) (e : Nat) (i : StripItem) (autoFlush : Bool) : State :=
  let fs := s.stagingAt e
  let mine (g : Fragment) : Bool := g.rel = i.rel
  if fs.any mine then
    let n := fs.length
    s.setStaging e ((fs.zip (upTo n)).map (fun c =>
      let last : Bool := c.2 + 1 = n
      if mine c.1 && last then { c.1 with closed := true, final := true, flush := c.1.flush || autoFlush } else c.1))
  else if autoFlush then
    s.setStaging e (fs ++ [{ i.fragment with closed := true, flush := true, final := true }])
  else s.settle i.tile i.rel

/-- The partial fragment of a strip is discarded (R142, R153); its closed fragments stay. -/
def State.dropPartial (s : State) (e : Nat) (i : StripItem) : State :=
  s.setStaging e ((s.stagingAt e).filter (fun g => g.closed || g.rel ≠ i.rel))

/-- A strip passed on whole, uncorrected, flagged ENGINE_FAULT (R104, R142). -/
def State.stageBypass (s : State) (e : Nat) (i : StripItem) : State :=
  let xs := unpackPixels (bitsOf i.fmt) i.npix i.payload
  s.setStaging e (s.stagingAt e ++
    [{ i.fragment with pixels := xs, closed := true, flush := i.eot, efault := true, final := true }])

/-! ### Blocks (R269) -/

/-- A tile's open block replaced. -/
def State.setOpenBlock (s : State) (f : Nat) (b : Option Block) : State :=
  s.onComp (f / 4) (fun c => { c with open_ := c.open_.setIfInBounds (f % 4) b })

/-- The tile's open block. -/
def State.openBlockOf (s : State) (f : Nat) : Option Block := (s.compAt (f / 4)).openBlock (f % 4)

/-- The open block of tile f ends (R269); an empty one produces nothing. -/
def State.endBlock (s : State) (f : Nat) (flushed forced : Bool) : State :=
  match s.openBlockOf f with
  | some b =>
    let s := s.setOpenBlock f none
    let b := { b with flushed := flushed, forced := forced }
    let s := s.onComp (f / 4) (fun c => { c with waiting := c.waiting ++ [b] })
    if forced then s.count (aCmp (f / 4) 0x4C) else s
  | none => s

/-- Pixels of tile-frame (f, n) appended to the tile's stream: full blocks end at P_max (R269). -/
def State.appendPixels (s : State) (f n fmt : Nat) (efault : Bool) : Nat → List Nat → State
  | 0, _ => s
  | fuel + 1, xs =>
    if xs.isEmpty then s
    else
      let first : Bool := ((s.compAt (f / 4)).begun[f % 4]?).getD none ≠ some n
      let b := (s.openBlockOf f).getD { tile := f, frame := n, fmt := fmt, first := first, born := s.tb.ticks }
      let room := pMax fmt - b.pixels.length
      let b := { b with pixels := b.pixels ++ xs.take room, efault := b.efault || efault }
      let s := s.onComp (f / 4) (fun c => { c with begun := c.begun.setIfInBounds (f % 4) (some n) })
      let s := s.setOpenBlock f (some b)
      let s := if b.pixels.length = pMax fmt then s.endBlock f false false else s
      s.appendPixels f n fmt efault fuel (xs.drop room)

/-- KiB counted from bytes, truncated (R287): `inp` selects the input counter. -/
def State.countKib (s : State) (k bytes : Nat) (inp : Bool) : State :=
  let c := s.compAt k
  let total := (if inp then c.inBytes else c.outBytes) + bytes
  let s := s.onComp k (fun c => if inp then { c with inBytes := total % 1024 } else { c with outBytes := total % 1024 })
  s.count (aCmp k (if inp then 0x54 else 0x58)) (total / 1024)

/-- The identity of a fragment as the digest takes it (R384): 16 bytes, in the model's layout. [DESIGN CHOICE, log entry 65] -/
def Fragment.identity (g : Fragment) : List Byte :=
  pack 16 [(0, 4, g.frame), (4, 1, g.tile), (5, 1, g.fmt), (6, 2, g.row), (8, 2, g.col), (10, 1, g.flags)]

/-- A fragment enters its tile stream (R217, R268, R269), or is discarded as late (R278). -/
def State.enterFragment (s : State) (e : Nat) (g : Fragment) : State :=
  let f := g.tile
  let n := g.frame
  let s := s.setStaging e ((s.stagingAt e).erase g)
  let s :=
    if s.tfLate f n then
      if g.pixels.isEmpty then s
      else (s.count (aCmp (f / 4) 0x50)).gapReport g.lane f n cLATE none
    else
      let s :=
        if g.pixels.isEmpty then s
        else
          let differs : Bool := match s.openBlockOf f with
            | some b => b.frame ≠ n || b.fmt ≠ g.fmt
            | none => false
          let s := if differs then s.endBlock f false true else s
          let s := s.tfOpen f n
          let s := if g.efault then s.markFrame n .fault f 0 else s
          let s := s.onOpen n (fun fr => fr.onTf f (fun t =>
            { t with dPix := (packPixels (bitsOf g.fmt) g.pixels).foldl crcByte t.dPix, dId := g.identity.foldl crcByte t.dId }))
          (s.countKib (f / 4) g.size true).appendPixels f n g.fmt g.efault (g.pixels.length + 1) g.pixels
      if g.flush then
        let s := s.endBlock f true false
        let opened : Bool := match s.openFrame? n with | some fr => (fr.tf f).opened | none => false
        if bitOf g.flags 0 && opened then s.tfFlushed f n else s
      else s
  if g.final then s.settle f g.rel else s

/-- The fragment of tile f that may enter next: closed, at the head of an engine's staging, in release order (R268), while no
ended block of the tile waits for its reservation (R277). -/
def State.nextFragment (s : State) (f : Nat) : Option (Nat × Fragment) :=
  let ok (e : Nat) : Option (Nat × Fragment) := match (s.stagingAt e).head? with
    | some g => if g.closed && s.inOrder f g.rel then some (e, g) else none
    | none => none
  (ok (2 * f)).or (ok (2 * f + 1))

/-- R268: a closed fragment of tile f enters the stream. While CMP stops, the block it opens ends at once (R284). -/
def fragmentEnterStream (f : Fin 48) (s : State) : State :=
  let busy : Bool := (s.compAt (f.val / 4)).waiting.any (fun b => b.tile = f.val)
  if s.cmpLive && !busy then
    match s.nextFragment f.val with
    | some (e, g) =>
      let s := s.enterFragment e g
      if s.fnState .cmp = .stopping then s.endBlock f.val false true else s
    | none => s
  else s

/-! ### Coding, verification, commit (R273–R277) -/

/-- What a block reserves (R273). -/
def Block.reserve (b : Block) : Nat := packedLen b.fmt b.pixels.length + 16

/-- Bytes of the commit buffer in use. -/
def Compressor.inUse (c : Compressor) : Nat := ((c.coding ++ c.ready).map Block.reserve).foldl (· + ·) 0

/-- CODING, E and PRED of a tile (R286). -/
def State.tileCoding (s : State) (f : Nat) : Nat × Nat × Nat :=
  let r := s.reg (aCmp (f / 4) (4 * (f % 4)))
  let m := bits r 1 0
  let e := bits r 5 3
  ((if m = 0 then 1 else if m = 2 then 3 else 2), (if e = 0 then 1 else e), bits r 2 2)

/-- R273: room for the reservation of the compressor's next block frees, and it is coded; in the compressor's fault it is
stored RAW (R275). -/
def blockCodingStart (k : Fin 12) (s : State) : State :=
  let c := s.compAt k.val
  match c.waiting with
  | b :: rest =>
    if s.cmpLive && c.inUse + b.reserve ≤ 65536 then
      let (kind, e, pred) := s.tileCoding b.tile
      let b := if c.cfault then b.raw else b.code kind e pred
      let s := if !c.cfault && kind ≠ 1 && b.kind = 1 then s.count (aCmp k.val 0x44) else s
      s.onComp k.val (fun c => { c with waiting := rest, coding := c.coding ++ [b] })
    else s
  | [] => s

/-- R274: the shadow decode of the compressor's next block ends. `bad` says that a hardware error made a check fail. A block
that fails is rebuilt RAW, counted, logged and marked; VLIMIT mismatches fault the compressor (R275). -/
def blockVerifyDone (k : Fin 12) (bad : Bool) (s : State) : State :=
  let c := s.compAt k.val
  match c.coding with
  | b :: rest =>
    if !s.cmpLive then s
    else if b.kind = 1 || (b.verify && !bad) then
      s.onComp k.val (fun c => { c with coding := rest, ready := c.ready ++ [b] })
    else
      let b' := { b with vraw := true }.raw
      let n := c.mismatches + 1
      let limit := s.fld (aCmp k.val 0x10) 15 0
      let fault : Bool := limit ≠ 0 && limit ≤ n && !c.cfault
      let s := s.onComp k.val (fun c =>
        { c with coding := rest, ready := c.ready ++ [b'], mismatches := n, cfault := c.cfault || fault })
      let s := (s.count (aCmp k.val 0x48)).logDev .cmp 1 stVERIFY [(21, 1, k.val), (22, 1, b.tile), (24, 4, b.frame)]
      let s := s.markFrame b.frame .vraw b.tile 0
      if fault then s.logDev .cmp 2 0 [(21, 1, k.val), (24, 4, n)] else s
  | [] => s

/-- The block at the head of the commit buffer is offered to Hearth (R225, R276): it is written and its tile-frame may close,
or it waits with HSTALL (R277). -/
def State.commitBlock (s : State) (k : Nat) : State :=
  let c := s.compAt k
  match c.ready with
  | b :: rest =>
    if s.cmpLive then
      match s.acceptBytes b.tile b.frame b.bytes with
      | some s =>
        let s := s.onComp k (fun c => { c with ready := rest, hstall := false })
        ((s.count (aCmp k 0x40)).countKib k b.bytes.length false).settleTile b.tile
      | none => s.onComp k (fun c => { c with hstall := true })
    else s
  | [] => s

/-- R276. -/
def blockCommit (k : Fin 12) (s : State) : State := if (s.compAt k.val).hstall then s else s.commitBlock k.val

/-- R225: K has advanced, and a waiting write proceeds. -/
def hearthWriteResume (k : Fin 12) (s : State) : State := if (s.compAt k.val).hstall then s.commitBlock k.val else s

/-! ### Tile-frame timeout (R217, R278) -/

/-- Tile-frame (f, n) is the tile's next to close. [DEDUCED, log entry 42] -/
def State.tfTurn (s : State) (f n : Nat) : Bool :=
  match s.hearth.opens.find? (fun fr => !(fr.tf f).closed) with
  | some fr => fr.n = n && !(fr.tf f).closing
  | none => false

/-- The sector compressor holds a block of tile f. A fragment that entered its stream in the tick in which the timer expires is no bar:
the block that it began ends first (R278). [DEDUCED, log entry 42] -/
def State.compHolds (s : State) (f : Nat) : Bool :=
  let c := s.compAt (f / 4)
  (c.waiting ++ c.coding ++ c.ready).any (fun b => b.tile = f)
    || (match c.openBlock (f % 4) with | some b => b.born ≠ s.tb.ticks | none => false)

/-- The tile's timer does not advance (R217): its sector's Bellows pin is asserted, or something of it is in the device: a strip, a slag
word, a fragment or a block in a queue, an input buffer or the staging of its lanes, or in the sector compressor. [DEDUCED, log entry 42] -/
def State.tileStalled (s : State) (f : Nat) : Bool :=
  s.blwPin (f / 4) || s.compHolds f
    || [2 * f, 2 * f + 1].any (fun l =>
      !(s.queueAt l).items.isEmpty || (s.engineAt l).bufs.toList.any (fun b => b ≠ .free) || !(s.stagingAt l).isEmpty)

/-- R217, R278: the timer of tile-frame (f, n) expires: the tile's open block ends first, as a forced end; the tile-frame
closes, missing if it never opened. [DEDUCED, log entry 42] -/
def tileFrameTimeout (f : Fin 48) (n : Nat) (s : State) : State :=
  if (s.runs .hrt || s.fnState .hrt = .stopping) && s.usedTile f.val && s.tfTurn f.val n
      && !s.tileStalled f.val then
    let s := match s.openBlockOf f.val with
      | some b => if b.frame = n then s.endBlock f.val false true else s
      | none => s
    let s := s.count (HRT + 0x110)
    let opened : Bool := match s.openFrame? n with | some fr => (fr.tf f.val).opened | none => false
    if opened then (s.onOpen n (fun fr => fr.onTf f.val (fun t => { t with shut := true }))).tfFlushed f.val n else (s.tfClose f.val n).settleFrames
  else s

/-! ### The CMP function (R284) -/

/-- Everything CMP holds is discarded and reported (R284): staged fragments, open and uncommitted blocks; each tile-frame that
lost data gets a gap report with cause QUENCH. -/
def State.cmpDiscard (s : State) : State :=
  let fragments := (upTo 96).flatMap (fun e => s.stagingAt e)
  let blocks := (upTo 12).flatMap (fun k =>
    let c := s.compAt k
    c.ready ++ c.coding ++ c.waiting ++ c.open_.toList.filterMap id)
  let lost := (fragments.filter (fun g => !g.pixels.isEmpty)).map (fun g => (g.tile, g.frame)) ++ blocks.map (fun b => (b.tile, b.frame))
  let s := s.putStaging (Vector.replicate 96 [])
  let s := s.each (upTo 12) (fun s k => s.onComp k (fun c =>
    { c with open_ := Vector.replicate 4 none, waiting := [], coding := [], ready := [], hstall := false }))
  let s := s.each lost.eraseDups (fun s c => s.gapReport (2 * c.1) c.1 c.2 cQUENCH none)
  let s := s.each (fragments.filter (·.final)) (fun s g => s.settle g.tile g.rel)
  s.each (upTo 48) (fun s f => s.settleTile f)

/-- Closed fragments that release order lets in enter their streams. -/
def State.drainStaging (s : State) : Nat → State
  | 0 => s
  | fuel + 1 =>
    match (upTo 48).findSome? (fun f => s.nextFragment f) with
    | some (e, g) => (s.enterFragment e g).drainStaging fuel
    | none => s

/-- STOP of CMP (R284): staged fragments enter as far as release order allows, and every open block ends as a forced end. -/
def State.cmpStop (s : State) : State :=
  let n := ((upTo 96).map (fun e => (s.stagingAt e).length)).foldl (· + ·) 0
  s.drainStaging n |> fun s => s.each (upTo 48) (fun s f => s.endBlock f false true)

/-- Nothing remains staged, held back, open or uncommitted (R284). -/
def State.cmpEmpty (s : State) : Bool :=
  (upTo 96).all (fun e => (s.stagingAt e).isEmpty)
    && (upTo 12).all (fun k =>
      let c := s.compAt k
      c.waiting.isEmpty && c.coding.isEmpty && c.ready.isEmpty && c.open_.toList.all (fun b => b.isNone))

/-- START of CMP (R284): empty streams, every CFAULT cleared. What a faulted engine's dispatcher passed on meanwhile (R142)
stays staged, and a tile-frame that has begun stays begun (R270). -/
def State.cmpStart (s : State) : State :=
  s.each (upTo 12) (fun s k => s.onComp k (fun c => { begun := c.begun, inBytes := c.inBytes, outBytes := c.outBytes, ticks := c.ticks }))

/-- The start check of R284: CODING 2 on a variant without bounded-error compression. -/
def State.cmpFault (s : State) : Nat :=
  if !s.part.bounded && (upTo (4 * s.part.sectors)).any (fun f => bits (s.reg (aCmp (f / 4) (4 * (f % 4)))) 1 0 = 2) then 1 else 0

/-- CMP_STAT as read (R286). [DEDUCED, log entry 62] -/
def State.cmpStat (s : State) (k : Nat) : Nat :=
  let c := s.compAt k
  if k < s.part.sectors then
    b2n c.cfault * 2 ^ 31 + b2n c.hstall * 2 ^ 30 + ((upTo 4).foldl (fun n i => n + b2n (c.openBlock i).isSome * 2 ^ i) 0) * 2 ^ 16
      + cdiv c.inUse 1024
  else 0

end Sys2Proof.Machine
end

