-- ==== Sys2Proof/Machine/Ingest.lean ====
section
/-!
DEFINITION. The dispatchers (R92, R102–R104) and the ING function (R106–R108).
-/

namespace Sys2Proof.Machine

/-- A register of engine e (R154). -/
def aEng (e off : Nat) : Nat := secBase (e / 8) + 0x2000 + 0x40 * (e % 8) + off

/-- ANV_ECFG.EN: the loaded image targets engine e (R155). -/
def State.engineOn (s : State) (e : Nat) : Bool := s.bit (aEng e 0) 31

/-- The engine is faulted, so that its dispatcher bypasses it (R104). -/
def State.bypassed (s : State) (e : Nat) : Bool := (s.engineAt e).run = .faulted

/-- The dispatchers deliver: ING is RUNNING or STOPPING (R107). -/
def State.dispatching (s : State) : Bool := s.runs .ing || s.fnState .ing = .stopping

/-- The first of an engine's buffers that satisfies p. -/
def Engine.findBuf (g : Engine) (p : Buf → Bool) : Option Nat := (upTo 4).find? (fun b => p ((g.bufs[b]?).getD .filling))

/-- The input buffer that the dispatcher fills next, if it is free: the four are used in turn, so that which one a kernel finds an item
in does not depend on when it arrived (R132, R139). [DESIGN CHOICE, log entry 97] -/
def Engine.freeBuf (g : Engine) : Option Nat := if (g.bufs[g.nextBuf]?).getD .filling = .free then some g.nextBuf else none

/-- The bytes of an input buffer that holds an item (R132, R181): beyond the item they read as zero. -/
def bufBytes (b : Nat) (image : List Byte) (mem : Memory) : Memory :=
  Memory.write mem (0x10000 + 0x1000 * b) (image ++ zeros (0x1000 - image.length))

/-- The bytes an item puts into an input buffer (R132): a strip's descriptor and its payload padded to a multiple of 64, or
the slag word. -/
def QItem.image : QItem → List Byte
  | .strip i => i.descriptor ++ i.payload ++ zeros (roundUp i.payload.length 64 - i.payload.length)
  | .slag w => w.bytes
  | .samples _ => []

/-- The highest FRAME of the strips posted to an engine, once this item is (R140). -/
def QItem.laterThan (it : QItem) (last : Option Nat) : Option Nat :=
  match it with
  | .strip i => laterFrame last i.frame
  | _ => last

/-- R102: with a buffer free, the dispatcher begins to copy the queue's first item to its engine.
[DEDUCED, log entry 26; DESIGN CHOICE, log entry 97] -/
def itemCopyStart (l : Fin 96) (s : State) : State :=
  let q := s.queueAt l.val
  let g := s.engineAt l.val
  let live : Bool := g.run ≠ .faulted && g.run ≠ .stopped && g.run ≠ .off
  if s.dispatching && s.runs .anv && s.engineOn l.val && live && !q.items.isEmpty && !q.copying && !q.drained
      && decide (g.posted.length < 3) then
    match g.freeBuf with
    | some b =>
      let s := s.onQueue l.val (fun q => { q with copying := true })
      s.onEngine l.val (fun g => { g with bufs := g.bufs.setIfInBounds b .filling })
    | none => s.paceCheck l.val
  else s

/-- The front item leaves its queue, and the space it held is freed (R102). -/
def State.popItem (s : State) (l : Nat) : State :=
  (s.onQueue l (fun q => { q with items := q.items.tail, copying := false })).queueUpdate l

/-- The ECC loss of an item (R92, R96): with its identity when its descriptor could be read. -/
def eccLoss (l : Nat) (i : QItem) (read : Bool) : Slag :=
  match i, read with
  | .strip i, true => { lossOf l cECC i.ident with nEcc := 1 }
  | _, _ => { cause := cECC, queue := l, noid := true, nEcc := 1 }

/-- The front item is discarded under R92. [DEDUCED, log entry 27] -/
def State.eccDiscard (s : State) (l : Nat) (read : Bool) : State :=
  match (s.queueAt l).items with
  | it :: _ =>
    let s := (s.popItem l).pendLoss l (eccLoss l it read)
    let s := s.count (aQ l oQUE)
    match it with
    | .strip i => s.settle i.tile i.rel
    | _ => s
  | [] => s

/-- What the read side delivers of the front item (R92): the item, or nothing. An uncorrectable tag loses that item and every item
begun among the words discarded after it. [DEDUCED, log entry 27] -/
def State.readFront (s : State) (l : Nat) (ecc : QueueEcc) : State × Option QItem :=
  match (s.queueAt l).items with
  | [] => (s, none)
  | it :: _ =>
    let s := s.count (aQ l oQCE) ecc.corrected
    let n := it.words
    let read : Bool := !ecc.badWords.contains 0 && !ecc.badTags.contains 0
    match ecc.badTags.find? (fun i => decide (i < n)) with
    | some _ =>
      let more := lostBegun ecc.badTags n (s.queueAt l).items.tail
      let s := s.eccDiscard l read
      (s.each (upTo more) (fun s _ => s.eccDiscard l false), none)
    | none =>
      if ecc.badWords.any (fun i => decide (i < n)) then
        match it with
        | .slag _ => (s.popItem l, some (.slag (badSlag l)))
        | _ => (s.eccDiscard l read, none)
      else (s.popItem l, some it)

/-- A slag word is reported as it is delivered (R103). -/
def State.slagDelivered (s : State) (l : Nat) (w : Slag) : State :=
  s.slagReport l w.cause w.noid w.first w.last

/-- R102: the copy completes and is checked; a strip or slag token is posted. A slag word is reported at the same time. What the
buffer holds shows to the kernel when it takes the token, so that no load depends on when an item arrived (R139).
[DEDUCED, log entry 26; DESIGN CHOICE, log entry 97] -/
def tokenPost (l : Fin 96) (ecc : QueueEcc) (s : State) : State :=
  let q := s.queueAt l.val
  match (s.engineAt l.val).findBuf (fun b => b = .filling) with
  | some b =>
    if q.copying && s.runs .anv then
      let r := s.readFront l.val ecc
      let s := r.1
      let it := r.2
      match it with
      | some it =>
        let s := s.onEngine l.val (fun g =>
          { g with bufs := g.bufs.setIfInBounds b (.posted it), posted := g.posted ++ [b], nextBuf := (b + 1) % 4,
                   lastFrame := it.laterThan g.lastFrame })
        let s := (s.count (aQ l.val oQOUT)).paceCheck l.val
        match it with
        | .slag w => s.slagDelivered l.val w
        | _ => s
      | none => s.onEngine l.val (fun g => { g with bufs := g.bufs.setIfInBounds b .free })
    else s
  | none => s

/-- The first of the strips that were in a faulted engine's buffers: the one it held, then those posted, in order (R142). [DEDUCED, log entry 32] -/
def Engine.leftStrip (g : Engine) : Option (Nat × StripItem) :=
  let at_ (b : Nat) (held : Bool) : Option (Nat × StripItem) := match (g.bufs[b]?).getD .free with
    | .held (.strip i) => if held then some (b, i) else none
    | .posted (.strip i) => if held then none else some (b, i)
    | _ => none
  match (upTo 4).findSome? (fun b => at_ b true) with
  | some r => some r
  | none => g.posted.findSome? (fun b => at_ b false)

/-- Buffer b is free, and its token is none that waits. -/
def Engine.release (g : Engine) (b : Nat) : Engine :=
  { g with bufs := g.bufs.setIfInBounds b .free, posted := g.posted.filter (· ≠ b) }

/-- A strip of a faulted engine's buffers passes to the compressor (R142). -/
def State.passLeft (s : State) (l b : Nat) (i : StripItem) : State := (s.onEngine l (·.release b)).stageBypass l i

/-- R104, R142: for a faulted engine the dispatcher passes a strip whole to the compressor, with ENGINE_FAULT, those of the engine's
buffers first, and only reports a slag word. It waits while the staging has no room. [DEDUCED, log entry 32] -/
def bypassDispatch (l : Fin 96) (ecc : QueueEcc) (s : State) : State :=
  match if s.bypassed l.val then (s.engineAt l.val).leftStrip else none with
  | some (b, i) => if s.stagingRoom l.val i.payload.length then s.passLeft l.val b i else s
  | none =>
  let q := s.queueAt l.val
  let room : Bool := match q.items with
    | .strip i :: _ => s.stagingRoom l.val i.payload.length
    | _ => true
  if s.dispatching && s.bypassed l.val && !q.items.isEmpty && !q.drained && room then
    let r := s.readFront l.val ecc
    let s := r.1
    let it := r.2
    match it with
    | some (.strip i) => (s.count (aQ l.val oQOUT)).stageBypass l.val i
    | some (.slag w) => s.slagDelivered l.val w
    | _ => s
  else s

/-- The copies under way end without a token, their items staying in their queues (R152). -/
def State.cancelCopies (s : State) : State :=
  s.each (upTo 96) (fun s l => (s.onQueue l (fun q => { q with copying := false })).dropFilling l)

/-! ### The ING function -/

/-- The start check of R106. -/
def State.ingFault (s : State) : Nat :=
  if (upTo (8 * s.part.sectors)).any (fun l =>
      let h := s.fld (aQ l 0) 20 16
      s.laneMode l ≠ 0 && (h = 0 || h ≤ s.fld (aQ l 0) 12 8)) then 1 else 0

/-- START ends with every queue empty but for a slag word left by a drain timeout or a QUENCH (R106). -/
def State.ingStart (s : State) : State :=
  s.each (upTo 96) (fun s l =>
    let slag (i : QItem) : Bool := match i with | .slag _ => true | _ => false
    (s.onQueue l (fun q => { q with items := q.items.filter slag, copying := false, drained := false })).queueUpdate l)

/-- The drain has ended: every queue is empty, or holds the slag word that this STOPPING's drain timeout left in it (R107). [DEDUCED, log entry 26] -/
def State.ingDrained (s : State) : Bool := (upTo 96).all (fun l => (s.queueAt l).items.isEmpty || (s.queueAt l).drained)

/-- STOP of ING begins a new drain. -/
def State.ingStop (s : State) : State := s.each (upTo 96) (fun s l => s.onQueue l (fun q => { q with drained := false }))

/-- R107: DRAIN_TMO passes in STOPPING: each queue that still holds items is flushed with cause DRAIN; its slag word stays until the
next START. [DEDUCED, log entry 26] -/
def ingDrainTimeout (s : State) : State :=
  if s.fnState .ing = .stopping then
    s.each (upTo 96) (fun s l =>
      if (s.queueAt l).items.isEmpty then s
      else ((s.flushQueue l cDRAIN []).dropFilling l).onQueue l (fun q => { q with drained := true }))
  else s

/-- R108: QUENCH empties every queue; strips accepted while RUNNING that wait in deskew are partial items of it. [DEDUCED, log entry 26] -/
def State.ingQuench (s : State) : State :=
  let s := s.each (upTo 96) (fun s l =>
    let held := ((s.tileAt (l / 2)).held.filter (fun h => h.item.lane = l && !h.disc)).map (fun h => QItem.strip h.item)
    (s.flushQueue l cQUENCH held).dropFilling l)
  s.each (upTo 48) (fun s f => s.onTile f (fun t => { t with held := t.held.map (fun h => { h with disc := true }) }))

end Sys2Proof.Machine
end

