-- ==== Sys2Proof/Machine/Timebase.lean ====
section
/-!
DEFINITION. The timebase (R289–R297, R314) and the publication of the event log (R28, R295, R300–R303).
-/

namespace Sys2Proof.Machine

/-! ### The counter (R289–R291) -/

/-- The nominal increment's fraction (R290). -/
def incNominal : Nat := 0x80000000

/-- The increment in units of 2^-32 ns (R290). -/
def State.increment (s : State) : Nat := s.fld (TB + 0x14) 7 0 * 2 ^ 32 + s.reg aTbInc

/-- The increment takes a value from the next tick on; the ticks up to this one keep the old, for edges in them that are still on their
way (R290, R308). -/
def State.putInc (s : State) (v : Nat) : State :=
  let recent := s.tb.incs.filter (fun x => decide (s.tb.counter < x.1 + 2000 * 2 ^ 32))
  (s.putTb { s.tb with incs := recent ++ [(s.tb.counter, s.increment)] }).setReg aTbInc v

/-- The increment in force at the tick of counter value c (R308). [DEDUCED, log entry 67] -/
def State.incAt (s : State) (c : Nat) : Nat :=
  match s.tb.incs.find? (fun x => decide (c ≤ x.1)) with
  | some x => x.2
  | none => s.increment

/-- The increment is written, clamped to ±1,000 ppm; a clamp is shown and counted (R290). -/
def State.setIncrement (s : State) (v : Nat) : State :=
  let lo := 0x7F5C28F6
  let hi := 0x80A3D70A
  let s := if v < lo || hi < v then (s.setBit aTbStat 27 true).count (TB + 0x10C) else s
  s.putInc (max lo (min hi v))

/-- A state of the synchronisation is entered (R293): FREE in MODE 1 is at the nominal increment; entries LOCKED, HOLDOVER, FOLLOWER entered and left are logged (R302). -/
def State.setSync (s : State) (n : Nat) : State :=
  let old := s.sync
  if old = n then s
  else
    let s := s.setFld aTbStat 31 29 n
    let s : State := if n = 2 then s.putTb { s.tb with everLocked := true } else s
    let s : State := if n = 3 then s.putTb { s.tb with holdTicks := 0 } else s
    let s := if n = 0 && s.bit aTbCfg 31 then s.putInc incNominal else s
    let say (s : State) (code : Nat) : State := s.log s.now 1 code code [(20, 1, old)]
    let s := if old = 4 then say s 4 else s
    if n = 2 then say s 1 else if n = 3 then say s 2 else if n = 4 then say s 3 else s

/-- One tick of the counter (R289), with the seconds of HOLDOVER it completes (R317). [DESIGN CHOICE, log entry 2] -/
def State.tbTick (s : State) : State :=
  match s.fnState .tb with
  | .off | .absent => s
  | _ =>
    let s := s.putTb { s.tb with counter := (s.tb.counter + s.increment) % 2 ^ 96, ticks := s.tb.ticks + 1 }
    if s.sync = 3 then
      let n := s.tb.holdTicks + 1
      if n = 400000000 then (s.putTb { s.tb with holdTicks := 0 }).count (TB + 0x108)
      else s.putTb { s.tb with holdTicks := n }
    else s

/-- Host software owns the time: MODE 0, and this device is no pair follower (R290, R293). -/
def State.hostTime (s : State) : Bool := !s.bit aTbCfg 31 && s.sync ≠ 4 && !s.follower

/-- R290: a write of TB_INC. -/
def tbIncWrite (v : Word) (s : State) : State := if s.hostTime && !s.inReset then s.setIncrement v.toNat else s

/-- The rest of the time is latched, translated and raw (R291). -/
def State.tbLatch (s : State) : State :=
  let t := s.nowFine
  let raw := s.rawNow
  let s := (s.setReg (TB + 0x24) (t / NS / 2 ^ 32)).setReg (TB + 0x28) (t % NS)
  (s.setReg (TB + 0x30) (raw / NS % 2 ^ 32)).setReg (TB + 0x34) (raw / NS / 2 ^ 32)

/-- R291: a read of TB_NOW_LO latches the rest of the time. -/
def tbNowRead (s : State) : State := if s.inReset then s else s.tbLatch.emit (.readData (TB + 0x20) (s.nowFine / NS % 2 ^ 32))

/-! ### Steps (R293, R294) -/

/-- A step is requested; it replaces one that is pending (R294). -/
def State.requestStep (s : State) (r : StepReq) : State :=
  (s.putTb { s.tb with pend := some r }).setBit aTbStat 28 true

/-- No step is pending any more. -/
def State.clearStep (s : State) : State := (s.putTb { s.tb with pend := none }).setBit aTbStat 28 false

/-- R293: TB_STEPCMD.GO asks for the step in TB_STEP, while MODE = 0 and TB runs. -/
def stepGo (s : State) : State :=
  if s.hostTime && s.runs .tb then s.requestStep (.by (sx 64 (s.reg64 (TB + 0x50)))) else s

/-- R294: CANCEL discards a pending step. -/
def stepCancel (s : State) : State := s.clearStep

/-- The signed amount of a step, 2^-16 ns. -/
def State.stepAmount (s : State) : StepReq → Int
  | .by d => d
  | .to ns => (ns * NS : Nat) - (s.nowFine : Int)

/-- The counter after a step of the amount d; a step to a value sets it exactly (R293). -/
def State.steppedCounter (s : State) (d : Int) : StepReq → Nat
  | .by _ => (((s.tb.counter : Int) + d * 65536) % (2 ^ 96 : Int)).toNat
  | .to ns => ns * 2 ^ 32 % 2 ^ 96

/-- A translation that a member kept after it ceased to be a follower ends at a step, which carries it into the counter (R293, R297).
[DEDUCED, log entry 77] -/
def State.foldTranslation (s : State) : State :=
  if s.tb.transl then
    let d : Int := (s.nowFine : Int) - s.rawNow
    let s : State := s.putTb { s.tb with counter := (((s.tb.counter : Int) + d * 65536) % (2 ^ 96 : Int)).toNat, transl := false }
    ((s.setReg (TB + 0x60) 0).setReg (TB + 0x64) 0).setReg (TB + 0x68) 0
  else s

/-- A pending step moves the counter, or a follower's translation (R294, R297): a new epoch begins with its STEP entry. -/
def State.moveTime (s : State) (r : StepReq) : State :=
  let d := s.stepAmount r
  let last := windowOf s.nowFine
  let s : State :=
    if s.sync = 4 then
      let ofs := ux 64 (sx 64 (s.reg64 (TB + 0x60)) + d)
      (s.setReg (TB + 0x60) (ofs % 2 ^ 32)).setReg (TB + 0x64) (ofs / 2 ^ 32)
    else
      let s := s.foldTranslation
      s.putTb { s.tb with counter := s.steppedCounter d r }
  let s := s.clearStep
  let s := s.putTb { s.tb with epochs := s.tb.epochs + 1, steps := s.tb.steps ++ [d], ends := s.tb.ends ++ [last] }
  let s := (s.setFld aTbStat 23 16 s.epoch).count (TB + 0x104)
  s.log s.now 1 5 5 [(20, 8, ux 64 d), (28, 1, s.epoch)]

/-! ### Publication (R28, R300–R303) -/

/-- Entry a precedes entry b: by stamp, class, index within the class; otherwise they keep their order (R298). -/
def LogPend.before (a b : LogPend) : Bool :=
  a.stamp < b.stamp || (a.stamp = b.stamp && (a.cls < b.cls || (a.cls = b.cls && a.idx < b.idx)))

/-- The 32 bytes of entry n (R301). -/
def LogPend.bytes (e : LogPend) (n : Nat) : List Byte :=
  stampBytes e.stamp ++ leBytes 1 e.epoch ++ leBytes 1 e.cls ++ leBytes 2 e.idx ++ leBytes 1 e.code
    ++ leBytes 1 (e.flags + 8 * b2n e.late) ++ leBytes 4 n ++ e.data

/-- The ring's entries (R300). -/
def logSlots : Nat := 2097152

/-- One entry is published: into the ring, and to the event queue where it is selected (R300, R411). -/
def State.publish (s : State) (e : LogPend) : State :=
  let n := s.tb.logCount
  let b := e.bytes n
  let s := s.hwrite (logArea + 32 * (n % logSlots)) b
  let s := s.putTb { s.tb with logCount := n + 1 }
  let s := s.setReg (TB + 0x80) ((n + 1) % 2 ^ 32)
  let s := if e.late then s.count (TB + 0x110) else s
  s.eqLog e.cls e.idx b

/-- The LOG_LOST entry that stands for the entries beyond 255 (R303). -/
def lostEntry (last : LogPend) (n : Nat) : LogPend :=
  { last with cls := 1, idx := 6, code := 6, late := false, data := pack 12 [(0, 4, n)] }

/-- The entries of one window are published, at most 256 (R303). -/
def State.publishWindow (s : State) (es : List LogPend) : State :=
  if es.length ≤ 256 then s.each es State.publish
  else
    let n := es.length - 255
    let s := s.each (es.take 255) State.publish
    let s := match es.getLast? with | some e => s.publish (lostEntry e n) | none => s
    s.count (TB + 0x100) n

/-- The window of an entry that is not late: its epoch, its number. -/
def LogPend.window (e : LogPend) : Nat × Nat := (e.epoch, windowOf e.stamp)

/-- Window (e, k) closes: its own entries in order, then the late ones (R28). -/
def State.closeWindow (s : State) (e k : Nat) : State :=
  let own := sortBy LogPend.before (s.tb.log.filter (fun x => !x.late && x.window = (e, k)))
  let late := sortBy LogPend.before (s.tb.log.filter (·.late))
  let rest := s.tb.log.filter (fun x => !x.late && x.window ≠ (e, k))
  let s := s.putTb { s.tb with log := rest }
  s.publishWindow (own ++ late)

/-- Window (e, k) is (e', k') or an earlier one. -/
def windowLe (a b : Nat × Nat) : Bool := a.1 < b.1 || (a.1 = b.1 && a.2 ≤ b.2)

/-- The windows with entries that close up to (e, k), in order; late entries go with the first window that closes. -/
def State.closeWindows (s : State) (e k : Nat) : Nat → State
  | 0 => s
  | fuel + 1 =>
    match sortBy (fun a b => windowLe a b && a ≠ b) ((s.tb.log.filter (fun x => !x.late && windowLe x.window (e, k))).map LogPend.window) with
    | [] => s
    | w :: _ => (s.closeWindow w.1 w.2).closeWindows e k fuel

/-- The log delay (R316): below 2 µs acts as 2 µs, above 10 ms as 10 ms. -/
def State.logDelay (s : State) : Nat := max 2 (min 10000 (s.fld (TB + 0x84) 13 0)) * 1000 * NS

/-- The tick has come at which window k of epoch e closes (R28): the time, less every step made since that epoch ended, is at or above
the window's end plus the log delay. -/
def State.windowDue (s : State) (e k : Nat) : Bool :=
  let since := (s.tb.steps.drop e).foldl (· + ·) 0
  decide ((((k + 1) * 1000 * NS + s.logDelay : Nat) : Int) ≤ (s.nowFine : Int) - since)

/-- The last window of every epoch before e that still has windows open is due (R295). -/
def State.epochsDue (s : State) (e : Nat) : Bool :=
  (upTo e).all (fun i => decide (i < s.tb.closeEpoch) || s.windowDue i ((s.tb.ends[i]?).getD 0))

/-- R28, R295: every window up to window k of an epoch that has begun closes, in order, once that window's time has come, and that of
the last window of every epoch before. -/
def logWindowClose (e k : Nat) (s : State) : State :=
  if s.windowDue e k && s.epochsDue e && e ≤ s.tb.epochs && windowLe (s.tb.closeEpoch, s.tb.closeWin) (e, k) && s.fnState .tb ≠ .off then
    let s := s.closeWindow s.tb.closeEpoch s.tb.closeWin
    let s := s.closeWindows e k s.tb.log.length
    s.putTb { s.tb with closeEpoch := e, closeWin := k + 1 }
  else s

/-! ### The TB function (R314) -/

/-- STARTING of TB: a step to TB_SET where LOADSET asks for it, but on a follower (R293); in MODE 1 the increment is nominal until the servo acts. -/
def State.tbStart (s : State) : State :=
  let s := if s.bit aTbCfg 30 && s.sync ≠ 4 then s.requestStep (.to (s.reg64 (TB + 0x40))) else s
  if s.bit aTbCfg 31 && s.sync = 0 then s.putInc incNominal else s

/-- STOP and QUENCH of TB: the servo stops; LOCKED becomes HOLDOVER, ACQUIRE becomes FREE (R293). [DEDUCED, log entry 71] -/
def State.tbStop (s : State) : State :=
  if s.sync = 2 then s.setSync 3
  else if s.sync = 1 then s.setSync 0
  else s

end Sys2Proof.Machine
end

