-- ==== Sys2Proof/Machine/Tdc.lean ====
section
/-!
DEFINITION. Event timing (chapter 10): interpolators and their calibration (R307–R310), the timing inputs (R305, R306), the
measurement units (R311–R313), the TDC function (R315).
-/

namespace Sys2Proof.Machine

def TDC : Nat := 0x00300000
/-- TDC_CHSTAT of input i: a TDC_IN channel, or one of the virtual channels 16–21 (R318). -/
def aChStat (i : Nat) : Nat := if i < 16 then TDC + 0x20 * i + 8 else TDC + 0x308 + 0x20 * (i - 16)
def aChCfg (n : Nat) : Nat := TDC + 0x20 * n
def aUnit (u off : Nat) : Nat := TDC + 0x400 + 0x40 * u + off
def aCal : Nat := TDC + 0x600

def State.onTdc (s : State) (g : TdcState → TdcState) : State := s.putTdc (g s.tdc)
def State.inputAt (s : State) (i : Nat) : TimedInput := (s.tdc.ins[i]?).getD {}
def State.onInput (s : State) (i : Nat) (g : TimedInput → TimedInput) : State :=
  s.onTdc (fun d => { d with ins := d.ins.setIfInBounds i (g (s.inputAt i)) })
def State.unitAt (s : State) (u : Nat) : TdcUnit := (s.tdc.units[u]?).getD {}
def State.onUnit (s : State) (u : Nat) (g : TdcUnit → TdcUnit) : State :=
  s.onTdc (fun d => { d with units := d.units.setIfInBounds u (g (s.unitAt u)) })
def State.ipolAt (s : State) (i : Nat) : Interp := (s.tdc.ipols[i]?).getD {}

/-! ### Interpolation (R307, R308) -/

/-- The fine code of an edge e fs after the beginning of its tick (R307): the phase interval of 312.5 ps it falls in, and the vernier's
count n = ⌈d / 3.125 ps⌉ over its distance d to the next phase boundary. -/
def fineCode (e : Nat) : Nat :=
  let ph := e / 312500
  let d := 312500 - e % 312500
  100 * ph + (100 - (d + 3124) / 3125)

/-- The nominal table (R308). -/
def nominalTable : List Nat := List.replicate 800 1

/-- The stamp an interpolator gives an edge in the tick of counter value c with fine code f (R308), before skew. [DEDUCED, log entry 68] -/
def Interp.stamp (p : Interp) (inc c f : Nat) : Stamp :=
  let h := p.table.getD nominalTable
  let total := h.foldl (· + ·) 0
  let below := (h.take f).foldl (· + ·) 0
  let fine := inc * (2 * below + (h[f]?).getD 0) / (2 * max total 1)
  stampInt ((((c + fine : Nat) : Int) - p.offs) / 65536)

/-- The interpolator that stamps an edge on timed input i in the tick of counter value c (R310): the old one before the handover's tick.
[DEDUCED, log entry 68] -/
def State.ipolFor (s : State) (i c : Nat) : Nat :=
  let p := s.inputAt i
  if c < p.since then p.oldIpol else s.fld (aChStat i) 15 8

/-- The raw stamp of an edge on timed input i (R308, R310), with the increment in force at its tick. -/
def State.edgeRaw (s : State) (i c f : Nat) : Stamp :=
  (s.ipolAt (s.ipolFor i c)).stamp (s.incAt c) c f

/-- The skew constant of timed input i (R318). -/
def State.skewOf (s : State) (i : Nat) : Int :=
  sx 32 (s.reg (if i < 16 then aChCfg i + 4 else TDC + 0x200 + 4 * (i - 16)))

/-- The corrected stamp of an edge on timed input i (R298, R299). -/
def State.edgeStamp (s : State) (i c f : Nat) : Stamp := s.stampOf (s.edgeRaw i c f) 1 (s.skewOf i)

/-! ### Measurement units (R311–R313) -/

/-- r of R312: 3.128 ps. -/
def coincR : Nat := 205

def State.unitOn (s : State) (u : Nat) : Bool := s.bit (aUnit u 0) 31
/-- ARM of a unit; 6 and 7 act as 0. -/
def State.unitArm (s : State) (u : Nat) : Nat := let a := s.fld (aUnit u 0) 29 27; if 6 ≤ a then 0 else a
def State.unitStart (s : State) (u : Nat) : Nat := s.fld (aUnit u 0) 23 20
def State.unitStop (s : State) (u : Nat) : Nat := s.fld (aUnit u 0) 19 16
def State.unitNstop (s : State) (u : Nat) : Nat := max 1 (s.fld (aUnit u 0) 15 12)
def State.unitStatStop (s : State) (u : Nat) : Nat := max 1 (s.fld (aUnit u 0) 11 8)
/-- N = 2^STATK. -/
def State.unitN (s : State) (u : Nat) : Nat := 2 ^ min 24 (s.fld (aUnit u 0) 4 0)
/-- WINDOW in 2^-16 ns. -/
def State.unitWindow (s : State) (u : Nat) : Nat := max 1 (s.fld (aUnit u 4) 23 0) * res25

/-- The statistics take an interval (R313); a full set takes none. -/
def TdcUnit.tally (x : TdcUnit) (full v : Nat) : TdcUnit :=
  if full ≤ x.n then x
  else
    { x with n := x.n + 1, sum := x.sum + v, sumSq := x.sumSq + v * v, min_ := if x.n = 0 then v else min x.min_ v,
             max_ := max x.max_ v }

/-- The measurement in progress ends at a stamp (R311): counted, logged, entered in the statistics unless it was STEPPED;
an end with fewer than NSTOP intervals is SHORT; a continuous unit is armed again. [DEDUCED, log entry 68] -/
def State.measEnd (s : State) (u : Nat) (t : Stamp) (stepped : Bool) : State :=
  let x := s.unitAt u
  let n := x.ivals.length
  let short : Bool := n < s.unitNstop u
  let s := s.count (aUnit u 0x2C)
  let s := if short then s.count (aUnit u 0x38) else s
  let s := if s.bit (aUnit u 0) 30 then
    s.log t 4 (16 + u) 2 [(20, 1, u), (21, 1, n), (22, 1, b2n x.coinc + 2 * b2n short + 4 * b2n stepped), (24, 8, (x.ivals.head?).getD 0)]
    else s
  let x := match x.ivals[s.unitStatStop u - 1]? with
    | some v => if stepped then x else x.tally (s.unitN u) v
    | none => x
  let again : Bool := s.unitArm u = 1 && s.runs .tdc
  s.onUnit u (fun _ => { x with phase := if again then .armed t else .idle, early := [], ivals := [], coinc := false,
                                ended := x.ended + 1, lastN := n })

/-- One stop of a STARTED unit (R311, R312); the NSTOP-th ends the measurement. -/
def State.measStop (s : State) (u : Nat) (st t : Stamp) : State :=
  if t + coincR ≤ st then s.count (aUnit u 0x30)
  else
    let coinc : Bool := t < st + coincR
    let s := if coinc then s.count (aUnit u 0x34) else s
    let s := s.onUnit u (fun x => { x with ivals := x.ivals ++ [if coinc then 0 else t - st], coinc := x.coinc || coinc })
    if s.unitNstop u ≤ (s.unitAt u).ivals.length then s.measEnd u t false else s

/-- Early stops that no start can be coincident with any more are orphans (R312). -/
def State.dropEarly (s : State) (u : Nat) (t : Stamp) : State :=
  let x := s.unitAt u
  let old := x.early.filter (fun e => e + coincR ≤ t)
  (s.count (aUnit u 0x30) old.length).onUnit u (fun x => { x with early := x.early.filter (fun e => !(decide (e + coincR ≤ t))) })

/-- A unit takes one input (R311): an arm while it is STARTED is ignored; the start edge is never a stop. [DEDUCED, log entry 67] -/
def State.unitTake (s : State) (u : Nat) (t : Stamp) (i : UnitItem) : State :=
  let s := match (s.unitAt u).phase with
    | .started st => if st + s.unitWindow u ≤ t then s.measEnd u (st + s.unitWindow u) false else s
    | _ => s
  let s := s.dropEarly u t
  match (s.unitAt u).phase, i with
  | .idle, .arm a => if a = s.unitArm u then s.onUnit u (fun x => { x with phase := .armed t }) else s
  | .armed a, .edge ch =>
    if ch = s.unitStart u && decide (a ≤ t) then
      let early := (s.unitAt u).early
      let s := s.onUnit u (fun x => { x with phase := .started t, ivals := [], coinc := false, early := [] })
      s.each early (fun s e => match (s.unitAt u).phase with
        | .started st => if st = t then s.measStop u st e else s
        | _ => s)
    else if ch = s.unitStop u && decide (a ≤ t) then s.onUnit u (fun x => { x with early := x.early ++ [t] })
    else s
  | .started st, .edge ch => if ch = s.unitStop u then s.measStop u st t else s
  | _, _ => s

/-- The inputs of a unit up to a stamp are processed in stamp order (R298, R311). -/
def State.unitSettle (s : State) (u : Nat) (limit : Stamp) : State :=
  let due := (s.unitAt u).inputs.filter (fun i => i.1 ≤ limit)
  let s := s.onUnit u (fun x => { x with inputs := x.inputs.filter (fun i => !(decide (i.1 ≤ limit))) })
  let s := s.each due (fun s i => s.unitTake u i.1 i.2)
  s.dropEarly u limit

/-- Accepted edges reach the ordering within 150 ns (R306): what is older than that by the time now is in order. [DEDUCED, log entry 67] -/
def State.tdcSettle (s : State) (seen : Stamp) : State :=
  s.each (upTo 8) (fun s u => s.unitSettle u (max s.nowFine seen - 150 * NS))

/-- Class and index of a unit's input (R298, R299), 16 × class + index: a frame's exposure start, a gate edge, an edge on a TDC channel, a
software arm of the host. [DEDUCED, log entry 67] -/
def UnitItem.rank : UnitItem → Nat
  | .arm 4 => 16 * 2
  | .arm 2 => 16 * 3
  | .arm 3 => 16 * 3 + 1
  | .edge ch => 16 * 4 + ch
  | .arm _ => 16 * 11

/-- An input reaches a unit, in the order of R298. -/
def State.unitInput (s : State) (u : Nat) (t : Stamp) (i : UnitItem) : State :=
  let key (c : Stamp × UnitItem) : Nat := 256 * c.1 + c.2.rank
  s.onUnit u (fun x => { x with inputs := insertBy (fun a b => decide (key a < key b)) (t, i) x.inputs })

/-- An arm of a source reaches the units it selects (R311). -/
def State.tdcArm (s : State) (src : Nat) (t : Stamp) : State :=
  let s := if s.runs .tdc then
    s.each (upTo 8) (fun s u => if s.unitOn u && s.unitArm u = src then s.unitInput u t (.arm src) else s) else s
  s.tdcSettle t

/-! ### The timing inputs (R305, R306) -/

/-- An edge on TDC_INn is lost in the dead time, held off, or accepted; an accepted one goes to the units and to the log.
The answer has its stamp. [DEDUCED, log entry 67] -/
def State.tdcTake (s : State) (n c f : Nat) : State × Option Stamp :=
  if !s.runs .tdc || !s.bit (aChCfg n) 31 then (s, none)
  else
    let raw := s.edgeRaw n c f
    let p := s.inputAt n
    let dead : Bool := match p.lastConv with | some l => decide (l ≤ raw) && decide (raw < l + 50 * NS) | none => false
    if dead then (s.count (aChCfg n + 0x10), none)
    else
      let s := s.onInput n (fun p => { p with lastConv := some raw })
      let t := s.edgeStamp n c f
      let hold := min 1000 (s.fld (aChCfg n) 9 0) * 10 * NS
      let held : Bool := match p.lastAcc with | some l => decide (l ≤ t) && decide (t < l + hold) | none => false
      if held then (s.count (aChCfg n + 0x14), none)
      else
        let s := (s.onInput n (fun p => { p with lastAcc := some t })).count (aChCfg n + 0xC)
        let s := if s.bit (aChCfg n) 29 then s.log t 4 n 1 [(20, 1, n), (21, 1, s.ipolFor n c)] else s
        let s := s.each (upTo 8) (fun s u =>
          if s.unitOn u && (s.unitStart u = n || s.unitStop u = n) then s.unitInput u t (.edge n) else s)
        (s.tdcSettle t, some t)

/-- An edge on a gate input: taken while TB is not OFF (R314), if 500 ns have passed since the previous one (R311). The
answer has its stamp. [DEDUCED, log entry 67] -/
def State.gateTake (s : State) (i c f : Nat) : State × Option Stamp :=
  let k := 20 + i
  let t := s.edgeStamp k c f
  let near : Bool := match (s.inputAt k).lastAcc with | some l => decide (l ≤ t) && decide (t < l + 500 * NS) | none => false
  if s.fnState .tb = .off || near then (s, none)
  else ((s.onInput k (fun p => { p with lastAcc := some t })).tdcArm (2 + i) t, some t)

/-! ### The TDC function (R315) -/

/-- FAULT_CODE 1: an enabled unit names a channel with EN = 0. -/
def State.tdcFault (s : State) : Nat :=
  if (upTo 8).any (fun u => s.unitOn u && (!s.bit (aChCfg (s.unitStart u)) 31 || !s.bit (aChCfg (s.unitStop u)) 31)) then 1 else 0

/-- TDC begins to run: enabled units wait for their arms, continuous ones are armed. -/
def State.tdcStart (s : State) : State :=
  s.each (upTo 8) (fun s u => s.onUnit u (fun x =>
    { x with phase := if !s.unitOn u then .off else if s.unitArm u = 1 then .armed s.now else .idle,
             inputs := [], early := [], ivals := [], coinc := false }))

/-- TDC stops: what has been accepted is processed, and each measurement in progress ends as SHORT. -/
def State.tdcStop (s : State) : State :=
  s.each (upTo 8) (fun s u =>
    let last := ((s.unitAt u).inputs.map (·.1)).foldl max s.nowFine
    let s := s.unitSettle u last
    let s := match (s.unitAt u).phase with | .started _ => s.measEnd u s.now false | _ => s
    s.onUnit u (fun x => { x with phase := .idle, early := [] }))

/-- QUENCH of TDC: measurements in progress are discarded. -/
def State.tdcQuench (s : State) : State :=
  s.each (upTo 8) (fun s u => s.onUnit u (fun x => { x with phase := .idle, inputs := [], early := [], ivals := [], coinc := false }))

/-- A step ends a STARTED measurement with flag STEPPED (R295). -/
def State.tdcStep (s : State) (t : Stamp) : State :=
  s.each (upTo 8) (fun s u =>
    let last := ((s.unitAt u).inputs.map (·.1)).foldl max t
    let s := s.unitSettle u last
    match (s.unitAt u).phase with
    | .started _ => s.measEnd u t true
    | _ => s)

/-- What the timing inputs and units keep across a step by d that moved the raw counter by dr (R295, R310): times that have passed are
counted in the new epoch, and a unit that waits for its start has been armed before every edge of it. -/
def State.tdcEpoch (s : State) (d dr : Int) : State :=
  let move (x : Stamp) (z : Int) : Stamp := stampInt ((x : Int) + z)
  let now := s.nowFine
  let s := s.putTb { s.tb with incs := s.tb.incs.map (fun x => (((x.1 : Int) + dr * 65536).toNat, x.2)) }
  s.onTdc (fun t =>
    { t with ins := t.ins.map (fun p =>
               { p with since := ((p.since : Int) + dr * 65536).toNat, lastConv := p.lastConv.map (move · dr), lastAcc := p.lastAcc.map (move · d) }),
             units := t.units.map (fun x => { x with
               phase := match x.phase with | .armed _ => .armed now | p => p
               early := x.early.map (move · d) }) })

/-! ### Registers (R313, R318, R319) -/

/-- TDC_USTAT as read. -/
def State.uStat (s : State) (u : Nat) : Nat :=
  let x := s.unitAt u
  let k := match x.phase with | .idle => 0 | .armed _ => 1 | .started _ => 2 | .off => 3
  k * 2 ^ 30 + b2n (decide (s.unitN u ≤ x.n)) * 2 ^ 29 + x.lastN % 16 * 2 ^ 25 + x.n

/-- SMEAN, SMIN, SMAX, SSD over the intervals of the statistics (R313); zero while there are none. -/
def TdcUnit.mean (x : TdcUnit) : Nat := if x.n = 0 then 0 else x.sum / x.n
def TdcUnit.ssd (x : TdcUnit) : Nat :=
  if x.n = 0 then 0 else min 0xFFFFFFFF (isqrt 120 (x.n * x.sumSq - x.sum * x.sum) / x.n)

/-- A unit register that is computed: offset in the unit. [DEDUCED, log entry 68] -/
def State.unitRead (s : State) (u off : Nat) : Nat :=
  let x := s.unitAt u
  if off = 0x0C then s.uStat u
  else if off = 0x10 then x.mean % 2 ^ 32
  else if off = 0x14 then x.mean / 2 ^ 32 % 2 ^ 32
  else if off = 0x18 then x.min_ % 2 ^ 32
  else if off = 0x1C then x.min_ / 2 ^ 32 % 2 ^ 32
  else if off = 0x20 then x.max_ % 2 ^ 32
  else if off = 0x24 then x.max_ / 2 ^ 32 % 2 ^ 32
  else x.ssd

/-- TDC_CHSTAT as read: CALAGE is the time since the calibration in units of 10 s (R318). -/
def State.chStat (s : State) (i : Nat) : Nat :=
  let v := s.reg (aChStat i)
  let age := if bitOf v 31 then min 255 ((s.tb.ticks - (s.inputAt i).calTick) / 4000000000) else 0
  putBits v 23 16 age

/-! ### The commands -/

/-- R311: TDC_UCMD.ARM arms a unit whose ARM selects software. -/
def tdcSoftwareArm (u : Fin 8) (s : State) : State :=
  if s.runs .tdc && s.unitOn u.val && s.unitArm u.val = 5 then (s.unitInput u.val s.now (.arm 5)).tdcSettle s.nowFine else s

/-- R313: TDC_UCMD.SCLR clears and restarts a unit's statistics. -/
def statisticsClear (u : Fin 8) (s : State) : State :=
  s.onUnit u.val (fun x => { x with n := 0, sum := 0, sumSq := 0, min_ := 0, max_ := 0 })

/-- R311: the window of a unit's measurement has passed; what lies within it is processed, and the measurement ends. [DESIGN CHOICE, log entry 3] -/
def tdcWindowEnd (u : Fin 8) (s : State) : State :=
  match (s.unitAt u.val).phase with
  | .started st =>
    let e := st + s.unitWindow u.val
    let n := (s.unitAt u.val).ended
    let s := s.unitSettle u.val (e - 1)
    if (s.unitAt u.val).ended = n then s.measEnd u.val e false else s
  | _ => s

/-! ### Temper's recalibration (R309, R310), one service step at a time (R445) -/

/-- A service step that takes time is in progress: a recalibration, Temper's calibration of a converter, a charge-input test. -/
def State.svcBusy (s : State) : Bool := s.bit aCal 31 || s.field.adcs.toList.any (·.calTemper) || s.field.testing.isSome

/-- A service step fell due while it could not run: it runs once it can, and once only (R445). [DEDUCED, log entry 89] -/
def State.addDue (s : State) (key : Nat) : State :=
  if s.bgs.due.contains key then s else s.putBgs { s.bgs with due := s.bgs.due ++ [key] }

/-- The recalibration of an input begins on the spare. -/
def State.recalGo (s : State) (target : Nat) : State :=
  ((s.setBit aCal 31 true).setFld aCal 20 16 target).ranAt (0x200 + target) (600 * ticksPerSec)

/-- R309: an input's recalibration is due: Temper begins it, or it waits for the step in progress or the post-trigger window to end
(R445). -/
def interpolatorRecalStart (target : Fin 22) (s : State) : State :=
  if s.fnState .tb = .off || !s.runs .bgs || (s.bit aCal 31 && s.fld aCal 20 16 = target.val) then s
  else if s.inPost || s.svcBusy then s.addDue (0x200 + target.val)
  else s.recalGo target.val

/-- Every bin is between 0.78 ps and 7.8 ps wide (R309). -/
def tableOk (inc : Nat) (h : List Nat) : Bool :=
  let total := h.foldl (· + ·) 0
  h.length = 800 && h.all (fun x => decide (78 * 2 ^ 32 * total ≤ inc * x * 100000) && decide (inc * x * 100000 ≤ 780 * 2 ^ 32 * total))

/-- R309: the spare's hits are collected; its table is accepted, or the attempt fails. [DEDUCED, log entry 68] -/
def codeDensityCollected (hist : List Nat) (s : State) : State :=
  if !s.bit aCal 31 then s
  else
    let spare := s.fld aCal 28 24
    let target := s.fld aCal 20 16
    if tableOk s.increment hist then
      s.onTdc (fun d => { d with ipols := d.ipols.setIfInBounds spare { (s.ipolAt spare) with table := some hist }, handover := some target })
    else
      let s := (s.setBit (aChStat target) 30 true).setBit aCal 31 false
      let s := s.onTdc (fun d => { d with calFails := d.calFails + 1, handover := none })
      s.logDev .tdc 1 stDONE [(21, 1, target)]

/-- R309, R310: the spare, with the OFFS measured against the interpolator in service, takes over the input at this tick; that
interpolator becomes the spare. -/
def interpolatorHandover (offs temp : Int) (s : State) : State :=
  match s.tdc.handover with
  | none => s
  | some target =>
    let spare := s.fld aCal 28 24
    let old := s.fld (aChStat target) 15 8
    let s := s.onTdc (fun d => { d with ipols := d.ipols.setIfInBounds spare { (s.ipolAt spare) with offs := offs }, handover := none })
    let s := s.onInput target (fun p => { p with oldIpol := old, since := s.tb.counter, calTick := s.tb.ticks })
    let s := ((s.setFld (aChStat target) 15 8 spare).setBit (aChStat target) 31 true).setFld (aChStat target) 7 0 (ux 8 temp)
    (s.setFld aCal 28 24 old).setBit aCal 31 false

end Sys2Proof.Machine
end

