-- ==== Sys2Proof/Machine/TrigCfg.lean ====
section
/-!
DEFINITION. The TRIGGER_CONFIG section as TRG holds it (R261; R485 for an image without one), the log entries of the trigger
engine (R253, R302), and the arrival of source events (R238–R240, R243).
-/

namespace Sys2Proof.Machine

def TRG : Nat := 0x00400000

def State.cfgLE (s : State) (i k : Nat) : Nat := fieldLE s.trig.cfg i k
/-- Bytes of TRIGGER_CONFIG (R261); an absent section reads 0 (R485). [DEDUCED, log entry 61] -/
def State.cfgByte (s : State) (i : Nat) : Nat := byteAt s.trig.cfg i

/-- H in units of 2^-16 ns (R243). -/
def State.horizon (s : State) : Nat := s.cfgLE 4 4 * 1000 * NS

/-- FRAMEOFS (R247). -/
def State.frameOfs (s : State) : Int := sx 32 (s.cfgLE 8 4)

/-- EXPTDC: the TDC channel that refines T_k (R247). -/
def State.expTdc (s : State) : Option Nat := if bitOf (s.cfgByte 3) 4 then some (bits (s.cfgByte 3) 3 0) else none

/-- The combiner set of a segment, or none (R241, R485). -/
def State.segSet (s : State) (seg : Nat) : Option Nat :=
  if s.trig.cfg.isEmpty then none
  else let v := s.cfgByte (0x18 + seg)
       if v = 0xFF then none else some v

/-- HOLD of a source, 2^-16 ns (R239). -/
def State.srcHold (s : State) (n : Nat) : Nat := s.cfgLE (0x58 + 4 * n) 4 * NS

/-- The unit of a source is present (R238). -/
def State.srcPresent (s : State) (n : Nat) : Bool :=
  if 18 ≤ n ∧ n ≤ 33 then s.part.field else if n = 51 then s.part.mirror else decide (n ≤ 60)

/-- A source is enabled by SRCEN, and its unit is present (R238). -/
def State.srcOn (s : State) (n : Nat) : Bool := bitOf (s.cfgLE 0x10 8) n && s.srcPresent n

/-- A level source (R238): an analogue comparator. -/
def levelSrc (n : Nat) : Bool := 18 ≤ n && n ≤ 33

/-- Dual input i: its byte of enables, DISC (R245, R261). -/
def State.dualOn (s : State) (i : Nat) : Bool := bitOf (s.cfgByte (0x158 + 16 * i)) 0
def State.dualLow (s : State) (i c : Nat) : Bool := bitOf (s.cfgByte (0x158 + 16 * i)) (1 + c)
def State.disc (s : State) (i : Nat) : Nat := s.cfgLE (0x158 + 16 * i + 4) 4 * NS

/-- Comparator n: THR, MODE (R240). -/
def State.thr (s : State) (n : Nat) : Int := sx 32 (s.cfgLE (0x178 + 8 * n) 4)
def State.cmpMode (s : State) (n : Nat) : Nat := s.cfgByte (0x178 + 8 * n + 4)

/-- Literal i of term j of set k (R241). -/
def State.literal (s : State) (k j i : Nat) : Nat := s.cfgByte (0x1F8 + 32 * k + 4 * j + i)

/-- Output o: MODE, SRC, idle high, TEST, TESTPOST, DELAY, WIDTH (R258, R259, R261). -/
def State.outMode (s : State) (o : Nat) : Nat := s.cfgByte (0x2F8 + 16 * o)
def State.outSrc (s : State) (o : Nat) : Nat := s.cfgByte (0x2F8 + 16 * o + 1)
def State.outIdle (s : State) (o : Nat) : Bool := bitOf (s.cfgByte (0x2F8 + 16 * o + 2)) 0
def State.outTestOn (s : State) (o : Nat) : Bool := bitOf (s.cfgByte (0x2F8 + 16 * o + 2)) 1
def State.outTestPost (s : State) (o : Nat) : Bool := bitOf (s.cfgByte (0x2F8 + 16 * o + 2)) 2
def State.outDelay (s : State) (o : Nat) : Int := sx 32 (s.cfgLE (0x2F8 + 16 * o + 4) 4)
def State.outWidth (s : State) (o : Nat) : Nat := s.cfgLE (0x2F8 + 16 * o + 8) 4 * NS

/-- Reduction channel c: KIND, index, interval in 2^-16 ns (R255). -/
def State.redKind (s : State) (c : Nat) : Nat := s.cfgByte (0x388 + 8 * c)
def State.redIdx (s : State) (c : Nat) : Nat := s.cfgByte (0x388 + 8 * c + 1)
def State.redInt (s : State) (c : Nat) : Nat := s.cfgLE (0x388 + 8 * c + 4) 4 * 1000 * NS

/-- Measurement channel c: KIND, index, HYST, LEVEL (R256). -/
def State.measKind (s : State) (c : Nat) : Nat := s.cfgByte (0x488 + 16 * c)
def State.measIdx (s : State) (c : Nat) : Nat := s.cfgByte (0x488 + 16 * c + 1)
def State.measHyst (s : State) (c : Nat) : Int := (s.cfgLE (0x488 + 16 * c + 2) 2 : Int)
def State.measLevel (s : State) (c : Nat) : Int := sx 32 (s.cfgLE (0x488 + 16 * c + 4) 4)

/-! ### Log entries of TRG (R253, R302) -/

def rsTAKEN : Nat := 0
def rsEARLY : Nat := 1
def rsREARM : Nat := 2
def rsBUSY : Nat := 3
def rsUNARMED : Nat := 4
def rsLATE : Nat := 5
def rsDISCREPANCY : Nat := 6
def rsARMEDTRUE : Nat := 7
def rsSTOPPED : Nat := 8
def rsFORCED : Nat := 9

/-- The counter of a reason (R253, R266). -/
def reasonCounter (k : Nat) : Nat := TRG + 0x100 + (if k = rsFORCED then 0 else 4 * k)

/-- What a trigger at a stamp meets (R253): the last change at or before it, or what the evaluation has reached. -/
def State.metPhase (s : State) (t : Stamp) : TrigPhase :=
  (s.trig.items.foldl (fun m i => match i.2 with
    | .phase p => if i.1 ≤ t && decide (m.1 ≤ i.1) then (i.1, p) else m
    | _ => m) ((0 : Stamp), s.trig.phase)).2

/-- The segment a TRG entry names: the one that its stamp met ARMED or in POST, else the one evaluated; 0xFF with neither. -/
def State.trgSeg (s : State) (t : Stamp) : Nat :=
  match s.metPhase t with
  | .armed g => g
  | .post g => g
  | _ => s.trig.evalSeg.getD 0xFF

/-- A trigger taken or ignored, or a late or faulted source event, is counted and logged at its stamp, which class 13 gives a
resolution of 2.5 ns, with the epoch of its stamp (R253, R299, R301, R302). -/
def State.trgLogAt (s : State) (kind : Nat) (t : Stamp) (m : StampMark) (src tfrac frame : Nat) : State :=
  (s.count (reasonCounter kind)).logMarked (t - t % res25) m 13 4 (4 * 16 + kind)
    [(20, 1, stDONE), (21, 1, s.trgSeg t), (22, 1, src), (24, 2, tfrac), (28, 4, frame)]

/-- The same for what is stamped in the epoch in force: the engine evaluates stamps within one epoch only (R295). -/
def State.trgLog (s : State) (kind : Nat) (t : Stamp) (src tfrac frame : Nat) : State :=
  s.trgLogAt kind t s.stampMark src tfrac frame

/-! ### Source events -/

/-- TRG takes source events: it runs, or stops and decides stamps up to its stop (R263). [DEDUCED, log entry 4] -/
def State.trgLive (s : State) : Bool := s.runs .trg || s.fnState .trg = .stopping

/-- An event of stamp t, taken in some epoch, reaches the trigger engine too late (R243): its stamp has been evaluated, or t + H has
passed; what is stamped in an earlier epoch was evaluated at the step (R295). [DESIGN CHOICE, log entry 48] -/
def State.srcLate (s : State) (t : Stamp) (epoch : Nat) : Bool :=
  epoch ≠ s.tb.epochs || (match s.trig.hp with | some h => decide (t ≤ h) | none => false) || decide (t + s.horizon < s.nowFine)

/-- An event of an enabled source (R238, R243), with what goes with its stamp. [DESIGN CHOICE, log entry 48] -/
def State.srcEventAt (s : State) (t : Stamp) (m : StampMark) (src : Nat) (item : TrigItem) : State :=
  if !s.trgLive || !s.srcOn src then s
  else if s.srcLate t m.epoch then s.trgLogAt rsLATE t m src 0 0
  else s.trigItem t item

/-- An event of an enabled source, stamped in the epoch in force. -/
def State.srcEvent (s : State) (t : Stamp) (src : Nat) (item : TrigItem) : State := s.srcEventAt t s.stampMark src item

/-- An edge of a source. -/
def State.srcEdge (s : State) (t : Stamp) (src : Nat) : State := s.srcEvent t src (.edge src false)

/-- A change of a level source. -/
def State.srcLevel (s : State) (t : Stamp) (src : Nat) (b : Bool) : State := s.srcEvent t src (.level src b)

/-- A stream that a reduction or measurement channel uses (R255, R256). -/
def State.streamUsed (s : State) (kind idx : Nat) : Bool :=
  (upTo 32).any (fun c => s.redKind c = kind && s.redIdx c = idx) || (upTo 8).any (fun c => s.measKind c = kind && s.measIdx c = idx)

/-- A sample of a stream, or a loss in it (R255, R256); `src` orders samples of equal stamps. A record that is still open is measured
whatever the state of TRG. [DEDUCED, log entry 60] -/
def State.streamAdd (s : State) (kind idx : Nat) (t : Stamp) (v : Int) (gap : Bool) (src : Nat) : State :=
  if (s.trgLive || s.segActive) && s.streamUsed kind idx then
    s.putTrig { s.trig with stream := s.trig.stream ++ [{ kind := kind, idx := idx, stamp := t, value := v, gap := gap, src := src }] }
  else s

/-- Comparator MODE's condition on a score x, given the previous one (R240). -/
def scoreFires (mode : Nat) (thr x : Int) (prev : Option Int) : Bool :=
  match mode, prev with
  | 0, _ => decide (thr ≤ x)
  | 1, _ => decide (x ≤ thr)
  | 2, some y => decide (thr ≤ x) && decide (y < thr)
  | 3, some y => decide (x ≤ thr) && decide (thr < y)
  | 4, some y => decide (thr ≤ x - y)
  | _, _ => false

/-- The event log entry of a score that fires (R28), class 8: by comparator, then engine (R299), with open CODE and DATA.
[DESIGN CHOICE, log entry 98] -/
def State.logScore (s : State) (e n : Nat) (t : Stamp) (m : StampMark) : State :=
  let v := (Config.scoreEntry s.freeUse).toNat
  (s.logMarked t m 8 (n * 96 + e) (v % 256) [(20, 12, v / 256)]).useFree

/-- R240: comparator n judges a score of engine e, stamped t with the mark m; one that fires is an event of source 2 + n. -/
def State.judgeScore (s : State) (e n : Nat) (t : Stamp) (m : StampMark) (x : Int) : State :=
  if s.trgLive then
    let key := n * 96 + e
    let prev := (s.trig.prev.find? (fun c => c.1 = key)).map (·.2)
    let s := s.putTrig { s.trig with prev := (key, x) :: s.trig.prev.filter (fun c => c.1 ≠ key) }
    let s := s.streamAdd 1 n t x false e
    if scoreFires (s.cmpMode n) (s.thr n) x prev then
      (s.logScore e n t m).srcEventAt t m (2 + n) (.edge (2 + n) false) else s
  else s

end Sys2Proof.Machine
end

