-- ==== Sys2Proof/Machine/Field.lean ====
section
/-!
DEFINITION. The field die's inputs and sample path (chapter 12): FIELD_PLAN (R365), charge amplifiers and exciters (R339–R341),
converters and sequences (R342–R350), samples, flags and wire breaks (R345–R354), comparators (R355), the sample ring (R356,
R357), the AUX function (R367).
-/

namespace Sys2Proof.Machine

def AUX : Nat := 0x00700000
def aExc (n : Nat) : Nat := AUX + 0x20 + 4 * n
def aBreak : Nat := AUX + 0x34
def aAdcCal (x : Nat) : Nat := AUX + 0x40 + 4 * x
def cSAMPLES : Nat := AUX + 0x100
def cOVR : Nat := AUX + 0x104
def cRMISS : Nat := AUX + 0x108
def cIMISS : Nat := AUX + 0x10C
def cPLMIS : Nat := AUX + 0x110
def cBREAK : Nat := AUX + 0x114
def cRINGFULL : Nat := AUX + 0x118
def cCALFAIL : Nat := AUX + 0x11C

def State.onField (s : State) (g : FieldState → FieldState) : State := s.putField (g s.field)
def State.adcAt (s : State) (x : Nat) : Adc := (s.field.adcs[x]?).getD {}
def State.onAdc (s : State) (x : Nat) (g : Adc → Adc) : State :=
  s.onField (fun f => { f with adcs := f.adcs.setIfInBounds x (g (s.adcAt x)) })
def State.ampAt (s : State) (n : Nat) : Amp := (s.field.amps[n]?).getD {}
def State.onAmp (s : State) (n : Nat) (g : Amp → Amp) : State :=
  s.onField (fun f => { f with amps := f.amps.setIfInBounds n (g (s.ampAt n)) })
def State.excAt (s : State) (n : Nat) : Exciter := (s.field.excs[n]?).getD {}
def State.onExc (s : State) (n : Nat) (g : Exciter → Exciter) : State :=
  s.onField (fun f => { f with excs := f.excs.setIfInBounds n (g (s.excAt n)) })
def State.voltAt (s : State) (n : Nat) : VoltIn := (s.field.volts[n]?).getD {}
def State.onVolt (s : State) (n : Nat) (g : VoltIn → VoltIn) : State :=
  s.onField (fun f => { f with volts := f.volts.setIfInBounds n (g (s.voltAt n)) })

/-- An event of class 7 (R369), at a stamp. -/
def State.logField (s : State) (t : Stamp) (idx code : Nat) (fields : List (Nat × Nat × Nat)) : State := s.log t 7 idx code fields

/-! ### FIELD_PLAN (R365) -/

def State.planLE (s : State) (i k : Nat) : Nat := fieldLE s.field.plan i k
def State.planByte (s : State) (i : Nat) : Nat := byteAt s.field.plan i
def State.ringBase (s : State) : Nat := s.planLE 4 4
def State.ringLen (s : State) : Nat := s.planLE 8 4
/-- PLCH, none where the plan names none. -/
def State.plCh (s : State) : Option Nat := if s.field.plan.isEmpty then none else
  let c := s.planByte 0xC
  if c = 0xFF then none else some c
def State.plTol (s : State) : Nat := s.planLE 0xE 2
/-- CALINT, s (R349). -/
def State.calInt (s : State) : Nat := s.planLE 0x1C 4
def State.plWin (s : State) : Nat := s.planLE 0x10 4
/-- Input n: enabled, ARMRESET, SKEW in ns; internal channels have SKEW 0 (R346). -/
def State.inputOn (s : State) (n : Nat) : Bool := bitOf (s.planByte (0x20 + 4 * n)) 7
def State.armReset (s : State) (n : Nat) : Bool := bitOf (s.planByte (0x20 + 4 * n)) 5
def State.inputSkew (s : State) (ch : Nat) : Int := if ch < 16 then sx 16 (s.planLE (0x22 + 4 * ch) 2) else 0
/-- Where the plan of converter x begins, and its fields. -/
def adcPlan (x : Nat) : Nat := 0x60 + 48 * x
def State.rTrig (s : State) (x : Nat) : Nat := s.planByte (adcPlan x)
def State.rLen (s : State) (x : Nat) : Nat := s.planByte (adcPlan x + 1)
def State.iTrig (s : State) (x : Nat) : Nat := s.planByte (adcPlan x + 2)
def State.iLen (s : State) (x : Nat) : Nat := s.planByte (adcPlan x + 3)
/-- The channel of a regular or injected entry. -/
def State.regCh (s : State) (x i : Nat) : Nat := s.planByte (adcPlan x + 8 + 2 * i)
def State.injCh (s : State) (x i : Nat) : Nat := s.planByte (adcPlan x + 40 + 2 * i)
/-- Comparator n: EN, BELOW, channel, HYST, THR (R355). -/
def State.acOn (s : State) (n : Nat) : Bool := bitOf (s.planByte (0xC0 + 8 * n)) 0
def State.acBelow (s : State) (n : Nat) : Bool := bitOf (s.planByte (0xC0 + 8 * n)) 1
def State.acCh (s : State) (n : Nat) : Nat := s.planByte (0xC1 + 8 * n)
def State.acHyst (s : State) (n : Nat) : Int := (s.planLE (0xC2 + 8 * n) 2 : Nat)
def State.acThr (s : State) (n : Nat) : Int := sx 16 (s.planLE (0xC4 + 8 * n) 2)

/-- The field die is out of reset with its link up, so that AUX is not OFF (R18). [DEDUCED, log entry 4] -/
def State.fieldUp (s : State) : Bool := s.fnState .aux ≠ .off && s.fnState .aux ≠ .absent

/-! ### Sample flags (R351) -/

def fOVR : Nat := 1
def fRANGE : Nat := 2
def fINVALID : Nat := 4
def fSETTLING : Nat := 8
def fBREAK : Nat := 16
def fPLAUS : Nat := 32
def fRESET : Nat := 64
def fTEST : Nat := 128

/-- A sample with any of INVALID, BREAK, SETTLING, RESET or TEST set is not valid. -/
def sampleValid (flags : Nat) : Bool := flags &&& (fINVALID + fSETTLING + fBREAK + fRESET + fTEST) = 0

/-- BREAK of an input channel. -/
def State.broken (s : State) (ch : Nat) : Bool := decide (ch < 16) && s.bit aBreak ch

/-- A break state is set or cleared: counted when set, logged (R352–R354, R369). -/
def State.setBreak (s : State) (ch : Nat) (b : Bool) : State :=
  if s.broken ch = b then s
  else
    let s := s.setBit aBreak ch b
    let s := if b then s.count cBREAK else s
    s.logField s.now 18 2 [(20, 1, ch), (21, 1, b2n b)]

/-- The exciter of an LVDT channel or a monitor channel. -/
def excOf (ch : Nat) : Option Nat :=
  if ch = 8 ∨ ch = 9 ∨ ch = 19 then some 0 else if ch = 10 ∨ ch = 11 ∨ ch = 20 then some 1 else none

def State.excSettling (s : State) (n : Nat) : Bool := s.bit (aExc n) 30

/-- The flags a channel gives a sample at its sampling instant: SETTLING (R341), RESET (R339), TEST (R354), BREAK (R353,
R354); the voltage inputs' break is decided as the conversion ends. [DEDUCED, log entry 73] -/
def State.instantFlags (s : State) (ch : Nat) (t : Stamp) : Nat :=
  let settling : Bool := match excOf ch with | some n => s.excSettling n | none => false
  let a := s.ampAt ch
  let reset : Bool := decide (ch < 8) && (a.closed || (match a.openAt with | some o => decide (t < o + 100000 * NS) | none => false))
  let test : Bool := decide (ch < 8) && (s.field.testing = some ch || a.test)
  let brk : Bool := decide (ch < 12) && s.broken ch
  b2n settling * fSETTLING + b2n reset * fRESET + b2n test * fTEST + b2n brk * fBREAK

/-! ### The sample ring (R356, R357) -/

/-- Slots of the ring. -/
def State.ringSlots (s : State) : Nat := s.ringLen * 1024

/-- The slot of a ring index, which is counted modulo 2^32 (R356). -/
def State.ringSlot (s : State) (i : Nat) : Nat := i % 2 ^ 32 % max s.ringSlots 1

/-- The Hearth address of a ring index. -/
def State.ringAddr (s : State) (i : Nat) : Nat := s.ringBase * extent + 16 * s.ringSlot i

/-- The index that next takes an index's slot: one ring later, or in the next round of 2^32 where the count ends before that. -/
def State.ringAgain (s : State) (i : Nat) : Nat :=
  if i % 2 ^ 32 + s.ringSlots < 2 ^ 32 then i + s.ringSlots else (i / 2 ^ 32 + 1) * 2 ^ 32 + s.ringSlot i

/-- The indices held, oldest first: those whose slot has not been written again. -/
def State.ringHeld (s : State) : List Nat :=
  let n := s.field.ringNext
  let m := min (2 * s.ringSlots) n
  ((upTo m).map (fun i => n - m + i)).filter (fun i => decide (n ≤ s.ringAgain i))

/-- The slot of the next index holds a record of a protected range (R357). -/
def State.ringProtected (s : State) : Bool :=
  let n := s.field.ringNext
  s.field.ranges.any (fun r =>
    let last := match r.last with | some l => l | none => n
    s.ringHeld.any (fun i => s.ringAgain i = n && decide (r.first ≤ i) && decide (i ≤ last)))

/-- A record is written at the next index. -/
def State.ringWrite (s : State) (rec_ : List Byte) : State :=
  (s.hwrite (s.ringAddr s.field.ringNext) rec_).onField (fun f => { f with ringNext := f.ringNext + 1 })

/-- The stamp of the record at an index, with the half nanosecond its CH byte carries. -/
def State.ringStamp (s : State) (i : Nat) : Stamp :=
  let b := s.hread (s.ringAddr i) 16
  fieldLE b 0 8 * NS + (if byteAt b 10 ≠ 0xFF ∧ bitOf (byteAt b 10) 7 then 0x8000 else 0)

/-- A record that cannot be written joins the gap that stands for it. -/
def State.ringSkip (s : State) (t : Stamp) (n flags : Nat) : State :=
  let g := match s.field.ringGap with
    | some (t0, m, f) => (t0, m + n, f ||| flags)
    | none => (t, n, flags)
  let s := if s.field.ringFull || flags ≠ 2 then s else s.logField s.now 18 6 [(21, 1, 1)]
  s.onField (fun f => { f with ringGap := some g, ringFull := f.ringFull || flags = 2 })

/-- A gap record (R356). -/
def gapRecord (t : Stamp) (n flags : Nat) : List Byte := pack 16 [(0, 8, t / NS), (10, 1, 0xFF), (11, 1, flags), (12, 4, n)]

/-- The pending gap is written before the next record once its slot is free; writing resumes with it (R357). -/
def State.ringResume (s : State) : State :=
  match s.field.ringGap with
  | none => s
  | some (t, n, f) =>
    if s.ringProtected then s
    else
      let s := if s.field.ringFull then s.logField s.now 18 6 [(24, 4, n)] else s
      (s.onField (fun f => { f with ringGap := none, ringFull := false })).ringWrite (gapRecord t n f)

/-- A sample goes to the ring, if there is one (R357). -/
def State.ringSample (s : State) (b : List Byte) : State :=
  if s.ringLen = 0 then s
  else
    let t := s.sampleStamp b
    let s := s.ringResume
    if s.field.ringGap.isSome || s.ringProtected then (s.ringSkip t 1 2).count cRINGFULL
    else
      s.ringWrite (pack 16 [(0, 8, t / NS), (8, 2, fieldLE b 0 2), (10, 1, byteAt b 2), (11, 1, byteAt b 3), (12, 4, fieldLE b 4 4)])

/-- A loss before the router becomes a gap record with QUEUE (R356). -/
def State.ringLoss (s : State) (t : Stamp) (n : Nat) : State :=
  if s.ringLen = 0 then s
  else
    let s := s.ringResume
    if s.field.ringGap.isSome || s.ringProtected then s.ringSkip t n 1 else s.ringWrite (gapRecord t n 1)

/-- R357: a segment enters POST, and the FIRST index of its record is fixed. -/
def State.ringFirst (s : State) (seg : Nat) (from_ : Stamp) : State :=
  if s.ringLen = 0 || !s.fieldUp then s
  else
    let held := s.ringHeld
    let cut : Bool := match held with | i :: _ => decide (from_ < s.ringStamp i) | [] => false
    let first := (held.find? (fun i => decide (from_ ≤ s.ringStamp i))).getD s.field.ringNext
    s.onField (fun f => { f with ranges := f.ranges.filter (fun r => r.seg ≠ seg) ++ [{ seg := seg, first := first, cut := cut }] })

/-- R357: 2.5 µs after a record closed its LAST index is fixed, and the range is logged. -/
def ringRangeLast (seg : Fin 64) (s : State) : State :=
  if !s.hearth.rangeDue.contains seg.val then s
  else
    let s := s.onH (fun h => { h with rangeDue := h.rangeDue.filter (· ≠ seg.val) })
    match s.field.ranges.find? (fun r => r.seg = seg.val), (s.segAt seg.val).record with
    | some r, some rec_ =>
      let inside := s.ringHeld.filter (fun i => decide (r.first ≤ i) && decide (s.ringStamp i ≤ rec_.upto))
      let last := inside.foldl max (r.first - 1)
      let gap : Bool := (inside.any (fun i => byteAt (s.hread (s.ringAddr i) 16) 10 = 0xFF))
      let r := { r with last := some last, gap := gap }
      let s := s.onField (fun f => { f with ranges := f.ranges.map (fun x => if x.seg = seg.val then r else x) })
      s.logField s.now 18 7 [(20, 1, seg.val), (21, 1, b2n r.cut + 2 * b2n gap), (24, 4, r.first), (28, 4, last)]
    | _, _ => s

/-! ### Converters (R342–R346) -/

/-- The entry converter x is at: its channel, and whether it is injected. -/
def State.adcEntry (s : State) (x : Nat) : Option (Nat × Bool) :=
  let a := s.adcAt x
  if a.cal then none
  else match a.inj with
    | some i => some (s.injCh x i, true)
    | none => if a.scan then some (s.regCh x a.pos, false) else none

/-- A regular trigger (R343). -/
def State.regularTrigger (s : State) (x : Nat) : State :=
  if !s.runs .aux || s.rLen x = 0 then s
  else if (s.adcAt x).scan then s.count cRMISS
  else s.onAdc x (fun a => { a with scan := true, pos := 0, down := false })

/-- An urgent event reaches converter x (R344, R350): it interrupts a regular entry and stops a calibration. [DEDUCED, log entry 73] -/
def State.injectedTrigger (s : State) (x : Nat) : State :=
  if !s.runs .aux || s.iLen x = 0 then s
  else if (s.adcAt x).inj.isSome then s.count cIMISS
  else s.onAdc x (fun a => { a with inj := some 0, smp := none, cal := false, calWait := a.calWait || a.cal, down := false })

/-- The urgent event of a code of ITRIG (R344). -/
def State.urgent (s : State) (code : Nat) : State :=
  s.each (upTo 2) (fun s x => if s.iTrig x = code then s.injectedTrigger x else s)

/-- The scheduled exposure start as a regular trigger (R343, RTRIG 3). -/
def State.frameTrigger (s : State) : State :=
  s.each (upTo 2) (fun s x => if s.rTrig x = 3 then s.regularTrigger x else s)

/-- A calibration that waits begins when no injected sequence is pending or running (R350). -/
def State.calBegin (s : State) (x : Nat) : State :=
  if (s.adcAt x).inj.isSome then s.onAdc x (fun a => { a with calWait := true })
  else s.onAdc x (fun a => { a with cal := true, calWait := false, smp := none, down := false })

/-- The sequence moves on after an entry (R343, R344); in STOPPING the entry in progress is the last (R367). [DEDUCED, log entry 73] -/
def State.adcAdvance (s : State) (x : Nat) (inj : Bool) : State :=
  if !s.runs .aux then s.onAdc x (fun a => { a with scan := false, pos := 0, inj := none })
  else if inj then
    let s := s.onAdc x (fun a => { a with inj := match a.inj with
      | some i => if i + 1 < s.iLen x then some (i + 1) else none
      | none => none })
    let a := s.adcAt x
    if a.inj.isNone && a.calWait then s.calBegin x else s
  else
    s.onAdc x (fun a =>
      if a.pos + 1 < s.rLen x then { a with pos := a.pos + 1 }
      else { a with pos := 0, scan := decide (s.rTrig x = 1) })

/-- The correction of a raw result (R349): the code, and whether it was clipped (R338). -/
def calibrate (r ofs : Int) (gain : Nat) : Int × Bool :=
  let c := (r - ofs) * gain / 32768
  let d := clampI (-32768) 32767 c
  (d, c ≠ d)

/-- The voltage input of a channel. -/
def voltOf (ch : Nat) : Option Nat := if 12 ≤ ch ∧ ch < 16 then some (ch - 12) else none

/-- R352: what the end of a conversion of a voltage input does to its break state; the answer has the flags it adds. -/
def State.voltEnd (s : State) (ch flags : Nat) : State × Nat :=
  match voltOf ch with
  | none => (s, 0)
  | some v =>
    let w := s.voltAt v
    if s.broken ch then
      if w.tripped then (s, fBREAK) else (s.setBreak ch false, 0)
    else if bitOf flags 2 then (s, 0)
    else if w.next then
      ((s.onVolt v (fun w => { w with next := false })).setBreak ch true, fBREAK + fRANGE)
    else (s, 0)

/-- The result of a conversion is written into the data register (R345). -/
def State.dataWrite (s : State) (x : Nat) (r : AdcResult) : State :=
  let lost : Bool := (s.adcAt x).res.isNew
  let s := if lost then s.count cOVR else s
  s.onAdc x (fun a => { a with res := { r with isNew := true, flags := r.flags ||| b2n lost } })

/-! ### Samples (R346–R348, R355) -/

/-- The corrected stamp of a sampling instant of channel ch at raw stamp t (R346). -/
def State.adcStamp (s : State) (ch : Nat) (t : Stamp) : Stamp := s.stampOf t res25 (s.inputSkew ch * NS)

/-- R348: a sample of PLCH is paired with the other converter's latest; the answer has the PLAUS flag. -/
def State.plausible (s : State) (x ch : Nat) (t : Stamp) (m : StampMark) (code : Int) (sseq : Nat) : State × Nat :=
  if s.plCh = some ch then
    let other := (s.adcAt (1 - x)).lastPl
    let s := s.onAdc x (fun a => { a with lastPl := some (t, code) })
    match other with
    | some (u, c) =>
      if u ≤ t && decide (t ≤ u + s.plWin * NS) && decide ((s.plTol : Int) < (code - c).natAbs) then
        let (a, b) := if x = 0 then (code, c) else (c, code)
        ((s.count cPLMIS).logMarked t m 7 x 3 [(20, 1, ch), (22, 2, ux 16 a), (24, 2, ux 16 b), (28, 4, sseq)], fPLAUS)
      else (s, 0)
    | none => (s, 0)
  else (s, 0)

/-- R355: comparator n judges a valid sample of its channel; a change is a level change of source 18 + n. -/
def State.acJudge (s : State) (n : Nat) (t : Stamp) (m : StampMark) (code : Int) (sseq : Nat) : State :=
  let now := bitOf s.field.comps n
  let thr := s.acThr n
  let h := s.acHyst n
  let next : Bool :=
    if s.acBelow n then (if code ≤ thr then true else if thr + h < code then false else now)
    else (if thr ≤ code then true else if code < thr - h then false else now)
  if next = now then s
  else
    let s := s.onField (fun f => { f with comps := f.comps ^^^ 2 ^ n })
    let s := s.logMarked t m 7 (2 + n) 1 [(20, 1, n), (21, 1, b2n next), (24, 4, sseq)]
    s.srcEventAt t m (18 + n) (.level (18 + n) next)

/-- The packer closes its word, which enters the auxiliary queue whole or is lost (R91, R93). [DEDUCED, log entry 26] -/
def State.packClose (s : State) : State :=
  let xs := (s.queueAt 96).openWord
  if xs.isEmpty then s
  else
    let lost := s.sampleLoss cFULL xs (fun i => { lossOf 96 cFULL i with nFull := 1 })
    (s.onQueue 96 (fun q => { q with openWord := [] })).takeIn 96 (.samples xs) xs.length lost

/-- One sample enters the packer; the fifth closes the word (R91). -/
def State.packSample (s : State) (b : List Byte) : State :=
  let s := s.onQueue 96 (fun q => { q with openWord := q.openWord ++ [b] })
  if 5 ≤ (s.queueAt 96).openWord.length then s.packClose else s

/-- The forwarder takes converter x's result (R345, R347). -/
def State.forward (s : State) (x : Nat) : State :=
  let r := (s.adcAt x).res
  if !r.isNew then s
  else
    let s := s.onAdc x (fun a => { a with res := { a.res with isNew := false } })
    let n := s.field.sseq
    let s := s.onField (fun f => { f with sseq := (f.sseq + 1) % 2 ^ 32 })
    let t := r.t
    let q := s.plausible x r.ch t r.mark r.code n
    let s := q.1
    let pl := q.2
    let flags := r.flags ||| pl
    let s := if sampleValid flags then
      s.each (upTo 16) (fun s i => if s.acOn i && s.acCh i = r.ch then s.acJudge i t r.mark r.code n else s) else s
    let ch := r.ch % 32 + 32 * x + 64 * b2n r.inj + 128 * b2n (t % NS ≠ 0)
    (s.count cSAMPLES).packSample
      (pack 12 [(0, 2, ux 16 r.code), (2, 1, ch), (3, 1, flags), (4, 4, n), (8, 4, t / NS)])

/-- Converter x holds a result that is forwarded before the other's: by sampling instant, and ties go to ADC_A (R347). Of two instants
with a step between them the one before the step is the earlier. -/
def State.resultFirst (s : State) (x : Nat) : Bool :=
  let a := (s.adcAt x).res
  let b := (s.adcAt (1 - x)).res
  a.isNew && (!b.isNew || decide (a.mark.epoch < b.mark.epoch)
    || (a.mark.epoch = b.mark.epoch && (decide (a.t < b.t) || (a.t = b.t && x = 0))))

/-- The router passes a sample to the streams of KIND 2 and to the ring (R347). -/
def State.routeSample (s : State) (b : List Byte) : State :=
  (s.streamAdd 2 (byteAt b 2 % 32) (s.sampleStamp b) (sx 16 (fieldLE b 0 2)) false
    (byteAt b 2 / 32 % 2)).ringSample b

/-- The router meets a slag word: a gap in every stream of samples, and in the ring (R356, R347). -/
def State.routeSlag (s : State) (w : Slag) : State :=
  let t := (w.first.map (·.stamp)).getD s.now
  let n := sat32 (w.nFull + w.nEcc + w.nFlush)
  (s.each (upTo 21) (fun s i => s.streamAdd 2 i t 0 true 0)).ringLoss t n

/-- An item is lost (R92): the samples of an uncorrectable word, or of a word among those discarded after an uncorrectable tag; a word
whose own tag is uncorrectable counts as one whatever it held. [DEDUCED, log entry 27] -/
def State.auxDiscard (s : State) (tag : Bool) : State :=
  match (s.queueAt 96).items with
  | it :: _ =>
    let n := match it with | .samples xs => if tag then 1 else xs.length | _ => 1
    ((s.popItem 96).pendLoss 96 { cause := cECC, queue := 0x80, noid := true, nEcc := n }).count (aQ 96 oQUE) n
  | [] => s

/-- The router takes the queue's first word (R92, R347). [DEDUCED, log entry 26] -/
def State.routeFront (s : State) (ecc : QueueEcc) : State :=
  match (s.queueAt 96).items with
  | [] => s
  | it :: _ =>
    let deliver (s : State) : State := match it with
      | .samples xs => s.each xs (fun s b => (s.count (aQ 96 oQOUT)).routeSample b)
      | .slag w => (s.count (aQ 96 oQOUT)).routeSlag w
      | .strip _ => s
    let s := s.count (aQ 96 oQCE) ecc.corrected
    if ecc.badTags.contains 0 then
      let more := lostBegun ecc.badTags 1 (s.queueAt 96).items.tail
      let s := s.auxDiscard true
      s.each (upTo more) (fun s i => s.auxDiscard (ecc.badTags.contains (i + 1)))
    else if ecc.badWords.contains 0 then
      match it with
      | .slag _ => ((s.popItem 96).count (aQ 96 oQOUT)).routeSlag (badSlag 96)
      | _ => s.auxDiscard false
    else deliver (s.popItem 96)

/-! ### The AUX function (R367) -/

/-- FAULT_CODE 3: the ring shares an extent with a defined segment. -/
def State.ringOverlaps (s : State) (base len : Nat) : Bool :=
  (upTo 64).any (fun i => let g := s.segAt i; overlaps base len g.base g.length)

/-- The watermark check of the auxiliary queue (R106). -/
def State.auxWatermark (s : State) : Bool :=
  let h := s.fld (aQ 96 0) 20 16
  h = 0 || decide (h ≤ s.fld (aQ 96 0) 12 8)

/-- The first failing start check of R367, or 0; with the plan of the kept image. -/
def State.auxFault (s : State) : Nat :=
  if s.imageFault ≠ 0 then s.imageFault
  else
    let plan := match s.kept with | some img => sectionOf img 0x28 | none => []
    if s.ringOverlaps (fieldLE plan 4 4) (fieldLE plan 8 4) then 3
    else if s.auxWatermark then 4
    else 0

/-- An exciter's register is written (R341, R371): a change while EN stays 1, or an enable, waits for the zero crossing. [DEDUCED, log entry 73] -/
def State.excWrite (s : State) (n v : Nat) : State :=
  let a := aExc n
  let old := s.reg a
  let new := v &&& 0x87FFFFFF
  let s := s.setReg a (new ||| old &&& 0x40000000)
  if !bitOf new 31 then s.onExc n (fun e => { e with pend := false })
  else if !bitOf old 31 || new % 2 ^ 27 ≠ old % 2 ^ 27 then s.onExc n (fun e => { e with pend := true })
  else s

/-- START of AUX loads the plan (R367, R371); another ring geometry begins the ring anew (R356). -/
def State.auxStart (s : State) : State :=
  let plan := match s.kept with | some img => sectionOf img 0x28 | none => []
  let same : Bool := s.field.plan ≠ [] && slice s.field.plan 4 8 = slice plan 4 8
  let s := s.onField (fun f =>
    { f with plan := plan, sseq := 0, comps := 0, adcs := f.adcs.map (fun a => { a with scan := false, pos := 0, inj := none, cal := false,
                                                                                        calWait := false, smp := none, res := {}, lastPl := none }),
             ringNext := if same then f.ringNext else 0, ranges := if same then f.ranges else [],
             ringGap := if same then f.ringGap else none, ringFull := same && f.ringFull })
  let s := (s.excWrite 0 (s.planLE 0x14 4)).excWrite 1 (s.planLE 0x18 4)
  s.each (upTo 16) (fun s n => if s.srcOn (18 + n) then s.srcLevel s.now (18 + n) false else s)

/-- AUX enters RUNNING: continuous sequences begin (R343). -/
def State.auxRunning (s : State) : State :=
  s.each (upTo 2) (fun s x => if s.rTrig x = 1 then s.regularTrigger x else s)

/-- Each converter has completed its entry in progress (R367). -/
def State.auxReady (s : State) : Bool := (upTo 2).all (fun x => (s.adcEntry x).isNone && (s.adcAt x).smp.isNone)

/-- STOPPING of AUX ends: what has been converted is forwarded, and the router empties the queue. -/
def State.auxStopped (s : State) : State :=
  let s := (if s.resultFirst 1 then (s.forward 1).forward 0 else (s.forward 0).forward 1).packClose
  let s := s.each (s.queueAt 96).items (fun s _ => s.routeFront {})
  s.onField (fun f => { f with adcs := f.adcs.map (fun a => { a with scan := false, inj := none, cal := false, calWait := false, smp := none }) })

/-- QUENCH of AUX: the converters stop, the queue is emptied with cause QUENCH (R108). -/
def State.auxQuench (s : State) : State :=
  let s := s.flushQueue 96 cQUENCH []
  s.onField (fun f => { f with adcs := f.adcs.map (fun a => { a with scan := false, inj := none, cal := false, calWait := false, smp := none,
                                                                     res := { a.res with isNew := false } }) })

/-- AUX_STAT as read (R370). -/
def State.auxStat (s : State) : Nat :=
  let one (x : Nat) : Nat :=
    let a := s.adcAt x
    8 * b2n a.scan + 4 * b2n a.inj.isSome + 2 * b2n a.down + b2n a.cal
  if s.fieldUp then one 0 * 2 ^ 28 + one 1 * 2 ^ 24 + b2n s.field.ringFull * 2 ^ 23 else b2n s.field.ringFull * 2 ^ 23

/-- AUX_DATA of converter x as read (R370); a field-die register reads zero while the die is in reset. -/
def State.auxData (s : State) (x : Nat) : Nat :=
  let r := (s.adcAt x).res
  if s.fieldUp then
    b2n r.isNew * 2 ^ 31 + b2n r.inj * 2 ^ 29 + r.ch % 32 * 2 ^ 24 + r.flags % 256 * 2 ^ 16 + ux 16 r.code
  else 0

/-- The range registers of the segment AUX_RSEL selects (R370). -/
def State.auxRange (s : State) (off : Nat) : Nat :=
  match s.field.ranges.find? (fun r => r.seg = s.fld (AUX + 0x50) 5 0) with
  | some r => match r.last with
    | some l => if off = 0x54 then r.first % 2 ^ 32 else if off = 0x58 then l % 2 ^ 32
                else 2 ^ 31 + b2n r.cut * 2 ^ 30 + b2n r.gap * 2 ^ 29
    | none => if off = 0x54 then r.first % 2 ^ 32 else if off = 0x58 then 0 else b2n r.cut * 2 ^ 30
  | none => 0

/-! ### Charge amplifiers and tests (R339, R354) -/

/-- The reset switches of a mask of amplifiers close. -/
def State.chargeReset (s : State) (mask : Nat) : State :=
  s.each ((upTo 8).filter (bitOf mask)) (fun s n => s.onAmp n (fun a => { a with closed := true }))

/-- A charge-input test in progress ends with step 4 of R354 and gives no result (an ARM, a post-trigger window, BGS). -/
def State.chargeTestEnd (s : State) : State :=
  match s.field.testing with
  | some n => (s.onField (fun f => { f with testing := none })).onAmp n (fun a => { a with closed := true, test := true })
  | none => s

/-- A successful ARM resets the ARMRESET inputs (R339). -/
def State.armResets (s : State) : State :=
  if s.fieldUp then s.chargeReset (((upTo 8).filter s.armReset).foldl (fun m n => m ||| 2 ^ n) 0) else s

/-- ADC calibrations that Temper started are abandoned (R446). -/
def State.calAbandon (s : State) : State :=
  s.each (upTo 2) (fun s x => s.onAdc x (fun a => if a.calTemper then { a with cal := false, calWait := false, calTemper := false } else a))

/-! ### The commands -/

/-- R91: no sample for 1 µs, and the packer closes its word. -/
def auxPackerTimeout (s : State) : State := s.packClose

/-- R339: AUX_CHCMD.RESET. -/
def chargeAmpReset (mask : BitVec 8) (s : State) : State := if s.fieldUp then s.chargeReset mask.toNat else s

/-- R339: the reset ends, and the switch opens. -/
def chargeResetEnd (n : Fin 8) (s : State) : State :=
  if (s.ampAt n.val).closed then s.onAmp n.val (fun _ => { closed := false, test := false, openAt := some s.rawNow }) else s

/-- R341: a write of AUX_EXC0 or AUX_EXC1. -/
def excWriteCmd (n : Fin 2) (v : Word) (s : State) : State := if s.fieldUp then s.excWrite n.val v.toNat else s

/-- R341: the positive zero crossing at which what was written applies. -/
def excitationApply (n : Fin 2) (s : State) : State :=
  if s.fieldUp && s.bit (aExc n.val) 31 && (s.excAt n.val).pend then
    let f := max 10000 (min 200000 (s.fld (aExc n.val) 17 0))
    let a := max 50 (min 350 (s.fld (aExc n.val) 26 18))
    let s := (s.onExc n.val (fun _ => { freq := f, amp := a, pend := false })).setBit (aExc n.val) 30 true
    s.logField s.now 18 5 [(20, 1, n.val), (21, 1, 1)]
  else s

/-- R341: 20 periods of the new excitation have passed. -/
def excitationSettled (n : Fin 2) (s : State) : State :=
  if s.fieldUp && s.excSettling n.val then (s.setBit (aExc n.val) 30 false).logField s.now 18 5 [(20, 1, n.val)] else s

/-- R343: RPERIOD has passed. -/
def adcPeriodicTrigger (x : Fin 2) (s : State) : State := if s.rTrig x.val = 2 then s.regularTrigger x.val else s

/-- R343: AUX_CHCMD.RSCAN. -/
def rscan (x : Fin 2) (s : State) : State := if s.rTrig x.val = 4 then s.regularTrigger x.val else s

/-- R344: AUX_CHCMD.ISCAN. -/
def iscan (x : Fin 2) (s : State) : State := if s.iTrig x.val = 21 then s.injectedTrigger x.val else s

/-- The reset switch of a channel's charge amplifier is closed, in mode 0 or by a reset: its output reads zero (R339). -/
def State.chargeHeld (s : State) (ch : Nat) : Bool :=
  decide (ch < 8) && (bits (s.planByte (0x20 + 4 * ch)) 4 3 = 0 || (s.ampAt ch).closed)

/-- R342: the sampling instant, at raw stamp t, of the entry converter x is at. -/
def adcSamplingInstant (x : Fin 2) (t : Stamp) (s : State) : State :=
  if !(s.runs .aux || s.fnState .aux = .stopping) || (s.adcAt x.val).smp.isSome then s
  else match s.adcEntry x.val with
    | none => s
    | some (ch, inj) =>
      s.onAdc x.val (fun a => { a with smp := some { ch := ch, inj := inj, t := s.adcStamp ch t, flags := s.instantFlags ch t,
                                                     ofs := sx 16 (s.fld (aAdcCal x.val) 15 0), gain := s.fld (aAdcCal x.val) 31 16,
                                                     zero := s.chargeHeld ch, mark := s.stampMark } })

/-- R342, R345, R349, R352: a conversion ends with a raw result; the output of a held charge amplifier reads zero (R339). [DEDUCED, log entry 73] -/
def adcConversionDone (x : Fin 2) (raw : Int) (s : State) : State :=
  match (s.adcAt x.val).smp with
  | none => s
  | some m =>
    let (code, clip) := calibrate (if m.zero then m.ofs else raw) m.ofs m.gain
    let r := s.voltEnd m.ch m.flags
    let s := r.1
    let vf := r.2
    let s := s.onAdc x.val (fun a => { a with smp := none })
    let s := s.dataWrite x.val { inj := m.inj, ch := m.ch, flags := m.flags ||| vf ||| b2n clip * fRANGE, code := code, t := m.t, mark := m.mark }
    s.adcAdvance x.val m.inj

/-- R342: no entry starts within 2 µs, and the converter powers down. -/
def adcPowerDown (x : Fin 2) (s : State) : State :=
  let a := s.adcAt x.val
  if s.fieldUp && (s.adcEntry x.val).isNone && !a.cal then s.onAdc x.val (fun a => { a with down := true }) else s

/-- R345, R347: the forwarder reads a result; one of the other converter with an earlier sampling instant goes first. -/
def sampleForward (x : Fin 2) (s : State) : State :=
  if !(s.adcAt x.val).res.isNew then s
  else if s.resultFirst (1 - x.val) then (s.forward (1 - x.val)).forward x.val
  else s.forward x.val

/-- R347: the router takes the next word of samples from the queue. -/
def sampleRoute (ecc : QueueEcc) (s : State) : State :=
  if s.runs .aux || s.fnState .aux = .stopping then s.routeFront ecc else s

/-- R349: AUX_CHCMD.CALA or CALB. -/
def adcCalibration (x : Fin 2) (s : State) : State :=
  if s.runs .aux && !(s.adcAt x.val).cal then s.calBegin x.val else s

/-- Temper's calibration of a converter begins. -/
def State.calGo (s : State) (x : Nat) : State :=
  ((s.calBegin x).onAdc x (fun a => { a with calTemper := true })).ranAt (0x300 + x) (max 1 s.calInt * ticksPerSec)

/-- R349: CALINT has passed, and Temper starts a calibration; it waits while a post-trigger window is open, for another service step, and
for a calibration that the host asked for (R445). -/
def adcCalibrationDue (x : Fin 2) (s : State) : State :=
  if !s.runs .aux || !s.runs .bgs || (s.adcAt x.val).calTemper then s
  else if s.inPost || s.svcBusy || (s.adcAt x.val).cal then s.addDue (0x300 + x.val)
  else s.calGo x.val

/-- R349: a calibration completes with the coefficients it measured; they are accepted or rejected. -/
def adcCalibrationDone (x : Fin 2) (ofs : Int) (gain : Nat) (s : State) : State :=
  if !(s.adcAt x.val).cal then s
  else
    let ok : Bool := decide (ofs.natAbs ≤ 200) && decide (((gain : Int) - 32768).natAbs * 50 ≤ 32768)
    let s := s.onAdc x.val (fun a => { a with cal := false, calTemper := false })
    let s := if ok then s.setReg (aAdcCal x.val) (gain % 65536 * 65536 + ux 16 ofs) else s.count cCALFAIL
    s.logField s.now x.val 4 [(20, 1, x.val), (21, 1, b2n !ok), (22, 2, ux 16 ofs), (24, 2, gain)]

/-- R352: the window comparator of a voltage input trips; conversions of it in progress are INVALID. -/
def voltageBreakTrip (v : Fin 4) (s : State) : State :=
  if !s.fieldUp then s
  else
    let s := s.onVolt v.val (fun _ => { tripped := true, next := !s.broken (12 + v.val) })
    s.onField (fun f => { f with adcs := f.adcs.map (fun a =>
      match a.smp with
      | some m => if m.ch = 12 + v.val then { a with smp := some { m with flags := m.flags ||| fINVALID } } else a
      | none => a) })

/-- R352: the comparator releases. -/
def voltageBreakRelease (v : Fin 4) (s : State) : State := s.onVolt v.val (fun w => { w with tripped := false })

/-- R353: the sum of LVDT k falls below 20%; the check is inactive while its exciter is off or settling. [DEDUCED, log entry 73] -/
def lvdtSumTrip (k : Fin 2) (s : State) : State :=
  if s.fieldUp && s.bit (aExc k.val) 31 && !s.excSettling k.val then
    (s.setBreak (8 + 2 * k.val) true).setBreak (9 + 2 * k.val) true
  else s

/-- R353: 20 periods after the sum recovered. -/
def lvdtSumRelease (k : Fin 2) (s : State) : State :=
  if s.fieldUp then (s.setBreak (8 + 2 * k.val) false).setBreak (9 + 2 * k.val) false else s

/-- The break test of a charge input begins. -/
def State.chargeGo (s : State) (n : Nat) : State :=
  (s.onField (fun f => { f with testing := some n })).ranAt (0x700 + n) (60 * ticksPerSec)

/-- R354: Temper starts the break test of a charge input, while no segment is ARMED or in POST; it waits for that and for another service
step (R445). -/
def chargeInputTest (n : Fin 8) (s : State) : State :=
  if !s.runs .bgs || !s.runs .aux || !s.inputOn n.val || s.field.testing = some n.val then s
  else if s.segActive || s.svcBusy then s.addDue (0x700 + n.val)
  else s.chargeGo n.val

/-- R354: the test ends with the capacitance it inferred, in pF. -/
def chargeInputTestDone (cap : Nat) (s : State) : State :=
  match s.field.testing with
  | some n =>
    let s := s.onField (fun f => { f with testing := none })
    let s := s.onAmp n (fun _ => { closed := false, openAt := some s.rawNow })
    let s := s.setBreak n (decide (cap < 50))
    s.logField s.now 18 10 [(20, 1, n), (21, 1, b2n (decide (cap < 50))), (22, 2, cap)]
  | none => s

end Sys2Proof.Machine
end

