-- ==== Sys2Proof/Machine/Aou.lean ====
section
/-!
DEFINITION. The outputs (chapter 12): codes and their range (R358), the result route (R359), loop errors and loop tests
(R361–R363), what the outputs do in each state (R364), the AOU function (R368).
-/

namespace Sys2Proof.Machine

def aOut (k off : Nat) : Nat := AUX + 0x800 + 0x20 * k + off

def State.outLE (s : State) (k i n : Nat) : Nat := fieldLE s.field.aplan (0x140 + 16 * k + i) n
def State.aoSrc (s : State) (k : Nat) : Nat := s.outLE k 0 1
def State.aoSlot (s : State) (k : Nat) : Nat := s.outLE k 1 1
def State.aoSafe (s : State) (k : Nat) : Nat := s.outLE k 2 2
def State.aoGain (s : State) (k : Nat) : Int := sx 32 (s.outLE k 4 4)
def State.aoOfs (s : State) (k : Nat) : Int := (s.outLE k 8 2 : Nat)
def State.aoStaleTmo (s : State) (k : Nat) : Nat := s.outLE k 10 2
def State.aoTstep (s : State) (k : Nat) : Nat := s.outLE k 12 1
def State.aoTestInt (s : State) (k : Nat) : Nat := s.outLE k 14 2
def State.loopTest (s : State) (k : Nat) : Option LoopTest := (s.field.tests[k]?).getD none
def State.setTest (s : State) (k : Nat) (t : Option LoopTest) : State :=
  (s.onField (fun f => { f with tests := f.tests.setIfInBounds k t })).setBit (aOut k 4) 29 t.isSome

/-- The range of an output's code (R358). -/
def aoClamp (k : Nat) (z : Int) : Int := if k < 6 then clampI 9831 57344 z else clampI 0 65535 z

/-- An output is given a code: it is applied within the output's range, CLAMPED says whether it was cut (R358, R373). -/
def State.setCode (s : State) (k : Nat) (z : Int) : State :=
  let c := aoClamp k z
  ((s.setFld (aOut k 4) 15 0 c.toNat).setBit (aOut k 4) 26 (decide (c ≠ z))).setBit (aOut k 4) 28 false

/-- An output goes to its SAFE code; 0 means off (R364). -/
def State.setSafe (s : State) (k : Nat) : State :=
  let c := s.aoSafe k
  if c = 0 then ((s.setFld (aOut k 4) 15 0 0).setBit (aOut k 4) 28 true).setBit (aOut k 4) 26 false
  else s.setCode k c

/-- The code an output follows: the one under test, or the one applied. -/
def State.demandCode (s : State) (k : Nat) : Nat :=
  match s.loopTest k with
  | some t => if t.restored then s.fld (aOut k 4) 15 0 else t.base
  | none => s.fld (aOut k 4) 15 0

/-- An output's status changes and is logged (R361, R359, R369 code 9). -/
def State.aoStatus (s : State) (k b : Nat) (v : Bool) : State :=
  if s.bit (aOut k 4) b = v then s
  else
    let s := s.setBit (aOut k 4) b v
    s.logField s.now 18 9 [(20, 1, k), (21, 1, b2n (s.bit (aOut k 4) 31) + 2 * b2n (s.bit (aOut k 4) 30))]

/-- A demand (R363): a new code that differs from the output's cancels a loop test, which is incomplete; once the output has been
restored it is an ordinary update, and the test finishes without a readback that the new code would falsify. [DEDUCED, log entry 73] -/
def State.demand (s : State) (k : Nat) (z : Int) : State :=
  if aoClamp k z = s.demandCode k && (s.loopTest k).isSome then s.setBit (aOut k 4) 26 (decide (aoClamp k z ≠ z))
  else
    let s := match s.loopTest k with
      | some t =>
        if t.restored then s.setTest k (some { t with demanded := true })
        else ((s.setTest k none).count (aOut k 0x10)).logField s.now 18 8 [(20, 1, k), (21, 1, 2), (22, 2, s.reg (aOut k 8))]
      | none => s
    s.setCode k z

/-- The code of a slot's value (R359). -/
def State.routeCode (s : State) (k : Nat) (v : Word) : Int := s.aoOfs k + v.toInt * s.aoGain k / 65536

/-- R359: every UPD_US the route takes the value of every slot that an output names, and the outputs take their codes. -/
def aouUpdate (s : State) : State :=
  if !s.runs .aou || s.field.aplan.isEmpty then s
  else
    let named := (upTo 8).filter (fun m => (upTo 8).any (fun k => s.aoSrc k = 1 && s.aoSlot k = m))
    let vals := s.slots
    let s := s.putSlots (named.foldl (fun x m => x.setIfInBounds m none) s.slots)
    s.each (upTo 8) (fun s k =>
      if s.aoSrc k = 1 then
        match (vals[s.aoSlot k]?).getD none with
        | some v => (s.aoStatus k 30 false).demand k (s.routeCode k v.1)
        | none => s
      else s.demand k (s.fld (aOut k 0) 15 0 : Nat))

/-- R359: a slot has supplied no value for STALETMO: the output goes to its SAFE code. [DEDUCED, log entry 73] -/
def aouStaleTimeout (o : Fin 8) (s : State) : State :=
  let k := o.val
  if s.runs .aou && s.aoSrc k = 1 && s.aoStaleTmo k ≠ 0 && !s.bit (aOut k 4) 30 then
    ((s.setTest k none).setSafe k).aoStatus k 30 true
  else s

/-- R361: the readback differs for over 1 ms. -/
def aouLoopError (o : Fin 6) (readback : BitVec 16) (s : State) : State :=
  let k := o.val
  if s.fnState .aou = .off || s.fnState .aou = .absent then s
  else
    let s := s.setFld (aOut k 8) 15 0 readback.toNat
    if s.bit (aOut k 4) 31 || s.bit (aOut k 4) 28 || s.nonHolder then s else (s.count (aOut k 0x14)).aoStatus k 31 true

/-- R361: the difference falls below 0.2 mA. -/
def aouLoopErrorClear (o : Fin 6) (readback : BitVec 16) (s : State) : State :=
  if s.fnState .aou = .off || s.fnState .aou = .absent then s
  else (s.setFld (aOut o.val 8) 15 0 readback.toNat).aoStatus o.val 31 false

/-- The step of a loop test in codes: TSTEP × 4 µA, downwards if it would pass 21.0 mA (R362). -/
def State.testDelta (s : State) (k code : Nat) : Int :=
  let d : Nat := s.aoTstep k * 4 * 65536 / 24000
  if 57344 < code + d then -(d : Int) else d

/-- R362: TESTINT has passed, the code has not changed for 10 ms, and no segment is in POST: the output is stepped. -/
def aouLoopTestStart (o : Fin 6) (readback : BitVec 16) (s : State) : State :=
  let k := o.val
  if s.runs .aou && s.aoTestInt k ≠ 0 && !s.inPost && (s.loopTest k).isNone && !s.bit (aOut k 4) 28 && !s.nonHolder then
    let code := s.fld (aOut k 4) 15 0
    let d := s.testDelta k code
    let s := s.setFld (aOut k 8) 15 0 readback.toNat
    (s.setTest k (some { base := code, delta := d, before := readback.toNat })).setFld (aOut k 4) 15 0 ((code : Int) + d).toNat
  else s

/-- R362: 500 µs into the test the readback change is compared with the step. -/
def aouTestCompare (o : Fin 6) (readback : BitVec 16) (s : State) : State :=
  let k := o.val
  match s.loopTest k with
  | some t =>
    let want : Int := (if t.delta < 0 then -1 else 1) * (s.aoTstep k * 4 * 65536 : Nat)
    let got : Int := ((readback.toNat : Int) - t.before) * 24000
    let bad : Bool := decide ((max 8 (s.aoTstep k)) * 65536 < (got - want).natAbs)
    (s.setFld (aOut k 8) 15 0 readback.toNat).setTest k (some { t with failed := t.failed || bad })
  | none => s

/-- R362: 1 ms into the test the output is restored. -/
def aouTestRestore (o : Fin 6) (s : State) : State :=
  match s.loopTest o.val with
  | some t => if t.restored then s else (s.setTest o.val (some { t with restored := true })).setFld (aOut o.val 4) 15 0 t.base
  | none => s

/-- R362: 1.5 ms into the test the readback is checked against the value before it, and the result is logged. -/
def aouTestResult (o : Fin 6) (readback : BitVec 16) (s : State) : State :=
  let k := o.val
  match s.loopTest k with
  | some t =>
    let off : Bool := !t.demanded && decide (8 * 65536 < (((readback.toNat : Int) - t.before) * 24000).natAbs)
    let fail : Bool := t.failed || off
    let s := (s.setFld (aOut k 8) 15 0 readback.toNat).setTest k none
    let s := if fail then (s.setBit (aOut k 4) 27 true).count (aOut k 0xC) else s
    s.logField s.now 18 8 [(20, 1, k), (21, 1, b2n fail), (22, 2, readback.toNat)]
  | none => s

/-- R373: a write of AOU_VAL, which acts in any state but OFF and ABSENT; a changed code cancels a test at once (R363). -/
def State.aouValWrite (s : State) (k v : Nat) : State :=
  if s.fnState .aou = .off || s.fnState .aou = .absent then s
  else
    let s := s.setFld (aOut k 0) 15 0 v
    if s.runs .aou && s.aoSrc k = 0 && (s.loopTest k).any (fun t => !t.restored) then s.demand k (v % 65536 : Nat) else s

/-! ### The AOU function (R364, R368) -/

/-- The first failing start check of R368, or 0. -/
def State.aouFault (s : State) : Nat := s.imageFault

/-- START of AOU takes the plan of the kept image; the outputs stand at their SAFE codes until the first update. -/
def State.aouStart (s : State) : State :=
  let plan := match s.kept with | some img => sectionOf img 0x28 | none => []
  let s := s.onField (fun f => { f with aplan := plan })
  s.each (upTo 8) (fun s k => (s.setTest k none).setSafe k)

/-- STOP, QUENCH and FAULT: SAFE, a test in progress cancelled without a log. -/
def State.aouStop (s : State) : State := s.each (upTo 8) (fun s k => (s.setTest k none).setSafe k)

/-- AOU goes OFF: its outputs are off (R364). -/
def State.aouOff (s : State) : State :=
  s.each (upTo 8) (fun s k => ((s.setTest k none).setFld (aOut k 4) 15 0 0).setBit (aOut k 4) 28 true)

/-- AOU_STAT as read (R373): OFF also on a pair member without Tongs (R364). -/
def State.aouStat (s : State) (k : Nat) : Nat :=
  let v := s.reg (aOut k 4)
  if s.nonHolder then putBits v 28 28 1 else v

end Sys2Proof.Machine
end

