-- ==== Sys2Proof/Machine/KamoxDecode.lean ====
section
/-!
DEFINITION. Kamox instruction words decoded (R159–R161): a total function from a word to an instruction or to ILLEGAL. Fields
that must be zero and reserved functions are checked here, once; the profile of the processor is an argument.
-/

namespace Sys2Proof.Machine

/-- The functions of VALU and VALUG (R165). -/
inductive VOp where
  | add | sub | addSs | subSs | addUs | subUs | min | max | minU | maxU | abs | neg | absd | and | or | xor | andn
  | sll | srl | sra | sel | mov
deriving DecidableEq, Repr

/-- The second operand of a vector instruction: a vector, a broadcast scalar, an immediate. -/
inductive VSrc where
  | v (n : Nat)
  | g (n : Nat)
  | imm (k : Int)
deriving DecidableEq, Repr

/-- A comparison of lanes (R167): its relation and whether it is unsigned. -/
inductive Rel where
  | eq | ne | lt | le | gt | ge
deriving DecidableEq, Repr

/-- Predicate logic (R168). -/
inductive POp where
  | and | or | xor | andn | not | mov
deriving DecidableEq, Repr

/-- The functions of VMAC (R169): product set, added or subtracted, with b unsigned or not; accumulate; clear. -/
inductive MacOp where
  | mul (su : Bool) | mac (su : Bool) | msu (su : Bool) | acc | clr
deriving DecidableEq, Repr

/-- Narrowing (R172): plain, saturated signed, saturated unsigned. -/
inductive NarOp where
  | wrap | ss | us
deriving DecidableEq, Repr

/-- Lane movement (R177). -/
inductive PermOp where
  | sldUp | sldDn | perm | bcast | lshUp | lshDn
deriving DecidableEq, Repr

/-- Reductions (R179). -/
inductive RedOp where
  | sumS | sumU | minS | maxS | minU | maxU | cnt
deriving DecidableEq, Repr

/-- The modes of a vector access (R180). -/
inductive VMode where
  | unit | p10 | p12 | strided (g : Nat) | gather (vx : Nat) | bcast
deriving DecidableEq, Repr

/-- Scalar ALU functions (R183). -/
inductive SOp where
  | add | sub | and | or | xor | andn | sll | srl | sra | slt | sltu | min | max | minu | maxu | mul | mulh | mulhu | clz | popc
deriving DecidableEq, Repr

/-- Special registers (R185). -/
inductive SReg where
  | a (n : Nat) | ab (n : Nat) | am (n : Nat) | lc | rot | dp | ksr
deriving DecidableEq, Repr

/-- Branch conditions (R186). -/
inductive Cond where
  | eq | ne | lt | ge | ltu | geu | pany | pnone
deriving DecidableEq, Repr

/-- The instructions of Kamox (chapter 05). -/
inductive KInstr where
  | valu (op : VOp) (vd va : Nat) (b : VSrc) (p : Nat)
  | vcmp (r : Rel) (u : Bool) (pd va : Nat) (b : VSrc) (p : Nat)
  | vpred (op : POp) (pd pa pb : Nat)
  | plt (pd g : Nat)
  | vmac (op : MacOp) (qd va vb p : Nat)
  | vnar (op : NarOp) (vd qa sh p : Nat)
  | vacs3 (mx : Bool) (vd va vb g : Nat)
  | vacs2 (mx : Bool) (vd va vb : Nat)
  | trace (two : Bool) (gd gs : Nat)
  | vperm (op : PermOp) (vd va vb p : Nat)
  | vmovG (vd g p : Nat)
  | vins (vd k g : Nat)
  | vext (u : Bool) (gd va k : Nat)
  | vidx (vd p : Nat)
  | vred (op : RedOp) (gd va p : Nat)
  | vld (m : VMode) (vr an p inc : Nat)
  | vst (m : VMode) (vr an p inc : Nat)
  | ld (g an size : Nat) (sxt off : Bool) (imm : Int)
  | st (g an size : Nat) (off : Bool) (imm : Int)
  | emitFrag (va gn : Nat) (last flush : Bool)
  | emitPreview (va gn : Nat)
  | salu (op : SOp) (gd ga gb : Nat)
  | salui (op : SOp) (gd ga : Nat) (k : Int)
  | lih (gd imm : Nat)
  | lil (gd imm : Nat)
  | sspecRead (g : Nat) (r : SReg)
  | sspecWrite (g : Nat) (r : SReg)
  | br (c : Cond) (ga gb : Nat) (off : Int)
  | jmp (target : Nat)
  | call (target : Nat)
  | ret
  | loop (target k : Nat)
  | fence
  | halt
  | nop
  | waitStrip (gd : Nat)
  | emitScore (gs n : Nat)
  | putAux (gs m : Nat)
  | waitEvent (gd ga gb : Nat)
  | sigTrig (k : Nat)
  | sys (gd ga c : Nat)
  | postLs (ga : Nat)
deriving DecidableEq, Repr

/-- An instruction where a condition on its fields holds. -/
def okIf (c : Bool) (i : KInstr) : Option KInstr := if c then some i else none

/-- Element i of a table of functions. -/
def pick {α : Type} (t : List α) (i : Nat) : Option α := t[i]?

/-- The VALU functions by number (R165). -/
def vops : List VOp := [.add, .sub, .addSs, .subSs, .addUs, .subUs, .min, .max, .minU, .maxU, .abs, .neg, .absd, .and, .or,
  .xor, .andn, .sll, .srl, .sra, .sel, .mov]

/-- The functions without a second operand (R165). -/
def VOp.unary : VOp → Bool
  | .abs | .neg | .mov => true
  | _ => false

/-- VALU, VALUG (R165). -/
def decValu (g : Bool) (vd va vb p fn : Nat) : Option KInstr :=
  match pick vops fn with
  | none => none
  | some op =>
    if g then okIf (!op.unary && decide (vb < 32)) (.valu op vd va (.g vb) p)
    else okIf (!op.unary || decide (vb = 0)) (.valu op vd va (.v vb) p)

/-- VALUI (R166). -/
def decValui (vd va k p fn : Nat) : Option KInstr :=
  let sk := sx 8 k
  match fn with
  | 0 => some (.valu .add vd va (.imm sk) p)
  | 1 => okIf (va = 0) (.valu .mov vd va (.imm sk) p)
  | 2 => okIf (k < 16) (.valu .sll vd va (.imm k) p)
  | 3 => okIf (k < 16) (.valu .srl vd va (.imm k) p)
  | 4 => okIf (k < 16) (.valu .sra vd va (.imm k) p)
  | 5 => some (.valu .min vd va (.imm sk) p)
  | 6 => some (.valu .max vd va (.imm sk) p)
  | _ => some (.valu .and vd va (.imm k) p)

/-- VCMP and VCMPI relations by number (R167). -/
def decVcmp (vd va vb p fn : Nat) : Option KInstr :=
  match pick [(Rel.eq, false), (.ne, false), (.lt, false), (.le, false), (.lt, true), (.le, true)] fn with
  | some (r, u) => okIf (vd < 8) (.vcmp r u vd va (.v vb) p)
  | none => none

def decVcmpi (vd va k p fn : Nat) : Option KInstr :=
  match pick [(Rel.eq, false), (.ne, false), (.lt, false), (.le, false), (.gt, false), (.ge, false), (.lt, true), (.gt, true)] fn with
  | some (r, u) => okIf (vd < 8) (.vcmp r u vd va (.imm (if u then (k : Int) else sx 8 k)) p)
  | none => none

/-- VPRED (R168). -/
def decVpred (vd va vb p fn : Nat) : Option KInstr :=
  if p ≠ 0 ∨ 8 ≤ vd then none
  else
    match fn with
    | 0 => okIf (va < 8 && vb < 8) (.vpred .and vd va vb)
    | 1 => okIf (va < 8 && vb < 8) (.vpred .or vd va vb)
    | 2 => okIf (va < 8 && vb < 8) (.vpred .xor vd va vb)
    | 3 => okIf (va < 8 && vb < 8) (.vpred .andn vd va vb)
    | 4 => okIf (va < 8 && vb = 0) (.vpred .not vd va 0)
    | 5 => okIf (va = 0 && vb < 32) (.plt vd vb)
    | 6 => okIf (va < 8 && vb = 0) (.vpred .mov vd va 0)
    | _ => none

/-- VMAC (R169). -/
def decVmac (vd va vb p fn : Nat) : Option KInstr :=
  match pick [MacOp.mul false, .mul true, .mac false, .mac true, .msu false, .msu true, .acc, .clr] fn with
  | none => none
  | some op =>
    let z : Bool := match op with
      | .acc => vb = 0
      | .clr => va = 0 && vb = 0
      | _ => true
    okIf (z && vd < 4) (.vmac op vd va vb p)

/-- VNAR (R172). -/
def decVnar (vd va vb p fn : Nat) : Option KInstr :=
  match pick [NarOp.wrap, .ss, .us] fn with
  | none => none
  | some op => okIf (va < 4 && vb < 40) (.vnar op vd va vb p)

/-- VACS (R173): bits [7:3] name a scalar, bits [2:0] the function. -/
def decVacs (vd va vb low : Nat) : Option KInstr :=
  let g := low / 8
  match low % 8 with
  | 0 => some (.vacs3 false vd va vb g)
  | 1 => some (.vacs3 true vd va vb g)
  | 2 => okIf (g = 0) (.vacs2 false vd va vb)
  | 3 => okIf (g = 0) (.vacs2 true vd va vb)
  | 4 => okIf (g = 0 && vb = 0 && vd < 32 && va < 32) (.trace false vd va)
  | 5 => okIf (g = 0 && vb = 0 && vd < 32 && va < 32) (.trace true vd va)
  | _ => none

/-- VPERM (R177). -/
def decVperm (vd va vb p fn : Nat) : Option KInstr :=
  match pick [PermOp.sldUp, .sldDn, .perm, .bcast, .lshUp, .lshDn] fn with
  | none => none
  | some op => some (.vperm op vd va vb p)

/-- VRED (R179). -/
def decVred (vd va vb p fn : Nat) : Option KInstr :=
  match pick [RedOp.sumS, .sumU, .minS, .maxS, .minU, .maxU, .cnt] fn with
  | none => none
  | some op => okIf (vb = 0 && vd < 32 && (op != .cnt || va = 0)) (.vred op vd va p)

/-- VXFER (R178). -/
def decVxfer (vd va vb p fn : Nat) : Option KInstr :=
  match fn with
  | 0 => okIf (va = 0 && vb < 32) (.vmovG vd vb p)
  | 1 => okIf (p = 0 && vb < 32) (.vins vd va vb)
  | 2 => okIf (p = 0 && vd < 32) (.vext false vd va vb)
  | 3 => okIf (p = 0 && vd < 32) (.vext true vd va vb)
  | 4 => okIf (va = 0 && vb = 0) (.vidx vd p)
  | _ => none

/-- The mode of a vector access (R180). -/
def decMode (store : Bool) (mode x : Nat) : Option VMode :=
  match mode with
  | 0 => if x = 0 then some .unit else none
  | 1 => if x = 0 then some .p10 else none
  | 2 => if x = 0 then some .p12 else none
  | 3 => some (.strided x)
  | 4 => if store then none else some (.gather x)
  | 5 => if store ∨ x ≠ 0 then none else some .bcast
  | _ => none

/-- SALU functions by number (R183). -/
def sops : List SOp := [.add, .sub, .and, .or, .xor, .andn, .sll, .srl, .sra, .slt, .sltu, .min, .max, .minu, .maxu, .mul,
  .mulh, .mulhu, .clz, .popc]

/-- SALU (R183). -/
def decSalu (gd ga gb mid fn : Nat) : Option KInstr :=
  match pick sops fn with
  | none => none
  | some op => okIf (mid = 0 && ((op != .clz && op != .popc) || gb = 0)) (.salu op gd ga gb)

/-- SALUI (R183). -/
def decSalui (gd ga k fn : Nat) : Option KInstr :=
  match pick [SOp.add, .and, .or, .xor, .sll, .srl, .sra, .slt] fn with
  | none => none
  | some op =>
    if op = .sll ∨ op = .srl ∨ op = .sra then okIf (k < 32) (.salui op gd ga k)
    else some (.salui op gd ga (sx 13 k))

/-- Special registers by number; ROT and DP belong to the vector profile (R185). -/
def decSreg (vec : Bool) (n : Nat) : Option SReg :=
  if n < 16 then some (.a n) else if n < 32 then some (.ab (n - 16)) else if n < 48 then some (.am (n - 32))
  else match n with
    | 48 => some .lc
    | 49 => if vec then some .rot else none
    | 50 => if vec then some .dp else none
    | 51 => some .ksr
    | _ => none

/-- BR (R186). -/
def decBr (vec : Bool) (ga gb c off : Nat) : Option KInstr :=
  let o := sx 13 off
  match pick [Cond.eq, .ne, .lt, .ge, .ltu, .geu, .pany, .pnone] c with
  | none => none
  | some c => okIf (decide (c ≠ .pany ∧ c ≠ .pnone) || (vec && ga < 8 && gb = 0)) (.br c ga gb o)

/-- CTL (R187). -/
def decCtl (vec : Bool) (fn k mid t : Nat) : Option KInstr :=
  if mid ≠ 0 then none
  else
    match fn with
    | 0 => okIf (k = 0) (.jmp (4 * t))
    | 1 => okIf (k = 0) (.call (4 * t))
    | 2 => okIf (k = 0 && t = 0) .ret
    | 3 => okIf (vec || k = 0) (.loop (4 * t) k)
    | 4 => okIf (k = 0 && t = 0) .fence
    | 5 => okIf (k = 0 && t = 0) .halt
    | 6 => okIf (k = 0 && t = 0) .nop
    | _ => none

/-- XSTR (R190). -/
def decXstr (fn g mid imm : Nat) : Option KInstr :=
  if mid ≠ 0 then none
  else
    match fn with
    | 0 => okIf (imm = 0) (.waitStrip g)
    | 1 => some (.emitScore g imm)
    | 2 => okIf (imm < 8) (.putAux g imm)
    | _ => none

/-- XSUP (R191). -/
def decXsup (fn gd ga gb imm : Nat) : Option KInstr :=
  match fn with
  | 0 => okIf (imm = 0) (.waitEvent gd ga gb)
  | 1 => okIf (gd = 0 && ga = 0 && gb = 0 && imm < 8) (.sigTrig imm)
  | 2 => okIf (gb = 0) (.sys gd ga imm)
  | 3 => okIf (gd = 0 && gb = 0 && imm = 0) (.postLs ga)
  | _ => none

/-- An instruction word decoded on a processor of the vector profile or of the scalar profile; none is ILLEGAL (R159). -/
def kdecode (vec : Bool) (w : Nat) : Option KInstr :=
  let vd := bits w 25 20
  let va := bits w 19 14
  let vb := bits w 13 8
  let p := bits w 7 5
  let fn := bits w 4 0
  let op := bits w 30 26
  if !vec && (op < 0x12 || op = 0x14 || op = 0x1E) then none
  else if vec && op = 0x1F then none
  else
    match op with
    | 0x01 => decValu false vd va vb p fn
    | 0x02 => decValu true vd va vb p fn
    | 0x03 => decValui vd va (bits w 13 6) (bits w 5 3) (bits w 2 0)
    | 0x04 => decVcmp vd va vb p fn
    | 0x05 => decVcmpi vd va (bits w 13 6) (bits w 5 3) (bits w 2 0)
    | 0x06 => decVpred vd va vb p fn
    | 0x07 => decVmac vd va vb p fn
    | 0x08 => decVnar vd va vb p fn
    | 0x09 => decVacs vd va vb (bits w 7 0)
    | 0x0A => decVperm vd va vb p fn
    | 0x0B => decVred vd va vb p fn
    | 0x0C => decVxfer vd va vb p fn
    | 0x10 => (decMode false (bits w 15 13) (bits w 9 5)).map
        (fun m => .vld m vd (bits w 19 16) (bits w 12 10) (bits w 4 0))
    | 0x11 => (decMode true (bits w 15 13) (bits w 9 5)).map
        (fun m => .vst m vd (bits w 19 16) (bits w 12 10) (bits w 4 0))
    | 0x12 => okIf (bits w 16 15 ≠ 3 && (bits w 16 15 ≠ 2 || !bitOf w 14))
        (.ld (bits w 25 21) (bits w 20 17) (bits w 16 15) (bitOf w 14) (bitOf w 13) (sx 13 (bits w 12 0)))
    | 0x13 => okIf (bits w 16 15 ≠ 3 && !bitOf w 14)
        (.st (bits w 25 21) (bits w 20 17) (bits w 16 15) (bitOf w 13) (sx 13 (bits w 12 0)))
    | 0x14 =>
      let sfx := bits w 14 13
      if bits w 11 0 ≠ 0 then none
      else if bitOf w 12 then okIf (sfx = 0) (.emitPreview vd (bits w 19 15))
      else okIf (sfx ≠ 3) (.emitFrag vd (bits w 19 15) (sfx = 1) (sfx = 2))
    | 0x18 => decSalu (bits w 25 21) (bits w 20 16) (bits w 15 11) (bits w 10 5) fn
    | 0x19 => decSalui (bits w 25 21) (bits w 20 16) (bits w 12 0) (bits w 15 13)
    | 0x1A =>
      match fn with
      | 0 => some (.lih (bits w 25 21) (bits w 20 5))
      | 1 => some (.lil (bits w 25 21) (bits w 20 5))
      | _ => none
    | 0x1B =>
      if bits w 13 0 ≠ 0 then none
      else (decSreg vec (bits w 20 15)).map
        (fun r => if bitOf w 14 then .sspecWrite (bits w 25 21) r else .sspecRead (bits w 25 21) r)
    | 0x1C => decBr vec (bits w 25 21) (bits w 20 16) (bits w 15 13) (bits w 12 0)
    | 0x1D => decCtl vec (bits w 25 21) (bits w 20 16) (bits w 15 14) (bits w 13 0)
    | 0x1E => decXstr (bits w 25 22) (bits w 21 17) (bits w 16 4) (bits w 3 0)
    | 0x1F => decXsup (bits w 25 22) (bits w 21 17) (bits w 16 12) (bits w 11 7) (bits w 6 0)
    | _ => none

/-- The slot of an instruction word, by its major opcode (R160): 0 memory, 1 vector, 2 scalar/control; 3, none, for the reserved
opcodes, to which the table gives no slot. [DEDUCED, log entry 39] -/
def slotOf (w : Nat) : Nat :=
  let op := bits w 30 26
  if op = 0 then 3 else if op < 0x0D then 1 else if op < 0x10 then 3 else if op < 0x15 then 0 else if op < 0x18 then 3 else 2

/-- What an instruction writes, for R123: the register file and the number in it. P0 and G0 are no writes. -/
inductive KDest where
  | v (n : Nat) | q (n : Nat) | p (n : Nat) | a (n : Nat) | ab (n : Nat) | am (n : Nat) | g (n : Nat) | lc | rot | dp
deriving DecidableEq, Repr

def destG (n : Nat) : List KDest := if n = 0 then [] else [.g n]
def destP (n : Nat) : List KDest := if n = 0 then [] else [.p n]

/-- The registers an instruction may write (R123); KSR is no such register. -/
def KInstr.dests : KInstr → List KDest
  | .valu _ vd _ _ _ => [.v vd]
  | .vcmp _ _ pd _ _ _ => destP pd
  | .vpred _ pd _ _ => destP pd
  | .plt pd _ => destP pd
  | .vmac _ qd _ _ _ => [.q qd]
  | .vnar _ vd _ _ _ => [.v vd]
  | .vacs3 _ vd _ _ _ => [.v vd, .dp]
  | .vacs2 _ vd _ _ => [.v vd, .dp]
  | .trace _ gd _ => .dp :: destG gd
  | .vperm _ vd _ _ _ => [.v vd]
  | .vmovG vd _ _ => [.v vd]
  | .vins vd _ _ => [.v vd]
  | .vext _ gd _ _ => destG gd
  | .vidx vd _ => [.v vd]
  | .vred _ gd _ _ => destG gd
  | .vld _ vr an _ inc => if inc = 0 then [.v vr] else [.v vr, .a an]
  | .vst _ _ an _ inc => if inc = 0 then [] else [.a an]
  | .ld g an _ _ off imm => if off ∨ imm = 0 then destG g else .a an :: destG g
  | .st _ an _ off imm => if off ∨ imm = 0 then [] else [.a an]
  | .emitFrag .. | .emitPreview .. => []
  | .salu _ gd _ _ => destG gd
  | .salui _ gd _ _ => destG gd
  | .lih gd _ => destG gd
  | .lil gd _ => destG gd
  | .sspecRead g _ => destG g
  | .sspecWrite _ r =>
    match r with
    | .a n => [.a n] | .ab n => [.ab n] | .am n => [.am n] | .lc => [.lc] | .rot => [.rot] | .dp => [.dp] | .ksr => []
  | .br .. | .jmp .. | .call .. | .ret => []
  | .loop _ k => if k = 0 then [.lc] else [.lc, .rot]
  | .fence | .halt | .nop => []
  | .waitStrip gd => destG gd
  | .emitScore .. | .putAux .. => []
  | .waitEvent gd _ _ => destG gd
  | .sigTrig .. => []
  | .sys gd _ _ => destG gd
  | .postLs .. => []

/-- The stream instructions, of which a bundle holds at most one (R123, R160). -/
def KInstr.stream : KInstr → Bool
  | .waitStrip .. | .emitFrag .. | .emitScore .. | .emitPreview .. | .putAux .. => true
  | _ => false

/-- No element stands twice in a list. -/
def distinct {α : Type} [DecidableEq α] : List α → Bool
  | [] => true
  | x :: xs => !xs.contains x && distinct xs

/-- The bundle keeps R123: one instruction per slot, no register written twice, one stream instruction at most. -/
def bundleOk (ws : List Nat) (is : List KInstr) : Bool :=
  distinct (ws.map slotOf) && distinct (is.flatMap KInstr.dests) && decide ((is.filter KInstr.stream).length ≤ 1)

end Sys2Proof.Machine
end

