-- ==== Sys2Proof/Machine/KamoxExec.lean ====
section
/-!
DEFINITION. What the Kamox instructions compute (chapter 05): every instruction of a bundle reads the processor as it was
before the bundle and yields its writes, its flags, its cost, its branch, its effect outside the processor, or the cause of a
fault. Machine/KamoxBundle.lean puts the instructions of a bundle together.
-/

namespace Sys2Proof.Machine

/-! ### Reading and writing a processor -/

/-- A vector made lane by lane. -/
def lanes {n : Nat} (f : Nat → BitVec n) : List (BitVec n) := (upTo 64).map f

/-- Lane i of a vector. -/
def lane {n : Nat} (v : List (BitVec n)) (i : Nat) : BitVec n := (v[i]?).getD 0

/-- The physical vector register a name refers to (R119). -/
def Proc.phys (s : Proc) (n : Nat) : Nat := if n < 32 then n else 32 + (n - 32 + s.rot.toNat) % 32

/-- A vector register by its name. -/
def Proc.vec (s : Proc) (n : Nat) : List (BitVec 16) := (s.v[s.phys n]?).getD []

/-- The predicate register n; P0 reads all ones (R117). -/
def Proc.pred (s : Proc) (n : Nat) : BitVec 64 := if n = 0 then BitVec.allOnes 64 else (s.p[n]?).getD 0

/-- A scalar; G0 reads 0 (R117). -/
def Proc.sc (s : Proc) (n : Nat) : Word := if n = 0 then 0 else (s.g[n]?).getD 0

/-- Where an instruction's writes go: registers are named as they were before the bundle. -/
def Proc.setV (old : Proc) (n : Nat) (x : List (BitVec 16)) (s : Proc) : Proc := { s with v := s.v.setIfInBounds (old.phys n) x }

def Proc.setG (n : Nat) (x : Word) (s : Proc) : Proc := if n = 0 then s else { s with g := s.g.setIfInBounds n x }

def Proc.setP (n : Nat) (x : BitVec 64) (s : Proc) : Proc := if n = 0 then s else { s with p := s.p.setIfInBounds n x }

def Proc.setA (n : Nat) (x : Word) (s : Proc) : Proc := { s with a := s.a.setIfInBounds n x }

/-- A predicate made lane by lane. -/
def predOf (f : Nat → Bool) : BitVec 64 := BitVec.ofNat 64 ((upTo 64).foldl (fun n i => n + b2n (f i) * 2 ^ i) 0)

/-- The enabled lanes of a vector replaced (R162). -/
def masked {n : Nat} (p : BitVec 64) (old : List (BitVec n)) (new : Nat → BitVec n) : List (BitVec n) :=
  lanes (fun i => if p.getLsbD i then new i else lane old i)

/-- What a bundle does outside its processor (R189–R192). -/
inductive KEffect where
  | none
  | emitFrag (pixels : List Nat) (last flush : Bool)
  | emitPreview (pixels : List Nat)
  | emitScore (value : Int) (n : Nat)
  | putAux (value : Word) (m : Nat)
  | waitStrip (gd : Nat)
  | fence
  | waitEvent (gd ga gb : Nat)
  | sigTrig (k : Nat)
  | sys (gd ga c : Nat)
  | postLs (ga : Nat)
deriving DecidableEq, Repr

/-- Causes of faults (R141). -/
def fcILLEGAL : Nat := 1
def fcBUNDLE : Nat := 2
def fcADDRESS : Nat := 3
def fcALIGN : Nat := 4
def fcECC : Nat := 5
def fcOVTRAP : Nat := 6
def fcSTEPCAP : Nat := 7
def fcSTACK : Nat := 8
def fcSTREAM : Nat := 9
def fcHALT : Nat := 10

/-- KSR flags as masks (R122). -/
def kSAT : Nat := 0x20
def kABS : Nat := 0x40
def kPACE : Nat := 0x80

/-- The result of one instruction: the cause of its fault, its writes, the sticky KSR flags it raises, its cost in steps,
where it branches, its effect. -/
structure KRes where
  fault : Option Nat := none
  upd : Proc → Proc := id
  flags : Nat := 0
  cost : Nat := 1
  next : Option Nat := none
  eff : KEffect := .none
  /-- it reads data memory, or merges into it (R130) -/
  reads : Bool := false

/-- A faulting instruction. -/
def KRes.bad (c : Nat) : KRes := { fault := some c }

/-! ### Vector ALU (R163–R166) -/

/-- Result and flags of a saturating narrowing to 16 bits (R163). -/
def satSS (t : Int) : BitVec 16 × Nat :=
  let c := clampI (-32768) 32767 t
  (BitVec.ofInt 16 c, if c = t then 0 else kSAT)

def satUS (t : Int) : BitVec 16 × Nat :=
  let c := clampI 0 65535 t
  (BitVec.ofInt 16 c, if c = t then 0 else kSAT)

/-- One lane of VALU, VALUG and VALUI (R165, R166); vsel is apart. -/
def vopLane (op : VOp) (a b : BitVec 16) : BitVec 16 × Nat :=
  let sh := b.toNat % 32
  match op with
  | .add => (a + b, 0)
  | .sub => (a - b, 0)
  | .addSs => satSS (a.toInt + b.toInt)
  | .subSs => satSS (a.toInt - b.toInt)
  | .addUs => satUS ((a.toNat : Int) + b.toNat)
  | .subUs => satUS ((a.toNat : Int) - b.toNat)
  | .min => (if a.toInt ≤ b.toInt then a else b, 0)
  | .max => (if a.toInt ≤ b.toInt then b else a, 0)
  | .minU => (if a.toNat ≤ b.toNat then a else b, 0)
  | .maxU => (if a.toNat ≤ b.toNat then b else a, 0)
  | .abs => if a.toInt = -32768 then (0x7FFF, kABS) else (BitVec.ofInt 16 (a.toInt.natAbs : Int), 0)
  | .neg => if a.toInt = -32768 then (0x7FFF, kABS) else (-a, 0)
  | .absd => (BitVec.ofNat 16 (a.toInt - b.toInt).natAbs, 0)
  | .and => (a &&& b, 0)
  | .or => (a ||| b, 0)
  | .xor => (a ^^^ b, 0)
  | .andn => (a &&& ~~~b, 0)
  | .sll => (if 16 ≤ sh then 0 else a <<< sh, 0)
  | .srl => (if 16 ≤ sh then 0 else a >>> sh, 0)
  | .sra => (a.sshiftRight (min sh 15), 0)
  | .sel => (a, 0)
  | .mov => (a, 0)

/-- The second operand in lane i. -/
def srcLane (s : Proc) (b : VSrc) (i : Nat) : BitVec 16 :=
  match b with
  | .v n => lane (s.vec n) i
  | .g n => (s.sc n).truncate 16
  | .imm k => BitVec.ofInt 16 k

def orFlags (p : BitVec 64) (f : Nat → Nat) : Nat := (upTo 64).foldl (fun n i => if p.getLsbD i then n ||| f i else n) 0

def exValu (s : Proc) (op : VOp) (vd va : Nat) (b : VSrc) (p : Nat) : KRes :=
  let pr := s.pred p
  let a := s.vec va
  if op = .sel then
    { upd := s.setV vd (lanes (fun i => if pr.getLsbD i then lane a i else srcLane s b i)) }
  else
    -- vli and vmov take their value from the operand that is named (R165, R166)
    let f (i : Nat) : BitVec 16 × Nat :=
      match op, b with
      | .mov, .imm k => (BitVec.ofInt 16 k, 0)
      | _, _ => vopLane op (lane a i) (srcLane s b i)
    { upd := s.setV vd (masked pr (s.vec vd) (fun i => (f i).1)), flags := orFlags pr (fun i => (f i).2) }

/-! ### Compare and predicates (R167, R168) -/

def relHolds (r : Rel) (a b : Int) : Bool :=
  match r with
  | .eq => a = b | .ne => a ≠ b | .lt => a < b | .le => a ≤ b | .gt => b < a | .ge => b ≤ a

def exVcmp (s : Proc) (r : Rel) (u : Bool) (pd va : Nat) (b : VSrc) (p : Nat) : KRes :=
  let pr := s.pred p
  let val (x : BitVec 16) : Int := if u then x.toNat else x.toInt
  { upd := Proc.setP pd (predOf (fun i => pr.getLsbD i && relHolds r (val (lane (s.vec va) i)) (val (srcLane s b i)))) }

def exVpred (s : Proc) (op : POp) (pd pa pb : Nat) : KRes :=
  let a := s.pred pa
  let b := s.pred pb
  { upd := Proc.setP pd (match op with
      | .and => a &&& b | .or => a ||| b | .xor => a ^^^ b | .andn => a &&& ~~~b | .not => ~~~a | .mov => a) }

/-! ### Multiply-accumulate and narrowing (R169–R172) -/

/-- A lane of the accumulator before wrapping (R170). -/
def macLane (op : MacOp) (q : Int) (a b : BitVec 16) : Int :=
  let prod (su : Bool) : Int := a.toInt * (if su then (b.toNat : Int) else b.toInt)
  match op with
  | .mul su => prod su
  | .mac su => q + prod su
  | .msu su => q - prod su
  | .acc => q + a.toInt
  | .clr => 0

def acc (s : Proc) (n : Nat) : List (BitVec 40) := (s.q[n]?).getD []

def exVmac (s : Proc) (op : MacOp) (qd va vb p : Nat) : KRes :=
  let pr := s.pred p
  let t (i : Nat) : Int := macLane op (lane (acc s qd) i).toInt (lane (s.vec va) i) (lane (s.vec vb) i)
  let ov := (upTo 64).any (fun i => pr.getLsbD i && (decide (t i < -(2 ^ 39)) || decide (2 ^ 39 ≤ t i)))
  if ov && s.ksr.getLsbD 15 then KRes.bad fcOVTRAP
  else { upd := fun x => { x with q := x.q.setIfInBounds qd (masked pr (acc s qd) (fun i => BitVec.ofInt 40 (t i))) },
         flags := if ov then 2 ^ qd else 0 }

def exVnar (s : Proc) (op : NarOp) (vd qa sh p : Nat) : KRes :=
  let pr := s.pred p
  let f (i : Nat) : BitVec 16 × Nat :=
    let t := (lane (acc s qa) i).toInt / (2 ^ sh : Int)
    match op with
    | .wrap => (BitVec.ofInt 16 t, 0)
    | .ss => satSS t
    | .us => satUS t
  { upd := s.setV vd (masked pr (s.vec vd) (fun i => (f i).1)), flags := orFlags pr (fun i => (f i).2) }

/-! ### Add-compare-select and traceback (R173–R176) -/

/-- The lower, or the greater, of two candidates; the first wins a tie. -/
def better (mx : Bool) (a b : Int × Nat) : Int × Nat :=
  if mx then (if a.1 < b.1 then b else a) else (if b.1 < a.1 then b else a)

/-- The decision entry of 64 lanes of 2 bits. -/
def decisionOf (f : Nat → Nat) : BitVec 128 := BitVec.ofNat 128 ((upTo 64).foldl (fun n i => n + f i % 4 * 4 ^ i) 0)

/-- A stage's decision is written at DP, and DP moves on. -/
def pushDecision (s : Proc) (d : BitVec 128) (x : Proc) : Proc :=
  { x with d := sput 0 x.d s.dp.toNat d, dp := s.dp + 1 }

def exVacs3 (s : Proc) (mx : Bool) (vd va vb g : Nat) : KRes :=
  let lam : Int := sx 16 (s.sc g).toNat
  let l := if mx then -lam else lam
  let a (i : Nat) : Int := (lane (s.vec va) i).toInt
  let best (i : Nat) : Int × Nat :=
    let c1 := (a i, 1)
    let r := if 0 < i then better mx c1 (a (i - 1) + l, 0) else c1
    if i < 63 then better mx r (a (i + 1) + l, 2) else r
  let f (i : Nat) : BitVec 16 × Nat := satSS ((best i).1 + (lane (s.vec vb) i).toInt)
  { upd := fun x => pushDecision s (decisionOf (fun i => (best i).2)) (s.setV vd (lanes (fun i => (f i).1)) x),
    flags := orFlags (BitVec.allOnes 64) (fun i => (f i).2) }

def exVacs2 (s : Proc) (mx : Bool) (vd va vb : Nat) : KRes :=
  let best (i : Nat) : Int × Nat :=
    let j := i / 2
    let b : Int := (lane (s.vec vb) j).toInt
    let sb := if i % 2 = 0 then b else -b
    better mx ((lane (s.vec va) j).toInt + sb, 0) ((lane (s.vec va) (j + 32)).toInt - sb, 1)
  let f (i : Nat) : BitVec 16 × Nat := satSS (best i).1
  { upd := fun x => pushDecision s (decisionOf (fun i => (best i).2)) (s.setV vd (lanes (fun i => (f i).1)) x),
    flags := orFlags (BitVec.allOnes 64) (fun i => (f i).2) }

def exTrace (s : Proc) (two : Bool) (gd gs : Nat) : KRes :=
  let j := (s.sc gs).toNat % 64
  let dp := s.dp - 1
  let d := (sget 0 s.d dp.toNat).toNat / 4 ^ j % 4
  let r : Int := if two then (j / 2 : Nat) + 32 * d else (j : Int) + d - 1
  { upd := fun x => Proc.setG gd (BitVec.ofInt 32 r) { x with dp := dp } }

/-! ### Lane movement, transfers, reductions (R177–R179) -/

def exVperm (s : Proc) (op : PermOp) (vd va vb p : Nat) : KRes :=
  let a := s.vec va
  let b := s.vec vb
  let f (i : Nat) : BitVec 16 :=
    match op with
    | .sldUp => if i = 0 then lane b 63 else lane a (i - 1)
    | .sldDn => if i = 63 then lane b 0 else lane a (i + 1)
    | .perm => lane a ((lane b i).toNat % 64)
    | .bcast => lane a vb
    | .lshUp => if vb ≤ i then lane a (i - vb) else 0
    | .lshDn => if i + vb ≤ 63 then lane a (i + vb) else 0
  { upd := s.setV vd (masked (s.pred p) (s.vec vd) f) }

/-- The extreme of the enabled lanes with its lowest index, or 0xFFFF_0000 (R179). -/
def extreme (s : Proc) (u mx : Bool) (va p : Nat) : Word :=
  let pr := s.pred p
  let val (i : Nat) : Int := let x := lane (s.vec va) i; if u then x.toNat else x.toInt
  let r := (upTo 64).foldl (fun (r : Option (Int × Nat)) i =>
    if pr.getLsbD i then
      match r with
      | none => some (val i, i)
      | some b => some (better mx b (val i, i))
    else r) none
  match r with
  | none => 0xFFFF0000
  | some (x, i) => BitVec.ofNat 32 (i * 65536 + ux 16 x)

def exVred (s : Proc) (op : RedOp) (gd va p : Nat) : KRes :=
  let pr := s.pred p
  let sum (f : BitVec 16 → Int) : Int :=
    (upTo 64).foldl (fun n i => if pr.getLsbD i then n + f (lane (s.vec va) i) else n) 0
  let r : Word := match op with
    | .sumS => BitVec.ofInt 32 (sum BitVec.toInt)
    | .sumU => BitVec.ofInt 32 (sum (fun x => (x.toNat : Int)))
    | .minS => extreme s false false va p
    | .maxS => extreme s false true va p
    | .minU => extreme s true false va p
    | .maxU => extreme s true true va p
    | .cnt => BitVec.ofNat 32 (popcount 64 pr.toNat)
  { upd := Proc.setG gd r, cost := 2 }

/-! ### Memory (R120, R129, R180–R182) -/

/-- The effective address formed from An (R120). -/
def Proc.ea (s : Proc) (n : Nat) : Nat :=
  let a : Int := ((s.a[n]?).getD 0).toNat
  let ab : Int := ((s.ab[n]?).getD 0).toNat
  let am : Int := ((s.am[n]?).getD 0).toNat
  if am = 0 then a.toNat else ((ab + (a - ab) % am) % (2 ^ 32 : Int)).toNat

/-- The byte address of an access at an offset (R181). [DEDUCED, log entry 39] -/
def Proc.addr (s : Proc) (n : Nat) (o : Int) : Nat :=
  let a : Int := ((s.a[n]?).getD 0).toNat
  let ab : Int := ((s.ab[n]?).getD 0).toNat
  let am : Int := ((s.am[n]?).getD 0).toNat
  if am = 0 then ((a + o) % (2 ^ 32 : Int)).toNat else ((ab + (a - ab + o) % am) % (2 ^ 32 : Int)).toNat

/-- An after a post-increment by i (R120). -/
def Proc.postInc (s : Proc) (n : Nat) (i : Int) : Word :=
  let ab : Int := ((s.ab[n]?).getD 0).toNat
  let am : Int := ((s.am[n]?).getD 0).toNat
  let e : Int := s.ea n
  if am = 0 then BitVec.ofInt 32 (e + i) else BitVec.ofInt 32 (ab + (e - ab + i) % am)

/-- A data access at a byte address may read, or write (R128, R129); a core reaches all of its memory (R182). -/
def accessOk (vec write : Bool) (a : Nat) : Bool :=
  if vec then (if write then 0x14000 ≤ a && a ≤ 0x3EFFF else 0x10000 ≤ a && a ≤ 0x3FFFF) else a ≤ 0x3FFFF

/-- The fault of an access to byte addresses as aligned addresses demand it: ADDRESS before ALIGN (R141, R193). -/
def accessFault (vec write : Bool) (bytes : List Nat) (aligned : Bool) : Option Nat :=
  if bytes.any (fun a => !accessOk vec write a) then some fcADDRESS
  else if aligned then none else some fcALIGN

/-- The bits of each pixel, the bytes of the run (R180). -/
def packedBits : VMode → Nat
  | .p10 => 10 | .p12 => 12 | _ => 16

/-- The offset of lane i in an unpacked mode (R180). -/
def laneOffset (s : Proc) (m : VMode) (i : Nat) : Int :=
  match m with
  | .strided g => (i : Int) * (s.sc g).toInt
  | .gather vx => 2 * ((lane ((s.v[vx]?).getD []) i).toNat : Int)
  | .bcast => 0
  | _ => 2 * (i : Int)

/-- The post-increment of a vector access (R180). -/
def vInc (s : Proc) (m : VMode) (inc : Nat) : Int :=
  if inc = 16 then
    match m with
    | .unit => 128 | .p10 => 80 | .p12 => 96 | .strided g => 64 * (s.sc g).toInt | .gather _ => 128 | .bcast => 2
  else sx 5 inc * 16

/-- The step cost of a vector access (R180). -/
def vCost : VMode → Nat
  | .unit | .p10 | .p12 => 1 | .strided _ | .bcast => 2 | .gather _ => 4

/-- The packed modes. -/
def VMode.packed : VMode → Bool
  | .p10 | .p12 => true
  | _ => false

/-- The run bytes that hold a bit of an enabled lane (R181). -/
def touched (b : Nat) (pr : BitVec 64) : List Nat :=
  (upTo (8 * b)).filter (fun o => (upTo 64).any (fun i => pr.getLsbD i && decide (b * i < 8 * o + 8) && decide (8 * o < b * i + b)))

/-- The fault of a vector access (R129, R181). -/
def vFault (s : Proc) (write : Bool) (m : VMode) (an : Nat) (pr : BitVec 64) : Option Nat :=
  if m.packed then
    let t := touched (packedBits m) pr
    accessFault true write (t.map (fun (o : Nat) => s.addr an (o : Int))) (t.isEmpty || s.addr an 0 % 2 = 0)
  else
    let as := (upTo 64).filterMap (fun i => if pr.getLsbD i then some (s.addr an (laneOffset s m i)) else none)
    accessFault true write (as.flatMap (fun a => [a, a + 1])) (as.all (fun a => a % 2 = 0))

def vUpd (s : Proc) (m : VMode) (an inc : Nat) (x : Proc) : Proc :=
  if inc = 0 then x else Proc.setA an (s.postInc an (vInc s m inc)) x

def exVld (s : Proc) (m : VMode) (vr an p inc : Nat) : KRes :=
  let pr := s.pred p
  match vFault s false m an pr with
  | some c => KRes.bad c
  | none =>
    let f (i : Nat) : BitVec 16 :=
      if m.packed then
        let b := packedBits m
        let o := b * i / 8
        let raw := fromLE ((upTo 3).map (fun k => Memory.get s.mem (s.addr an ((o + k : Nat) : Int))))
        BitVec.ofNat 16 (raw / 2 ^ (b * i % 8) % 2 ^ b)
      else BitVec.ofNat 16 (Memory.readLE s.mem (s.addr an (laneOffset s m i)) 2)
    { upd := fun x => vUpd s m an inc (s.setV vr (masked pr (s.vec vr) f) x), cost := vCost m, reads := pr ≠ 0 }

/-- The bits of enabled lanes laid into the bytes of a run (R181). -/
def packInto (b : Nat) (pr : BitVec 64) (v : List (BitVec 16)) (old : List Byte) : List Byte :=
  let n := (upTo 64).foldl (fun n i => if pr.getLsbD i then putBits n (b * i + b - 1) (b * i) (lane v i).toNat else n) (fromLE old)
  leBytes old.length n

/-- A byte of a packed run whose bits all belong to enabled lanes (R181). -/
def fullByte (b : Nat) (pr : BitVec 64) (o : Nat) : Bool :=
  (upTo 64).all (fun i => pr.getLsbD i || !(decide (b * i < 8 * o + 8) && decide (8 * o < b * i + b)))

/-- The bytes that a vector store writes whole. -/
def storedWhole (s : Proc) (m : VMode) (an : Nat) (pr : BitVec 64) : List Nat :=
  if m.packed then
    let b := packedBits m
    ((touched b pr).filter (fullByte b pr)).map (fun (o : Nat) => s.addr an (o : Int))
  else
    ((upTo 64).filter pr.getLsbD).flatMap (fun i => let a := s.addr an (laneOffset s m i); [a, a + 1])

/-- The bytes that a vector store touches. -/
def storeTouches (s : Proc) (m : VMode) (an : Nat) (pr : BitVec 64) : List Nat :=
  if m.packed then (touched (packedBits m) pr).map (fun (o : Nat) => s.addr an (o : Int)) else storedWhole s m an pr

/-- A store of some bytes whole reads a 64-bit word to merge it: it leaves a part of a word that it touches (R130). -/
def merges (whole touch : List Nat) : Bool :=
  touch.any (fun a => (upTo 8).any (fun k => !whole.contains (8 * (a / 8) + k)))

def exVst (s : Proc) (m : VMode) (vr an p inc : Nat) : KRes :=
  let pr := s.pred p
  match vFault s true m an pr with
  | some c => KRes.bad c
  | none =>
    let v := s.vec vr
    let w (x : Proc) : Proc :=
      if m.packed then
        let b := packedBits m
        let old := (upTo (8 * b)).map (fun (o : Nat) => Memory.get s.mem (s.addr an (o : Int)))
        let new := packInto b pr v old
        { x with mem := (touched b pr).foldl (fun mm (o : Nat) => Memory.set mm (s.addr an (o : Int)) ((new[o]?).getD 0)) x.mem }
      else
        { x with mem := (upTo 64).foldl (fun mm i =>
            if pr.getLsbD i then Memory.writeLE mm (s.addr an (laneOffset s m i)) 2 (lane v i).toNat else mm) x.mem }
    { upd := fun x => vUpd s m an inc (w x), cost := vCost m, reads := merges (storedWhole s m an pr) (storeTouches s m an pr) }

def exLd (s : Proc) (vec : Bool) (g an size : Nat) (sxt off : Bool) (imm : Int) : KRes :=
  let n := 2 ^ size
  let a := if off then (((s.ea an : Int) + imm) % (2 ^ 32 : Int)).toNat else s.ea an
  match accessFault vec false ((upTo n).map (· + a)) (a % n = 0) with
  | some c => KRes.bad c
  | none =>
    let raw := Memory.readLE s.mem a n
    let x : Word := if sxt then BitVec.ofInt 32 (sx (8 * n) raw) else BitVec.ofNat 32 raw
    { upd := fun p => let p := Proc.setG g x p
                      if off ∨ imm = 0 then p else Proc.setA an (s.postInc an imm) p,
      reads := true }

def exSt (s : Proc) (vec : Bool) (g an size : Nat) (off : Bool) (imm : Int) : KRes :=
  let n := 2 ^ size
  let a := if off then (((s.ea an : Int) + imm) % (2 ^ 32 : Int)).toNat else s.ea an
  match accessFault vec true ((upTo n).map (· + a)) (a % n = 0) with
  | some c => KRes.bad c
  | none =>
    { upd := fun p => let p := { p with mem := Memory.writeLE p.mem a n (s.sc g).toNat }
                      if off ∨ imm = 0 then p else Proc.setA an (s.postInc an imm) p,
      reads := true }

/-! ### Scalar instructions (R183–R185) -/

def clz32 (a : Word) : Nat := ((upTo 32).takeWhile (fun i => !a.getLsbD (31 - i))).length

def sopVal (op : SOp) (a b : Word) : Word :=
  let sh := b.toNat % 32
  match op with
  | .add => a + b
  | .sub => a - b
  | .and => a &&& b
  | .or => a ||| b
  | .xor => a ^^^ b
  | .andn => a &&& ~~~b
  | .sll => a <<< sh
  | .srl => a >>> sh
  | .sra => a.sshiftRight sh
  | .slt => if a.toInt < b.toInt then 1 else 0
  | .sltu => if a.toNat < b.toNat then 1 else 0
  | .min => if a.toInt ≤ b.toInt then a else b
  | .max => if a.toInt ≤ b.toInt then b else a
  | .minu => if a.toNat ≤ b.toNat then a else b
  | .maxu => if a.toNat ≤ b.toNat then b else a
  | .mul => a * b
  | .mulh => BitVec.ofInt 32 (a.toInt * b.toInt / (2 ^ 32 : Int))
  | .mulhu => BitVec.ofNat 32 (a.toNat * b.toNat / 2 ^ 32)
  | .clz => BitVec.ofNat 32 (clz32 a)
  | .popc => BitVec.ofNat 32 (popcount 32 a.toNat)

/-- KSR as a profile shows it: the scalar profile lacks OV0–OV3, ABS and PACE (R117, R185). -/
def ksrMask (vec : Bool) : Nat := if vec then 0xF00080EF else 0xF0008020

def sregRead (s : Proc) (vec : Bool) : SReg → Word
  | .a n => (s.a[n]?).getD 0
  | .ab n => (s.ab[n]?).getD 0
  | .am n => (s.am[n]?).getD 0
  | .lc => s.lc
  | .rot => s.rot.zeroExtend 32
  | .dp => s.dp.zeroExtend 32
  | .ksr => s.ksr &&& BitVec.ofNat 32 (ksrMask vec)

/-- KSR after wrksr (R185). -/
def wrksr (vec : Bool) (k g : Word) : Word :=
  let w1c := BitVec.ofNat 32 (ksrMask vec &&& 0xEF)
  let k := k &&& ~~~(g &&& w1c)
  (k &&& ~~~(0x8000#32)) ||| (g &&& 0x8000#32)

def sregWrite (vec : Bool) (w : Word) (r : SReg) (x : Proc) : Proc :=
  match r with
  | .a n => { x with a := x.a.setIfInBounds n w }
  | .ab n => { x with ab := x.ab.setIfInBounds n w }
  | .am n => { x with am := x.am.setIfInBounds n w }
  | .lc => { x with lc := w }
  | .rot => { x with rot := w.truncate 5 }
  | .dp => { x with dp := w.truncate 9 }
  | .ksr => { x with ksr := wrksr vec x.ksr w }

/-! ### Control (R186–R188) -/

def condHolds (s : Proc) (c : Cond) (ga gb : Nat) : Bool :=
  let a := s.sc ga
  let b := s.sc gb
  match c with
  | .eq => a = b
  | .ne => a ≠ b
  | .lt => a.toInt < b.toInt
  | .ge => b.toInt ≤ a.toInt
  | .ltu => a.toNat < b.toNat
  | .geu => b.toNat ≤ a.toNat
  | .pany => s.pred ga ≠ 0
  | .pnone => s.pred ga = 0

def exLoop (s : Proc) (target k : Nat) : KRes :=
  if s.lc = 0 then { cost := 2 }
  else
    let lc := s.lc - 1
    if lc = 0 then { upd := fun x => { x with lc := lc }, cost := 2 }
    else { upd := fun x => { x with lc := lc, rot := if k = 0 then x.rot else s.rot - BitVec.ofNat 5 k }, cost := 1,
           next := some target }

/-- How many values emit sends (R189). -/
def emitCount (s : Proc) (gn : Nat) : Nat := ((s.sc gn).toNat + 63) % 64 + 1

/-- The values an emit sends. -/
def emitVals (s : Proc) (va gn : Nat) : List Nat := (upTo (emitCount s gn)).map (fun i => (lane (s.vec va) i).toNat)

/-- One instruction on a processor of a profile (`vec`), in a bundle at pc that ends before `nextPc`; `tok` says whether a
token is held, `stripTok` whether it is a strip's. [DEDUCED, log entry 39] -/
def kexec (s : Proc) (vec : Bool) (pc nextPc : Nat) (tok stripTok : Bool) : KInstr → KRes
  | .valu op vd va b p => exValu s op vd va b p
  | .vcmp r u pd va b p => exVcmp s r u pd va b p
  | .vpred op pd pa pb => exVpred s op pd pa pb
  | .plt pd g => { upd := Proc.setP pd (predOf (fun i => decide (i < (s.sc g).toNat))) }
  | .vmac op qd va vb p => exVmac s op qd va vb p
  | .vnar op vd qa sh p => exVnar s op vd qa sh p
  | .vacs3 mx vd va vb g => exVacs3 s mx vd va vb g
  | .vacs2 mx vd va vb => exVacs2 s mx vd va vb
  | .trace two gd gs => exTrace s two gd gs
  | .vperm op vd va vb p => exVperm s op vd va vb p
  | .vmovG vd g p => { upd := s.setV vd (masked (s.pred p) (s.vec vd) (fun _ => (s.sc g).truncate 16)) }
  | .vins vd k g => { upd := s.setV vd (lanes (fun i => if i = k then (s.sc g).truncate 16 else lane (s.vec vd) i)) }
  | .vext u gd va k =>
    let x := lane (s.vec va) k
    { upd := Proc.setG gd (if u then x.zeroExtend 32 else BitVec.ofInt 32 x.toInt) }
  | .vidx vd p => { upd := s.setV vd (masked (s.pred p) (s.vec vd) (fun i => BitVec.ofNat 16 i)) }
  | .vred op gd va p => exVred s op gd va p
  | .vld m vr an p inc => exVld s m vr an p inc
  | .vst m vr an p inc => exVst s m vr an p inc
  | .ld g an size sxt off imm => exLd s vec g an size sxt off imm
  | .st g an size off imm => exSt s vec g an size off imm
  | .emitFrag va gn last flush =>
    if stripTok then { eff := .emitFrag (emitVals s va gn) last flush } else KRes.bad fcSTREAM
  | .emitPreview va gn => if stripTok then { eff := .emitPreview (emitVals s va gn) } else KRes.bad fcSTREAM
  | .salu op gd ga gb => { upd := Proc.setG gd (sopVal op (s.sc ga) (s.sc gb)) }
  | .salui op gd ga k => { upd := Proc.setG gd (sopVal op (s.sc ga) (BitVec.ofInt 32 k)) }
  | .lih gd imm => { upd := Proc.setG gd (BitVec.ofNat 32 (imm * 65536)) }
  | .lil gd imm => { upd := Proc.setG gd ((s.sc gd &&& 0xFFFF0000#32) ||| BitVec.ofNat 32 imm) }
  | .sspecRead g r => { upd := Proc.setG g (sregRead s vec r) }
  | .sspecWrite g r => { upd := sregWrite vec (s.sc g) r }
  | .br c ga gb off =>
    if condHolds s c ga gb then { cost := 2, next := some (((pc : Int) + 4 * off) % (2 ^ 32 : Int)).toNat } else {}
  | .jmp t => { cost := 2, next := some t }
  -- an entry of the vector profile's return stack has 16 bits (R117)
  | .call t =>
    if 16 ≤ s.stack.length then { fault := some fcSTACK, cost := 2 }
    else { cost := 2, next := some t, upd := fun x => { x with stack := (if vec then nextPc % 65536 else nextPc) :: s.stack } }
  | .ret =>
    match s.stack with
    | [] => { fault := some fcSTACK, cost := 2 }
    | a :: rest => { cost := 2, next := some a, upd := fun x => { x with stack := rest } }
  | .loop t k => exLoop s t k
  | .fence => { eff := .fence }
  | .halt => KRes.bad fcHALT
  | .nop => {}
  | .waitStrip gd => { eff := .waitStrip gd }
  | .emitScore gs n => if tok then { eff := .emitScore (s.sc gs).toInt n } else KRes.bad fcSTREAM
  | .putAux gs m => if tok then { eff := .putAux (s.sc gs) m } else KRes.bad fcSTREAM
  | .waitEvent gd ga gb => { eff := .waitEvent gd ga gb }
  | .sigTrig k => { eff := .sigTrig k }
  | .sys gd ga c => { eff := .sys gd ga c }
  | .postLs ga => { eff := .postLs ga }

/-! ### A bundle (R123, R124, R193) -/

/-- The instruction words of the bundle at pc: up to the first with E set, at most three, and whether the fetch left what may be
fetched before the bundle ended (R123, R129). -/
def fetchWords (m : Memory) (limit pc : Nat) : List Nat × Bool :=
  let w (k : Nat) : Nat := Memory.readLE m (pc + 4 * k) 4
  let ok (k : Nat) : Bool := pc % 4 = 0 && pc + 4 * k + 4 ≤ limit
  if !ok 0 then ([], true)
  else if bitOf (w 0) 31 then ([w 0], false)
  else if !ok 1 then ([w 0], true)
  else if bitOf (w 1) 31 then ([w 0, w 1], false)
  else if !ok 2 then ([w 0, w 1], true)
  else ([w 0, w 1, w 2], false)

/-- The words of a bundle that lies within what may be fetched. -/
def fetchBundle (m : Memory) (limit pc : Nat) : Option (List Nat) :=
  match fetchWords m limit pc with
  | (ws, false) => some ws
  | (_, true) => none

/-- What a bundle comes to: a fault with its cause and slot, or the processor after it, its cost, its effect, and whether it
holds a fence beside that. -/
inductive KOutcome where
  | fault (cause slot : Nat)
  | done (p : Proc) (cost : Nat) (eff : KEffect) (fence : Bool)

/-- The first fault in the order of R193: lowest cause, then memory, vector, scalar/control slot. -/
def firstFault (fs : List (Nat × Nat)) : Option (Nat × Nat) :=
  (sortBy (fun a b => decide (a.1 < b.1) || (a.1 = b.1 && decide (a.2 < b.2))) fs).head?

/-- One bundle of a processor. `cap` is what the token's step count may still grow by, none where no count runs.
[DEDUCED, log entry 39; DESIGN CHOICE, log entry 40] -/
def runBundle (s : Proc) (vec : Bool) (limit : Nat) (tok stripTok : Bool) (cap : Option Nat) (badFetch badData : Bool) : KOutcome :=
  let r := fetchWords s.mem limit s.pc
  let ws := r.1
  let cut := r.2
  if badFetch && !ws.isEmpty then .fault fcECC 3
  else
    let nextPc := s.pc + 4 * ws.length
    let ds := ws.map (fun w => (slotOf w, kdecode vec w))
    let illegal := ds.filterMap (fun d => if d.2.isNone then some (fcILLEGAL, d.1) else none)
    let is := ds.filterMap (fun d => d.2)
    match firstFault illegal with
    | some (c, sl) => .fault c sl
    | none =>
      if !bundleOk ws is || (!cut && !bitOf (ws.getLastD 0) 31) then .fault fcBUNDLE 3
      else
        let rs := ds.filterMap (fun d => d.2.map (fun i => (d.1, kexec s vec s.pc nextPc tok stripTok i)))
        let fs := rs.filterMap (fun r => r.2.fault.map (fun c => (c, r.1)))
        let ends := if cut then [(fcADDRESS, 3)] else []
        let ecc := if badData && rs.any (fun r => r.2.reads) then [(fcECC, 0)] else []
        let cost := rs.foldl (fun n r => max n r.2.cost) 1
        let capped := match cap with
          | some k => if k < cost then [(fcSTEPCAP, 3)] else []
          | none => []
        match firstFault (fs ++ ends ++ ecc ++ capped) with
        | some (c, sl) => .fault c sl
        | none =>
          let p := rs.foldl (fun p r => r.2.upd p) s
          let flags := rs.foldl (fun n r => n ||| r.2.flags) 0
          let pc := (rs.filterMap (fun r => r.2.next)).headD nextPc
          let effs := rs.map (fun r => r.2.eff)
          let eff := (effs.find? (fun e => e != .none && e != .fence)).getD .none
          .done { p with ksr := p.ksr ||| BitVec.ofNat 32 (flags &&& ksrMask vec), pc := pc } cost eff (effs.contains .fence)

end Sys2Proof.Machine
end

