-- ==== Sys2Proof/Machine/Engine.lean ====
section
/-!
DEFINITION. Stream engines around their bundles (chapter 04): tokens and buffers (R132, R133), emissions (R134–R136), keyed
posts (R140, R192), faults (R142, R143), and the ANV function (R149–R153).
-/

namespace Sys2Proof.Machine

/-! ### Tokens -/

/-- The buffer of the held token, and its item. -/
def Engine.held (g : Engine) : Option (Nat × QItem) :=
  (upTo 4).findSome? (fun b => match (g.bufs[b]?).getD .free with
    | .held i => some (b, i)
    | _ => none)

/-- The held strip. -/
def Engine.heldStrip (g : Engine) : Option StripItem :=
  match g.held with
  | some (_, .strip i) => some i
  | _ => none

/-- The item in a buffer. -/
def Engine.bufItem (g : Engine) (b : Nat) : Option QItem :=
  match (g.bufs[b]?).getD .free with
  | .posted i | .held i => some i
  | _ => none

/-- The stamp that emissions of the held token carry (R134, R136). -/
def Engine.tokenStamp (g : Engine) : Stamp :=
  match g.held with
  | some (_, .strip i) => i.stamp
  | some (_, .slag w) => (w.last.map (·.stamp)).getD 0
  | _ => 0

/-- What goes with that stamp (R301). -/
def Engine.tokenMark (g : Engine) : StampMark :=
  match g.held with
  | some (_, .strip i) => i.mark
  | some (_, .slag w) => (w.last.map (·.mark)).getD {}
  | _ => {}

/-- ANV lets engines run: STARTING (up to their first wait.strip, R151), RUNNING, STOPPING (R152). [DEDUCED, log entry 4] -/
def State.anvLive (s : State) : Bool := s.runs .anv || s.fnState .anv = .starting || s.fnState .anv = .stopping

/-- STEPCAP of engine e (R155). -/
def State.stepCap (s : State) (e : Nat) : Nat := s.fld (aEng e 0) 19 0

/-- The highest step count of one token (R127, R157). [DEDUCED, log entry 31] -/
def State.noteSteps (s : State) (e n : Nat) : State :=
  if s.fld (aEng e 0x14) 19 0 < n then s.setFld (aEng e 0x14) 19 0 n else s

/-! ### Keyed posts (R140, R192) -/

/-- A frame is at or after the key (R140). -/
def atKey (frame key : Nat) : Bool := !frameLt frame key

/-- An engine has applied or discarded a post: once every named engine has, the descriptor is completed (R192). -/
def State.postResolve (s : State) (id e : Nat) (late : Bool) : State :=
  let recs := s.postRecs.map (fun r => if r.id = id then { r with left := r.left.erase e, late := r.late || late } else r)
  match recs.find? (fun r => r.id = id && r.left.isEmpty) with
  | some r =>
    let s := s.putPostRecs (recs.filter (fun x => x.id ≠ id))
    s.onCore r.core (fun c => { c with proc := { c.proc with
      mem := Memory.write c.proc.mem (r.addr + 24) [BitVec.ofNat 8 (if r.late then stTIMEOUT else stDONE), 1] } })
  | none => s.putPostRecs recs

/-- R140: the posts whose key a strip's FRAME has reached are applied before its token is received, in the order of their
keys and, with equal keys, of their issue. [DESIGN CHOICE, log entry 100] -/
def State.applyPosts (s : State) (e frame : Nat) : State :=
  let due := sortBy (fun a b => frameLt a.key b.key) ((s.engineAt e).posts.filter (fun p => atKey frame p.key))
  let s := s.onEngine e (fun g => { g with posts := g.posts.filter (fun p => !atKey frame p.key) })
  s.each due (fun s p =>
    (s.onEngine e (fun g => { g with proc := { g.proc with mem := Memory.writeLE g.proc.mem p.addr 4 p.value } })).postResolve p.id e false)

/-- The posts that wait in an engine are dropped as it faults (R143). [DEDUCED, log entry 33] -/
def State.dropPosts (s : State) (e : Nat) : State :=
  let ps := (s.engineAt e).posts
  let s := s.onEngine e (fun g => { g with posts := [] })
  s.each ps (fun s p => s.postResolve p.id e false)

/-- Engine e takes one part of a post: a faulted engine takes none, a late one is discarded and counted (R140). [DEDUCED, log entry 33] -/
def State.postTo (s : State) (e : Nat) (p : Post) : State :=
  let g := s.engineAt e
  let late : Bool := match g.lastFrame with | some f => atKey f p.key | none => false
  if g.run = .faulted then s.postResolve p.id e false
  else if late then (s.count (aEng e 0x30)).postResolve p.id e true
  else s.onEngine e (fun g => { g with posts := g.posts ++ [p] })

/-- The engines a mask names. -/
def maskEngines (m : Nat) : List Nat := (upTo 96).filter (bitOf m)

/-- A keyed post proceeds if every named engine has room for it (R140); the answer is none while it stalls. -/
def State.postIssue (s : State) (core addr mask ls value key : Nat) : Option State :=
  let es := maskEngines mask
  if es.any (fun e => 64 ≤ (s.engineAt e).posts.length) then none
  else
    let id := s.postSeq
    let r : PostRec := { id := id, core := core, addr := addr, left := es, late := false }
    let s := (s.putPostSeq (id + 1)).putPostRecs (s.postRecs ++ [r])
    some (s.each es (fun s e => s.postTo e ({ id := id, key := key, addr := ls, value := value } : Post)))

/-! ### Faults (R141, R142) -/

/-- The value ANV_EFFRAME records (R142). -/
def Engine.faultFrame (g : Engine) : Nat :=
  match g.held with
  | some (_, .strip i) => i.frame
  | some (_, .slag w) => (w.last.map (·.frame)).getD 0
  | _ => 0

/-- What a buffer of a faulted engine still holds: a strip that the dispatcher has to pass on (R142). -/
def Buf.strips : Buf → Buf
  | .held (.strip i) => .held (.strip i)
  | .posted (.strip i) => .posted (.strip i)
  | _ => .free

/-- R142: an engine faults: it records and logs the fault; the partial fragment is dropped; the strips in its buffers wait for the
dispatcher, which passes them on uncorrected; it takes no post and sends nothing more. [DEDUCED, log entry 32] -/
def State.engineFault (s : State) (e cause slot : Nat) : State :=
  let g := s.engineAt e
  let pc := g.proc.pc % 65536
  let frame := g.faultFrame
  let s := s.setReg (aEng e 0x08) (cause * 2 ^ 28 + slot * 2 ^ 26 + pc)
  let s := (s.setReg (aEng e 0x0C) frame).setBit (secBase (e / 8) + 0x2400) (e % 8) true
  let s := s.logDev .anv 1 0 [(21, 1, e), (22, 1, cause), (23, 1, slot), (24, 2, pc), (28, 4, frame)]
  let s := match g.heldStrip with | some i => s.dropPartial e i | none => s
  let s := s.dropPosts e
  let s := s.onQueue e (fun q => { q with copying := false })
  s.onEngine e (fun g =>
    { g with run := .faulted, bufs := g.bufs.map Buf.strips, steps := 0,
             posted := g.posted.filter (fun b => match g.bufItem b with | some (.strip _) => true | _ => false),
             proc := { g.proc with ksr := g.proc.ksr ||| BitVec.ofNat 32 (cause * 2 ^ 28) } })

/-! ### wait.strip and stalls -/

/-- wait.strip executes (R133, R135, R190): the open fragment closes, an EOT strip that was not flushed is, the count ends,
the buffer is released; while ANV stops and no token waits, the engine stops (R152). [DEDUCED, log entry 31] -/
def State.engineWait (s : State) (e gd : Nat) : State :=
  let g := s.engineAt e
  let s := match g.heldStrip with
    | some i =>
      let auto : Bool := i.eot && !g.flushed
      let s := s.stageEnd e i auto
      if auto then s.count (aEng e 0x38) else s
    | none => s
  let s := s.noteSteps e g.steps
  let free := match g.held with
    | some (b, _) => g.bufs.setIfInBounds b .free
    | none => g.bufs
  let stops : Bool := s.fnState .anv = .stopping && g.posted.isEmpty
  s.onEngine e (fun g =>
    { g with bufs := free, steps := 0, flushed := false, run := if stops then .stopped else .waitStrip gd })

/-- R132: a token is posted, and wait.strip returns it: the buffer holds the item (R181). [DESIGN CHOICE, log entry 97] -/
def waitStripReturn (e : Fin 96) (s : State) : State :=
  let g := s.engineAt e.val
  match g.run, g.posted with
  | .waitStrip gd, b :: rest =>
    if s.runs .anv || s.fnState .anv = .stopping then
      match g.bufItem b with
      | some it =>
        let s := match it with
          | .strip i => (s.applyPosts e.val i.frame).count (aEng e.val 0x20)
          | _ => s.count (aEng e.val 0x24)
        let slag : Nat := match it with | .strip _ => 0 | _ => 1
        let s := s.onEngine e.val (fun g =>
          { g with bufs := g.bufs.setIfInBounds b (.held it), posted := rest, steps := 0, flushed := false, run := .exec,
                   proc := Proc.setG gd (BitVec.ofNat 32 (0x10000 + 0x1000 * b + slag))
                     { g.proc with mem := bufBytes b it.image g.proc.mem } })
        s.paceCheck e.val
      | none => s
    else s
  | _, _ => s

/-- An emit.frag of the held strip: its pixels enter the staging, or the engine stalls (R134, R268, R277). -/
def State.emitFrag (s : State) (e : Nat) (i : StripItem) (xs : List Nat) (last flush : Bool) : State :=
  let xs := xs.map (· % 2 ^ bitsOf i.fmt)
  if s.stagingRoom e (packedLen i.fmt xs.length) then
    (s.stagePixels e i xs last flush).onEngine e (fun g => { g with run := .exec, flushed := g.flushed || flush })
  else s.onEngine e (fun g => { g with run := .stalled (.frag xs last flush) })

/-- An emit.score: the comparator judges the score, or, while TRG cannot take it, the engine stalls (R134, R190): a score is never
lost. [DESIGN CHOICE, log entry 99] -/
def State.emitScore (s : State) (e k : Nat) (v : Int) : State :=
  if s.trgLive then (s.judgeScore e k (s.engineAt e).tokenStamp (s.engineAt e).tokenMark v).onEngine e (fun g => { g with run := .exec })
  else s.onEngine e (fun g => { g with run := .stalled (.score k v) })

/-- R134: the compressor or comparator accepts a stalled emission, and the engine continues. [DESIGN CHOICE, log entry 99] -/
def emitAccepted (e : Fin 96) (s : State) : State :=
  let g := s.engineAt e.val
  match g.run with
  | .stalled (.frag xs last flush) =>
    match g.heldStrip with
    | some i => (s.emitFrag e.val i xs last flush).paceCheck e.val
    | none => s
  | .stalled (.score k v) => (s.emitScore e.val k v).paceCheck e.val
  | _ => s

/-- What a processor is doing. -/
def State.procRun (s : State) : ProcId → RunSt
  | .eng e => (s.engineAt e.val).run
  | .core c => (s.coreAt c.val).run

/-- A processor goes on to another state. -/
def State.setRun (s : State) (p : ProcId) (r : RunSt) : State :=
  match p with
  | .eng e => s.onEngine e.val (fun g => { g with run := r })
  | .core c => s.onCore c.val (fun g => { g with run := r })

/-- R138: earlier emissions have been accepted and earlier stores written, and the fence ends. -/
def fenceComplete (p : ProcId) (s : State) : State :=
  if s.procRun p = .fence then
    let s := s.setRun p .exec
    match p with | .eng e => s.paceCheck e.val | .core _ => s
  else s

/-- R140: space frees in a full pending-post list, and the stalled post.ls proceeds. -/
def postLsResume (c : Fin 4) (s : State) : State :=
  match (s.coreAt c.val).run with
  | .postStall addr mask ls value key =>
    match s.postIssue c.val addr mask ls value key with
    | some s => s.onCore c.val (fun g => { g with run := .exec })
    | none => s
  | _ => s

/-! ### The ANV function (R149–R153) -/

/-- The local store of engine e as START restores it (R151): code, data and parameter page from the kept image, zero where no
section covers them; the input area holds nothing that a kernel could tell an earlier run by (R139). [DESIGN CHOICE, log entry 97] -/
def loadEngine (img : List Byte) (e : Nat) (mem : Memory) : Memory :=
  let m := Memory.clear mem 0 0x40000
  let secs := sectionsFor img 0x01 e ++ sectionsFor img 0x02 e ++ sectionsFor img 0x03 e
  secs.foldl (fun m c => Memory.write m c.dest (sectionBytes img c)) m

/-- The registers of an engine at the start (R118). -/
def engineProc (e : Nat) (mem : Memory) : Proc := Proc.setG 2 0x3F000 (Proc.setG 1 (BitVec.ofNat 32 e) (Proc.zero mem))

/-- The engines of the present sectors. -/
def State.engineIds (s : State) : List Nat := upTo (8 * s.part.sectors)

/-- The first failing start check of R151, or 0. -/
def State.anvFault (s : State) : Nat :=
  if s.imageFault ≠ 0 then s.imageFault
  else if s.engineIds.any (fun e => s.laneMode e = 1 && !s.engineOn e) then 3 else 0

/-- The strips that wait in a faulted engine's buffers pass on before START takes the buffers (R142). [DEDUCED, log entry 32] -/
def State.passAllLeft (s : State) (e : Nat) : Nat → State
  | 0 => s
  | k + 1 => match if s.bypassed e then (s.engineAt e).leftStrip else none with
    | some (b, i) => (s.passLeft e b i).passAllLeft e k
    | none => s

/-- STARTING (R151): every enabled engine is reloaded from the kept image, every engine takes the registers of R118, the fault
registers clear, and, if the checks pass, the enabled engines begin to run. [DEDUCED, log entry 33] -/
def State.anvStart (s : State) : State :=
  let code := s.anvFault
  s.each s.engineIds (fun s e =>
    let s := s.passAllLeft e 4
    let s := ((s.setReg (aEng e 0x08) 0).setReg (aEng e 0x0C) 0).setBit (secBase (e / 8) + 0x2400) (e % 8) false
    let on := s.engineOn e
    let load (m : Memory) : Memory := match s.kept with
      | some img => if on && s.imageFault = 0 then loadEngine img e m else m
      | none => m
    s.onEngine e (fun g => { g with proc := engineProc e (load g.proc.mem), bundle := 0,
                                    run := if !on then .off else if code = 0 then .exec else .stopped,
                                    bufs := Vector.replicate 4 .free, nextBuf := 0,
                                    posted := [], steps := 0, flushed := false, lastFrame := none }))

/-- Every enabled engine waits in its first wait.strip, or has faulted (R151). -/
def State.anvReady (s : State) : Bool :=
  s.engineIds.all (fun e => match (s.engineAt e).run with
    | .waitStrip _ | .faulted | .off | .stopped => true
    | _ => false)

/-- STOP (R152): no new tokens are posted; an engine that waits with no token stops. -/
def State.anvStop (s : State) : State :=
  let s := s.cancelCopies
  s.each s.engineIds (fun s e => s.onEngine e (fun g => match g.run with
    | .waitStrip _ => if g.posted.isEmpty then { g with run := .stopped } else g
    | _ => g))

/-- Every engine has stopped (R152). -/
def State.anvStopped (s : State) : Bool :=
  s.engineIds.all (fun e => match (s.engineAt e).run with
    | .stopped | .off | .faulted => true
    | _ => false)

/-- R153: an engine is stopped at once; its held strip and the strips in its other buffers are discarded and reported. A faulted engine
stays faulted, and the strips still in its buffers are handled in the same way (R143). [DEDUCED, log entry 32] -/
def State.engineQuench (s : State) (e : Nat) : State :=
  let g := s.engineAt e
  match g.run with
  | .off | .stopped => s
  | _ =>
    let strips := (match g.heldStrip with | some i => [i] | none => [])
      ++ g.posted.filterMap (fun b => match g.bufItem b with | some (.strip i) => some i | _ => none)
    let s := s.each strips (fun s i =>
      ((s.gapReport e i.tile i.frame cQUENCH (some (i.stamp, i.mark))).dropPartial e i).stageEnd e i false)
    s.onEngine e (fun g =>
      { g with run := if g.run = .faulted then .faulted else .stopped, bufs := Vector.replicate 4 .free, posted := [],
               bundle := if g.run = .exec then g.proc.pc else g.bundle })

/-- A QUENCH of ANV (R153): every engine stops; items being copied stay in their queues. -/
def State.anvQuench (s : State) : State := s.cancelCopies.each s.engineIds (fun s e => s.engineQuench e)

/-- R152: STOPPING reaches 2 ms, and the engines still running are treated as under a QUENCH. -/
def anvStopTimeout (s : State) : State := if s.fnState .anv = .stopping then s.anvQuench else s

/-- ANV_ESTAT as read (R156). While the engine waits or stalls, PC is the address of the bundle it does so in. [DEDUCED, log entry 31] -/
def State.eStat (s : State) (e : Nat) : Nat :=
  let g := s.engineAt e
  let pc := match g.run with
    | .waitStrip _ | .stalled _ | .fence | .stopped => g.bundle
    | _ => g.proc.pc
  let k := match g.run with
    | .off => 0
    | .waitStrip _ => 1
    | .stalled _ | .fence => 3
    | .faulted => 4
    | .stopped => 5
    | _ => 2
  if e < 8 * s.part.sectors then
    k * 2 ^ 28 + b2n g.held.isSome * 2 ^ 27 + g.posted.length % 8 * 2 ^ 24 + pc % 65536
  else 0

end Sys2Proof.Machine
end

