-- ==== Sys2Proof/Machine/Pace.lean ====
section
/-!
DEFINITION. The frame schedule's times (R144), the pace certificate (R194, R195), the live pace and the pace check
(R198–R201).
-/

namespace Sys2Proof.Machine

/-! ### The frame schedule (R144) -/

def schMode (b : List Byte) : Nat := byteAt b 0
def schStart (b : List Byte) : Nat := byteAt b 1
def schStrips (b : List Byte) : Nat := fieldLE b 2 2
def schPeriod (b : List Byte) : Nat := fieldLE b 4 6
def schOffset (b : List Byte) : Nat := fieldLE b 10 6
def schStartTime (b : List Byte) : Nat := fieldLE b 16 8
def schCount (b : List Byte) : Nat := fieldLE b 24 4
def schNtab (b : List Byte) : Nat := fieldLE b 28 2

/-- Interval i of the schedule: PERIOD, or the table's, which repeats. -/
def schInterval (b : List Byte) (i : Nat) : Nat :=
  if schMode b = 0 then schPeriod b else fieldLE b (32 + 8 * (i % max (schNtab b) 1)) 6

/-- T_min (R199). -/
def schMin (b : List Byte) : Nat :=
  if schMode b = 0 then schPeriod b
  else match (upTo (schNtab b)).map (schInterval b) with
    | [] => 0
    | x :: xs => xs.foldl min x

/-! ### The certificate (R194, R195) -/

/-- An entry of the certificate. -/
structure CertEntry where
  mask : Nat
  crc : Nat
  steps : Nat
  eot : Nat
deriving DecidableEq, Repr

def certEntries (b : List Byte) : List CertEntry :=
  (upTo (fieldLE b 4 2)).map (fun i =>
    let o := 32 + 24 * i
    { mask := fieldLE b o 12, crc := fieldLE b (o + 12) 4, steps := fieldLE b (o + 16) 4, eot := fieldLE b (o + 20) 4 })

def certBasis (b : List Byte) : Nat := byteAt b 2

/-- The certificate entry of engine e in an image: one that covers it and whose CODECRC is that of its code (R196). [DEDUCED, log entry 35] -/
def certFor (img : List Byte) (e : Nat) : Option CertEntry :=
  let codes := (sectionsFor img 0x01 e).map (·.crc)
  (certEntries (sectionOf img 0x30)).find? (fun c => bitOf c.mask e && codes.contains c.crc)

/-! ### Measurements and the pace check (R447, R198) -/

/-- A measurement of island k enters the window (R447). -/
def State.addPace (s : State) (k ps : Nat) : State :=
  let old := s.bgs.meas.filter (fun m => decide (s.tb.ticks < m.1 + 40000000))
  s.putBgs { s.bgs with meas := old ++ [(s.tb.ticks, k, ps)],
                               slow := sput 0 s.bgs.slow k (max ps (sget 0 s.bgs.slow k)) }

/-- P_check of an image at a live pace (R198). -/
def pCheckAt (img : List Byte) (live : Nat) : Nat :=
  if certBasis (sectionOf img 0x30) = 1 then 1250 else min 1250 (cdiv (9 * live) 8)

/-- The first check of R199 that an entry fails at a pace, 1 A, 2 B, 3 C; none when it passes. -/
def paceCheckOf (b : List Byte) (c : CertEntry) (p : Nat) : Option Nat :=
  let t := schMin b * 1000
  let n := schStrips b
  if !(decide (c.steps * p * NS * n ≤ t)) then some 1
  else if !(decide (((n - 1) * c.steps + c.eot) * p * NS ≤ t)) then some 2
  else if !(decide (c.eot * p * NS * n ≤ 3 * t)) then some 3
  else none

/-- The engine and the check that fail first among the given engines, at a pace (R199, R200). [DEDUCED, log entry 35] -/
def paceFail (img : List Byte) (engines : List Nat) (p : Nat) : Option (Nat × Nat) :=
  engines.findSome? (fun e =>
    match certFor img e with
    | some c => (paceCheckOf (sectionOf img 0x20) c p).map (fun k => (e, k))
    | none => none)

/-- The largest pace at which an entry passes, in ps. -/
def paceLimitOf (b : List Byte) (c : CertEntry) : Nat :=
  let t := schMin b * 1000
  let n := schStrips b
  min (t / max 1 (c.steps * NS * n)) (min (t / max 1 (((n - 1) * c.steps + c.eot) * NS)) (3 * t / max 1 (c.eot * NS * n)))

/-- P_lim of an image for its engines (R201); 0 with no engine or no schedule. [DEDUCED, log entry 41] -/
def paceLimit (img : List Byte) (engines : List Nat) : Nat :=
  match engines.filterMap (fun e => (certFor img e).map (paceLimitOf (sectionOf img 0x20))) with
  | [] => 0
  | x :: xs => xs.foldl min x

/-- The engines with ANV_ECFG.EN = 1 on the part. -/
def State.enabledEngines (s : State) : List Nat := s.engineIds.filter s.engineOn

end Sys2Proof.Machine
end

