-- ==== Sys2Proof/Machine/Sequencer.lean ====
section
/-!
DEFINITION. The frame sequencer (R144, R73) and the frame stamps (R247).
-/

namespace Sys2Proof.Machine

def State.onTrig (s : State) (g : Trig → Trig) : State := s.putTrig (g s.trig)
def State.onSeq (s : State) (g : Sequencer → Sequencer) : State := s.onTrig (fun t => { t with seq := g t.seq })

/-! ### The schedule runs -/

/-- The first instant of START_TIME's schedule at or after a stamp, with the table index of the interval that follows it.
[DESIGN CHOICE, log entry 38] -/
def firstInstant (b : List Byte) (from_ : Stamp) : Nat → Stamp → Nat → Stamp × Nat
  | 0, t, i => (t, i)
  | fuel + 1, t, i => if from_ ≤ t then (t, i) else firstInstant b from_ fuel (t + schInterval b i) (i + 1)

/-- The first start after LOAD_RUN_IMAGE begins at frame 0 (R144): nothing of the old numbering is left. Its frames that are
still open are discarded, with no segment armed (R223). [DEDUCED, log entry 36] -/
def State.renumber (s : State) : State :=
  if s.trig.seq.renumber then
    let s := s.count (HRT + 0x108) s.hearth.opens.length
    let s := s.onH (fun h => { h with opens := [], ring := [], tileDone := [], marks := [] })
    let s := s.each (upTo 12) (fun s k => s.onComp k (fun c => { c with begun := Vector.replicate 4 none }))
    let s : State := s.putPair { s.pair with own := [], theirs := [], gaveUp := [], quenched := [], fragDiff := [], lastK := none, ownK := none, ownDecs := [],
                                             theirDecs := [], from_ := none }
    s.onTrig (fun t => { t with frames := [], k := none, seq := { t.seq with nextN := 0, renumber := false } })
  else s

/-- The sequencer starts (R144): at OFFSET after the ARM, or in phase with START_TIME and at least 10 µs ahead. Frame numbers
continue, unless an image was loaded. [DEDUCED, log entry 36; DESIGN CHOICE, log entry 38] -/
def State.seqStart (s : State) : State :=
  let b := s.trig.sched
  if s.trig.seq.run || b.isEmpty then s
  else
    let s := s.renumber
    let now := s.nowFine
    let (t, i) :=
      if schStart b = 0 then (now + schOffset b, 0)
      else
        let base := schStartTime b * NS
        let goal := now + 10000 * NS
        let span := if schMode b = 0 then schPeriod b else ((upTo (schNtab b)).map (schInterval b)).foldl (· + ·) 0
        let n := if schMode b = 0 then 1 else schNtab b
        let k := if goal ≤ base then 0 else (goal - base) / max span 1
        firstInstant b goal (n + 1) (base + k * span) (k * n)
    s.onSeq (fun q => { q with run := true, nextT := t, tab := i, left := if schCount b = 0 then none else some (schCount b) })

/-- A scheduled instant with FRAMEOFS (R247). -/
def State.withOfs (s : State) (t : Stamp) : Stamp := stampInt ((t : Int) + s.frameOfs)

/-- Frame n is the last that a run of the sequencer issued: the instant the next would have had ends it (R248). -/
def stopFrame (n : Nat) (u : Stamp) (frs : List FrameTime) : List FrameTime :=
  frs.map (fun fr => if fr.n = n && fr.stop.isNone then { fr with stop := some u } else fr)

/-- The number of the frame issued last. -/
def State.lastN (s : State) : Nat := (s.trig.seq.nextN + 2 ^ 32 - 1) % 2 ^ 32

/-- The sequencer ends after the frame in progress (R249, R263); the instant the next frame would have had is kept (R248). -/
def State.seqStop (s : State) : State :=
  if s.trig.seq.run then
    let s := s.onTrig (fun t => { t with frames := stopFrame s.lastN (s.withOfs s.trig.seq.nextT) t.frames })
    s.onSeq (fun q => { q with run := false, nextT := 0 })
  else s

/-- The frames of schedule b that have still to be issued (R144), up to the first whose T_k is at or beyond a stamp. -/
def upcomingFrom (b : List Byte) (ofs : Int) (upto : Stamp) : Nat → Nat → Stamp → Nat → Option Nat → List FrameTime
  | 0, _, _, _, _ => []
  | fuel + 1, n, t, tab, left =>
    let v := t + schInterval b tab
    let x := stampInt ((t : Int) + ofs)
    let last : Bool := left = some 1
    let fr : FrameTime := { n := n, sched := x, t := x, stop := if last then some (stampInt ((v : Int) + ofs)) else none }
    if last || decide (upto ≤ x) then [fr] else fr :: upcomingFrom b ofs upto fuel ((n + 1) % 2 ^ 32) v (tab + 1) (left.map (· - 1))

/-- An accepted edge lies within ±100 ns of a frame's scheduled value (R247). -/
def strobeNear (t : Stamp) (fr : FrameTime) : Bool := decide (fr.sched ≤ t + 100 * NS) && decide (t ≤ fr.sched + 100 * NS)

/-- The first accepted edge of the EXPTDC channel that no known frame took and that lies within ±100 ns of a frame's scheduled value, as
one that precedes its FRAME command does (R247). A follower takes T_k from SCHED alone (R383). [DESIGN CHOICE, log entry 38] -/
def State.earlyStrobe (s : State) (fr : FrameTime) : Option Stamp :=
  if s.expTdc.isNone || s.follower then none else s.trig.strobes.find? (fun t => strobeNear t fr)

/-- The frames known by now, and those that the schedule gives next, as far as a stamp: the schedule is known ahead (R258), and an edge
that has come refines them (R247). [DESIGN CHOICE, log entry 38] -/
def State.framesTo (s : State) (upto : Stamp) : List FrameTime :=
  let q := s.trig.seq
  s.trig.frames ++ (if q.run then
    (upcomingFrom s.trig.sched s.frameOfs upto 64 q.nextN q.nextT q.tab q.left).map (fun fr => { fr with t := (s.earlyStrobe fr).getD fr.t })
  else [])

/-- The first frame of schedule b from frame n on, scheduled at t, after which the next command is at least 2.6 µs later, or none follows
(R393: a gap of at least 2.5 µs between command slots is a PERIOD of at least 2.6 µs); none before a stamp. -/
def gapFrom (b : List Byte) (upto : Stamp) : Nat → Nat → Stamp → Nat → Option Nat → Option (Stamp × Nat)
  | 0, _, _, _, _ => none
  | fuel + 1, n, t, tab, left =>
    if upto < t then none
    else if left = some 1 || decide (2600 * NS ≤ schInterval b tab) then some (t, n)
    else gapFrom b upto fuel ((n + 1) % 2 ^ 32) (t + schInterval b tab) (tab + 1) (left.map (· - 1))

/-- SCHED tells the follower a frame's number and T_k (R377, R383). The body's layout is the model's. -/
def State.tellSched (s : State) (n : Nat) (t : Stamp) : State :=
  if s.role = roHOLDER then s.mirrorSend mSCHED (leBytes 4 n ++ stampBytes t) else s

/-- A follower's shadow sequencer and the holder's SCHED differ by more than TTOL: it is logged (R383). The kind is the
model's. [DEDUCED, log entry 78] -/
def State.shadowDiff (s : State) (n : Nat) (theirs own : Stamp) : State :=
  if s.fld aPairCfg1 9 0 * NS < ((theirs : Int) - own).natAbs * 1000 then s.logDev .pair 11 0 [(28, 4, n)] else s

/-! ### Refinement (R247) -/

/-- A frame start is logged, where TB_CFG.LOGFRAME asks for it (R302). -/
def State.logFrame (s : State) (fr : FrameTime) : State :=
  if s.bit aTbCfg 28 then s.log fr.t 2 fr.n 1 [(20, 4, fr.n), (24, 1, b2n fr.refined)] else s

/-- Frame n is the first of the armed ring, and T_F0 is not known yet. -/
def State.startsRing (s : State) (n : Nat) : Bool :=
  s.trig.f0T.isNone && (match s.hearth.act with | some a => a.f0 = n | none => false)

/-- A frame becomes known with its scheduled T_k: to Hearth, and as T_F0 of the armed ring (R219, R250). -/
def State.knowFrame (s : State) (n : Nat) (t : Stamp) (copied : Bool) : State :=
  let f0T := if s.startsRing n then some t else s.trig.f0T
  let s := s.onTrig (fun g => { g with frames := g.frames ++ [{ n := n, sched := t, t := t, copied := copied }], f0T := f0T })
  if s.runs .hrt then s.newFrame n t else s

/-- A known frame takes a refined T_k, in its metadata slot too (R219, R247). -/
def State.restamp (s : State) (old fr : FrameTime) : State :=
  let first : Bool := s.trig.f0T = some old.t && (match s.hearth.act with | some a => a.f0 = fr.n | none => false)
  let s := s.onTrig (fun g =>
    { g with frames := g.frames.map (fun x => if x.n = fr.n then fr else x), f0T := if first then some fr.t else g.f0T })
  s.onH (fun h => h.onFrame fr.n (fun x => { x with stamp := fr.t }))

/-- An accepted edge refines a frame, once. -/
def State.refineFrame (s : State) (fr : FrameTime) (t : Stamp) : State :=
  let fr' := { fr with t := t, refined := true }
  ((s.restamp fr fr').tellSched fr.n t).logFrame fr'

/-- An accepted edge of the EXPTDC channel refines the frame whose scheduled value lies within ±100 ns; one for which no such frame
is known yet is kept, since a negative FRAMEOFS puts T_k before the FRAME command. A follower takes T_k from SCHED alone (R383). -/
def State.refine (s : State) (n : Nat) (t : Stamp) : State :=
  if s.expTdc ≠ some n || s.follower then s
  else match s.trig.frames.find? (fun fr => !fr.refined && !fr.checked && strobeNear t fr) with
    | some fr => s.refineFrame fr t
    | none => s.onTrig (fun g => { g with strobes := g.strobes.filter (fun x => decide (s.nowFine < x + 40000 * NS)) ++ [t] })

/-- A frame that has just become known takes the first accepted edge within ±100 ns that came before its FRAME command (R247). -/
def State.refineLate (s : State) (n : Nat) : State :=
  match s.trig.frames.find? (fun fr => fr.n = n && !fr.refined && !fr.checked) with
  | some fr => match s.earlyStrobe fr with
    | some t => s.refineFrame fr t
    | none => s
  | none => s

/-- Frames whose strobe can no longer arrive keep the scheduled value, and are counted (R247, R306). -/
def State.checkStrobes (s : State) : State :=
  let due (fr : FrameTime) : Bool := !fr.checked && decide (fr.sched + 250 * NS < s.nowFine)
  let frs := s.trig.frames.filter due
  let s := s.onTrig (fun g => { g with frames := g.frames.map (fun fr => if due fr then { fr with checked := true } else fr) })
  if s.expTdc.isSome then s.each frs (fun s fr => if fr.refined then s else (s.count (TRG + 0x128)).logFrame fr) else s

/-! ### FRAME commands (R73) -/

/-- A frame is issued for an instant: Hearth knows it, and the sequencer goes on (R144, R219). -/
def State.issueFrame (s : State) : State :=
  let q := s.trig.seq
  let t := s.withOfs q.nextT
  let known := s.trig.frames.find? (fun fr => fr.n = q.nextN)
  let s : State := match known with
    | some fr => if s.follower then s.shadowDiff fr.n fr.t t else s
    | none => ((s.knowFrame q.nextN t false).tellSched q.nextN t).refineLate q.nextN
  let s := s.onSeq (fun q => { q with nextN := (q.nextN + 1) % 2 ^ 32, nextT := q.nextT + schInterval s.trig.sched q.tab, tab := q.tab + 1,
                                      left := q.left.map (· - 1) })
  match q.left with
  | some 1 => s.seqStop
  | _ => s

/-- DELTA of a FRAME block on command lane f, in 2^-6 ns (R73): it leaves in the last slot that begins no later than four block times
before the instant, so DELTA is four block times and the part of a fifth by which that slot begins earlier. -/
def State.frameDelta (s : State) (f early : Nat) : Nat :=
  let bt := blockTime16 (s.txStep f) * 4
  4 * bt + early % bt

/-- Command lane f's FRAME block for the next scheduled instant has its slot less than 100 ns after this member took hold, so that the
frame's command does not leave (R390); `early` is as in frameDelta. -/
def State.slotTooSoon (s : State) (f early : Nat) : Bool :=
  match s.pair.tookAt with
  | some t => decide (s.trig.seq.nextT < s.translate t + 100 * NS + s.frameDelta f early * 1024)
  | none => false

/-- The FRAME command of the next scheduled instant leaves this member: it holds Tongs (R75), has come to the frame that HANDOVER named
(R393), and every lane's slot lies far enough behind the taking of hold (R390). -/
def State.frameLeaves (s : State) (lanes slots : List Nat) : Bool :=
  let before : Bool := match s.pair.from_ with | some m => frameLt s.trig.seq.nextN m | none => false
  !s.nonHolder && !before && !lanes.any (fun f => s.slotTooSoon f ((slots[f]?).getD 0))

/-- R73: the FRAME command of the next scheduled instant leaves on every command lane in run, with the lane's DELTA and flags that the
spec does not give; `slots` says how much earlier than need be each lane's slot begins, in 2^-6 ns. A member that sends none runs its
sequencer in shadow (R75, R383, R390). [DESIGN CHOICE, log entry 9] -/
def frameCommand (slots : List Nat) (s : State) : State :=
  if !s.trig.seq.run || !(s.runs .trg || s.fnState .trg = .stopping) then s
  else
    let lanes := (upTo (4 * s.part.sectors)).filter s.txRun
    let n := s.trig.seq.nextN
    let flags := (Config.frameFlags s.freeUse).toNat
    let s := if s.frameLeaves lanes slots then
        (s.each lanes (fun s f =>
          s.sendBlock f 0x66 (pack 14 [(0, 4, n), (4, 2, s.frameDelta f ((slots[f]?).getD 0)), (6, 1, flags)]))).useFree
      else s
    s.issueFrame

/-- R247: the scheduled exposure start of the earliest frame that has not started; it arms units (R311) and triggers scans
(R343). -/
def frameStart (s : State) : State :=
  match s.trig.frames.find? (fun fr => !fr.started) with
  | some fr =>
    let s := s.onTrig (fun g => { g with frames := g.frames.map (fun x => if x.n = fr.n then { x with started := true } else x) })
    let s := (s.tdcArm 4 fr.sched).frameTrigger
    let s := if s.expTdc.isSome then s else s.logFrame fr
    s.checkStrobes
  | none => s

/-! ### Placement (R248) -/

/-- T_k+1 of a frame that another one follows: its end, where the sequencer ended after it (R248). -/
def frameEnd (fr next : FrameTime) : Stamp := match fr.stop with | some u => min u next.t | none => next.t

/-- The frame of a stamp among frames in order: its number, its T_k, T_k+1; none before the first known frame, or at or beyond the
end of a run's last, which the flag says (R248, R253). -/
def placeAt (t : Stamp) : List FrameTime → Option (Nat × Stamp × Stamp) × Bool
  | [] => (none, false)
  | [fr] =>
    match fr.stop with
    | some u => if fr.t ≤ t && decide (t < u) then (some (fr.n, fr.t, u), false) else (none, decide (u ≤ t))
    | none => (none, decide (fr.t ≤ t))
  | fr :: next :: rest =>
    let u := frameEnd fr next
    if fr.t ≤ t && decide (t < u) then (some (fr.n, fr.t, u), false)
    else if u ≤ t && decide (t < next.t) then (none, true)
    else placeAt t (next :: rest)

/-- The trigger frame of a stamp. -/
def State.placed (s : State) (t : Stamp) : Option (Nat × Stamp × Stamp) × Bool := placeAt t (s.framesTo (t + 1))

/-- K for the stamps up to hp, among frames in order: no pending first-channel edge lies below hp (R244). -/
def decidedUpTo (hp : Stamp) : List FrameTime → Option Nat
  | [] => none
  | [fr] => match fr.stop with
    | some u => if u ≤ hp then some fr.n else none
    | none => none
  | fr :: next :: rest =>
    match decidedUpTo hp (next :: rest) with
    | some k => some k
    | none => if frameEnd fr next ≤ hp then some fr.n else none

end Sys2Proof.Machine
end

