-- ==== Sys2Proof/Machine/Background.lean ====
section
/-!
DEFINITION. Temper and the power domains (chapter 16): alarms (R451), the hold, retention, off and wake of domains (R452),
scrub (R229), lane adaptation monitoring (R445), pace monitoring (R447), telemetry (R449, R450).
-/

namespace Sys2Proof.Machine

def cWake (n : Nat) : Nat := BGS + 0x200 + 4 * n

/-- The lowest EYE among the lanes of a list that are in run. -/
def State.lowEye (s : State) (ls : List Nat) : Option Nat :=
  match (ls.filter (fun l => s.stage (rxLane l) = 6)).map (fun l => s.fld (aRx l 0x1C) 15 0) with
  | [] => none
  | x :: xs => some (xs.foldl min x)

/-! ### Services (R445, R446, R455) -/

/-- Temper runs every service. -/
def State.temper (s : State) : Bool := s.runs .bgs

/-- Temper runs pace monitoring and telemetry: in every state but OFF and FAULT (R455). -/
def State.temperBasic (s : State) : Bool := s.fnState .bgs ≠ .off && s.fnState .bgs ≠ .fault

/-- The service step in progress, by its code (R456). [DEDUCED, log entry 89] -/
def State.svcCode (s : State) : Nat :=
  if s.bit aCal 31 then 2
  else if (upTo 2).any (fun x => (s.adcAt x).calTemper) then 3
  else if s.field.testing.isSome then 7
  else 0

/-- What stops a service step that is due, by its key (R445): a post-trigger window, for a charge-input test an ARMED segment too, and for
a calibration one that the host asked for. [DEDUCED, log entry 89] -/
def State.dueStopped (s : State) (key : Nat) : Bool :=
  if 0x700 ≤ key then s.segActive else if 0x300 ≤ key then s.inPost || (s.adcAt (key - 0x300)).cal else s.inPost

/-- A service step that is due begins, if its function runs still. -/
def State.dueGo (s : State) (key : Nat) : State :=
  if 0x700 ≤ key then (if s.runs .aux && s.inputOn (key - 0x700) then s.chargeGo (key - 0x700) else s)
  else if 0x300 ≤ key then (if s.runs .aux then s.calGo (key - 0x300) else s)
  else if s.fnState .tb = .off then s else s.recalGo (key - 0x200)

/-- The first service step that is due and that nothing stops begins when Temper is free (R445). [DESIGN CHOICE, log entry 2] -/
def State.tickDue (s : State) : State :=
  if !s.temper || s.svcBusy then s
  else match s.bgs.due.find? (fun k => !s.dueStopped k) with
    | some k => (s.putBgs { s.bgs with due := s.bgs.due.erase k }).dueGo k
    | none => s

/-- The step in progress ends as under R446, as STOP and QUENCH of BGS end it (R455). -/
def State.serviceEnd (s : State) : State :=
  let s := (s.calAbandon).chargeTestEnd
  (s.setBit aCal 31 false).onTdc (fun d => { d with handover := none })

/-! ### Power domains (R452) -/

def State.domHere (s : State) (n : Nat) : Bool :=
  domainPresent s.part.sectors s.part.channels s.part.field s.part.mirror s.part.usbPorts n

/-- The hold of R452: a segment ARMED or in POST, a re-arm pending, or the frame sequencer running. -/
def State.hold (s : State) : Bool := s.segActive || s.trig.rearm.isSome || s.trig.seq.run

/-- A lane of sector k is used. -/
def State.sectorUsed (s : State) (k : Nat) : Bool := (upTo 8).any (fun i => s.usedLane (8 * k + i))

/-- The domains that the hold keeps awake. -/
def State.held (s : State) (n : Nat) : Bool := if n < 36 then s.sectorUsed (n % 12) else decide (n < 44)

/-- A function is neither STOPPED nor OFF nor absent. -/
def State.active (s : State) (f : Fn) : Bool := !s.idle f && s.fnState f ≠ .absent

/-- Every receive lane of sector k has MODE 0. -/
def State.lanesOff (s : State) (k : Nat) : Bool := (upTo 8).all (fun i => s.laneMode (8 * k + i) = 0)

/-- Compressor k holds no open block, nothing staged, and an empty commit buffer. -/
def State.compEmpty (s : State) (k : Nat) : Bool :=
  let c := s.compAt k
  c.open_.toList.all (fun b => b.isNone) && c.waiting.isEmpty && c.coding.isEmpty && c.ready.isEmpty
    && (upTo 8).all (fun i => (s.stagingAt (8 * k + i)).isEmpty)

/-- Domain n's condition for RETENTION, as far as the state shows it (R452). [DEDUCED, log entry 89] -/
def State.retCond (s : State) (n : Nat) : Bool :=
  if n < 12 then !s.runs .lnk || s.lanesOff n
  else if n < 24 then (upTo 8).all (fun i =>
    let g := s.engineAt (8 * (n - 12) + i)
    g.held.isNone && g.posted.isEmpty)
  else if n < 36 then s.compEmpty (n - 24)
  else decide (n < 46)

/-- What powers domain n up out of OFF has happened (R452). -/
def State.wanted (s : State) (n : Nat) : Bool :=
  if n < 12 then !s.lanesOff n
  else if n < 24 then (upTo 8).any (fun i => s.engineOn (8 * (n - 12) + i))
  else if n < 36 then s.active .cmp
  else if n < 44 then true
  else if n < 46 then s.bgs.waking.contains n
  else if n = 46 then s.active .pair
  else if n = 47 then s.active .ptp
  else if n = 48 then s.active .aux
  else if n = 49 then s.bit (aExc 0) 31 || s.bit (aExc 1) 31
  else s.fnState .aou ≠ .off

/-- Domain n's condition for OFF (R452); a port's sideband is judged by its own command. -/
def State.offCond (s : State) (n : Nat) : Bool :=
  if n < 12 then s.lanesOff n && !s.active .ing
  else if n < 24 then (upTo 8).all (fun i => !s.engineOn (8 * (n - 12) + i))
  else if n < 36 then !s.active .cmp && (upTo 4).all (fun i => !s.usedTile (4 * (n - 24) + i))
  else if n < 46 then false
  else if n = 46 then !s.active .pair
  else if n = 47 then !s.active .ptp || ((upTo 2).all (fun p => !s.bit (0x00280100 + 0x100 * p) 31))
  else if n = 48 then !s.active .aux
  else if n = 49 then !s.bit (aExc 0) 31 && !s.bit (aExc 1) 31
  else s.fnState .aou = .off

/-- The status registers of a domain that show what it holds, with what they read now (R452). -/
def State.statusNow (s : State) (n : Nat) : List (Nat × Nat) :=
  if n < 12 then (upTo 8).map (fun i => (aQ (8 * n + i) 8, s.qStat (8 * n + i) (s.bypassed (8 * n + i))))
  else if n < 24 then (upTo 8).flatMap (fun i =>
    let e := 8 * (n - 12) + i
    [(aEng e 4, s.eStat e), (aEng e 0x10, (s.engineAt e).proc.ksr.toNat)])
  else if n < 36 then [(0x600014 + 0x100 * (n - 24), s.cmpStat (n - 24))]
  else []

/-- A status register of domain n as it reads: its last value while the domain is OFF (R452). [DEDUCED, log entry 89] -/
def State.statusOf (s : State) (n a now : Nat) : Nat := if s.domState n = 2 then sget 0 s.bgs.last a else now

/-- A domain's supply switches off: its memories and working state are lost, its registers are kept, and its status registers go on
reading what they read last (R452). [DEDUCED, log entry 89] -/
def State.domLose (s : State) (n : Nat) : State :=
  let s : State := s.putBgs { s.bgs with last := (s.statusNow n).foldl (fun m c => sput 0 m c.1 c.2) s.bgs.last }
  let s := s.setFld (aDomain n) 29 28 2
  if n < 12 then
    s.each (upTo 8) (fun s i => (s.onQueue (8 * n + i) (fun q => { q with items := [], copying := false, pend := none })).queueUpdate (8 * n + i))
  else if n < 24 then
    s.each (upTo 8) (fun s i => s.onEngine (8 * (n - 12) + i) (fun g => { run := .off, posts := g.posts }))
  else if n < 36 then
    s.onComp (n - 24) (fun c => { inBytes := c.inBytes, outBytes := c.outBytes, ticks := c.ticks, cfault := c.cfault,
                                  mismatches := c.mismatches })
  else s

/-- Every domain whose condition for OFF holds, with OFF_EN, switches off; under the hold none of those it keeps leaves ACTIVE. -/
def State.domainsOff (s : State) : State :=
  let goes (n : Nat) : Bool := s.domHere n && s.bit (aDomain n) 30 && s.domState n ≠ 2 && s.offCond n
    && !(s.hold && s.held n && s.domState n = 0)
  s.each ((upTo 51).filter goes) State.domLose

/-- A domain is ACTIVE again, which counts as an exit (R452, R456). -/
def State.domUp (s : State) (n : Nat) : State :=
  let s : State := s.putBgs { s.bgs with waking := s.bgs.waking.filter (· ≠ n) }
  if s.domState n = 0 then s else (s.setFld (aDomain n) 29 28 0).count (cWake n)

/-- An ARM wakes the domains that the hold keeps awake (R452). -/
def State.wakeHeld (s : State) : State :=
  s.each ((upTo 44).filter (fun n => s.domHere n && s.held n && s.domState n = 1)) State.domUp

/-- The domains function f needs are up (R452). -/
def State.domainsUp (s : State) (f : Fn) : Bool :=
  let ns := match f with
    | .cmp => (upTo s.part.sectors).map (· + 24)
    | .pair => [46]
    | .ptp => [47]
    | .aux => [48]
    | _ => []
  ns.all (fun n => s.domState n ≠ 2)

/-- R452: domain n's condition has held for its RET_DELAY, and it enters RETENTION. -/
def domainRetentionEntry (n : Fin 51) (s : State) : State :=
  let n := n.val
  if s.inReset then s
  else if s.domHere n && s.domState n = 0 && s.bit (aDomain n) 31 && s.retCond n && !(s.hold && s.held n)
      && !s.bgs.waking.contains n then
    (s.setFld (aDomain n) 29 28 1).domainsOff
  else s.domainsOff

/-- R452: a request reaches a domain in RETENTION. -/
def domainWake (n : Fin 51) (s : State) : State :=
  if s.domHere n.val && s.domState n.val = 1 && !s.bgs.waking.contains n.val then
    s.putBgs { s.bgs with waking := n.val :: s.bgs.waking }
  else s

/-- R452: the domain has left RETENTION within its wake bound. -/
def domainWakeDone (n : Fin 51) (s : State) : State :=
  if s.bgs.waking.contains n.val && s.domState n.val = 1 then s.domUp n.val else s

/-- R452: a domain that is needed again has left OFF. -/
def domainPowerUp (n : Fin 51) (s : State) : State :=
  if s.domHere n.val && s.domState n.val = 2 && s.wanted n.val then s.domUp n.val else s

/-- R452: no USB4 link on the sideband of port p for 1 s. -/
def sidebandIdleTimeout (p : Fin 2) (s : State) : State :=
  let n := 44 + p.val
  if s.domHere n && !s.inReset && s.bit (aDomain n) 30 && s.domState n ≠ 2 && !s.bit 0x00800000 (30 + p.val) then
    (s.putBgs { s.bgs with waking := s.bgs.waking.filter (· ≠ n) }).domLose n
  else s

/-- R452: activity on the sideband of port p; its domain comes up within 20 ms. -/
def sidebandActivity (p : Fin 2) (s : State) : State :=
  let n := 44 + p.val
  if s.domHere n && !s.inReset && s.domState n ≠ 0 && !s.bgs.waking.contains n then
    s.putBgs { s.bgs with waking := n :: s.bgs.waking }
  else s

/-! ### Scrub (R229) -/

/-- The segment whose record holds slot i, and whether that record is closed. -/
def State.slotOwner (s : State) (i : Nat) : Option Nat :=
  (upTo 64).find? (fun g =>
    let x := s.segAt g
    match x.record with
    | some r => decide (x.mbase ≤ i) && decide (i < x.mbase + x.mslots)
        && decide ((i + x.mslots - r.slot0) % max x.mslots 1 < r.pact + r.qact)
    | none => false)

/-- The slots of a closed record (R228). -/
def Segment.recordSlots (g : Segment) : List Nat :=
  match g.record with
  | some r => (upTo (r.pact + r.qact)).map (fun j => g.mbase + (r.slot0 - g.mbase + j) % max g.mslots 1)
  | none => []

/-- Slot i is valid: it belongs to a closed record, or to a frame of the active ring (R222). -/
def State.slotValid (s : State) (i : Nat) : Bool := (s.slotOwner i).isSome || s.hearth.ring.any (fun fr => fr.slot = i)

/-- A frame flag is set on a valid slot, and on the record that holds it: bit 7 of RFLAGS for MEM_UE, 8 for CRC_FAIL (R222). -/
def State.markStored (s : State) (slot flag : Nat) : State :=
  if !s.slotValid slot then s else
  let s := s.slotPatch slot (patchLE 16 4 (· ||| 2 ^ flag))
  match s.slotOwner slot with
  | some g => match (s.segAt g).record with
    | some r =>
      let r := { r with rflags := r.rflags ||| 2 ^ (flag - 1) }
      (s.onSeg g (fun x => { x with record := some r })).writeDir g r
    | none => s
  | none => s

/-- The segment whose streams the ring stands in: the active one, or the one whose slots are written after a QUENCH (R233). -/
def State.ringSeg (s : State) : Option Nat := (s.hearth.act.or (s.hearth.flush.map (·.1))).map (·.seg)

/-- The slots of stored frames, closed records and the active ring, that hold a byte of the 64-bit word at address a in their tile
data: an uncorrectable word marks every frame that has a part in it (R229). -/
def State.slotsAt (s : State) (a : Nat) : List Nat :=
  let inTile (g : Segment) (slot : Nat) : Bool :=
    let b := s.slotRead slot
    (upTo 48).any (fun f =>
      let at_ := fieldLE b (64 + 8 * f) 5
      let n := fieldLE b (64 + 8 * f + 5) 3
      let len := g.streamLen f
      let base := g.streamBase f
      n ≠ 0 && (upTo 8).any (fun k =>
        let x := a / 8 * 8 + k
        decide (base ≤ x) && decide (x < base + len) && decide ((x + len - at_) % max len 1 < n)))
  let closed := (upTo 64).flatMap (fun i => (s.segAt i).recordSlots.filter (inTile (s.segAt i)))
  let ring := match s.ringSeg with
    | some i => (s.hearth.ring.map (·.slot)).filter (inTile (s.segAt i))
    | none => []
  closed ++ ring

/-- The frames without a slot that hold a byte of the 64-bit word at address a in the active segment's streams. -/
def State.unwrittenAt (s : State) (a : Nat) : List Nat :=
  match s.ringSeg with
  | none => []
  | some i =>
    let g := s.segAt i
    let inTile (c : Nat × TileFrame) : Bool :=
      let len := g.streamLen c.1
      let base := g.streamBase c.1
      c.2.placed && (upTo 8).any (fun k =>
        let x := a / 8 * 8 + k
        decide (base ≤ x) && decide (x < base + len) && decide ((x - base + len - c.2.pos % max len 1) % max len 1 < c.2.count))
    (s.hearth.unwritten.filter (fun fr => fr.tfs.any inTile)).map (·.n)

/-- MEM_UE on every frame that has a part in the 64-bit word at address a: on its slot, or on the frame until it has one (R220, R229). -/
def State.markData (s : State) (a : Nat) : State :=
  let s := s.each (s.slotsAt a) (fun s i => s.markStored i fMEMUE)
  s.each (s.unwrittenAt a) (fun s n => s.markFrame n .none 0 (2 ^ fMEMUE))

/-- An uncorrectable word at a Hearth address (R229): counted, logged, marked; in the kept image it makes its copy unusable.
[DEDUCED, log entry 88] -/
def State.uncorrectable (s : State) (a : Nat) : State :=
  let s := (s.countUE a).logDev .hrt 1 stCHECK [(24, 8, a)]
  if 0x09001000 ≤ a && a < slotArea then s.putKeptBad true
  else if slotArea ≤ a && a < 0x40000000 then s.markStored ((a - slotArea) / 512) fMEMUE
  else s.markData a

/-- R229: one step of the scrub: what it finds, and how far the pass has come (1/65,536). It stops in a post-trigger window, and waits for
another service step in progress (R445). [DEDUCED, log entry 88] -/
def scrubStep (finding : ScrubFinding) (prog : Fin 65536) (s : State) : State :=
  if !s.temper || s.inPost || s.svcBusy then s
  else
    let wrapped : Bool := decide (prog.val < s.bgs.scrubProg)
    let secs := min 65535 ((s.tb.ticks - s.bgs.scrubFrom) / ticksPerSec)
    let passes := if wrapped then min 65535 (s.bgs.scrubPasses + 1) else s.bgs.scrubPasses
    let s := if wrapped then s.setReg (MEM + 0x20) (passes * 65536 + secs) else s
    let s : State := s.putBgs { s.bgs with
      scrubProg := prog.val, scrubPasses := passes,
      scrubTicks := if wrapped then 0 else s.bgs.scrubTicks
      scrubFrom := if wrapped then s.tb.ticks else s.bgs.scrubFrom }
    match finding with
    | .clean => s
    | .single a => s.countCE a
    | .uncorrectable a => s.uncorrectable a
    | .crc slot tile =>
      ((s.count (HRT + 0x114)).logDev .hrt 2 stCHECK [(21, 1, tile), (24, 8, slotAddr slot)]).markStored slot fCRCFAIL

/-! ### Lane adaptation and pace monitoring (R445, R447) -/

/-- R445: every 100 ms Temper reads the lanes' eyes. -/
def laneAdaptMonitor (s : State) : State :=
  if !s.temper then s
  else
    let low : Bool := match s.lowEye (upTo (8 * s.part.sectors)) with
      | some e => decide (e < s.fld BGS 31 24)
      | none => false
    ((s.putBgs { s.bgs with eyeLow := low }).ranAt 0x400 (ticksPerSec / 10)).updateAlarms

/-- R447: the slowest of an island's eight replicas, in ps. -/
def paceMeasurement (island : Fin 12) (ps : Nat) (s : State) : State :=
  if s.temperBasic && decide (island.val < s.part.sectors) then
    ((s.addPace island.val ps).ranAt (0x500 + island.val) (ticksPerSec / 1000)).updateAlarms
  else s

/-! ### Telemetry (R449, R450) -/

/-- The limits of the supplies in VOLT, mV (chapter 18). [DEDUCED, log entry 89] -/
def supplyLimits : List (Nat × Nat) :=
  [(700, 800), (770, 830), (825, 875), (1164, 1236), (1060, 1170), (570, 650), (1710, 1890), (3135, 3465)]

/-- DOMSTATE of the first n domains from m on: two bits each, 3 for an absent one. -/
def State.domStates (s : State) (m n : Nat) : Nat :=
  (upTo n).foldl (fun x i => x + (if s.domHere (m + i) then s.domState (m + i) else 3) * 4 ^ i) 0

/-- The telemetry record n (R450). -/
def State.telemetry (s : State) (x : Sensors) : List Byte :=
  let armed : Bool := s.segActive && !s.inPost
  let b := pack 252 [(0, 10, s.now), (10, 1, s.epoch),
    (11, 1, b2n (s.sync = 3) + 2 * b2n (s.sync = 4) + 4 * b2n armed + 8 * b2n s.inPost + 16 * b2n s.inPost),
    (12, 4, s.reg aTelSeq), (16, 4, s.reg aTelAlarm), (20, 2, s.pLive), (22, 2, s.pLim), (72, 2, s.bgs.blwSeen),
    (74, 2, ux 16 x.tjCore), (76, 2, if s.part.field then ux 16 x.tjField else 0), (96, 4, x.pCore), (100, 2, x.pField),
    (104, 12, s.domStates 0 48), (116, 1, s.domStates 48 3), (120, 4, x.memBw),
    (124, 4, s.bgs.scrubPasses * 65536 + s.bgs.scrubProg)]
  let b := overlay b 24 ((upTo 12).flatMap (fun k => leBytes 2 (sget 0 s.bgs.slow k)))
  let b := overlay b 48 ((upTo 12).flatMap (fun k => leBytes 2 (sget 0 s.bgs.qpeak k)))
  let b := overlay b 80 ((upTo 8).flatMap (fun i => leBytes 2 ((x.volt[i]?).getD 0)))
  let b := overlay b 128 ((upTo 12).flatMap (fun k =>
    leBytes 2 (if k < s.part.sectors then (s.lowEye ((upTo 8).map (8 * k + ·))).getD 0xFFFF else 0xFFFF)))
  b ++ leBytes 4 (crc32c b)

/-- The highest queue fill of each sector as it stands. -/
def State.qFills (s : State) : List (Nat × Nat) :=
  (upTo s.part.sectors).foldl (fun m k => sput 0 m k (((upTo 8).map (fun i => (s.queueAt (8 * k + i)).fill)).foldl max 0)) []

/-- R449: every 10 ms Temper writes a record into the telemetry ring. -/
def telemetryRecord (x : Sensors) (s : State) : State :=
  if !s.temperBasic then s
  else
    let bad : Bool := (supplyLimits.zip (upTo 8)).any (fun c =>
      let v := (x.volt[c.2]?).getD 0
      decide (v < c.1.1) || decide (c.1.2 < v))
    let s := ((s.putBgs { s.bgs with supplyBad := bad }).ranAt 0x800 (ticksPerSec / 100)).updateAlarms
    let n := s.reg aTelSeq
    let s := s.hwrite (telArea + 256 * (n % 65536)) (s.telemetry x)
    let s := ((s.setReg aTelSeq (n + 1)).setReg (BGS + 0x80) x.pCore).setReg (BGS + 0x84) (if s.part.field then x.pField % 65536 else 0)
    s.putBgs { s.bgs with slow := [], qpeak := s.qFills,
                                 blwSeen := (upTo 12).foldl (fun m k => m + b2n ((s.bellowsAt k).pin) * 2 ^ k) 0 }

/-- BGS_STAT as read (R456). -/
def State.bgsStat (s : State) : Nat := b2n s.inPost * 2 ^ 31 + b2n s.hold * 2 ^ 30 + s.svcCode

/-- BGS stops or is quenched: its step in progress ends (R455). -/
def State.bgsStop (s : State) : State := s.serviceEnd

end Sys2Proof.Machine
end

