-- ==== Sys2Proof/Machine/Firmware.lean ====
section
/-!
DEFINITION. The supervisor mailbox (R414–R416): requests accepted by firmware in order, replies, aborts and limits; the
registers of a port's mailbox.
-/

namespace Sys2Proof.Machine

def SUP : Nat := 0x00100000
def kFNCMD : Nat := 0x01
def kREGWRITE : Nat := 0x02
def kREGREAD : Nat := 0x03
def kLOAD : Nat := 0x10
def kARM : Nat := 0x11
def kDISARM : Nat := 0x12
def kTRIGGER : Nat := 0x13
def kTIMETRIGGER : Nat := 0x14
def kRIGTRIGGER : Nat := 0x15
def kRELEASE : Nat := 0x16
def kMEASURE : Nat := 0x17
def kQUENCH : Nat := 0x18
def kSWAPROLE : Nat := 0x19
def kSTORE : Nat := 0x20
def kRECALL : Nat := 0x21
def kUPDBEGIN : Nat := 0x28
def kUPDBLOCK : Nat := 0x29
def kUPDCOMMIT : Nat := 0x2A

/-- The commands of R417. -/
def knownCodes : List Nat :=
  [kFNCMD, kREGWRITE, kREGREAD, kLOAD, kARM, kDISARM, kTRIGGER, kTIMETRIGGER, kRIGTRIGGER, kRELEASE, kMEASURE, kQUENCH, kSWAPROLE,
   kSTORE, kRECALL, kUPDBEGIN, kUPDBLOCK, kUPDCOMMIT]

def FwCmd.code (c : FwCmd) : Nat := byteAt c.req 0
/-- Argument word n (R416). -/
def FwCmd.arg (c : FwCmd) (n : Nat) : Nat := fieldLE c.req (4 + 4 * n) 4
/-- A 64-bit argument in words n and n + 1. -/
def FwCmd.arg64 (c : FwCmd) (n : Nat) : Nat := fieldLE c.req (4 + 4 * n) 8

def State.mboxAt (s : State) (p : Nat) : Mbox := (s.host.mbox[p]?).getD {}
def State.onMbox (s : State) (p : Nat) (g : Mbox → Mbox) : State :=
  s.putHost { s.host with mbox := s.host.mbox.setIfInBounds p (g (s.mboxAt p)) }

/-- A reply block (R416): CODE, STATUS, and the result words as bytes. -/
def replyBlock (code status : Nat) (res : List Byte) : List Byte :=
  overlay (zeros 128) 0 (leBytes 1 code ++ leBytes 1 status ++ zeros 2 ++ res)

/-- The words of a block, by word number, as a sparse map. -/
def wordsOf (b : List Byte) : List (Nat × Word) :=
  (upTo 32).foldl (fun m i => sput 0 m i (BitVec.ofNat 32 (fieldLE b (4 * i) 4))) []

/-- The bytes of a mailbox area. -/
def bytesOf (m : List (Nat × Word)) : List Byte := (upTo 32).flatMap (fun i => leBytes 4 (sget 0 m i).toNat)

/-- A command ends: its reply is written, DONE sets, BUSY clears and vector 1 is signalled; a core's reply waits for its
SYS_COMPLETE (R414). -/
def State.reply (s : State) (c : FwCmd) (status : Nat) (res : List Byte) : State :=
  let s := s.putHost { s.host with fw := s.host.fw.erase c }
  let b := replyBlock c.code status res
  match c.src with
  | .port p => (s.onMbox p.val (fun m => { m with rep := wordsOf b, done := true, busy := false })).signal p.val 1
  | .core k => s.onCore k.val (fun g => { g with reply := some (b, status) })

/-- The command firmware serves next, when it comes from src with a code (R414). -/
def State.fwFront (s : State) (src : Src) (code : Nat) : Option FwCmd :=
  match s.host.fw with
  | c :: _ => if c.src = src ∧ c.code = code then some c else none
  | [] => none

/-- The command of a source that waits or is served. -/
def State.fwOf (s : State) (src : Src) : Option FwCmd := s.host.fw.find? (fun c => c.src = src)

/-- A meaning of a mailbox command: it acts on the request when firmware serves it, and otherwise nothing happens. [DEDUCED, log entry 79] -/
def State.serve (s : State) (src : Src) (code : Nat) (g : FwCmd → State → State) : State :=
  match s.fwFront src code with
  | some c => g c s
  | none => s

/-- Codes that a core may not call (R191). -/
def sysBarred (code : Nat) : Bool := code = kLOAD || code = kUPDBEGIN || code = kUPDBLOCK || code = kUPDCOMMIT

/-- Firmware accepts a request; an unknown CODE, or one that run control may not call, ends at once with BAD_ARG (R416,
R191). [DEDUCED, log entry 54] -/
def State.accept (s : State) (c : FwCmd) : State :=
  let s := s.putHost { s.host with fw := s.host.fw ++ [c] }
  let barred : Bool := match c.src with | .core _ => sysBarred c.code | .port _ => false
  if !knownCodes.contains c.code || barred then s.reply c stBADARG [] else s

/-- DISARM, QUENCH, STORE and UPDATE_COMMIT are not abortable (R417); other commands take effect whole when firmware serves
them. -/
def abortable (code : Nat) : Bool := !([kDISARM, kQUENCH, kSTORE, kUPDCOMMIT].contains code)

/-- R414: GO copies the request and sets BUSY; a mailbox that is BUSY ignores it. -/
def mboxGo (p : Fin 2) (s : State) : State :=
  if s.sys.boot ≠ .ready || !decide (p.val < s.part.usbPorts) || (s.mboxAt p.val).busy then s
  else
    let s := s.onMbox p.val (fun m => { m with busy := true })
    s.accept { src := .port p, req := bytesOf (s.mboxAt p.val).req, stamp := s.now, mark := s.stampMark }

/-- The command of a source ends with a status, unless it is not abortable (R416). -/
def State.endCommand (s : State) (src : Src) (status : Nat) : State :=
  match s.fwOf src with
  | some c => if abortable c.code then s.reply c status [] else s
  | none => s

/-- R416: SUP_MBOX.ABORT. -/
def mboxAbort (p : Fin 2) (s : State) : State := if s.sys.boot = .ready then s.endCommand (.port p) stABORTED else s

/-- R416: a command's LIMIT expires. [DESIGN CHOICE, log entry 3] -/
def mboxLimitExpiry (src : Src) (s : State) : State :=
  match s.fwOf src with
  | some c => if fieldLE c.req 2 2 = 0 then s else s.endCommand src stTIMEOUT
  | none => s

/-- SUP_MBOX as read (R419). -/
def State.mboxRead (s : State) (p : Nat) : Nat := b2n (s.mboxAt p).busy * 2 ^ 31 + b2n (s.mboxAt p).done * 2 ^ 30

end Sys2Proof.Machine
end

