-- ==== Sys2Proof/Machine/Reset.lean ====
section
/-!
DEFINITION. The reset of the whole device (R421): what it keeps and what it loses.
-/

namespace Sys2Proof.Machine

/-- Command lanes that drive their balls go to electrical idle (R469). -/
def State.idleDrives (s : State) : List Out :=
  let live : Bool := match s.fnState .lnk with | .starting | .running | .stopping => s.booted | _ => false
  if live then ((upTo 48).filter (fun f => s.present (aCmd f 0) && (s.txMode f = 1 || s.txMode f = 2))).map (fun f => .drive f 0 0 0) else []

/-- R421: every function goes OFF, a holder releases Tongs, Hearth's content is lost. The settings store, the part, the test
access port and what drives the pins from outside stay. The device is held until boot begins (R422, R468). -/
def State.deviceReset (s : State) : State :=
  let tin := s.bit aPairStat 27
  let fresh : State :=
    { State.reset with
        pending := s.pending
        out := s.idleDrives ++ s.out
        freeUse := s.freeUse
        part := s.part
        stepping := s.stepping
        nvs := s.nvs
        tap := s.tap
        fns := s.fns.map (fun i => if i.state = .absent then i else {})
        bellows := s.bellows.map (fun b => { ext := b.ext, pin := b.ext }) }
  fresh.setBit aPairStat 27 tin

/-- MGg_RESET_N is driven low in reset, and until boot firmware trains the channels (R469). -/
def State.memResetLow (s : State) : Bool := !s.booted

/-- The device is ready: the host reaches it over USB4 (R422 steps 11 and 12). -/
def State.ready (s : State) : Bool := s.sys.boot = .ready

end Sys2Proof.Machine
end

