-- ==== Sys2Proof/Machine/Bundle.lean ====
section
/-!
DEFINITION. A processor issues a bundle (R124): what the bundle does outside its processor (R189–R192), the faults of engines
and of supervisor cores (R116, R142, R193), and the ends of the waits that a bundle begins (R191).
-/

namespace Sys2Proof.Machine

/-! ### Stream engines -/

/-- An emit.preview of the held strip: its entry goes to the preview ring, or is dropped and counted (R189, R412). -/
def State.emitPreview (s : State) (e : Nat) (i : StripItem) (xs : List Nat) : State :=
  let h := pack 16 [(0, 1, 1), (2, 2, 2 * xs.length), (4, 4, i.frame), (8, 1, i.tile), (9, 1, e), (10, 2, i.row), (12, 2, i.col)]
  let r := s.pvPost h (xs.flatMap (leBytes 2))
  let s := r.1
  let ok := r.2
  if ok then s else s.count (aEng e 0x28)

/-- put.aux: the value takes its slot, in place of an unsent one (R190). -/
def State.putAux (s : State) (e m : Nat) (v : Word) (t : Stamp) : State :=
  let s := match (s.slots[m]?).getD none with
    | some _ => s.count (aEng e 0x2C)
    | none => s
  s.putSlots (s.slots.setIfInBounds m (some (v, t)))

/-- What an engine's bundle does outside its processor (R189, R190). -/
def State.engineEffect (s : State) (e : Nat) (eff : KEffect) : State :=
  let g := s.engineAt e
  match eff, g.heldStrip with
  | .emitFrag xs last flush, some i => s.emitFrag e i xs last flush
  | .emitPreview xs, some i => s.emitPreview e i xs
  | .emitScore v n, _ => s.emitScore e n v
  | .putAux v m, _ => s.putAux e m v g.tokenStamp
  | .waitStrip gd, _ => s.engineWait e gd
  | _, _ => s

/-- One bundle of engine e. A fence that shares a bundle with an emission waits for that emission (R138). [DEDUCED, log entry 39] -/
def State.engineBundle (s : State) (e : Nat) (badFetch badData : Bool) : State :=
  let g := s.engineAt e
  let cap := if g.held.isSome then some (s.stepCap e - g.steps) else none
  match runBundle g.proc true 0x10000 g.held.isSome g.heldStrip.isSome cap badFetch badData with
  | .fault c sl => s.engineFault e c sl
  | .done p cost eff fence =>
    let s := s.onEngine e (fun g => { g with proc := p, bundle := g.proc.pc, steps := if g.held.isSome then g.steps + cost else g.steps })
    let s := s.engineEffect e eff
    match (s.engineAt e).run with
    | .exec => if fence then s.onEngine e (fun g => { g with run := .fence }) else s.paceCheck e
    | _ => s

/-! ### Supervisor cores -/

/-- A fault of a supervisor core (R116, R193, R421, R455): of core 0, the device resets; of core 1, BGS enters FAULT from a state
that has the transition (R31) and its services stop; of cores 2 and 3, the core stops until the next load. -/
def State.coreFault (s : State) (c cause : Nat) : State :=
  let pc := (s.coreAt c).proc.pc
  let s := s.onCore c (fun g => { g with run := .stopped })
  if c = 0 then s.deviceReset
  else if c = 1 then
    let s : State := s.serviceEnd.putBgs { s.bgs with meas := [] }
    let s := match s.fnState .bgs with
      | .starting | .running | .stopping => s.faultFn .bgs 1
      | _ => s
    s.logDev .bgs 2 0 [(21, 1, cause), (24, 4, pc)]
  else s.log s.now 12 c 1 [(20, 1, cause), (24, 4, pc)]

/-- A block of n bytes at address a lies in core memory, aligned to 32 bytes (R191). -/
def coreBlock (a n : Nat) : Bool := a % 32 = 0 && decide (a + n ≤ 0x40000)

/-- Register Gd of core c receives a status code. -/
def State.coreG (s : State) (c gd st : Nat) : State :=
  s.onCore c (fun g => { g with proc := Proc.setG gd (BitVec.ofNat 32 st) g.proc })

/-- A completed post descriptor: STATUS, then DONEFLAG (R192). -/
def State.postStatus (s : State) (c addr st : Nat) : State :=
  s.onCore c (fun g => { g with proc := { g.proc with mem := Memory.write g.proc.mem (addr + 24) [BitVec.ofNat 8 st, 1] } })

/-- post.ls issues the descriptor d that stands at addr, completes it at once, or stalls (R140, R192). [DEDUCED, log entry 39] -/
def State.postLs (s : State) (c addr : Nat) (d : List Byte) : State :=
  if !coreBlock addr 32 then s
  else
    let mask := fieldLE d 0 12
    let ls := fieldLE d 12 4
    let es := maskEngines mask
    let here (e : Nat) : Bool := decide (e < 8 * s.part.sectors)
    if !(decide (0x14000 ≤ ls) && decide (ls < 0x3F000) && ls % 4 = 0) || es.isEmpty || es.any (fun e => here e && !s.engineOn e) then
      s.postStatus c addr stBADARG
    else if es.any (fun e => !here e) then s.postStatus c addr stABSENT
    else
      match s.postIssue c addr mask ls (fieldLE d 16 4) (fieldLE d 20 4) with
      | some s => s
      | none => s.onCore c (fun g => { g with run := .postStall addr mask ls (fieldLE d 16 4) (fieldLE d 20 4) })

/-- What a core's bundle does outside its processor (R191, R192); operands, those in memory too, are read from `old`, the
processor before the bundle (R124). [DEDUCED, log entry 39] -/
def State.coreEffect (s : State) (c : Fin 4) (old : Proc) (eff : KEffect) : State :=
  let a (n : Nat) : Nat := (old.sc n).toNat
  match eff with
  | .waitEvent gd ga gb =>
    if coreBlock (a ga) 32 then s.onCore c.val (fun g => { g with run := .waitEvent gd (a ga) (decide (a gb ≠ 0)) })
    else s.coreG c.val gd stBADARG
  | .sigTrig k => s.srcEdge s.now (53 + k)
  | .sys gd ga code =>
    if coreBlock (a ga) 128 then
      let req := overlay (Memory.read old.mem (a ga) 128) 0 [BitVec.ofNat 8 code]
      let s := s.onCore c.val (fun g => { g with run := .sys gd (a ga), reply := none })
      s.accept { src := .core c, req := req, stamp := s.now, mark := s.stampMark }
    else s.coreG c.val gd stBADARG
  | .postLs ga => s.postLs c.val (a ga) (Memory.read old.mem (a ga) 24)
  | _ => s

/-- One bundle of core c. -/
def State.coreBundle (s : State) (c : Fin 4) (badFetch badData : Bool) : State :=
  let old := (s.coreAt c.val).proc
  match runBundle old false 0x40000 false false none badFetch badData with
  | .fault k _ => s.coreFault c.val k
  | .done p _ eff fence =>
    let s := (s.onCore c.val (fun g => { g with proc := p })).coreEffect c old eff
    if fence then s.onCore c.val (fun g => { g with run := .fence }) else s

/-- R124: a processor that executes issues one bundle; `ecc` is what it finds under the ECC of its memory (R130).
[DESIGN CHOICE, log entry 7; DESIGN CHOICE, log entry 40] -/
def bundleIssue (p : ProcId) (ecc : LsEcc) (s : State) : State :=
  let badFetch : Bool := ecc = .badFetch
  let badData : Bool := ecc = .badData
  match p with
  | .eng e =>
    if (s.engineAt e.val).run = .exec && s.anvLive then
      let s := match ecc with | .corrected n => s.count (aEng e.val 0x34) n | _ => s
      s.engineBundle e.val badFetch badData
    else s
  | .core c => if (s.coreAt c.val).run = .exec then s.coreBundle c badFetch badData else s

/-! ### The ends of waits (R191, R304) -/

/-- Entry n of the event log as a reader of the ring at address n mod size finds it: its own 32 bytes, or those of a later
entry that replaced it (R300, R304). -/
def State.logEntry (s : State) (n : Nat) : List Byte := s.hread (logArea + 32 * (n % logSlots)) 32

/-- The next log entry has been published for core c. -/
def State.eventReady (s : State) (c : Nat) : Bool := (s.coreAt c).nextSeq ≠ s.tb.logCount % 2 ^ 32

/-- R304: a core that has fallen behind by a ring or more reads a LOG_LOST entry with the SEQ of the entry it expected and the number of
entries it lost, and goes on with the oldest. [DEDUCED, log entry 37] -/
def State.eventFor (s : State) (c : Nat) : List Byte × Nat :=
  let n := (s.coreAt c).nextSeq
  let behind := frameDiff (s.tb.logCount % 2 ^ 32) n
  if logSlots < behind then
    let lost := behind - logSlots
    (stampBytes s.now ++ leBytes 1 s.tb.epochs ++ leBytes 1 1 ++ leBytes 2 6 ++ leBytes 1 6 ++ leBytes 1 s.tbFlags ++ leBytes 4 n
      ++ pack 12 [(0, 4, lost), (4, 4, n)], (n + lost) % 2 ^ 32)
  else (s.logEntry n, (n + 1) % 2 ^ 32)

/-- R191: the next event of the ordered log reaches a core that waits for it. -/
def waitEventReturn (c : Fin 4) (s : State) : State :=
  match (s.coreAt c.val).run with
  | .waitEvent gd addr _ =>
    if s.eventReady c.val then
      let r := s.eventFor c.val
      s.onCore c.val (fun g =>
        { g with run := .exec, nextSeq := r.2,
                 proc := Proc.setG gd (BitVec.ofNat 32 stDONE) { g.proc with mem := Memory.write g.proc.mem addr r.1 } })
    else s
  | _ => s

/-- R191: the limit of wait.event expires; the event stays for the next one. -/
def waitEventTimeout (c : Fin 4) (s : State) : State :=
  match (s.coreAt c.val).run with
  | .waitEvent gd _ true => (s.coreG c.val gd stTIMEOUT).onCore c.val (fun g => { g with run := .exec })
  | _ => s

/-- R191: a firmware service completes, its reply stands over the request and its status in Gd. -/
def sysComplete (c : Fin 4) (s : State) : State :=
  match (s.coreAt c.val).run, (s.coreAt c.val).reply with
  | .sys gd addr, some (b, st) =>
    s.onCore c.val (fun g =>
      { g with run := .exec, reply := none,
               proc := Proc.setG gd (BitVec.ofNat 32 st) { g.proc with mem := Memory.write g.proc.mem addr b } })
  | _, _ => s

end Sys2Proof.Machine
end

