-- ==== Sys2Proof/Machine/Outputs.lean ====
section
/-!
DEFINITION. The event outputs (R258–R260): pulses, levels, test pulses.
-/

namespace Sys2Proof.Machine

def aOutStat : Nat := TRG + 0x24

def State.pinAt (s : State) (o : Nat) : OutPin := (s.trig.pins[o]?).getD {}
def State.onPin (s : State) (o : Nat) (g : OutPin → OutPin) : State :=
  s.onTrig (fun t => { t with pins := t.pins.setIfInBounds o (g (s.pinAt o)) })

/-- An output is driven active by demand: a pulse, or the level of modes 4 and 5 (R258). -/
def State.outActive (s : State) (o : Nat) : Bool :=
  (s.pinAt o).active
    || (s.trgLive && ((s.outMode o = 4 && s.segActive) || (s.outMode o = 5 && s.inPost)))

/-- A test pulse drives the output (R259). -/
def State.outTesting (s : State) (o : Nat) : Bool := match (s.pinAt o).test with | .driving _ => true | _ => false

/-- The outputs are released: on a pair member without Tongs (R258), in reset, and until boot firmware sets them (R469). [DEDUCED, log entry 57] -/
def State.outReleased (s : State) : Bool := s.nonHolder || !s.booted

/-- The level of an output's ball; the net's resistor keeps a released one at the idle level (R473). [DEDUCED, log entry 57] -/
def State.outLevel (s : State) (o : Nat) : Bool :=
  if !s.outReleased && (s.outActive o || s.outTesting o) then !s.outIdle o else s.outIdle o

/-- An output test's result is logged (R259, R260): 0 pass, 1 fail, 2 incomplete. The kind is the model's. [DEDUCED, log entry 56] -/
def State.logTest (s : State) (o result : Nat) : State := s.logDev .trg 11 stDONE [(21, 1, o), (22, 1, result)]

/-- A test is over without a result (R260). -/
def State.testIncomplete (s : State) (o : Nat) : State :=
  ((s.onPin o (fun p => { p with test := .none })).count (TRG + 0x130)).logTest o 2

/-- A demand edge during a test pulse cuts the test short (R260); after the pulse the second readback decides. [DEDUCED, log entry 56] -/
def State.cutTest (s : State) (o : Nat) : State := if s.outTesting o then s.testIncomplete o else s

/-- A pulse begins at a stamp and lasts WIDTH; one due while the output is active extends it to the later end (R258). -/
def State.pulse (s : State) (o : Nat) (t : Stamp) : State :=
  let s := s.cutTest o
  let e := t + s.outWidth o
  let s := if s.nonHolder || (s.pinAt o).active then s else s.emit (.pulse o t)
  s.onPin o (fun p => { p with active := true, until_ := if p.active then max p.until_ e else e })

/-- Every output of a mode pulses. -/
def State.pulseMode (s : State) (mode : Nat) (t : Stamp) : State :=
  s.each (upTo 9) (fun s o => if s.outMode o = mode then s.pulse o t else s)

/-- An edge on a trigger or timing input drives the IMMEDIATE outputs that name it (R258). -/
def State.immediate (s : State) (src : Nat) (t : Stamp) : State :=
  if s.runs .trg then s.each (upTo 9) (fun s o => if s.outMode o = 3 && s.outSrc o = src then s.pulse o t else s) else s

/-- Outputs of modes 4 and 5 cut tests as their level begins (R260). -/
def State.levelDemand (s : State) : State :=
  s.each (upTo 9) (fun s o => if (s.outMode o = 4 || s.outMode o = 5) && s.outActive o then s.cutTest o else s)

/-- Every output returns to its idle level (R263). -/
def State.outputsIdle (s : State) : State := s.onTrig (fun t => { t with pins := Vector.replicate 9 {} })

/-- The instants at which an output of mode 1 or 6 has a leading edge, as far as a stamp (R258): DELAY is at most 32.7 µs, and the
schedule is known ahead. [DESIGN CHOICE, log entry 38] -/
def State.outEdges (s : State) (o : Nat) (upto : Stamp) : List Int :=
  let ts : List Stamp :=
    if s.outMode o = 1 then (s.framesTo (upto + 33000 * NS)).map (·.sched)
    else if s.outMode o = 6 then s.trig.timeStamp.toList
    else []
  ts.map (fun x : Stamp => (x : Int) + s.outDelay o)

/-- A stamp is the grid point of 312.5 ps that an edge due at the instant x stands on (R258): x itself where it is one, else either of
the two beside it. [DESIGN CHOICE, log entry 38] -/
def onGrid (x : Int) (t : Stamp) : Bool := t % res312 = 0 && decide (((t : Int) - x).natAbs < res312)

/-- R258: a FRAME-mode output reaches a frame's scheduled T_k plus DELAY, a TIME-mode output the time trigger's stamp plus
DELAY; t is the grid point of that instant. [DESIGN CHOICE, log entry 38] -/
def outputTimedPulse (o : Fin 9) (t : Stamp) (s : State) : State :=
  if s.trgLive && (s.outEdges o.val (t + res312)).any (fun x => onGrid x t) then s.pulse o.val t else s

/-- R258: WIDTH has passed since the last demand: a pulse that was extended goes on to the later end. -/
def outputPulseEnd (o : Fin 9) (s : State) : State :=
  if (s.pinAt o.val).until_ ≤ s.nowFine then s.onPin o.val (fun p => { p with active := false }) else s

/-- A test pulse may begin (R259): the output asks for tests, is driven, and stands at its idle level. -/
def State.testWanted (s : State) (o : Nat) : Bool :=
  s.runs .trg && s.outTestOn o && !s.nonHolder && !s.outActive o && (s.pinAt o).test = .none

/-- A test must wait (R259): an edge of mode 1 or 6 is due on the output within 1 µs, or a segment is in POST. [DEDUCED, log entry 56] -/
def State.testHeld (s : State) (o : Nat) : Bool :=
  let now : Int := s.nowFine
  let due := s.outEdges o (s.nowFine + 1000 * NS)
  due.any (fun x => decide (now ≤ x) && decide (x ≤ now + 1000 * NS))
    || (s.inPost && !s.outTestPost o)

/-- A test pulse begins, or is deferred to the next moment at which nothing holds it (R259). [DEDUCED, log entry 56] -/
def State.testBegin (s : State) (o : Nat) : State :=
  if s.testHeld o then s.onPin o (fun p => { p with deferred := true })
  else s.onPin o (fun p => { p with test := .driving none, deferred := false })

/-- R259: TEST_PERIOD has passed, and a test pulse begins while the output is at its idle level. [DEDUCED, log entry 56] -/
def outputTestStart (o : Fin 9) (s : State) : State := if s.testWanted o.val then s.testBegin o.val else s

/-- A deferred test begins at the first tick at which nothing holds it (R259). [DESIGN CHOICE, log entry 2; DEDUCED, log entry 56] -/
def State.tickOutput (s : State) (o : Nat) : State :=
  if (s.pinAt o).deferred && s.testWanted o && !s.testHeld o then s.testBegin o else s

/-- A finished test passes or fails (R259). -/
def State.testResult (s : State) (o : Nat) (ok : Bool) : State :=
  let s := s.onPin o (fun p => { p with test := .none })
  if ok then s.logTest o 0
  else ((s.setBit aOutStat (16 + o) true).count (TRG + 0x134)).logTest o 1

/-- R259: a readback: 200 ns into the test it must show the test level, 100 ns after its end the idle level. Where a demand has
driven the output active by then, a readback of the active level leaves the test incomplete (R260). [DEDUCED, log entry 56] -/
def outputTestReadback (o : Fin 9) (level : Bool) (s : State) : State :=
  match (s.pinAt o.val).test with
  | .driving none => s.onPin o.val (fun p => { p with test := .driving (some (level != s.outIdle o.val)) })
  | .ended r =>
    if s.outActive o.val && level != s.outIdle o.val then s.testIncomplete o.val
    else s.testResult o.val (r.getD false && level == s.outIdle o.val)
  | _ => s

/-- R259: the test pulse ends. -/
def outputTestEnd (o : Fin 9) (s : State) : State :=
  match (s.pinAt o.val).test with
  | .driving r => s.onPin o.val (fun p => { p with test := .ended r })
  | _ => s

/-- TRG_OUTSTAT as read (R265). -/
def State.outStat (s : State) : Nat :=
  s.fld aOutStat 24 16 * 65536 + (upTo 9).foldl (fun n o => n + b2n (s.outLevel o) * 2 ^ o) 0

end Sys2Proof.Machine
end

