-- ==== Sys2Proof/Machine/Trigger.lean ====
section
/-!
DEFINITION. The trigger engine (chapter 08): the combiner (R241, R242), evaluation in stamp order behind the horizon (R243,
R244), decisions and their reasons (R248–R253), dual-channel inputs (R245, R246), the services that a post-trigger window
stops (R446).
-/

namespace Sys2Proof.Machine

/-! ### The combiner (R239, R241, R242) -/

/-- A source is true at a stamp (R239), by the edges and levels applied so far. [DESIGN CHOICE, log entry 48] -/
def State.srcTrue (s : State) (u : Stamp) (n : Nat) : Bool :=
  s.srcOn n && (if levelSrc n then s.trig.levels.contains n else s.trig.held.any (fun h => h.1 = n && decide (u ≤ h.2)))

/-- A literal byte: its value under a truth of the sources, when it is enabled. -/
def litValue (b : Nat) (truth : Nat → Bool) : Option Bool := if bitOf b 7 then some (truth (b % 64) != bitOf b 6) else none

/-- Term j of set k is true. -/
def State.termTrue (s : State) (k j : Nat) (truth : Nat → Bool) : Bool :=
  let ls := (upTo 4).filterMap (fun i => litValue (s.literal k j i) truth)
  !ls.isEmpty && ls.all id

/-- The output of set k. -/
def State.setOut (s : State) (k : Nat) (truth : Nat → Bool) : Bool := (upTo 8).any (fun j => s.termTrue k j truth)

/-- The firing source (R242): of the earliest literal, in term and literal order, of a true term whose source changed. [DEDUCED, log entry 49] -/
def State.firing (s : State) (k : Nat) (old new : Nat → Bool) : Nat :=
  let lits := ((upTo 8).filter (fun j => s.termTrue k j new)).flatMap (fun j =>
    ((upTo 4).map (fun i => s.literal k j i)).filter (fun b => bitOf b 7))
  match lits.find? (fun b => old (b % 64) != new (b % 64)) with
  | some b => b % 64
  | none => ((lits.head?).getD 0) % 64

/-- The set that is evaluated (R242). -/
def State.evalSet (s : State) : Option Nat :=
  match s.trig.evalSeg with
  | some g => s.segSet g
  | none => none

/-! ### Decisions (R248–R253) -/

/-- DECISION carries a taken trigger, or none, and K to the follower (R377). The body's layout is the model's. -/
def State.tellDecision (s : State) (d : Option Decision) : State :=
  if s.role = roHOLDER then
    let k := s.trig.k
    let e : Decision := d.getD { seg := 0, frame := 0, tfrac := 0, stamp := 0, src := 0 }
    s.mirrorSend mDECISION (pack 32 [(0, 1, b2n d.isSome + 2 * b2n k.isSome), (1, 1, e.seg), (2, 1, e.src), (4, 4, e.frame),
      (8, 2, e.tfrac), (10, 10, e.stamp), (20, 4, k.getD 0)])
  else s

/-- The STAMP of a frame as Hearth or the sequencer has it. -/
def State.frameStamp (s : State) (n : Nat) : Option Stamp :=
  match (s.hearth.ring ++ s.hearth.unwritten).find? (fun fr => fr.n = n) with
  | some fr => some fr.stamp
  | none => (s.trig.frames.find? (fun fr => fr.n = n)).map (·.t)

/-- A trigger is taken: registers, log, outputs, Hearth (R248, R258, R446, R357). -/
def State.applyTrigger (s : State) (d : Decision) (pact kind : Nat) : State :=
  let set := (s.segSet d.seg).getD 0
  let s := (s.setReg (TRG + 0xC) d.frame).setReg (TRG + 0x10) (d.src % 64 * 2 ^ 24 + set % 8 * 2 ^ 16 + d.tfrac)
  let s := s.trgLog kind d.stamp d.src d.tfrac d.frame
  let s := s.serviceEnd.ringFirst d.seg ((s.frameStamp (frameAdd d.frame (-pact))).getD d.stamp)
  let s := (s.enterPost d.frame d.tfrac d.stamp pact).levelDemand
  let s := s.pulseMode 2 s.nowFine
  s.tellDecision (some d)

/-- Two decisions agree: equal frames, TSTAMPs within TTOL (R385). -/
def State.agree (s : State) (a b : Decision) : Bool :=
  a.seg = b.seg && a.frame = b.frame
    && decide (((a.stamp : Int) - b.stamp).natAbs * 1000 ≤ s.fld aPairCfg1 9 0 * NS)

/-- R385: a mismatch of decisions is logged and counted. -/
def State.decMismatch (s : State) (theirs own : Option Decision) : State :=
  let seg := match theirs, own with | some d, _ => d.seg | none, some d => d.seg | none, none => 0
  (s.count (PAIR + 0x108)).logDev .pair 7 0 [(21, 1, seg), (22, 1, b2n theirs.isSome + 2 * b2n own.isSome),
    (24, 4, (theirs.map (·.frame)).getD 0), (28, 4, (own.map (·.frame)).getD 0)]

/-- The decision of the other member that goes with d (R385): the one for the same stamps, else the one that took another trigger of the
same segment. [DEDUCED, log entry 78] -/
def State.counterpart (s : State) (d : Decision) (ds : List Decision) : Option Decision :=
  (ds.find? (s.agree d)).or (ds.find? (fun e => e.seg = d.seg))

/-- A follower's own decision waits for the holder's, or meets it (R385). -/
def State.ownDecision (s : State) (d : Decision) : State :=
  match s.counterpart d s.pair.theirDecs with
  | some e =>
    let s := s.putPair { s.pair with theirDecs := s.pair.theirDecs.erase e }
    if s.agree e d then s else s.decMismatch (some e) (some d)
  | none => s.putPair { s.pair with ownDecs := s.pair.ownDecs ++ [d] }

/-- Why no segment takes a trigger whose stamp meets none that is ARMED or in POST (R253): it lies beyond the last frame issued, or a
DISARM or STOP that came after its stamp has ended the segment; else it is UNARMED. [DEDUCED, log entry 51] -/
def State.unarmedReason (s : State) (u : Stamp) : Nat :=
  if (s.placed u).2 || s.trig.items.any (fun i => i.2 = .phase .stopped) then rsSTOPPED else rsUNARMED

/-- T_F0 of the armed ring, known or as the schedule gives it (R250). -/
def State.frameZero (s : State) (f0 : Nat) (u : Stamp) : Option Stamp :=
  match s.trig.f0T with
  | some t => some t
  | none => ((s.framesTo (u + 1)).find? (fun fr => fr.n = f0)).map (·.t)

/-- A trigger at a stamp in the ARMED phase is placed and judged (R248, R250, R251): one before T_F0 has no frame in the ring, and
k − F0 is taken modulo 2^32. A follower judges it even where the holder's decision has come first (R385). [DEDUCED, log entry 55] -/
def State.judgeTrigger (s : State) (seg : Nat) (u : Stamp) (src : Nat) (forced : Bool) : State :=
  match s.hearth.act with
  | some a =>
    if a.seg ≠ seg || (a.post.isSome && !s.follower) then s.trgLog (s.unarmedReason u) u src 0 0
    else
      match s.placed u with
      | (none, true) => s.trgLog rsSTOPPED u src 0 0
      | (none, false) => s.trgLog rsEARLY u src 0 0
      | (some (k, t0, t1), _) =>
        let d := frameDiff k a.f0
        let p := (s.segAt seg).p
        let before : Bool := match s.frameZero a.f0 u with | some z => decide (u < z) | none => true
        if before || (d < p && !forced) then s.trgLog rsEARLY u src 0 k
        else
          let dec : Decision := { seg := seg, frame := k, tfrac := 65536 * (u - t0) / max 1 (t1 - t0), stamp := u, src := src }
          let s := s.onTrig (fun t => { t with phase := .post seg })
          if s.follower then s.ownDecision dec
          else s.applyTrigger dec (min p d) (if d < p then rsFORCED else rsTAKEN)
  | none => s.trgLog (s.unarmedReason u) u src 0 0

/-- A trigger at a stamp is taken, or ignored for a reason; STOPPED takes precedence over UNARMED (R253). -/
def State.decideTrigger (s : State) (u : Stamp) (src : Nat) (forced : Bool) : State :=
  match s.trig.phase with
  | .stopped => s.trgLog rsSTOPPED u src 0 0
  | .unarmed => s.trgLog (s.unarmedReason u) u src 0 0
  | .rearm => s.trgLog rsREARM u src 0 0
  | .post _ => s.trgLog rsBUSY u src 0 0
  | .armed seg => s.judgeTrigger seg u src forced

/-! ### Evaluation (R242, R243) -/

/-- What the decision meets changes at a stamp; an ARM changes the evaluated set, and a combiner already true is logged
(R242). STOPPED takes precedence over UNARMED (R253). -/
def State.applyPhase (s : State) (u : Stamp) (p : TrigPhase) : State :=
  match p with
  | .armed seg =>
    let s := s.onTrig (fun t => { t with phase := p, evalSeg := some seg })
    let out := match s.segSet seg with
      | some k => s.setOut k (s.srcTrue (u - 1))
      | none => false
    let s := s.onTrig (fun t => { t with out := out })
    if out then s.trgLog rsARMEDTRUE u 0 0 0 else s
  | .unarmed => if s.trig.phase = .stopped then s else s.onTrig (fun t => { t with phase := p })
  | _ => s.onTrig (fun t => { t with phase := p })

/-- An edge or a level is applied at a stamp. -/
def State.applyItem (s : State) (u : Stamp) : TrigItem → State
  | .edge n _ => s.onTrig (fun t => { t with held := t.held ++ [(n, u + s.srcHold n)] })
  | .level n b => s.onTrig (fun t => { t with levels := if b then (if t.levels.contains n then t.levels else n :: t.levels) else t.levels.erase n })
  | .phase _ => s

/-- Every event at a stamp is applied, and the set is evaluated once (R242). -/
def State.evalAt (s : State) (u : Stamp) : State :=
  let its := (s.trig.items.filter (fun i => i.1 = u)).map (·.2)
  let s := s.onTrig (fun t => { t with items := t.items.filter (fun i => i.1 ≠ u) })
  let old := ((upTo 64).filter (s.srcTrue (u - 1)))
  let s := s.each its (fun s i => match i with | .phase p => s.applyPhase u p | _ => s)
  let s := s.each its (fun s i => s.applyItem u i)
  let s := s.onTrig (fun t => { t with held := t.held.filter (fun h => decide (u ≤ h.2)) })
  match s.evalSet with
  | none => s
  | some k =>
    let was := s.trig.out
    let out := s.setOut k (s.srcTrue u)
    let s := s.onTrig (fun t => { t with out := out })
    if !was && out then
      let forced : Bool := its.any (fun i => match i with | .edge _ f => f | _ => false)
      s.decideTrigger u (s.firing k (fun n => old.contains n) (s.srcTrue u)) forced
    else s

/-- The stamps at which a literal may change, up to a limit: events, and the ends of holds. -/
def State.evalStamps (s : State) (limit : Stamp) : List Stamp :=
  let us : List Stamp := s.trig.items.map (fun i => i.1) ++ s.trig.held.map (fun h => h.2 + 1)
  us.filter (fun u => decide (u ≤ limit))

/-- The stamps up to a limit are evaluated in order. -/
def State.evalAll (s : State) (limit : Stamp) : Nat → State
  | 0 => s
  | fuel + 1 =>
    match s.evalStamps limit with
    | [] => s
    | x :: xs => (s.evalAt (xs.foldl min x)).evalAll limit fuel

/-- The earliest pending first-channel edge of an enabled dual input (R243). -/
def State.pendingEdge (s : State) : Option Stamp :=
  (upTo 2).foldl (fun m i =>
    let d := (s.trig.dual[i]?).getD {}
    match s.dualOn i, d.pend with
    | true, some (_, t) => some (match m with | some x => min x t | none => t)
    | _, _ => m) none

/-- The horizon moves to a stamp as far as pending inputs allow, and everything up to it is decided; K follows (R243, R244).
The follower's K is no later than the last it received (R383). [DESIGN CHOICE, log entry 48] -/
def State.evaluate (s : State) (t : Stamp) : State :=
  let edge := s.pendingEdge
  let limit := match edge with | some p => if t < p then t else p - 1 | none => t
  let s := s.evalAll limit (2 * s.trig.items.length + s.trig.held.length + 1)
  let hp := match s.trig.hp with | some h => max h limit | none => limit
  let s := s.onTrig (fun t => { t with hp := some hp })
  let kp := match edge with | some p => max hp (min t p) | none => hp
  let k := match decidedUpTo kp (s.framesTo kp) with | some k => some k | none => s.pair.ownK
  let s := s.putPair { s.pair with ownK := k }
  let k := if s.follower then (match k, s.pair.lastK with
    | some a, some b => some (if frameLt b a then b else a)
    | _, _ => s.trig.k) else k
  let before := s.trig.k
  let s := s.onTrig (fun t => { t with k := k, frames := match k with
    | some k => t.frames.filter (fun fr =>
        frameLe k fr.n || fr.n = s.lastN || !fr.checked || !fr.started || decide (hp < fr.sched + 33000 * NS))
    | none => t.frames })
  let s := match k with | some k => s.setReg (TRG + 4) k | none => s
  let late := s.pair.theirDecs.filter (fun d => decide (d.stamp + NS < hp))
  let s := s.putPair { s.pair with theirDecs := s.pair.theirDecs.filter (fun d => !(decide (d.stamp + NS < hp))) }
  let s := s.each late (fun s d => (s.decMismatch (some d) none).onTrig (fun t =>
    { t with phase := if t.phase = TrigPhase.armed d.seg then .post d.seg else t.phase }))
  if before ≠ k then s.tellDecision none else s

/-- R242: the horizon has passed stamp t, and the combiner is evaluated up to it. [DESIGN CHOICE, log entry 3; DESIGN CHOICE, log entry 48] -/
def triggerEvaluation (t : Stamp) (s : State) : State := if s.trgLive then (s.checkStrobes).evaluate t else s

/-! ### Dual-channel inputs (R245, R246) -/

def aDcStat : Nat := TRG + 0x20

def State.dualAt (s : State) (i : Nat) : DualInput := (s.trig.dual[i]?).getD {}
def State.onDual (s : State) (i : Nat) (g : DualInput → DualInput) : State :=
  s.onTrig (fun t => { t with dual := t.dual.setIfInBounds i (g (s.dualAt i)) })

/-- A discrepancy fault (R245). -/
def State.discFault (s : State) (i : Nat) (t : Stamp) : State :=
  let s := (s.onDual i (fun _ => { locked := true })).setBit aDcStat (3 + 8 * i) true
  s.trgLog rsDISCREPANCY (t + s.disc i) i 0 0

/-- An edge to its active level on a channel of dual input i. [DEDUCED, log entry 50] -/
def State.dualEdge (s : State) (i : Nat) (b : Bool) (t : Stamp) : State :=
  let d := s.dualAt i
  if !s.trgLive || !s.dualOn i then s
  else if d.locked || d.taken then s.count (TRG + 0x124)
  else match d.pend with
    | none => s.onDual i (fun d => { d with pend := some (b, t) })
    | some (b0, t0) =>
      if b = b0 then s.count (TRG + 0x124)
      else
        let first := min t t0
        let delta := max t t0 - first
        if delta < s.disc i then
          let s := s.onDual i (fun _ => { taken := true })
          if s.srcOn i then s.trigItem first (.edge i false) else s
        else s.discFault i first

/-- R245: DISC passes without the second channel. [DEDUCED, log entry 50] -/
def discrepancyTimeout (i : Fin 2) (s : State) : State :=
  match (s.dualAt i.val).pend with
  | some (_, t) => if s.trgLive then s.discFault i.val t else s
  | none => s

/-- R246: both channels have been inactive together for 1 µs. -/
def dualInputIdle (i : Fin 2) (s : State) : State := s.onDual i.val (fun d => { d with locked := false, taken := false })

/-- TRG_DCSTAT as read (R265). -/
def State.dcStat (s : State) : Nat :=
  (s.reg aDcStat &&& 0x808) + (upTo 2).foldl (fun n i =>
    let d := s.dualAt i
    n + (b2n d.locked * 4 + b2n d.pend.isSome * 2 + (match d.pend with | some (b, _) => b2n b | none => 0)) * 2 ^ (8 * i)) 0

/-- TRG_STAT as read (R264). -/
def State.trgStat (s : State) : Nat :=
  (match s.shownActive with | some a => 2 ^ 31 + b2n a.post.isSome * 2 ^ 30 + a.seg | none => 0)
    + b2n s.trig.rearm.isSome * 2 ^ 29 + b2n s.trig.timeTrig.isSome * 2 ^ 28

/-! ### Edges at the pins -/

/-- R305–R307: an edge on TDC_INn in the tick of counter value c, e fs after the tick's beginning: units, trigger source 34 + n,
EXPTDC, urgent ADC events, IMMEDIATE outputs. While TDC does not run, or with the channel disabled, nothing sees it (R315). -/
def tdcEdge (n : Fin 16) (c : Nat) (e : Fin 2500000) (s : State) : State :=
  let f := fineCode e.val
  let seen : Bool := s.runs .tdc && s.bit (aChCfg n.val) 31
  let s := if seen then s.immediate (34 + n.val) (s.edgeStamp n.val c f) else s
  let r := s.tdcTake n.val c f
  match r.2 with
  | none => r.1
  | some t =>
    let s := r.1.urgent (1 + n.val)
    if s.bit (aChCfg n.val) 30 then (s.srcEdge t (34 + n.val)).refine n.val t else s

/-- R307, R311, R344: an edge on GATE_INi. -/
def gateEdge (i : Fin 2) (c : Nat) (e : Fin 2500000) (s : State) : State :=
  let r := s.gateTake i.val c (fineCode e.val)
  match r.2 with
  | some _ => r.1.urgent (17 + i.val)
  | none => r.1

/-- R245, R307: an edge to its active level on TRIG_A0, TRIG_B0, TRIG_A1 or TRIG_B1 (0–3). -/
def trigEdge (ch : Fin 4) (c : Nat) (e : Fin 2500000) (s : State) : State :=
  if s.fnState .tb = .off then s
  else
    let t := s.edgeStamp (16 + ch.val) c (fineCode e.val)
    let s := if s.bit aTbCfg 29 then s.log t 5 ch.val 1 [(20, 1, ch.val)] else s
    let s := if ch.val % 2 = 0 then (s.immediate (ch.val / 2) t).urgent (19 + ch.val / 2) else s
    s.dualEdge (ch.val / 2) (decide (ch.val % 2 = 1)) t

/-! ### Steps (R294, R295) -/

/-- A dual-channel input that still waits for its second channel as TRG or the epoch ends waits no more. [DEDUCED, log entry 50] -/
def State.dropPending (s : State) : State := s.onTrig (fun t => { t with dual := t.dual.map (fun d => { d with pend := none }) })

/-- The trigger engine's stamps after a step by d (R295): it compares within one epoch only, so that frames, scheduled instants, holds
and pulses that go on are counted in the new epoch, and what the old one left undecided is gone. -/
def Trig.stepped (d : Int) (renew : Bool) (t : Trig) : Trig :=
  let move (x : Stamp) : Stamp := stampInt ((x : Int) + d)
  { t with hp := none, items := [], held := t.held.map (fun h => (h.1, move h.2)),
           frames := t.frames.map (fun fr => { fr with sched := move fr.sched, t := move fr.t, stop := fr.stop.map move }),
           strobes := t.strobes.map move,
           pins := t.pins.map (fun p => { p with until_ := move p.until_ }),
           redNext := [], stream := if renew then [] else t.stream,
           seq := { t.seq with nextT := if t.seq.run then move t.seq.nextT else t.seq.nextT } }

/-- Times kept by the raw counter that a step by dr moved go on to be counted from where they were, and so do the latest samples of PLCH,
whose stamps moved by d: what the spec bounds by elapsed time a step neither lengthens nor shortens (R28). [DEDUCED, log entry 50] -/
def State.shiftRaw (s : State) (d dr : Int) : State :=
  let move (z : Int) (x : Stamp) : Stamp := stampInt ((x : Int) + z)
  let s : State := s.putPair { s.pair with
    tookAt := s.pair.tookAt.map (move dr), lost := s.pair.lost.map (move dr), sent := s.pair.sent.map (move dr),
    timeAt := s.pair.timeAt.map (move dr), xchg := s.pair.xchg.map (fun x => { x with t1 := move d x.t1, t4 := move d x.t4 }),
    xprev := s.pair.xprev.map (fun x => { x with t1 := move d x.t1, t4 := move d x.t4 }) }
  let s : State := s.putHost { s.host with pvTimes := s.host.pvTimes.map (move dr) }
  let s : State := s.putPtp { s.ptp with ports := s.ptp.ports.map (fun p =>
    { p with silent := p.silent.map (move dr), qualify := move dr p.qualify, send := p.send.map (fun x => { x with wait := x.wait.map (fun w => (w.1, w.2.1, move dr w.2.2)) }) }) }
  let s := s.onField (fun f => { f with
    amps := f.amps.map (fun a => { a with openAt := a.openAt.map (move dr) }),
    adcs := f.adcs.map (fun a => { a with lastPl := a.lastPl.map (fun x => (move d x.1, x.2)) }) })
  s.putQueues (s.queues.map (fun q => { q with cutAt := q.cutAt.map (fun c => (move dr c.1, c.2)) }))

/-- An open frame that begins after a step belongs to the new epoch, with its stamp; one that had begun keeps its own (R294).
[DEDUCED, log entry 50] -/
def State.moveFrames (s : State) (was : Stamp) (d : Int) : State :=
  s.onH (fun h => { h with opens := h.opens.map (fun fr =>
    if was ≤ fr.stamp then { fr with stamp := stampInt ((fr.stamp : Int) + d), epoch := s.tb.epochs } else fr) })

/-- R294, R295: at a window end with no segment active, a pending step is applied: STARTED measurements end STEPPED, the
trigger engine compares stamps within one epoch only, and a time trigger that the step passes fires at the new epoch's first
stamp. [DEDUCED, log entry 50] -/
def stepApply (s : State) : State :=
  match s.tb.pend with
  | none => s
  | some r =>
    if s.segActive || s.fnState .tb = .off then s
    else
      let d := s.stepAmount r
      let raw := s.rawNow
      let was := s.nowFine
      let s := s.tdcStep s.nowFine
      let s := if s.trgLive then s.dropPending.evaluate s.nowFine else s
      let s := s.moveTime r
      let s := if s.role = roHOLDER then s.mirrorSend mSTATE (pack 16 [(0, 1, 6), (8, 8, ux 64 d)]) else s
      let dr : Int := (s.rawNow : Int) - raw
      let s := (((s.tdcEpoch d dr).shiftRaw d dr).moveFrames was d).onTrig (Trig.stepped d s.hearth.measDue.isEmpty)
      match s.trig.timeTrig with
      | some ns =>
        if decide (0 < d) && decide (ns * NS ≤ s.nowFine) then
          (s.onTrig (fun t => { t with timeTrig := none, timeStamp := some s.now })).srcEdge s.now 52
        else s
      | none => s

end Sys2Proof.Machine
end

