-- ==== Sys2Proof/Machine/Stream.lean ====
section
/-!
DEFINITION. Reduction (R255) and waveform measurement (R256, R257).
-/

namespace Sys2Proof.Machine

/-! ### Reduction (R255) -/

/-- The samples of a stream, in the order of R26: by stamp, then by index within the class (R298). -/
def State.samplesOf (s : State) (kind idx : Nat) : List StreamSample :=
  sortBy (fun a b => decide (a.stamp < b.stamp) || (a.stamp = b.stamp && decide (a.src < b.src))) (s.trig.stream.filter (fun x => x.kind = kind && x.idx = idx))

/-- The interval that reduction channel c sends next. -/
def State.redIndex (s : State) (c : Nat) : Nat :=
  match s.trig.redNext.find? (fun r => r.1 = c) with
  | some r => r.2
  | none => (s.nowFine - s.horizon) / max (s.redInt c) 1 - 1

/-- Every reduction channel begins at the interval of the present time. -/
def State.redBegin (s : State) : State :=
  let cs := (upTo 32).filter (fun c => s.redKind c ≠ 0)
  s.onTrig (fun t => { t with redNext := cs.map (fun c => (c, s.nowFine / max (s.redInt c) 1)) })

/-- The 32 bytes of a reduction record. -/
def reductionRecord (c : Nat) (start : Stamp) (xs : List Int) : List Byte :=
  match xs with
  | [] => pack 32 [(0, 1, c), (1, 1, 1), (4, 10, start)]
  | x :: ys =>
    pack 32 [(0, 1, c), (2, 2, min xs.length 65535), (4, 10, start), (16, 4, ux 32 (ys.foldl min x)), (20, 4, ux 32 (ys.foldl max x))]

/-- The earliest stamp whose samples are still needed: by reduction, by the armed or open record, by measurements due. [DEDUCED, log entry 60] -/
def State.streamFrom (s : State) : Stamp :=
  let red := ((upTo 32).filter (fun c => s.redKind c ≠ 0)).map (fun c => s.redIndex c * s.redInt c)
  let ring := (s.hearth.ring.take 1 ++ s.hearth.unwritten).map (·.stamp)
  let due := s.hearth.measDue.filterMap (fun g => (s.segAt g).record.map (·.from_))
  match red ++ ring ++ due with
  | [] => s.nowFine
  | x :: xs => xs.foldl min x

/-- Samples that nothing needs any more are dropped. -/
def State.streamPrune (s : State) : State :=
  let from_ := s.streamFrom
  s.onTrig (fun t => { t with stream := t.stream.filter (fun x => decide (from_ ≤ x.stamp)) })

/-- R255: the timebase passes the end of channel ch's interval by H: its record goes to the preview path, or is dropped. -/
def reductionIntervalEnd (ch : Fin 32) (s : State) : State :=
  let c := ch.val
  if !s.runs .trg || s.redKind c = 0 then s
  else
    let i := s.redInt c
    let j := s.redIndex c
    let xs := (s.samplesOf (s.redKind c) (s.redIdx c)).filter (fun x => !x.gap && decide (j * i ≤ x.stamp) && decide (x.stamp < (j + 1) * i))
    let r := reductionRecord c (j * i % stampMod) (xs.map (·.value))
    let s := s.onTrig (fun t => { t with redNext := (c, j + 1) :: t.redNext.filter (fun r => r.1 ≠ c) })
    let r := s.pvPost (pack 16 [(0, 1, 2), (2, 2, 32)]) r
    let s := r.1
    let ok := r.2
    (if ok then s else s.count (TRG + 0x12C)).streamPrune

/-! ### Measurement (R256, R257) -/

/-- The lowest index of the greatest value. -/
def peakIndex : List Int → Nat × Int
  | [] => (0, 0)
  | x :: xs =>
    let (i, y) := peakIndex xs
    if xs.isEmpty || y ≤ x then (0, x) else (i + 1, y)

/-- The rising crossings of a window: the band so far, the previous sample, what is left; the count of free values used.
[DESIGN CHOICE, log entry 58] -/
def crossings (l h : Int) : Bool → Option (Int × Stamp) → Nat → List (Int × Stamp) → List Stamp × Nat
  | _, _, n, [] => ([], n)
  | low, prev, n, (x, t) :: rest =>
    let low := low || decide (x ≤ l - h)
    if l + h ≤ x then
      if low then
        let (c, n) := match prev with
          | some (y, u) =>
            if x = y then (max u (min t (Config.crossingOpen n)), n + 1)
            else ((clampI u t ((u : Int) + (l - y) * ((t : Int) - u) / (x - y))).toNat, n)
          | none => (Config.crossingOpen n % stampMod, n + 1)
        let (cs, n) := crossings l h false (some (x, t)) n rest
        (c :: cs, n)
      else crossings l h false (some (x, t)) n rest
    else crossings l h low (some (x, t)) n rest

/-- TPEAK, and whether the peak stands at an edge or without curvature. [DEDUCED, log entry 59] -/
def peakTime (xs : List (Int × Stamp)) (m : Nat) : Stamp × Bool :=
  let at_ (i : Nat) : Int × Stamp := (xs[i]?).getD (0, 0)
  let (b, tb) := at_ m
  if 0 < m && decide (m + 1 < xs.length) then
    let (a, ta) := at_ (m - 1)
    let (d, td) := at_ (m + 1)
    let c := a - 2 * b + d
    if c ≠ 0 then (stampInt ((tb : Int) + ((a - d) * ((td : Int) - ta)).fdiv (4 * c)), false) else (tb, true)
  else (tb, true)

/-- The 64-byte record of measurement channel ch over the samples of a window, and the count of free values after it.
[DESIGN CHOICE, log entry 58; DEDUCED, log entry 59; DEDUCED, log entry 60] -/
def measRecord (kind idx : Nat) (l h : Int) (gap : Bool) (xs : List (Int × Stamp)) (n : Nat) : List Byte × Nat :=
  let g := 8 * b2n gap
  if xs.isEmpty then (pack 64 [(0, 1, kind), (1, 1, idx), (2, 1, 3 + g)], n)
  else
    let vs := xs.map (·.1)
    let (m, peak) := peakIndex vs
    let trough := vs.foldl min peak
    let (tpeak, edge) := peakTime xs m
    let (cs, n) := crossings l h false none n xs
    let period := if cs.length < 2 then 0 else (cs.getLastD 0 - cs.headD 0) / (cs.length - 1)
    let f := 10 ^ 12 * NS / max period 1
    let few : Bool := decide (cs.length < 2)
    let known : Bool := few || (period ≠ 0 && decide (f < 2 ^ 32))
    let freq := if few then 0 else if known then f else (Config.freqOpen n).toNat
    let n := if known then n else n + 1
    (pack 64 [(0, 1, kind), (1, 1, idx), (2, 1, 2 * b2n few + 4 * b2n edge + g), (4, 4, xs.length), (8, 4, ux 32 peak),
      (12, 4, ux 32 trough), (16, 4, ux 32 ((peak - trough) / 2)), (20, 4, ux 32 (vs.foldl (· + ·) 0 / (xs.length : Int))),
      (24, 10, tpeak), (34, 2, min cs.length 65535), (36, 8, period), (44, 4, freq), (48, 10, cs.headD 0)], n)

/-- Measurement channel ch of segment seg's record is measured and posted. -/
def State.measureOne (s : State) (seg : Nat) (r : Record) (ch : Nat) : State :=
  let kind := s.measKind ch
  if kind = 0 then s
  else
    let xs := (s.samplesOf kind (s.measIdx ch)).filter (fun x => decide (r.from_ ≤ x.stamp) && decide (x.stamp ≤ r.upto))
    let data := (xs.filter (fun x => !x.gap)).map (fun x => (x.value, x.stamp))
    let (b, n) := measRecord kind (s.measIdx ch) (s.measLevel ch) (s.measHyst ch) (xs.any (·.gap)) data s.freeUse
    let s : State := s.putFreeUse n
    let s := s.onTrig (fun t => { t with meas := t.meas ++ [(seg * 8 + ch, b)] })
    s.eqPost 2 seg r.recno b

/-- R256: the measurements of the record that closed first are ready; they are kept and posted. -/
def measurementReady (s : State) : State :=
  match s.hearth.measDue with
  | [] => s
  | seg :: rest =>
    let s := s.onH (fun h => { h with measDue := rest })
    let s := s.onTrig (fun t => { t with meas := t.meas.filter (fun c => c.1 / 8 ≠ seg) })
    match (s.segAt seg).record with
    | some r => (s.each (upTo 8) (fun s ch => s.measureOne seg r ch)).streamPrune
    | none => s

end Sys2Proof.Machine
end

