-- ==== Sys2Proof/Machine/TrigCmds.lean ====
section
/-!
DEFINITION. The trigger engine's commands (R249–R254), MEASURE (R417), and the TRG function (R263).
-/

namespace Sys2Proof.Machine

/-! ### The pace check (R199, R200, R448) -/

/-- The sectors whose engine domain is in RETENTION: a pace check wakes them (R448). -/
def State.asleep (s : State) : List Nat := (upTo s.part.sectors).filter (fun k => s.domState (12 + k) = 1)

/-- The measurements of the woken islands, which Temper makes while it runs. -/
def State.wokenMeas (s : State) (meas : List (Nat × Nat)) : List (Nat × Nat) :=
  if s.temperBasic then meas.filter (fun m => s.asleep.contains m.1) else []

/-- Every woken island has been measured: a pace check waits until then (R448). A Temper that is OFF or in FAULT measures nothing.
[DEDUCED, log entry 108] -/
def State.measured (s : State) (meas : List (Nat × Nat)) : Bool := !s.temperBasic || s.asleep.all (fun k => meas.any (fun m => m.1 = k))

/-- Every engine domain of a present sector in RETENTION is woken and measured once; the domain then follows its policy, which may
take it back into RETENTION after RET_DELAY (R448, R452). [DEDUCED, log entry 108] -/
def State.paceWake (s : State) (meas : List (Nat × Nat)) : State :=
  let ms := s.wokenMeas meas
  let s := s.each s.asleep (fun s k => s.domUp (12 + k))
  s.each ms (fun s m => s.addPace m.1 m.2)

/-- P_check with the woken islands, which are ACTIVE: what was measured in them in the last 100 ms counts as well as the new
measurements (R447, R448). [DEDUCED, log entry 41] -/
def State.pCheckWith (s : State) (img : List Byte) (meas : List (Nat × Nat)) : Nat := pCheckAt img (s.paceWake meas).pLive

/-- The pace check of the loaded image on this member (R199, R200): the failing engine, its check, and P_check. -/
def State.paceRefusal (s : State) (meas : List (Nat × Nat)) : Option (Nat × Nat × Nat) :=
  let img := s.kept.getD []
  let p := s.pCheckWith img meas
  (paceFail img s.enabledEngines p).map (fun r => (r.1, r.2, p))

/-! ### ARM, DISARM, RELEASE, re-arm -/

/-- The checks of R249: TRG runs, the loaded image has a schedule, and the segment a set. [DEDUCED, log entry 53] -/
def State.armCheckTrg (s : State) (seg : Nat) : Bool :=
  let img := s.kept.getD []
  s.runs .trg && !(sectionOf img 0x20).isEmpty && !(sectionOf img 0x21).isEmpty && !s.trig.sched.isEmpty && (s.segSet seg).isSome

/-- The checks of R224, in their order; a segment while another is ARMED or in POST is not armed (R223). [DEDUCED, log entry 52] -/
def State.armCheckHrt (s : State) (seg : Nat) : Nat :=
  let g := s.segAt seg
  if !s.runs .hrt then stBADARG
  else if g.length ≠ 0 && g.phase = .closed then stNOSPACE
  else if g.length = 0 || g.phase ≠ .empty || s.segActive then stBADARG
  else if s.usedTiles.any (fun f => g.quotaOf f = 0) then stBADARG
  else if g.cap < g.p + 1 then stBADARG
  else if g.mslots < g.p + g.q + 1 then stBADARG
  else stDONE

/-- The first frame that closes from now on: the oldest open one that still takes data, else the next to be issued. No frame of an earlier
epoch enters a ring, so that no record holds frames of two (R294). [DEDUCED, log entry 50] -/
def State.nextToClose (s : State) : Nat :=
  match s.hearth.opens.find? (fun fr => !fr.lost && fr.epoch = s.tb.epochs) with
  | some fr => fr.n
  | none => s.trig.seq.nextN

/-- Segment seg is armed with first frame f0, which TRG_FIRST shows; a charge-input test ends, as none runs while a segment is ARMED
(R249, R250, R354). -/
def State.armRing (s : State) (seg f0 : Nat) : State :=
  let s := (s.chargeTestEnd.armSegment seg f0).setReg (TRG + 8) f0
  s.onTrig (fun t => { t with f0T := s.frameStamp f0 })

/-- Segment seg is armed with first frame f0 (R249), or at a re-arm (R252); the trigger engine meets it from now on. [DEDUCED, log entry 52] -/
def State.armNow (s : State) (seg f0 : Nat) (again : Bool) : State :=
  let s := (s.armRing seg f0).onTrig (fun t => { t with rearm := none })
  let s := s.trigItem s.now (.phase (.armed seg))
  let s := s.tellRecord rcARM seg f0 (b2n again) 0
  let both : Bool := s.role = roFOLLOWER || (s.role = roHOLDER && (match s.pair.partner with | some h => decide (h.role = roFOLLOWER) | none => false))
  let s := if both then (s.setBit aPairStat 24 true : State) else s
  let s : State := if both then s.putPair { s.pair with joinedAt := none } else s
  s.levelDemand

/-- An ARM that passed its checks (R249, R339, R354): tests end, charge amplifiers reset, the sequencer starts. -/
def State.armDone (s : State) (seg : Nat) : State :=
  let s := s.armResets
  let s := s.seqStart
  let s := s.onTrig (fun t => { t with prev := [] })
  s.armNow seg s.nextToClose false

/-- The results of a pace refusal (R417). -/
def paceResult (engine check pCheck member : Nat) : List Byte :=
  leBytes 4 engine ++ leBytes 4 check ++ leBytes 4 pCheck ++ leBytes 4 member

/-- A pace refusal at ARM is logged (R200, R484). -/
def State.logPace (s : State) (engine check pCheck member : Nat) : State :=
  s.logDev .anv 2 stPACE [(21, 1, engine), (22, 1, check), (23, 1, member), (24, 2, pCheck)]

/-- R249: ARM. `meas` are the measurements of the islands woken for the pace check (R448), `partner` is what a follower
answered (R385). The domains of the hold wake before the checks (R452), and the command waits until every woken island has been measured (R448).
No pace check is made while a segment is ARMED or in POST (R200), which then refuses the ARM. On a follower the command is not executed (R389). -/
def arm (src : Src) (meas : List (Nat × Nat)) (partner : ArmCheck) (s : State) : State :=
  s.serve src kARM (fun c s =>
    let seg := c.arg 0 % 64
    if s.follower then s.reply c stNOTHOLDER []
    else if !s.armCheckTrg seg then s.wakeHeld.reply c stBADARG []
    else if s.segActive then s.wakeHeld.reply c (s.armCheckHrt seg) []
    else if !s.measured meas then s
    else
      let r := s.paceRefusal meas
      let s := (s.paceWake meas).wakeHeld
      match r with
      | some (e, k, p) => (s.logPace e k p 0).reply c stPACE (paceResult e k p 0)
      | none =>
        let st := s.armCheckHrt seg
        if st ≠ stDONE then s.reply c st []
        else if s.role = roHOLDER && partner.status = stPACE then
          (s.logPace partner.engine partner.check partner.pCheck 1).reply c stPACE
            (paceResult partner.engine partner.check partner.pCheck 1)
        else if s.role = roHOLDER && partner.status ≠ stDONE then s.reply c partner.status []
        else (s.armDone seg).reply c stDONE [])

/-- The effect of DISARM (R249). [DEDUCED, log entry 51] -/
def State.disarmAll (s : State) : State :=
  let s := s.seqStop
  let s := s.onTrig (fun t => { t with rearm := none })
  let s := s.trigItem s.now (.phase .stopped)
  s.endSegment

/-- R249: DISARM. -/
def disarm (src : Src) (s : State) : State :=
  s.serve src kDISARM (fun c s =>
    if s.follower then s.reply c stNOTHOLDER [] else s.disarmAll.reply c stDONE [])

/-- R252: the pending re-arm is made; a failed check is logged and no segment is armed. The follower's re-arm is the
holder's RECORD (R383). -/
def rearm (s : State) : State :=
  match s.trig.rearm with
  | none => s
  | some (closed, next) =>
    if s.follower then s
    else
      let st := if s.armCheckTrg next then s.armCheckHrt next else stBADARG
      if st = stDONE then s.armNow next s.nextToClose true
      else
        let s := s.onTrig (fun t => { t with rearm := none })
        let s := s.trigItem s.now (.phase .unarmed)
        s.logDev .trg 10 st [(21, 1, next), (22, 1, closed)]

/-- R227: HRT_SEGCMD.RELEASE of the selected segment; a follower forwards it (R389). -/
def segcmdRelease (s : State) : State :=
  let seg := s.fld (HRT + 0x10) 5 0
  if s.follower then s.mirrorSend mFORWARD (pack 16 [(0, 1, kRELEASE), (4, 4, seg)])
  else s.releaseSegment seg

/-- R417: RELEASE; a follower forwards it and answers with the holder's status hs (R389). [DEDUCED, log entry 78] -/
def release (src : Src) (hs : Nat) (s : State) : State :=
  s.serve src kRELEASE (fun c s =>
    let seg := c.arg 0 % 64
    if s.follower then (s.mirrorSend mFORWARD (pack 16 [(0, 1, kRELEASE), (4, 4, seg)])).reply c hs []
    else if (s.segAt seg).phase = .closed then (s.releaseSegment seg).reply c stDONE []
    else s.reply c stBADARG [])

/-! ### Host and time triggers (R251, R254) -/

/-- R254: TRG_HOSTTRIG.GO raises source 50. -/
def hosttrigGo (s : State) : State := if s.runs .trg then s.srcEvent s.now 50 (.edge 50 false) else s

/-- R251, R254: TRIGGER raises source 50 at its acceptance; on a follower it reaches the holder as source 51 (R389).
[DEDUCED, log entry 54; DEDUCED, log entry 78] -/
def trigger (src : Src) (hs : Nat) (s : State) : State :=
  s.serve src kTRIGGER (fun c s =>
    let force := bitOf (c.arg 0) 0
    if s.follower then
      (s.mirrorSend mFORWARD (pack 32 [(0, 1, kTRIGGER), (1, 1, b2n force), (4, 10, c.stamp)])).reply c hs []
    else if s.runs .trg then (s.srcEventAt c.stamp c.mark 50 (.edge 50 force)).reply c stDONE []
    else s.reply c stBADARG [])

/-- The time trigger is set to a rig time in ns, if it is later than now plus H (R254). A holder tells its follower (R391).
[DESIGN CHOICE, log entry 38] -/
def State.setTimeTrigger (s : State) (ns : Nat) : State × Nat :=
  if s.runs .trg && decide (s.nowFine + s.horizon < ns * NS) then
    let s := s.onTrig (fun t => { t with timeTrig := some ns, timeStamp := some (ns * NS) })
    (if s.role = roHOLDER then s.mirrorSend mSTATE (pack 16 [(0, 1, 5), (8, 8, ns)]) else s, stDONE)
  else (s, stBADARG)

/-- A TIME_TRIGGER command of this head's own host or partner: its acceptance is logged, as that of a rig trigger is (R332), with no SEQ.
[DEDUCED, log entry 72] -/
def State.ownTimeTrigger (s : State) (ns : Nat) : State × Nat :=
  let r := s.setTimeTrigger ns
  (if r.2 = stDONE then r.1.log (s.stampOf s.rawNow res312 0) 9 2 3 [(20, 8, ns)] else r.1, r.2)

/-- R254: TIME_TRIGGER. [DEDUCED, log entry 78] -/
def timeTrigger (src : Src) (hs : Nat) (s : State) : State :=
  s.serve src kTIMETRIGGER (fun c s =>
    if s.follower then
      (s.mirrorSend mFORWARD (pack 32 [(0, 1, kTIMETRIGGER), (4, 8, c.arg64 0)])).reply c hs []
    else
      let r := s.ownTimeTrigger (c.arg64 0)
      let s := r.1
      let st := r.2
      s.reply c st [])

/-- R254: the timebase reaches the pending rig time, and source 52 fires at its stamp. -/
def timeTriggerFire (s : State) : State :=
  match s.trig.timeTrig with
  | some ns => (s.onTrig (fun t => { t with timeTrig := none })).srcEdge (ns * NS % stampMod) 52
  | none => s

/-! ### MEASURE (R417) -/

/-- R417: MEASURE returns a channel's record of a closed segment; TIMEOUT while its results are not ready. -/
def measure (src : Src) (s : State) : State :=
  s.serve src kMEASURE (fun c s =>
    let seg := c.arg 0 % 64
    let ch := bits (c.arg 0) 10 8
    if (s.segAt seg).phase ≠ .closed || s.measKind ch = 0 then s.reply c stBADARG []
    else match s.trig.meas.find? (fun m => m.1 = seg * 8 + ch) with
      | some m => if s.hearth.measDue.contains seg then s.reply c stTIMEOUT [] else s.reply c stDONE m.2
      | none => s.reply c stTIMEOUT [])

/-! ### The TRG function (R263) -/

/-- The sections of the kept image are taken at START (R263, R485); a comparator that is true is so since its change, which may have come
before (R239). [DEDUCED, log entry 53; DEDUCED, log entry 61] -/
def State.trgStart (s : State) : State :=
  let img := s.kept.getD []
  let s := s.onTrig (fun t =>
    { t with cfg := sectionOf img 0x21, sched := sectionOf img 0x20, hp := none, items := [], held := [],
             levels := ((upTo 16).filter (bitOf s.field.comps)).map (18 + ·), strobes := [],
             evalSeg := none, out := false, phase := .unarmed, dual := Vector.replicate 2 {}, prev := [], timeTrig := none,
             timeStamp := none, pins := Vector.replicate 9 {}, rearm := none,
             stream := if s.hearth.act.isNone && s.hearth.measDue.isEmpty then [] else t.stream })
  s.redBegin

/-- The start check of R263. -/
def State.trgFault (s : State) : Nat := s.imageFault

/-- STOP of TRG (R263): the sequencer stops, and stamps up to the stop are decided. -/
def State.trgStop (s : State) : State :=
  let s := s.seqStop
  s.trigItem s.cmdStamp (.phase .stopped)

/-- STOPPING ends (R263): what is left up to the stop is decided, the segment ends, outputs go to idle. -/
def State.trgStopped (s : State) : State :=
  let s := s.dropPending.evaluate s.nowFine
  let s := s.onTrig (fun t => { t with rearm := none, timeTrig := none, phase := .unarmed, items := [] })
  s.endSegment.outputsIdle

/-- What the trigger engine still had to meet, as a QUENCH lets it (R263): every undecided trigger is STOPPED, also one after an ARM,
which still names the set that is evaluated (R242). -/
def quenchedItems (items : List (Stamp × TrigItem)) : List (Stamp × TrigItem) :=
  items.flatMap (fun i => match i.2 with
    | .phase (.armed _) => [i, (i.1, .phase .stopped)]
    | .phase _ => [(i.1, .phase .stopped)]
    | _ => [i])

/-- QUENCH of TRG (R263): undecided triggers are logged as STOPPED; alone it ends the segment as a DISARM does. -/
def State.trgQuench (s : State) (global : Bool) : State :=
  let s := s.dropPending.seqStop
  let s := s.onTrig (fun t => { t with phase := .stopped, rearm := none, timeTrig := none, items := quenchedItems t.items })
  let last := (s.trig.items.map (fun i => i.1)).foldl max s.nowFine
  let s := s.evalAll last (2 * s.trig.items.length + s.trig.held.length + 1)
  let s := s.onTrig (fun t => { t with phase := .unarmed, items := [] })
  let s := if global then s else s.endSegment
  s.outputsIdle

/-- TRG_TTIME_LO and HI as read (R264). -/
def State.tTime (s : State) (hi : Bool) : Nat :=
  let ns := s.trig.timeTrig.getD 0
  if hi then ns / 2 ^ 32 % 2 ^ 32 else ns % 2 ^ 32

end Sys2Proof.Machine
end

