-- ==== Sys2Proof/Machine/Checks.lean ====
section
/-!
DEFINITION. The loader's checks of a run image (R148): header and sections, references to absent units, TRIGGER_CONFIG (R261,
R262), FIELD_PLAN (R365, R366), PACE_CERT (R196), FRAME_SCHEDULE (R144, R73), the static check of the code (R125).
-/

namespace Sys2Proof.Machine

/-! ### Header and section table (R145, R146) -/

/-- A section lies within the image, at a multiple of 64. -/
def Section.inside (c : Section) (len : Nat) : Bool := decide (c.offset % 64 = 0) && decide (c.offset + c.length ≤ len)

/-- Check 2 of R148; a section outside the image has no CRC to check and is left to check 5. [DEDUCED, log entry 34] -/
def headerOk2 (img : List Byte) (addr len : Nat) : Bool :=
  decide (addr + len ≤ 0x04000000) && decide (64 ≤ len)
    && slice img 0 4 = [0x48, 0x4E, 0x51, 0x52] && decide (fieldLE img 8 4 = len) && decide (64 + 32 * imgNsect img ≤ len)
    && crc32c (slice img 0 12 ++ slice img 64 (32 * imgNsect img)) = fieldLE img 12 4
    && (imgSections img).all (fun c => !c.inside len || crc32c (sectionBytes img c) = c.crc)

/-- The types of R147. -/
def knownTypes : List Nat := [0x01, 0x02, 0x03, 0x08, 0x10, 0x11, 0x20, 0x21, 0x28, 0x30]

/-- The functions that a section's type configures (R147). -/
def typeFns (t : Nat) : List Fn :=
  if t = 0x20 || t = 0x21 then [.trg] else if t = 0x28 then [.aux, .aou] else []

/-- Check 1: ANV and every function a section configures is STOPPED or OFF; an absent one is left to check 4. -/
def State.loadIdle (s : State) (img : List Byte) : Bool :=
  (.anv :: (imgSections img).flatMap (fun c => typeFns c.type)).all (fun f => s.idle f || s.fnState f = .absent)

/-- The engines that sections of the image target (R149). -/
def imgTargets (img : List Byte) : List Nat :=
  (upTo 96).filter (fun e => (imgSections img).any (fun c => (c.type = 1 || c.type = 2 || c.type = 3) && bitOf c.target e))

/-- The lanes that the image's TILE_MAP marks used. -/
def imgUsed (img : List Byte) : List Nat :=
  (upTo 96).filter (fun l => bitOf (fieldLE (sectionOf img 0x08) (4 * l) 4) 24)

/-! ### TRIGGER_CONFIG (R261, R262) -/

def tcSized (b : List Byte) : Bool := decide (b.length = 1288) && decide (fieldLE b 0 2 = 1)

/-- The enabled combiner literals. -/
def tcLiterals (b : List Byte) : List Nat := ((slice b 0x1F8 256).map (·.toNat)).filter (fun v => bitOf v 7)

/-- The sources and channel kinds that the section refers to. -/
def tcRefs (b : List Byte) : List Nat :=
  (tcLiterals b).map (· % 64)
    ++ ((upTo 9).filter (fun o => byteAt b (0x2F8 + 16 * o) = 3)).map (fun o => byteAt b (0x2F8 + 16 * o + 1))

def tcField (b : List Byte) : Bool :=
  (upTo 32).any (fun c => byteAt b (0x388 + 8 * c) = 2) || (upTo 8).any (fun c => byteAt b (0x488 + 16 * c) = 2)

/-- Check 4 of the section. -/
def State.tcAbsent (s : State) (b : List Byte) : Bool :=
  tcSized b && ((tcRefs b).any (fun n => decide (n ≤ 60) && !s.srcPresent n) || (tcField b && !s.part.field))

/-- A source that is not reserved and is enabled by SRCEN. -/
def tcOn (b : List Byte) (n : Nat) : Bool := decide (n ≤ 60) && bitOf (fieldLE b 0x10 8) n

def tcDualOk (b : List Byte) (i : Nat) : Bool :=
  let o := 0x158 + 16 * i
  decide (byteAt b o < 8) && zeroAt b (o + 1) 3 && zeroAt b (o + 8) 8
    && (!bitOf (byteAt b o) 0 || within 1000 100000000 (fieldLE b (o + 4) 4))

def tcOutOk (b : List Byte) (i : Nat) : Bool :=
  let o := 0x2F8 + 16 * i
  let m := byteAt b o
  let src := byteAt b (o + 1)
  let delay := sx 32 (fieldLE b (o + 4) 4)
  decide (m ≤ (if i = 8 then 1 else 6)) && decide (byteAt b (o + 2) < 8) && zeroAt b (o + 3) 1
    && decide (delay.natAbs ≤ 32700 * NS)
    && (m ≠ 3 || ((src = 0 || src = 1 || within 34 49 src) && tcOn b src))
    && (m = 0 || m = 4 || m = 5 || decide (20 ≤ fieldLE b (o + 8) 4))
    && (!bitOf (byteAt b (o + 2)) 1 || within 1 60000 (fieldLE b (o + 12) 4))

def tcChanOk (kind idx : Nat) : Bool :=
  decide (kind ≤ 2) && (kind ≠ 1 || decide (idx ≤ 15)) && (kind ≠ 2 || decide (idx ≤ 20))

def tcRedOk (b : List Byte) (i : Nat) : Bool :=
  let o := 0x388 + 8 * i
  tcChanOk (byteAt b o) (byteAt b (o + 1)) && zeroAt b (o + 2) 2 && (byteAt b o = 0 || within 10 1000000 (fieldLE b (o + 4) 4))

def tcMeasOk (b : List Byte) (i : Nat) : Bool :=
  let o := 0x488 + 16 * i
  byteAt b o = 0 || (tcChanOk (byteAt b o) (byteAt b (o + 1)) && zeroAt b (o + 8) 8)

/-- Check 5 of the section (R262). -/
def tcOk (b : List Byte) : Bool :=
  let ns := byteAt b 2
  tcSized b && within 1 8 ns && decide (byteAt b 3 < 32)
    && (!bitOf (byteAt b 3) 4 || tcOn b (34 + byteAt b 3 % 16))
    && within 4 10000 (fieldLE b 4 4) && zeroAt b 0xC 4
    && (slice b 0x18 64).all (fun v => v = 0xFF || decide (v.toNat < ns))
    && (upTo 2).all (tcDualOk b)
    && (upTo 16).all (fun n => decide (byteAt b (0x17C + 8 * n) ≤ 4) && zeroAt b (0x17D + 8 * n) 3)
    && (tcLiterals b).all (fun v => tcOn b (v % 64))
    && (upTo 9).all (tcOutOk b) && (upTo 32).all (tcRedOk b) && (upTo 8).all (tcMeasOk b)

/-! ### FIELD_PLAN (R365, R366) -/

def fpSized (b : List Byte) : Bool := decide (b.length = 448) && decide (fieldLE b 0 2 = 1)

/-- A channel exists and its inputs are enabled; an LVDT channel needs both inputs of its pair. -/
def fpChanOk (b : List Byte) (ch : Nat) : Bool :=
  let en (n : Nat) : Bool := bitOf (byteAt b (0x20 + 4 * n)) 7
  if ch < 8 then en ch
  else if ch < 12 then en (ch / 2 * 2) && en (ch / 2 * 2 + 1)
  else if ch < 16 then en ch
  else decide (ch ≤ 20)

def fpInputOk (b : List Byte) (n : Nat) : Bool :=
  let v := byteAt b (0x20 + 4 * n)
  (if n < 8 then !bitOf v 6 && !bitOf v 2 else v % 128 = 0) && zeroAt b (0x21 + 4 * n) 1

def fpAdcOk (b : List Byte) (x : Nat) : Bool :=
  let o := 0x60 + 48 * x
  let rlen := byteAt b (o + 1)
  let ilen := byteAt b (o + 3)
  decide (byteAt b o ≤ 4) && decide (rlen ≤ 16) && decide (byteAt b (o + 2) ≤ 21) && decide (ilen ≤ 4)
    && within 10 (2 ^ 24) (fieldLE b (o + 4) 4)
    && (upTo rlen).all (fun i => fpChanOk b (byteAt b (o + 8 + 2 * i)))
    && (upTo ilen).all (fun i => fpChanOk b (byteAt b (o + 40 + 2 * i)))

def fpCmpOk (b : List Byte) (n : Nat) : Bool :=
  let o := 0xC0 + 8 * n
  let v := byteAt b o
  decide (v < 4) && zeroAt b (o + 6) 2 && (!bitOf v 0 || fpChanOk b (byteAt b (o + 1)))

def fpOutOk (b : List Byte) (k : Nat) : Bool :=
  let o := 0x140 + 16 * k
  decide (byteAt b o ≤ 1) && decide (byteAt b (o + 1) ≤ 7) && zeroAt b (o + 13) 1
    && (decide (k < 6) || (zeroAt b (o + 12) 1 && zeroAt b (o + 14) 2))

/-- An initial AUX_EXC word without SETTLING and reserved bits. -/
def fpExcOk (v : Nat) : Bool := bits v 30 27 = 0

/-- Check 5 of the section, for a capacity of so many extents. -/
def fpOk (b : List Byte) (extents : Nat) : Bool :=
  let ring := fieldLE b 4 4
  let len := fieldLE b 8 4
  let pl := byteAt b 0xC
  fpSized b && within 10 10000 (fieldLE b 2 2)
    && (len = 0 || (decide (65536 ≤ ring) && decide (ring + len ≤ extents)))
    && (pl = 0xFF || fpChanOk b pl) && zeroAt b 0xD 1 && within 1 10000 (fieldLE b 0x10 4)
    && fpExcOk (fieldLE b 0x14 4) && fpExcOk (fieldLE b 0x18 4) && within 1 3600 (fieldLE b 0x1C 4)
    && (upTo 16).all (fpInputOk b) && (upTo 2).all (fpAdcOk b) && (upTo 16).all (fpCmpOk b) && (upTo 8).all (fpOutOk b)

/-! ### PACE_CERT (R196) -/

def certSized (b : List Byte) : Bool := decide (fieldLE b 0 2 = 1) && decide (b.length = 32 + 24 * fieldLE b 4 2)

/-- No engine is covered twice. -/
def certDisjoint : List CertEntry → Nat → Bool
  | [], _ => true
  | c :: cs, m => decide (c.mask &&& m = 0) && certDisjoint cs (m ||| c.mask)

/-- Engine e has code in the image. -/
def hasCode (img : List Byte) (e : Nat) : Bool := !(sectionsFor img 0x01 e).isEmpty

/-- The certificate passes the checks of R196, and NENT is 1 to 96. [DEDUCED, log entry 35] -/
def certOk (img b : List Byte) : Bool :=
  let es := certEntries b
  certSized b && decide (certBasis b ≤ 1) && within 1 96 (fieldLE b 4 2)
    && es.all (fun c => within 1 0xFFFFF c.steps && within 1 0xFFFFF c.eot)
    && certDisjoint es 0
    && es.all (fun c => (maskEngines c.mask).all (hasCode img))

/-! ### FRAME_SCHEDULE (R144, R73) -/

/-- The slowest block time of the command lanes in link mode, 2^-16 ns, each at the step it stands at, step 0 while it is not brought
up; none where no lane is in link mode. [DEDUCED, log entry 34] -/
def State.slowBlock (s : State) : Nat :=
  let on := (upTo (4 * s.part.sectors)).filter (fun f => s.txMode f = 1)
  if on.isEmpty then 0 else if on.any (fun f => s.txStep f = 0) then 52 * NS else 13 * NS

/-- The refusals of a FRAME_SCHEDULE section (R73, R144): its size, mode, start, strips, intervals, and the spacing of FRAME commands.
[DEDUCED, log entry 34] -/
def State.schedOk (s : State) (b : List Byte) : Bool :=
  decide (32 ≤ b.length) && decide (schMode b ≤ 1) && decide (schStart b ≤ 1) && schStrips b ≠ 0
    && (decide (b.length = 32 + 8 * schNtab b) || (schMode b = 0 && decide (b.length = 32))) && (schMode b = 0 || within 1 4096 (schNtab b))
    && (if schMode b = 0 then schPeriod b ≠ 0 else (upTo (schNtab b)).all (fun i => schInterval b i ≠ 0))
    && decide (8 * s.slowBlock ≤ schMin b)

/-! ### The static check of the code (R125) -/

/-- The byte ranges that ENGINE_CODE sections load for engine e. -/
def codeRanges (img : List Byte) (e : Nat) : List (Nat × Nat) :=
  (sectionsFor img 0x01 e).map (fun c => (c.dest, c.dest + c.length))

/-- The word at an address lies within the loaded bytes. -/
def inCode (rs : List (Nat × Nat)) (a : Nat) : Bool :=
  (upTo 4).all (fun i => rs.any (fun r => decide (r.1 ≤ a + i) && decide (a + i < r.2)))

/-- An address is the first instruction of a bundle: it is aligned, and no loaded word before it runs on into it. [DEDUCED, log entry 34] -/
def bundleStart (m : Memory) (rs : List (Nat × Nat)) (a : Nat) : Bool :=
  decide (a % 4 = 0) && (a = 0 || !(decide (4 ≤ a) && inCode rs (a - 4)) || bitOf (Memory.readLE m (a - 4) 4) 31)

/-- The static branch target of an instruction in the bundle at pc. -/
def KInstr.target (pc : Nat) : KInstr → Option Int
  | .br _ _ _ off => some ((pc : Int) + 4 * off)
  | .jmp t => some (t : Int)
  | .call t => some (t : Int)
  | .loop t _ => some (t : Int)
  | _ => none

/-- The bundle that holds an instruction never continues behind it. -/
def KInstr.ends : KInstr → Bool
  | .jmp _ | .ret | .halt => true
  | _ => false

/-- The bundle at an address: whether it keeps R125, and the addresses it may go on to. -/
def staticBundle (m : Memory) (rs : List (Nat × Nat)) (pc : Nat) : Bool × List Nat :=
  match fetchBundle m 0x10000 pc with
  | none => (false, [])
  | some ws =>
    let ds := ws.map (kdecode true)
    let is := ds.filterMap id
    let ts := is.filterMap (KInstr.target pc)
    let tok : Bool := ts.all (fun t => decide (0 ≤ t) && inCode rs t.toNat && bundleStart m rs t.toNat)
    let next := pc + 4 * ws.length
    let goesOn : Bool := ds.all (·.isSome) && !is.any KInstr.ends
    (bundleOk ws is && bitOf (ws.getLastD 0) 31 && tok && (!goesOn || inCode rs next),
     ts.map Int.toNat ++ (if goesOn then [next] else []))

/-- Every statically reachable bundle keeps R125. [DEDUCED, log entry 34] -/
def staticWalk (m : Memory) (rs : List (Nat × Nat)) : Nat → List Nat → List Nat → Bool
  | 0, _, todo => todo.isEmpty
  | _ + 1, _, [] => true
  | fuel + 1, seen, a :: rest =>
    if seen.contains a then staticWalk m rs fuel seen rest
    else
      let (ok, ns) := staticBundle m rs a
      ok && staticWalk m rs fuel (a :: seen) (ns ++ rest)

/-- The code an engine receives passes R125. -/
def staticOk (img : List Byte) (e : Nat) : Bool :=
  let m := (sectionsFor img 0x01 e).foldl (fun m c => Memory.write m c.dest (sectionBytes img c)) []
  let rs := codeRanges img e
  inCode rs 0 && staticWalk m rs (4 * 16384) [] [0]

/-! ### Checks 4 and 5 -/

/-- A mask names an absent engine. -/
def State.namesAbsent (s : State) (m : Nat) : Bool := decide (2 ^ (8 * s.part.sectors) ≤ m % 2 ^ 96)

/-- Check 4: a reference to an absent unit. -/
def State.imgAbsent (s : State) (img : List Byte) : Bool :=
  let len := fieldLE img 8 4
  (imgSections img).any (fun c =>
    let b := if c.inside len then sectionBytes img c else []
    if c.type = 1 || c.type = 2 || c.type = 3 then s.namesAbsent c.target
    else if c.type = 0x08 then
      decide (b.length = 384) && (upTo 96).any (fun l => bitOf (fieldLE b (4 * l) 4) 24 && decide (8 * s.part.sectors ≤ l))
    else if c.type = 0x30 then certSized b && (certEntries b).any (fun e => s.namesAbsent e.mask)
    else if c.type = 0x21 then s.tcAbsent b
    else if c.type = 0x28 then fpSized b && !s.part.field
    else false)

/-- The region of local store or core memory that a section's type loads into (R128, R182). -/
def typeRegion (t : Nat) : Option (Nat × Nat) :=
  if t = 1 then some (0, 0x10000) else if t = 2 then some (0x14000, 0x3F000) else if t = 3 then some (0x3F000, 0x40000)
  else if t = 0x10 || t = 0x11 then some (0, 0x40000)
  else none

/-- Two sections overlap for one target; a second section of a type that stands once overlaps the first. [DEDUCED, log entry 34] -/
def Section.clash (a b : Section) : Bool :=
  match typeRegion a.type, typeRegion b.type with
  | some _, some _ =>
    (decide (a.type < 0x10) == decide (b.type < 0x10)) && a.target &&& b.target ≠ 0
      && decide (a.dest < b.dest + b.length) && decide (b.dest < a.dest + a.length)
  | none, none => a.type = b.type && knownTypes.contains a.type
  | _, _ => false

def noClash : List Section → Bool
  | [] => true
  | c :: cs => !cs.any c.clash && noClash cs

/-- Check 5. [DEDUCED, log entry 34] -/
def State.imgBody (s : State) (img : List Byte) : Bool :=
  let len := fieldLE img 8 4
  let secs := imgSections img
  within 1 256 (imgNsect img)
    && secs.all (fun c => knownTypes.contains c.type || bitOf c.flags 0)
    && secs.all (fun c => !knownTypes.contains c.type || c.inside len)
    && secs.all (fun c => match typeRegion c.type with
        | some (lo, hi) => decide (lo ≤ c.dest) && decide (c.dest + c.length ≤ hi)
            && (decide (c.type < 0x10) || decide (c.target &&& (2 ^ 96 - 1 - 12) = 0))
        | none => true)
    && noClash secs
    && secs.all (fun c =>
      let b := sectionBytes img c
      if c.type = 0x08 then decide (b.length = 384)
      else if c.type = 0x21 then tcOk b
      else if c.type = 0x28 then fpOk b (s.capacity / extent)
      else if c.type = 0x30 then certOk img b
      else true)
    && (imgUsed img).all (fun e => hasCode img e && (certFor img e).isSome)
    && (imgTargets img).all (fun e => !hasCode img e || staticOk img e)

/-- The image has a section of a type. -/
def hasSection (img : List Byte) (t : Nat) : Bool := (imgSections img).any (fun c => c.type = t)

/-- GLB_CAP3 (R40), as the running firmware set it. -/
def aCap3 : Nat := 0x01C

/-- The status of checks 1 to 6 of R148; `ue` is an uncorrectable word met in reading the image (R213). [DEDUCED, log entry 34] -/
def State.loadStatus (s : State) (img : List Byte) (addr len : Nat) (ue : Bool) : Nat :=
  if !s.loadIdle img then stREFUSED
  else if ue || !headerOk2 img addr len then stCHECK
  else if byteAt img 5 ≠ s.fld aCap3 15 8 || s.fld aCap3 7 0 < byteAt img 4 then stBADARG
  else if s.imgAbsent img then stABSENT
  else if !s.imgBody img then stBADARG
  else if hasSection img 0x20 && !s.schedOk (sectionOf img 0x20) then stBADARG
  else stDONE

end Sys2Proof.Machine
end

