-- ==== Sys2Proof/Machine/HostRange.lean ====
section
/-!
DEFINITION. What the host may read and write of Hearth (R208, R230, R231, R356), and how it reads it (R213).
-/

namespace Sys2Proof.Machine

/-- The firmware working area and the check bytes of the system area are closed to the host (R208). -/
def sysClosed (a n : Nat) : Bool := overlaps a n 0x09001000 (slotArea - 0x09001000) || overlaps a n 0x40000000 0x08000000

/-- Range readout may read [a, a + n) (R230). -/
def State.hostReadable (s : State) (a n : Nat) : Bool := decide (a + n ≤ s.capacity) && !sysClosed a n

/-- The sample ring, while AUX is not OFF (R356). -/
def State.ringRange (s : State) : Nat × Nat :=
  if s.fieldUp then (s.ringBase * extent, s.ringLen * extent) else (0, 0)

/-- The host may write [a, a + n) (R231, R356). -/
def State.hostWritable (s : State) (a n : Nat) : Bool :=
  let top := s.capacity / extent * extent
  let free (i : Nat) : Bool :=
    let g := s.segAt i
    g.length = 0 || g.phase = .empty || !overlaps a n (g.base * extent) (g.length * extent)
  (decide (a + n ≤ 0x04000000) && decide (a + n ≤ s.capacity))
    || (decide (0x48000000 ≤ a) && decide (a + n ≤ top) && (upTo 64).all free && !overlaps a n s.ringRange.1 s.ringRange.2)

/-- The check byte at an address in the check part of a defined ECC segment, or of the sample ring (R213, R356), where the address is
one. What the host has written into the check part of an EMPTY segment stands there as written. [DESIGN CHOICE, log entry 64] -/
def State.checkByte (s : State) (a : Nat) : Option Byte :=
  let part (base len : Nat) : Option Byte :=
    let o := a - base * extent
    if decide (base * extent ≤ a) && decide (o < len * extent) && decide (len * 16384 ≤ o) then
      some (Config.eccCheck (BitVec.ofNat 64 (fromLE (s.hread (base * extent + 8 * (o - len * 16384)) 8))))
    else none
  let seg := (upTo 64).findSome? (fun i =>
    let g := s.segAt i
    if g.ecc && g.length ≠ 0 then part g.base g.length else none)
  let raw := s.hearth.rawCheck.any (fun r => decide (r.1 ≤ a) && decide (a < r.1 + r.2))
  (if raw then none else seg).or (if s.fieldUp then part s.ringBase s.ringLen else none)

/-- Bytes that the host, or a job for it, writes into Hearth; what falls into the check part of an ECC segment is noted.
[DESIGN CHOICE, log entry 64] -/
def State.hostWrite (s : State) (a : Nat) (bs : List Byte) : State :=
  let hits (i : Nat) : Bool :=
    let g := s.segAt i
    g.ecc && overlaps a bs.length (g.base * extent + g.length * 16384) (g.length * 2048)
  let s := if (upTo 64).any hits then s.onH (fun h => { h with rawCheck := (a, bs.length) :: h.rawCheck }) else s
  s.hwrite a bs

/-- n bytes as range readout delivers them (R230, R213). -/
def State.hostRead (s : State) (a n : Nat) : List Byte :=
  (upTo n).map (fun i => (s.checkByte (a + i)).getD ((s.hread (a + i) 1).headD 0))

/-- A range left with undefined contents. [DESIGN CHOICE, log entry 64] -/
def State.scramble (s : State) (a n : Nat) : State :=
  (s.hostWrite a ((upTo n).map (Config.undefinedByte s.freeUse))).useFree

/-! ### Reading with the errors that memory has (R213, R229, R230) -/

/-- Bytes with those that are read wrong replaced; a is the address of the first. -/
def readWith (e : MemErrs) (a : Nat) (bs : List Byte) : List Byte :=
  (bs.zip (upTo bs.length)).map (fun c => match e.flips.find? (fun f => f.1 = a + c.2) with
    | some f => BitVec.ofNat 8 f.2
    | none => c.1)

/-- An uncorrectable word met by a read: counted, and its frame flagged (R230, R229). -/
def State.readUE (s : State) (a : Nat) : State :=
  let s := s.countUE a
  if slotArea ≤ a && a < 0x40000000 then s.markStored ((a - slotArea) / 512) fMEMUE
  else s.markData a

/-- The errors of a read of [a, a + n) are counted and marked. -/
def State.noteErrs (s : State) (e : MemErrs) (a n : Nat) : State :=
  let here (xs : List Nat) : List Nat := xs.filter (fun x => a ≤ x && decide (x < a + n))
  let s := s.each (here e.ce) State.countCE
  s.each (here e.ue) State.readUE

/-- A read of [a, a + n) meets an uncorrectable word. -/
def badIn (e : MemErrs) (a n : Nat) : Bool := e.ue.any (fun x => a ≤ x && decide (x < a + n))

end Sys2Proof.Machine
end

