-- ==== Sys2Proof/Machine/LoadImage.lean ====
section
/-!
DEFINITION. LOAD_RUN_IMAGE (R148, R149).
-/

namespace Sys2Proof.Machine

/-- Cores 2 and 3 stop (R149 step 1). -/
def State.stopCores (s : State) : State :=
  s.each [2, 3] (fun s c => s.onCore c (fun g => { g with run := .stopped, reply := none }))

/-- The sections that load into core c's memory. -/
def coreSections (img : List Byte) (c : Nat) : List Section := sectionsFor img 0x10 c ++ sectionsFor img 0x11 c

/-- Every section goes to its destination (R149 step 2). -/
def State.writeSections (s : State) (img : List Byte) : State :=
  let s := s.each (imgTargets img) (fun s e =>
    let secs := sectionsFor img 0x01 e ++ sectionsFor img 0x02 e ++ sectionsFor img 0x03 e
    s.onEngine e (fun g => { g with proc := { g.proc with
      mem := secs.foldl (fun m c => Memory.write m c.dest (sectionBytes img c)) g.proc.mem } }))
  s.each [2, 3] (fun s c => s.onCore c (fun g => { g with proc := { g.proc with
    mem := (coreSections img c).foldl (fun m x => Memory.write m x.dest (sectionBytes img x)) g.proc.mem } }))

/-- ANV_ECFG of every engine (R149 step 3, R196). [DEDUCED, log entry 35] -/
def State.setEngines (s : State) (img : List Byte) : State :=
  let ts := imgTargets img
  s.each s.engineIds (fun s e =>
    let s := s.setBit (aEng e 0) 31 (ts.contains e)
    match certFor img e with
    | some c => s.setFld (aEng e 0) 19 0 (max c.steps c.eot)
    | none => s)

/-- Core c starts at an entry address (R149 step 5), reading the event log from its next entry on.
[DEDUCED, log entry 37; DESIGN CHOICE, log entry 104] -/
def State.startCore (s : State) (c entry : Nat) : State :=
  if entry = 0xFFFFFFFF then s
  else s.onCore c (fun g =>
    { proc := { Proc.zero g.proc.mem with pc := entry }, run := .exec, nextSeq := s.tb.logCount % 2 ^ 32, reply := none })

/-- An image whose checks have passed is loaded (R149). [DEDUCED, log entry 36] -/
def State.loadImage (s : State) (img : List Byte) : State :=
  let ts := imgTargets img
  let s := s.stopCores
  let s := s.each ((upTo s.part.sectors).filter (fun k => ts.any (fun e => e / 8 = k) && s.domState (12 + k) = 2)) (fun s k => s.domUp (12 + k))
  let s := (s.writeSections img).setEngines img
  let s := ((s.putKept (some img)).putKeptBad false).putBgs { s.bgs with plim := paceLimit img ts }
  let s := s.onSeq (fun q => { q with renumber := true })
  let s := (s.startCore 2 (fieldLE img 16 4)).startCore 3 (fieldLE img 20 4)
  s.domainsOff.updateAlarms

/-- A holder sends an image to its follower in STATE messages (R377, R383). The body's layout is the model's. -/
def State.tellImage (s : State) (img : List Byte) : State :=
  s.each (upTo (cdiv img.length 4080)) (fun s i =>
    s.mirrorSend mSTATE (pack 16 [(0, 1, 1), (4, 4, img.length), (8, 4, 4080 * i)] ++ (img.drop (4080 * i)).take 4080))

/-- R148: LOAD_RUN_IMAGE. `e` is what memory errors reading the image meets (R213), `meas` the measurements
of the islands woken for the pace check, for which the command waits (R448). A holder copies the image to its follower (R383); a follower does not execute
the command (R389). [DESIGN CHOICE, log entry 7] -/
def loadRunImage (src : Src) (e : MemErrs) (meas : List (Nat × Nat)) (s : State) : State :=
  s.serve src kLOAD (fun c s =>
    if s.follower then s.reply c stNOTHOLDER []
    else
      let addr := c.arg64 0
      let len := c.arg 2
      let img := if addr + len ≤ 0x04000000 && addr + len ≤ s.capacity then s.hread addr len else []
      let waits := s
      let s := s.noteErrs e addr img.length
      let st := s.loadStatus img addr len (badIn e addr img.length)
      if st ≠ stDONE then s.reply c st []
      else if !s.measured meas then waits
      else
        let p := s.pCheckWith img meas
        let s := s.paceWake meas
        let short := if hasSection img 0x20 then paceFail img (imgTargets img) p else none
        match short with
        | some _ => s.reply c stPACE []
        | none =>
          ((if s.role = roHOLDER then s.tellImage img else s).loadImage img).reply c stDONE [])

end Sys2Proof.Machine
end

