-- ==== Sys2Proof/Machine/RowsAnvil.lean ====
section
/-!
DEFINITION. Engines, kernels and the run image (chapters 04, 05, 06): what each command of the chapter answers. Each is total: the next state is the effect its meaning has,
and the queue of waiting commands stays as it was.
-/

namespace Sys2Proof.Machine

/-- BUNDLE_ISSUE (R124). -/
def execBundleIssue (p : ProcId) (ecc : LsEcc) (s : State) : Answer :=
  s.answer (bundleIssue p ecc s)

/-- FENCE_COMPLETE (R138). -/
def execFenceComplete (p : ProcId) (s : State) : Answer :=
  s.answer (fenceComplete p s)

/-- WAIT_STRIP_RETURN (R132). -/
def execWaitStripReturn (e : Fin 96) (s : State) : Answer :=
  s.answer (waitStripReturn e s)

/-- EMIT_ACCEPTED (R134). -/
def execEmitAccepted (e : Fin 96) (s : State) : Answer :=
  s.answer (emitAccepted e s)

/-- POST_LS_RESUME (R140). -/
def execPostLsResume (c : Fin 4) (s : State) : Answer :=
  s.answer (postLsResume c s)

/-- WAIT_EVENT_RETURN (R191). -/
def execWaitEventReturn (c : Fin 4) (s : State) : Answer :=
  s.answer (waitEventReturn c s)

/-- WAIT_EVENT_TIMEOUT (R191). -/
def execWaitEventTimeout (c : Fin 4) (s : State) : Answer :=
  s.answer (waitEventTimeout c s)

/-- SYS_COMPLETE (R191). -/
def execSysComplete (c : Fin 4) (s : State) : Answer :=
  s.answer (sysComplete c s)

/-- ANV_STOP_TIMEOUT (R152). -/
def execAnvStopTimeout (s : State) : Answer :=
  s.answer (anvStopTimeout s)

/-- LOAD_RUN_IMAGE (R148). -/
def execLoadRunImage (src : Src) (e : MemErrs) (meas : List (Nat × Nat)) (s : State) : Answer :=
  s.answer (loadRunImage src e meas s)

end Sys2Proof.Machine
end

