-- ==== Sys2Proof/Machine/Crypto.lean ====
section
/-!
DEFINITION. SHA-512 and pure Ed25519 (RFC 8032), which the header check of an image and the debug lock use (R430, R434, R442).
-/

namespace Sys2Proof.Machine

/-! ### SHA-512 -/

/-- The largest r below 2^k with r³ ≤ n. -/
def icbrtAux (n : Nat) : Nat → Nat → Nat
  | 0, r => r
  | k + 1, r =>
    let r' := r + 2 ^ k
    if r' * r' * r' ≤ n then icbrtAux n k r' else icbrtAux n k r

/-- n has no divisor from 2 to d. -/
def noDivisor (n : Nat) : Nat → Bool
  | 0 => true
  | d + 1 => (d + 1 = 1 || n % (d + 1) ≠ 0) && noDivisor n d

/-- The first 80 primes. -/
def primes80 : List Nat := (upTo 410).filter (fun n => decide (2 ≤ n) && noDivisor n (isqrt 6 n))

/-- The 80 round constants: the fractions of the cube roots of the first 80 primes. -/
def shaK : List Nat := primes80.map (fun p => icbrtAux (p * 2 ^ 192) 68 0 % 2 ^ 64)

/-- The initial hash value: the fractions of the square roots of the first 8 primes. -/
def shaInit : List Nat := (primes80.take 8).map (fun p => isqrt 68 (p * 2 ^ 128) % 2 ^ 64)

/-- Rotation right of a 64-bit word. -/
def ror64 (x n : Nat) : Nat := (x >>> n) ||| (x <<< (64 - n) % 2 ^ 64)

/-- The next word of the message schedule, which is held newest first. -/
def shaWord (w : List Nat) : Nat :=
  let a := w.getD 1 0
  let b := w.getD 14 0
  let s1 := ror64 a 19 ^^^ ror64 a 61 ^^^ (a >>> 6)
  let s0 := ror64 b 1 ^^^ ror64 b 8 ^^^ (b >>> 7)
  (s1 + w.getD 6 0 + s0 + w.getD 15 0) % 2 ^ 64

/-- The schedule grown by n words. -/
def shaGrow : Nat → List Nat → List Nat
  | 0, w => w
  | n + 1, w => shaGrow n (shaWord w :: w)

/-- One round on the working variables a … h. -/
def shaRound (v : List Nat) (kw : Nat) : List Nat :=
  match v with
  | [a, b, c, d, e, f, g, h] =>
    let ch := (e &&& f) ^^^ ((2 ^ 64 - 1 - e) &&& g)
    let t1 := h + (ror64 e 14 ^^^ ror64 e 18 ^^^ ror64 e 41) + ch + kw
    let mj := (a &&& b) ^^^ (a &&& c) ^^^ (b &&& c)
    let t2 := (ror64 a 28 ^^^ ror64 a 34 ^^^ ror64 a 39) + mj
    [(t1 + t2) % 2 ^ 64, a, b, c, (d + t1) % 2 ^ 64, e, f, g]
  | _ => v

/-- One block of 128 bytes into the hash value. -/
def shaBlock (h : List Nat) (block : List Byte) : List Nat :=
  let w := (shaGrow 64 ((chunks 8 block).map fromBE).reverse).reverse
  let v := (List.zipWith (· + ·) shaK w).foldl shaRound h
  List.zipWith (fun a b => (a + b) % 2 ^ 64) h v

/-- SHA-512 of a message. -/
def sha512 (m : List Byte) : List Byte :=
  let pad := (111 + 128 - m.length % 128) % 128
  let padded := m ++ [0x80] ++ zeros pad ++ beBytes 16 (8 * m.length)
  ((chunks 128 padded).foldl shaBlock shaInit).flatMap (beBytes 8)

/-! ### Ed25519 -/

def edP : Nat := 2 ^ 255 - 19
def edL : Nat := 2 ^ 252 + 27742317777372353535851937790883648493

/-- b^e modulo p, over the bits of e. -/
def powMod (b : Nat) : Nat → Nat → Nat
  | 0, _ => 1
  | k + 1, e =>
    let r := powMod b k (e / 2)
    let q := r * r % edP
    if e % 2 = 1 then q * b % edP else q

/-- b^e modulo p. -/
def fPow (b e : Nat) : Nat := powMod (b % edP) 256 e
def fSub (a b : Nat) : Nat := (a + edP - b % edP) % edP
def fMul (a b : Nat) : Nat := a * b % edP

/-- The curve's constant −121665/121666. -/
def edD : Nat := fMul (edP - 121665) (fPow 121666 (edP - 2))

/-- A point in extended coordinates. -/
structure EdPoint where
  x : Nat
  y : Nat
  z : Nat
  t : Nat

def edZero : EdPoint := { x := 0, y := 1, z := 1, t := 0 }

/-- The sum of two points. -/
def edAdd (p q : EdPoint) : EdPoint :=
  let a := fMul (fSub p.y p.x) (fSub q.y q.x)
  let b := fMul (p.y + p.x) (q.y + q.x)
  let c := fMul (fMul (2 * p.t) q.t) edD
  let d := fMul (2 * p.z) q.z
  let e := fSub b a
  let f := fSub d c
  let g := (d + c) % edP
  let h := (b + a) % edP
  { x := fMul e f, y := fMul g h, z := fMul f g, t := fMul e h }

/-- n times a point, over k bits of n. -/
def edMul (p : EdPoint) : Nat → Nat → EdPoint
  | 0, _ => edZero
  | k + 1, n =>
    let h := edMul p k (n / 2)
    let d := edAdd h h
    if n % 2 = 1 then edAdd d p else d

/-- The point that 32 bytes encode, if they do. -/
def edDecode (b : List Byte) : Option EdPoint :=
  let n := fromLE b
  let y := n % 2 ^ 255
  let sign := n / 2 ^ 255
  if edP ≤ y then none
  else
    let u := fSub (fMul y y) 1
    let v := (fMul edD (fMul y y) + 1) % edP
    let v3 := fMul v (fMul v v)
    let c := fMul (fMul u v3) (fPow (fMul u (fMul v3 (fMul v3 v))) ((edP - 5) / 8))
    let vcc := fMul v (fMul c c)
    let root : Option Nat := if vcc = u then some c else if vcc = fSub 0 u then some (fMul c (fPow 2 ((edP - 1) / 4))) else none
    match root with
    | none => none
    | some x =>
      if x = 0 && sign = 1 then none
      else
        let x := if x % 2 = sign then x else fSub 0 x
        some { x := x, y := y, z := 1, t := fMul x y }

/-- Two points are one. -/
def edSame (p q : EdPoint) : Bool := fMul p.x q.z = fMul q.x p.z && fMul p.y q.z = fMul q.y p.z

/-- The base point: y = 4/5 with even x. -/
def edBase : EdPoint := (edDecode (leBytes 32 (fMul 4 (fPow 5 (edP - 2))))).getD edZero

/-- A 64-byte signature over a message verifies with a 32-byte public key. [DEDUCED, log entry 72] -/
def ed25519 (key msg sig : List Byte) : Bool :=
  let s := fromLE (sig.drop 32)
  match edDecode key, edDecode (sig.take 32) with
  | some a, some r =>
    let k := fromLE (sha512 (sig.take 32 ++ key ++ msg)) % edL
    decide (sig.length = 64) && decide (key.length = 32) && decide (s < edL)
      && edSame (edMul edBase 253 s) (edAdd r (edMul a 253 k))
  | _, _ => false

end Sys2Proof.Machine
end

