-- ==== Sys2Proof/Machine/HostDma.lean ====
section
/-!
DEFINITION. The host's access to Hearth (chapter 14): the aperture (R404), DMA queue pairs (R405–R409), link loss and
function-level reset (R403, R408), the heads of the event queue and the preview ring (R411, R412), the HST function (R418).
-/

namespace Sys2Proof.Machine

/-! ### The endpoint function (R400) -/

/-- What the function of a port's PCIe tunnel presents in its configuration space. -/
structure Endpoint where
  vendor : Nat
  device : Nat
  revision : Nat
  classCode : Nat
  subsysVendor : Nat
  subsystem : Nat
  /-- the sizes in bytes of BAR0 and BAR2, both 64-bit; BAR2, prefetchable, only where it is implemented -/
  bar0 : Nat
  bar2 : Option Nat
  msixVectors : Nat
  maxPayload : List Nat
  maxReadRequest : Nat
  tagBits : Nat
  aer : Bool
  functionLevelReset : Bool
deriving DecidableEq, Repr

/-- The endpoint function of each port (R400): no MSI, INTx, SR-IOV, ATS, PRI or PASID. [DEDUCED, log entry 110] -/
def State.endpoint (s : State) : Endpoint where
  vendor := Config.vendorId.toNat
  device := s.part.number
  revision := s.stepping
  classCode := 0x118000
  subsysVendor := Config.subsysVendorId.toNat
  subsystem := s.sys.subsys
  bar0 := 2 ^ 26
  bar2 := if s.sys.bar2 then some (2 ^ 34) else none
  msixVectors := 64
  maxPayload := [128, 256, 512]
  maxReadRequest := 4096
  tagBits := 10
  aer := true
  functionLevelReset := true

/-! ### The aperture (R404) -/

/-- The Hearth address of a BAR2 offset. -/
def State.apAddr (s : State) (o : Nat) : Nat := s.fld (HST + 0x10) 9 0 * 2 ^ 30 + o

/-- The port carries a tunnel (R419). -/
def State.portUp (s : State) (p : Nat) : Bool := s.bit aHstStat (30 + p)

/-- R404: a BAR2 read of n bytes through port p. -/
def apertureRead (p : Fin 2) (o n : Nat) (e : MemErrs) (s : State) : State :=
  if !s.ready || !s.sys.bar2 || !s.portUp p.val then s
  else
    let a := s.apAddr o
    if s.hostReadable a n then (s.noteErrs e a n).emit (.apData p.val (readWith e a (s.hostRead a n)))
    else (s.count (HST + 0x100)).emit (.apData p.val (List.replicate n 0xFF))

/-- R404: a BAR2 write through port p. -/
def apertureWrite (p : Fin 2) (o : Nat) (data : List Byte) (s : State) : State :=
  if !s.ready || !s.sys.bar2 || !s.portUp p.val then s
  else
    let a := s.apAddr o
    if s.hostWritable a data.length then s.hostWrite a data else s.count (HST + 0x100)

/-! ### DMA queues (R405) -/

def aDma (q off : Nat) : Nat := HST + 0x400 + 0x40 * q + off

def State.dma (s : State) (q : Nat) : DmaQueue := (s.host.queues[q]?).getD {}
def State.onDma (s : State) (q : Nat) (g : DmaQueue → DmaQueue) : State :=
  s.putHost { s.host with queues := s.host.queues.setIfInBounds q (g (s.dma q)) }

/-- LOG2SIZE of an enabled queue; 0: the queue is disabled. -/
def State.dmaLog (s : State) (q : Nat) : Nat :=
  let n := s.fld (aDma q 0x10) 3 0
  if 4 ≤ n && n ≤ 12 then n else 0
def State.dmaSize (s : State) (q : Nat) : Nat := 2 ^ s.dmaLog q
def State.dmaPort (s : State) (q : Nat) : Nat := s.fld (aDma q 0x10) 31 31
def State.dmaVec (s : State) (q : Nat) : Nat := max 3 (s.fld (aDma q 0x10) 21 16)

/-- A completion slot is free: the host has released it (R405). -/
def State.cplFree (s : State) (q : Nat) : Bool :=
  decide (((s.dma q).cpl + 2 ^ 32 - s.reg (aDma q 0x1C)) % 2 ^ 32 < s.dmaSize q)

/-- The queue may take its next descriptor: HST runs, the queue is enabled and has one, its port is up, and the last one has its
completion. -/
def State.dmaReady (s : State) (q : Nat) : Bool :=
  s.runs .hst && s.dmaLog q ≠ 0 && s.portUp (s.dmaPort q) && !(s.dma q).stopped && (s.dma q).op.isNone
    && s.reg (aDma q 0x18) % s.dmaSize q ≠ (s.dma q).tail % s.dmaSize q

/-! ### Descriptors (R406) -/

def dsOp (d : List Byte) : Nat := byteAt d 0
def dsCount (d : List Byte) : Nat := fieldLE d 4 4
def dsHaddr (d : List Byte) : Nat := fieldLE d 8 8
def dsSrc (d : List Byte) : Nat := fieldLE d 16 8
def dsSeg (d : List Byte) : Nat := byteAt d 16
def dsIndex (d : List Byte) : Nat := fieldLE d 20 4
def dsHlen (d : List Byte) : Nat := fieldLE d 24 4

/-- The fields that every operation leaves zero, and HADDR. -/
def dsCommon (d : List Byte) : Bool :=
  decide (byteAt d 1 < 2) && zeroAt d 28 4 && dsHaddr d % 4 = 0 && decide (1 ≤ dsOp d) && decide (dsOp d ≤ 4)

/-- A range descriptor's fields (R406, R407). -/
def dsRangeOk (d : List Byte) : Bool :=
  dsCommon d && dsCount d % 4 = 0 && decide (4 ≤ dsCount d) && dsSrc d % 4 = 0 && decide (dsSrc d < 2 ^ 40) && dsHlen d = 0

/-- A frame descriptor's fields, and the record it names (R407). -/
def State.dsFrameOk (s : State) (d : List Byte) : Bool :=
  dsCommon d && decide (1 ≤ dsCount d) && decide (dsSeg d < 64) && zeroAt d 17 3 && (s.segAt (dsSeg d)).phase = .closed
    && (match (s.segAt (dsSeg d)).record with
        | some r => decide (dsIndex d + dsCount d ≤ r.pact + r.qact)
        | none => false)

/-- The descriptor at QSQHEAD is taken for an operation; an OP that names none is taken as READ_RANGE. [DEDUCED, log entry 80] -/
def State.dmaTake (s : State) (q op : Nat) (desc : List Byte) : Option (List Byte × State) :=
  let d := overlay (zeros 32) 0 desc
  let mine : Bool := dsOp d = op || (op = 1 && (dsOp d = 0 || 4 < dsOp d))
  if s.dmaReady q && mine then some (d, s.setReg (aDma q 0x18) ((s.reg (aDma q 0x18) + 1) % s.dmaSize q)) else none

/-- The descriptor in progress stands with what it has moved. -/
def State.dmaResult (s : State) (q : Nat) (o : DmaOp) : State := s.onDma q (fun x => { x with op := some o })

/-- A descriptor that its checks refuse (R407). -/
def State.dmaBad (s : State) (q : Nat) (d : List Byte) : State := s.dmaResult q { desc := d, status := stBADARG, finished := true }

/-- Bytes delivered into host memory, with whole KiB counted (R420). -/
def State.deliver (s : State) (q a : Nat) (bs : List Byte) : State :=
  let s := s.emit (.hostWrite (s.dmaPort q) a bs)
  let n := s.host.rdBytes + bs.length
  (s.putHost { s.host with rdBytes := n % 1024 }).count (HST + 0x10C) (n / 1024)

/-- R406: READ_RANGE; `desc` is the descriptor as read from the submission ring, `e` what memory errors the read meets. -/
def readRange (q : Fin 16) (desc : List Byte) (e : MemErrs) (s : State) : State :=
  match s.dmaTake q.val 1 desc with
  | none => s
  | some (d, s) =>
    let a := dsSrc d
    let n := dsCount d
    if !dsRangeOk d || !s.hostReadable a n then s.dmaBad q.val d
    else
      let bs := readWith e a (s.hostRead a n)
      ((s.noteErrs e a n).deliver q.val (dsHaddr d) bs).dmaResult q.val
        { desc := d, status := if badIn e a n then stCHECK else stDONE, bytes := n, finished := true }

/-- A tile-frame as a slot's TILES entry gives it: tile, address, count; an unused tile has none (R219). [DESIGN CHOICE, log entry 43] -/
def slotTiles (b : List Byte) : List (Nat × Nat × Nat) :=
  (upTo 48).filterMap (fun f =>
    let a := fieldLE b (64 + 8 * f) 5
    let n := fieldLE b (69 + 8 * f) 3
    if a = 0 ∧ n = 0 then none else some (f, a, n))

/-- The bytes of a tile-frame as read, unwrapped: the two spans it may stand in. -/
def State.tileSpans (g : Segment) (f a n : Nat) : List (Nat × Nat) :=
  let room := g.streamLen f - (a - g.streamBase f)
  if n ≤ room then [(a, n)] else [(a, room), (g.streamBase f, n - room)]

/-- Spans read with their errors. -/
def State.readSpans (s : State) (e : MemErrs) (ps : List (Nat × Nat)) : List Byte := ps.flatMap (fun p => readWith e p.1 (s.hread p.1 p.2))

/-- The spans of a stored frame: its slot, and each used tile's bytes. -/
def State.frameSpans (s : State) (g : Segment) (slot : Nat) : List (Nat × Nat) :=
  (slotAddr slot, 512) :: (slotTiles (s.slotRead slot)).flatMap (fun t => State.tileSpans g t.1 t.2.1 t.2.2)

/-- Whole frames that fit in a length, each with its bytes (R407, NO_SPACE). -/
def fitFrames : Nat → List (List Byte) → List (List Byte)
  | _, [] => []
  | room, b :: bs => if b.length ≤ room then b :: fitFrames (room - b.length) bs else []

/-- What a frame of decoded readout finds (R279): its bytes, the blocks whose CRC failed, whether decoding was cut. -/
def decodedTile (f : Nat) (w : Walk) : List Byte :=
  let fl (p : BlockHead → Bool) : Nat := b2n (w.heads.any p)
  let flags := b2n (w.ncrc ≠ 0 || w.cut) + 2 * fl (fun h => bitOf h.flags 4) + 4 * fl (fun h => bitOf h.flags 3)
    + 8 * fl (fun h => h.kind = 3) + 16 * b2n w.cut
  let px := w.pixels.flatten
  let body := px.flatMap (leBytes 2)
  pack 16 [(0, 1, f), (1, 1, (w.heads.head?.map (·.fmt)).getD 0), (2, 1, flags), (4, 4, px.length), (8, 4, w.heads.length)]
    ++ body ++ zeros (roundUp body.length 16 - body.length)

/-- The walks of a stored frame's tiles. -/
def State.frameWalks (s : State) (g : Segment) (e : MemErrs) (slot : Nat) : List (Nat × Walk) :=
  (slotTiles (s.slotRead slot)).map (fun t => (t.1, walk false (s.readSpans e (State.tileSpans g t.1 t.2.1 t.2.2))))

/-- READ_FRAME and READ_DECODED (R406): the record's slots from index i on are read as far as whole frames fit. -/
def State.readFrames (s : State) (q : Nat) (d : List Byte) (e : MemErrs) (decoded : Bool) : State :=
  if !s.dsFrameOk d then s.dmaBad q d
  else
    let g := s.segAt (dsSeg d)
    let slots := (g.recordSlots.drop (dsIndex d)).take (dsCount d)
    let whole (i : Nat) : List Byte :=
      if decoded then readWith e (slotAddr i) (s.slotRead i) ++ (s.frameWalks g e i).flatMap (fun t => decodedTile t.1 t.2)
      else s.readSpans e (s.frameSpans g i)
    let out := fitFrames (dsHlen d) (slots.map whole)
    let done := slots.take out.length
    let spans := done.flatMap (s.frameSpans g)
    let fails (i : Nat) : Nat := if decoded then ((s.frameWalks g e i).map (fun t => t.2.ncrc + b2n t.2.cut)).foldl (· + ·) 0 else 0
    let bad : Bool := spans.any (fun p => badIn e p.1 p.2) || done.any (fun i => fails i ≠ 0)
    let status := if out.length < dsCount d then stNOSPACE else if bad then stCHECK else stDONE
    let bs := out.flatten
    let marks := done.filter (fun i => fails i ≠ 0)
    let total := (done.map fails).foldl (· + ·) 0
    let s := s.each spans (fun s p => s.noteErrs e p.1 p.2)
    let s := (s.each marks (fun s i => s.markStored i fCRCFAIL)).count (HRT + 0x114) total
    (s.deliver q (dsHaddr d) bs).dmaResult q { desc := d, status := status, frames := out.length, bytes := bs.length, finished := true }

/-- R406: READ_FRAME. -/
def readFrame (q : Fin 16) (desc : List Byte) (e : MemErrs) (s : State) : State :=
  match s.dmaTake q.val 2 desc with
  | none => s
  | some (d, s) => s.readFrames q.val d e false

/-- R406: READ_DECODED. -/
def readDecoded (q : Fin 16) (desc : List Byte) (e : MemErrs) (s : State) : State :=
  match s.dmaTake q.val 3 desc with
  | none => s
  | some (d, s) => s.readFrames q.val d e true

/-- R406: WRITE_RANGE; `data` is what host memory has delivered so far, all of it or a first part. [DEDUCED, log entry 80] -/
def writeRange (q : Fin 16) (desc data : List Byte) (s : State) : State :=
  match s.dmaTake q.val 4 desc with
  | none => s
  | some (d, s) =>
    let n := dsCount d
    if !dsRangeOk d || !s.hostWritable (dsSrc d) n then s.dmaBad q.val d
    else
      let bs := data.take n
      let s := (s.emit (.hostRead (s.dmaPort q.val) (dsHaddr d) n)).hostWrite (dsSrc d) bs
      s.dmaResult q.val { desc := d, bytes := bs.length, want := n - bs.length, finished := decide (bs.length = n) }

/-- R407: a host read completion has not come within 50 ms; `late` completions that come after it are discarded and counted. -/
def writeRangeTimeout (q : Fin 16) (late : Nat) (s : State) : State :=
  match (s.dma q.val).op with
  | some o =>
    if o.want = 0 then s
    else (s.dmaResult q.val { o with status := stTIMEOUT, want := 0, finished := true }).count (HST + 0x104) late
  | none => s

/-! ### Completions (R405, R409) -/

/-- A finished descriptor's completion entry is written, if a slot is free; otherwise the queue waits. -/
def State.dmaComplete (s : State) (q : Nat) : State :=
  match (s.dma q).op with
  | some o =>
    if o.finished && s.cplFree q then
      let n := (s.dma q).cpl
      let size := s.dmaSize q
      let b := pack 16 [(0, 2, fieldLE o.desc 2 2), (2, 1, o.status), (3, 1, ringPhase n size), (4, 4, o.frames), (8, 8, o.bytes)]
      let s := s.onDma q (fun x => { x with cpl := x.cpl + 1, op := none })
      let s := s.emit (.hostWrite (s.dmaPort q) (s.reg64 (aDma q 8) + 16 * (n % size)) b)
      if bitOf (byteAt o.desc 1) 0 then s.signal (s.dmaPort q) (s.dmaVec q) else s
    else s
  | none => s

/-- R409: the descriptor in progress has finished, and its completion entry is written once a slot is free. -/
def dmaDescriptorDone (q : Fin 16) (s : State) : State :=
  if (s.runs .hst || s.fnState .hst = .stopping) && s.portUp (s.dmaPort q.val) then s.dmaComplete q.val else s

/-- HST_QSTAT.CQWAIT. -/
def State.cqWait (s : State) (q : Nat) : Bool :=
  match (s.dma q).op with
  | some o => o.finished && !s.cplFree q
  | none => false

/-- HST_QSTAT as read (R419). -/
def State.qsStat (s : State) (q : Nat) : Nat :=
  b2n (s.dma q).op.isSome * 2 ^ 31 + b2n (s.bit (aDma q 0x20) 30) * 2 ^ 30 + b2n (s.cqWait q) * 2 ^ 29

/-- R405, R419: a write of QSQTAIL: the field takes the value, and it acts as the doorbell of queue q only while HST is RUNNING. A queue
that a function-level reset stopped goes on. [DEDUCED, log entry 80] -/
def sqDoorbell (q : Fin 16) (v : Word) (s : State) : State :=
  if s.ready && s.present (aDma q.val 0x14) then
    let s := s.setReg (aDma q.val 0x14) (v.toNat % 4096)
    if s.runs .hst then s.onDma q.val (fun x => { x with stopped := false, tail := v.toNat % 4096 }) else s
  else s

/-- R405: the host has consumed completions; a queue that waits for a slot writes its completion. -/
def cqHeadWrite (q : Fin 16) (v : Word) (s : State) : State :=
  if s.ready && s.present (aDma q.val 0x1C) then
    let waits := s.cqWait q.val
    let s := s.setReg (aDma q.val 0x1C) v.toNat
    if waits then s.dmaComplete q.val else s
  else s

/-- R411: the host has consumed event-queue entries; what could not be posted is reported first. -/
def eqHeadWrite (v : Word) (s : State) : State :=
  if s.ready then
    let s := s.setReg aEqHead v.toNat
    if s.runs .hst then s.eqReportLost else s
  else s

/-- R412: the host has consumed preview entries. -/
def pvHeadWrite (v : Word) (s : State) : State := if s.ready then s.setReg aPvHead v.toNat else s

/-! ### Links and resets (R403, R408) -/

/-- A WRITE_RANGE that is cut short: what it has not reached of its destination is undefined (R407). -/
def State.dmaCut (s : State) (o : DmaOp) : State :=
  let a := dsSrc o.desc + o.bytes
  if o.want ≠ 0 && s.hostWritable a o.want then s.scramble a o.want else s

/-- The descriptor in progress is abandoned without a completion; QSQHEAD names it again. [DEDUCED, log entry 80] -/
def State.dmaAbandon (s : State) (q : Nat) : State :=
  match (s.dma q).op with
  | some o =>
    let s := s.dmaCut o
    (s.setReg (aDma q 0x18) ((s.reg (aDma q 0x18) + s.dmaSize q - 1) % s.dmaSize q)).onDma q (fun x => { x with op := none })
  | none => s

/-- Every queue of a port stops (R408). [DEDUCED, log entry 80] -/
def State.portStop (s : State) (p : Nat) : State :=
  s.each ((upTo 16).filter (fun q => s.dmaPort q = p)) (fun s q =>
    ((s.dmaAbandon q).onDma q (fun x => { x with stopped := true })).setBit (aDma q 0x20) 30 true)

/-- R408: a port's link is up, of a USB4 generation (2, 3 or 4); its queues resume. [DEDUCED, log entry 80] -/
def usb4LinkUp (p : Fin 2) (gen : Nat) (s : State) : State :=
  if s.ready && decide (p.val < s.part.usbPorts) && decide (2 ≤ gen) && decide (gen ≤ 4) && (bitOf s.part.cap0 19 || decide (gen < 4)) then
    let s := (s.setBit aHstStat (30 + p.val) true).setFld aHstStat (26 + 3 * p.val) (24 + 3 * p.val) gen
    s.each ((upTo 16).filter (fun q => s.dmaPort q = p.val)) (fun s q => s.onDma q (fun x => { x with stopped := false }))
  else s

/-- R408: a port's link goes down. -/
def usb4LinkDown (p : Fin 2) (s : State) : State :=
  if s.portUp p.val then
    ((s.setBit aHstStat (30 + p.val) false).setFld aHstStat (26 + 3 * p.val) (24 + 3 * p.val) 0).portStop p.val
  else s

/-- R403: a function-level reset of port p: its queues stop, its mailbox aborts, its MSI-X table is cleared. -/
def functionLevelReset (p : Fin 2) (s : State) : State :=
  if s.ready && decide (p.val < s.part.usbPorts) then
    let s := (s.portStop p.val).endCommand (.port p) stABORTED
    s.putHost { s.host with msix := s.host.msix.setIfInBounds p.val [], pba := s.host.pba.setIfInBounds p.val [] }
  else s

/-! ### The HST function (R418) -/

/-- The first failing check of STARTING, or 0. -/
def State.hstFault (s : State) : Nat :=
  let badBase (a : Nat) : Bool := s.reg64 a = 0 || s.reg64 a % 4096 ≠ 0
  if (upTo 16).any (fun q => s.dmaLog q ≠ 0 && (badBase (aDma q 0) || badBase (aDma q 8))) || badBase aEqBase
      || (s.bit aPvCfg 31 && badBase aPvBase) then 1
  else if !(within 4 16 (s.fld aEqCfg 20 16) && within 6 16 (s.fld aPvCfg 20 16)) then 2
  else 0

/-- STARTING ends: what counts since START begins at 0 (R405, R411, R419); a completion that waits for a slot is still written.
[DEDUCED, log entry 80] -/
def State.hstStart (s : State) : State :=
  let s := (s.setReg aEqTail 0).setReg aPvTail 0
  let s := s.putHost { s.host with eqSeq := 0, eqLost := 0, pvTimes := [] }
  s.each (upTo 16) (fun s q => s.onDma q (fun x => { x with cpl := 0 }))

/-- STOPPING: each descriptor in progress completes ABORTED with its BYTES (R418); one that only waits for its completion slot has
completed before (R24). [DEDUCED, log entry 80] -/
def State.hstStop (s : State) : State :=
  s.each (upTo 16) (fun s q =>
    match (s.dma q).op with
    | some o =>
      if s.cqWait q then s
      else ((s.dmaCut o).dmaResult q { o with status := stABORTED, want := 0, finished := true }).dmaComplete q
    | none => s)

/-- QUENCH of HST: all DMA stops, and no completion is written (R418). -/
def State.hstQuench (s : State) : State := s.each (upTo 16) State.dmaAbandon

/-- HST_STAT as read (R419). -/
def State.hstStat (s : State) : Nat := putBits (s.reg aHstStat) 23 23 (b2n s.sys.bar2)

end Sys2Proof.Machine
end

