-- ==== Sys2Proof/Machine/Jobs.lean ====
section
/-!
DEFINITION. The offload job unit (R280–R283, R288).
-/

namespace Sys2Proof.Machine

def aJob (off : Nat) : Nat := 0x00601000 + off
def aJStat : Nat := aJob 0x44

def State.onJobs (s : State) (g : JobUnit → JobUnit) : State := s.putJobs (g s.jobs)

/-! ### The descriptor (R280) -/

def jdCoding (d : List Byte) : Nat := byteAt d 1 % 4
def jdPred (d : List Byte) : Nat := bits (byteAt d 1) 2 2
def jdE (d : List Byte) : Nat := let e := bits (byteAt d 1) 5 3; if e = 0 then 1 else e
def jdFmt (d : List Byte) : Nat := byteAt d 2
def jdOut (d : List Byte) : Nat := byteAt d 3
def jdTag (d : List Byte) : Nat := fieldLE d 4 2
def jdSrc (d : List Byte) : Nat := fieldLE d 8 8
def jdSrcLen (d : List Byte) : Nat := fieldLE d 16 8
def jdNpix (d : List Byte) : Nat := fieldLE d 40 4

/-- The fields of a descriptor are those of its operation, and what is not named is zero (R280, R282). -/
def jobFields (d : List Byte) : Bool :=
  let op := jdOp d
  let c := jdFmt d
  let rest := zeroAt d 6 2 && zeroAt d 44 20 && decide (jdSrc d < 2 ^ 40) && decide (jdDst d < 2 ^ 40)
  if op = 1 then rest && decide (byteAt d 1 < 64) && decide (jdCoding d ≤ 2) && jdOut d = 0 && (c = 0x0A || c = 0x0C || c = 0x10)
    && jdNpix d ≠ 0 && decide (jdSrcLen d = packedLen c (jdNpix d))
  else if op = 2 then rest && byteAt d 1 = 0 && c = 0 && decide (jdOut d ≤ 1) && jdNpix d = 0
  else if op = 3 then rest && byteAt d 1 = 0 && c = 0 && jdOut d = 0 && jdNpix d = 0 && jdDstLen d = 0
  else false

/-- The checks made when a job starts (R282). -/
def State.jobCheck (s : State) (d : List Byte) : Nat :=
  let wr : Bool := jdOp d ≠ 3
  if !jobFields d || !s.hostReadable (jdSrc d) (jdSrcLen d)
      || (wr && (!s.hostWritable (jdDst d) (jdDstLen d) || overlaps (jdSrc d) (jdSrcLen d) (jdDst d) (jdDstLen d))) then stBADARG
  else if jdOp d = 1 && jdCoding d = 2 && !s.part.bounded then stABSENT
  else stDONE

/-- The front of the queue begins, when it has the given operation; a job that is running keeps the unit. [DEDUCED, log entry 63] -/
def State.jobTake (s : State) (op : Nat) : Option (List Byte × State) :=
  match s.jobs.queue, s.jobs.run with
  | d :: rest, none => if s.runs .cmp && (jdOp d = op || (op = 3 && !([1, 2].contains (jdOp d))))
      then some (d, s.onJobs (fun j => { j with queue := rest })) else none
  | _, _ => none

/-- A job runs to its result, which JOB_DONE reports. Until then what it writes of its destination is undefined (R282). -/
def State.jobResult (s : State) (r : JobRun) : State := s.onJobs (fun j => { j with run := some r })

/-! ### The operations (R281, R282) -/

/-- R281: GO queues the descriptor, or sets REFUSED when 16 jobs wait. -/
def jobSubmit (s : State) : State :=
  if s.inReset then s
  else if 16 ≤ s.jobs.queue.length then s.setBit aJStat 30 true
  else
    let d := (upTo 16).flatMap (fun i => leBytes 4 (s.reg (aJob (4 * i))))
    s.onJobs (fun j => { j with queue := j.queue ++ [d] })

/-- The blocks of a COMPRESS job: its pixels cut at P_max, coded; those whose shadow decode a hardware error failed are RAW. -/
def jobBlocks (d : List Byte) (pixels : List Nat) (bad : List Nat) : List Block :=
  let ps := chunks (pMax (jdFmt d)) pixels
  let n := ps.length
  (ps.zip (upTo n)).map (fun c =>
    let b : Block := { tile := 0xFF, frame := 0, fmt := jdFmt d, pixels := c.1, first := c.2 = 0, flushed := decide (c.2 + 1 = n) }
    let b := b.code (jdCoding d + 1) (jdE d) (jdPred d)
    if b.kind ≠ 1 && (bad.contains c.2 || !b.verify) then { b with vraw := true }.raw else b)

/-- Each block in turn reserves its worst case in the rest of the destination: how many blocks there is room for, each given as what it
reserves and what it takes (R282). -/
def jobRoom : Nat → List (Nat × Nat) → Nat
  | _, [] => 0
  | room, (need, len) :: rest => if need ≤ room then 1 + jobRoom (room - len) rest else 0

/-- Every block fits. -/
def jobFits (room : Nat) (bs : List (Nat × Nat)) : Bool := jobRoom room bs = bs.length

/-- The source as a job reads it, with the memory errors it meets (R213): its bytes, and whether an uncorrectable word is among them. -/
def State.jobSource (s : State) (d : List Byte) (e : MemErrs) : List Byte × Bool :=
  (readWith e (jdSrc d) (s.hostRead (jdSrc d) (jdSrcLen d)), badIn e (jdSrc d) (jdSrcLen d))

/-- The memory errors that a job's source holds are counted and marked (R213, R229). -/
def State.jobNote (s : State) (d : List Byte) (e : MemErrs) : State := s.noteErrs e (jdSrc d) (jdSrcLen d)

/-- R281, R282: COMPRESS. `bad` are the blocks whose shadow decode a hardware error fails, `e` the memory errors met in the source
(R213). A job that runs out of space has written the blocks before. [DEDUCED, log entry 63] -/
def compress (bad : List Nat) (e : MemErrs) (s : State) : State :=
  match s.jobTake 1 with
  | none => s
  | some (d, s) =>
    let st := s.jobCheck d
    if st ≠ stDONE then s.jobResult { desc := d, status := st }
    else
      let src := s.jobSource d e
      let s := s.jobNote d e
      let bs := jobBlocks d (unpackPixels (bitsOf (jdFmt d)) (jdNpix d) src.1) bad
      let k := jobRoom (jdDstLen d) (bs.map (fun b => (b.reserve, b.bytes.length)))
      let mis := ((bs.take k).filter (·.vraw)).length
      if k = bs.length then
        let out := bs.flatMap (·.bytes)
        let st := if src.2 then stCHECK else if mis ≠ 0 then stVERIFY else stDONE
        (s.scramble (jdDst d) out.length).jobResult
          { desc := d, status := st, nblk := k, nmis := mis, outLen := out.length, out := out }
      else (s.scramble (jdDst d) (jdDstLen d)).jobResult { desc := d, status := stNOSPACE, nblk := k, nmis := mis }

/-- The decoded form of a walk: one packed stream, or 16-bit words (R279, R280). -/
def decodedOut (outFmt : Nat) (w : Walk) : List Byte :=
  if outFmt = 1 then w.pixels.flatten.flatMap (leBytes 2)
  else match w.heads.head? with
    | some h => packPixels (bitsOf h.fmt) w.pixels.flatten
    | none => []

/-- Bits that a block adds to the output: its exact decoded size, which is also what it reserves. -/
def decodedSize (outFmt : Nat) (h : BlockHead) : Nat × Nat :=
  let n := h.npix * (if outFmt = 1 then 16 else bitsOf h.fmt)
  (n, n)

/-- The status of a walk (R282). -/
def walkStatus (w : Walk) (ue : Bool) : Nat := if w.cut || w.ncrc ≠ 0 || ue then stCHECK else stDONE

/-- R281, R282: DECOMPRESS. A block reserves its space by its header, so that one whose body ends the walk is refused for want of space
first; a job that runs out of space has decoded the blocks before. [DEDUCED, log entry 63] -/
def decompress (e : MemErrs) (s : State) : State :=
  match s.jobTake 2 with
  | none => s
  | some (d, s) =>
    let st := s.jobCheck d
    if st ≠ stDONE then s.jobResult { desc := d, status := st }
    else
      let src := s.jobSource d e
      let s := s.jobNote d e
      let w := walk (jdOut d = 0) src.1
      let needs := (w.heads ++ w.next.toList).map (decodedSize (jdOut d))
      let k := jobRoom (8 * jdDstLen d) needs
      if k = needs.length then
        let out := decodedOut (jdOut d) w
        let s := s.count (HRT + 0x114) w.ncrc
        (s.scramble (jdDst d) out.length).jobResult
          { desc := d, status := walkStatus w src.2, nblk := w.heads.length, ncrc := w.ncrc, outLen := out.length, firstBad := w.firstBad,
            out := out }
      else
        let bads := w.bads.filter (fun c => decide (c.1 < k))
        ((s.count (HRT + 0x114) bads.length).scramble (jdDst d) (jdDstLen d)).jobResult
          { desc := d, status := stNOSPACE, nblk := k, ncrc := bads.length, firstBad := bads.head?.map (·.2) }

/-- R281, R282: CHECK; a descriptor whose OP names no operation is begun, and refused, as one. [DEDUCED, log entry 63] -/
def check (e : MemErrs) (s : State) : State :=
  match s.jobTake 3 with
  | none => s
  | some (d, s) =>
    let st := s.jobCheck d
    if st ≠ stDONE then s.jobResult { desc := d, status := st }
    else
      let src := s.jobSource d e
      let s := s.jobNote d e
      let w := walk false src.1
      (s.count (HRT + 0x114) w.ncrc).jobResult
        { desc := d, status := walkStatus w src.2, nblk := w.heads.length, ncrc := w.ncrc, firstBad := w.firstBad }

/-! ### The end of a job (R283) -/

/-- The 32 bytes of a job record. -/
def JobRun.record (r : JobRun) : List Byte :=
  pack 32 [(0, 2, jdTag r.desc), (2, 1, jdOp r.desc), (3, 1, r.status), (4, 4, r.nblk), (8, 4, r.nmis), (12, 4, r.ncrc),
    (16, 8, r.outLen), (24, 8, r.firstBad.getD (2 ^ 64 - 1))]

/-- A job's record is posted, and CMP_JSTAT keeps its status and tag. -/
def State.jobEnd (s : State) (r : JobRun) : State :=
  let s := s.onJobs (fun j => { j with lastStatus := r.status, lastTag := jdTag r.desc })
  s.eqPost 1 0 0 r.record

/-- R283: the running job ends, and its output stands. A destination that has ceased to be host-writable meanwhile makes it end ABORTED (R282).
[DEDUCED, log entry 63] -/
def jobDone (s : State) : State :=
  match s.jobs.run with
  | none => s
  | some r =>
    let s := s.onJobs (fun j => { j with run := none })
    let began : Bool := r.status ≠ stBADARG && r.status ≠ stABSENT
    if began && jdOp r.desc ≠ 3 && (r.cut || !s.hostWritable (jdDst r.desc) (jdDstLen r.desc)) then
      s.jobEnd { desc := r.desc, status := stABORTED }
    else (s.hostWrite (jdDst r.desc) r.out).jobEnd r

/-- The running job and every queued one end ABORTED (R282, R288); the running one leaves its destination undefined,
unless it may no longer write there. [DEDUCED, log entry 63] -/
def State.jobsAbort (s : State) : State :=
  let rs := (s.jobs.run.toList.map (·.desc)) ++ s.jobs.queue
  let s := match s.jobs.run with
    | some r =>
      let began : Bool := jdOp r.desc ≠ 3 && r.status ≠ stBADARG && r.status ≠ stABSENT
      if began && !r.cut && s.hostWritable (jdDst r.desc) (jdDstLen r.desc) then s.scramble (jdDst r.desc) (jdDstLen r.desc) else s
    | none => s
  let s := s.onJobs (fun j => { j with run := none, queue := [] })
  s.each rs (fun s d => s.jobEnd { desc := d, status := stABORTED })

/-- R288: CMP_JABORT.ALL. -/
def jobAbort (s : State) : State := s.jobsAbort

/-- R284: STOPPING of CMP reaches 200 µs, and what is left is discarded and reported as under a QUENCH. -/
def cmpStopTimeout (s : State) : State := if s.fnState .cmp = .stopping then s.cmpDiscard else s

/-- CMP_JSTAT as read (R288). -/
def State.jStat (s : State) : Nat :=
  b2n s.jobs.run.isSome * 2 ^ 31 + b2n (s.bit aJStat 30) * 2 ^ 30 + s.jobs.queue.length * 2 ^ 24 + s.jobs.lastStatus * 65536
    + s.jobs.lastTag

end Sys2Proof.Machine
end

