-- ==== Sys2Proof/Machine/Ptp.lean ====
section
/-!
DEFINITION. Rig synchronisation (chapter 11): the sync ports' links (R320, R321), PTP messages and their stamps (R322–R325),
clock roles and the best master (R326), the rig servo (R327–R329), rig triggers (R330–R332), the PTP function (R334).
-/

namespace Sys2Proof.Machine

def PTP : Nat := 0x00280000
/-- A register of sync port p (R337). -/
def aPort (p off : Nat) : Nat := PTP + 0x100 + 0x100 * p + off

def State.portAt (s : State) (p : Nat) : PtpPort := (s.ptp.ports[p]?).getD {}
def State.onPort (s : State) (p : Nat) (g : PtpPort → PtpPort) : State :=
  s.putPtp { s.ptp with ports := s.ptp.ports.setIfInBounds p (g (s.portAt p)) }
def State.onPtp (s : State) (g : PtpState → PtpState) : State := s.putPtp (g s.ptp)

/-! ### Configuration -/

/-- PTP_CFG.ROLE: 3 acts as 0 (R336). -/
def State.ptpRole (s : State) : Nat := let r := s.fld PTP 31 30; if r = 3 then 0 else r
def State.ptpFixed (s : State) : Bool := s.bit PTP 29
def State.ptpP2P (s : State) : Bool := s.bit PTP 28
def State.portOn (s : State) (p : Nat) : Bool := decide (p < s.part.ethPorts) && s.bit (aPort p 0) 31
/-- PTP_PCFG.RATE: 3 acts as 0 (R337). -/
def State.portRate (s : State) (p : Nat) : Nat := let r := s.fld (aPort p 0) 30 29; if r = 3 then 0 else r
def State.portLink (s : State) (p : Nat) : Bool := s.bit (aPort p 0x0C) 31
def State.portState (s : State) (p : Nat) : Nat := s.fld (aPort p 0x0C) 27 24
def State.portAsym (s : State) (p : Nat) : Int := sx 32 (s.reg (aPort p 8))

/-- The clock runs on port p (R326). -/
def State.clockPort (s : State) (p : Nat) : Bool :=
  s.portOn p && (s.ptpRole = 2 || (s.ptpRole = 1 && p = b2n (s.bit PTP 26)))

/-- The MAC address of ETH0 (R336). -/
def State.mac (s : State) : Nat := s.reg (PTP + 0x10) + 2 ^ 32 * s.reg (PTP + 0x14)

/-- The MAC address of port p: ETH1 uses ETH0's + 1 (R336). -/
def State.portMac (s : State) (p : Nat) : Nat := (s.mac + p) % 2 ^ 48

/-- The clock identity (R322): the EUI-64 of the port's MAC address, ETH0's but for an ordinary clock on ETH1. [PRESUMED, log entry 69] -/
def State.clockId (s : State) : Nat :=
  let m := s.portMac (if s.ptpRole = 1 then b2n (s.bit PTP 26) else 0)
  bits m 47 24 * 2 ^ 40 + 0xFFFE * 2 ^ 24 + bits m 23 0

/-! ### Frames (R320, R322, R330) -/

/-- The 802.1Q tag that port p sends: its priority and VID (R320, R337). -/
def State.portTag (s : State) (p : Nat) : Option (Nat × Nat) :=
  if s.bit (aPort p 0) 25 then some (s.fld (aPort p 0) 24 22, s.fld (aPort p 0) 11 0) else none

/-- A received frame has the tag that port p expects: one with its VID, or none (R320, R337). [PRESUMED, log entry 69] -/
def State.tagOk (s : State) (p : Nat) (vid : Option Nat) : Bool := vid = (s.portTag p).map (·.2)

/-- 01-80-C2-00-00-0E: the peer-to-peer profile's group and that of the rig messages (R322, R330). -/
def macPeer : Nat := 0x0180C200000E

/-- The head of a PTP message on port p (R322): by transport and profile; event messages, of type 0–3, use port 319, the others 320. -/
def State.ptpHead (s : State) (p kind : Nat) : EthHead :=
  let peer := s.ptpP2P
  if s.bit PTP 27 then
    { dst := if peer then 0x01005E00006B else 0x01005E000181, src := s.portMac p, tag := s.portTag p, etherType := 0x0800,
      udp := some { src := s.reg (PTP + 0xC), group := if peer then 0xE000006B else 0xE0000181, port := if kind < 4 then 319 else 320 } }
  else
    { dst := if peer then macPeer else 0x011B19000000, src := s.portMac p, tag := s.portTag p, etherType := 0x88F7, udp := none }

/-- The head of a rig message on port p (R330). -/
def State.rigHead (s : State) (p : Nat) : EthHead :=
  { dst := macPeer, src := s.portMac p, tag := s.portTag p, etherType := 0x88B5, udp := none }

/-! portState numbers (R337). -/
def psINITIALIZING : Nat := 1
def psDISABLED : Nat := 3
def psLISTENING : Nat := 4
def psPREMASTER : Nat := 5
def psMASTER : Nat := 6
def psPASSIVE : Nat := 7
def psUNCALIBRATED : Nat := 8
def psSLAVE : Nat := 9

/-- The port follows a master. -/
def State.slavePort (s : State) (p : Nat) : Bool := s.portState p = psUNCALIBRATED || s.portState p = psSLAVE

/-- The time now as class 9 stamps it (R299). -/
def State.nowPtp (s : State) : Stamp := s.stampOf s.rawNow res312 0

/-- A portState is entered and logged (R335). -/
def State.setPort (s : State) (p n : Nat) : State :=
  let old := s.portState p
  if old = n then s else (s.setFld (aPort p 0x0C) 27 24 n).log s.nowPtp 9 p 1 [(20, 1, n), (21, 1, old)]

/-- A grandmaster is followed or become, and logged when it changes (R335). -/
def State.setGm (s : State) (idx gm : Nat) : State :=
  if s.reg64 (PTP + 0x28) = gm then s
  else ((s.setReg (PTP + 0x28) (gm % 2 ^ 32)).setReg (PTP + 0x2C) (gm / 2 ^ 32)).log s.nowPtp 9 idx 2 [(20, 8, gm)]

/-! ### Stamps (R323) -/

/-- The constants of R323 in 2^-16 ns, to the nearest: receive, transmit. -/
def State.portConst (s : State) (p : Nat) : Nat × Nat :=
  if s.bit (aPort p 0x0C) 30 then
    if s.bit (aPort p 0) 28 then (16462643, 5788140) else (2516582, 1635779)
  else (3418358, 2306867)

/-- The corrected stamp of an arrival (R298, R323). -/
def State.rxStamp (s : State) (p : Nat) (raw : Stamp) : Stamp := s.stampOf raw res312 (s.portConst p).1

/-- The corrected stamp of a departure now. -/
def State.txStamp (s : State) (p : Nat) : Stamp := s.stampOf s.rawNow res312 (-(((s.portConst p).2 : Nat) : Int))

/-! ### Data sets and the best master (R326) -/

/-- A data set as the best master clock algorithm of IEEE 1588-2019 compares it: what is announced, by whom, and by which clock and port
it was received. -/
structure Cand where
  data : PtpData
  clock : Nat
  port : Nat
  recv : Nat
  recvPort : Nat
deriving DecidableEq, Repr

/-- The own data set (R326): PTP_CLK with unknown accuracy and variance. -/
def State.ownCand (s : State) : Cand :=
  { data := { gm := s.clockId, prio1 := s.fld (PTP + 4) 31 24, class_ := s.fld (PTP + 4) 15 8, acc := 0xFE, variance := 0xFFFF,
              prio2 := s.fld (PTP + 4) 23 16, steps := 0, utc := 0, utcValid := false },
    clock := s.clockId, port := 0, recv := s.clockId, recvPort := 0 }

/-- The first difference decides: −1 where a is lower, 1 where b is, 0 where all are equal. -/
def lexCmp : List (Nat × Nat) → Int
  | [] => 0
  | (a, b) :: r => if a < b then -1 else if b < a then 1 else lexCmp r

/-- The comparison of two data sets: −2 a is better, −1 a is better by topology, 1 and 2 likewise for b, 0 neither. Between data sets of
one grandmaster that differ by one step, the nearer is better; it is so by topology alone where the receiver of the other has a
greater identity than its sender. [PRESUMED, log entry 69] -/
def Cand.cmp (a b : Cand) : Int :=
  if a.data.gm ≠ b.data.gm then
    2 * lexCmp [(a.data.prio1, b.data.prio1), (a.data.class_, b.data.class_), (a.data.acc, b.data.acc),
                (a.data.variance, b.data.variance), (a.data.prio2, b.data.prio2), (a.data.gm, b.data.gm)]
  else if b.data.steps + 1 < a.data.steps then 2
  else if a.data.steps + 1 < b.data.steps then -2
  else if b.data.steps < a.data.steps then (if a.recv < a.clock then 2 else if a.clock < a.recv then 1 else 0)
  else if a.data.steps < b.data.steps then (if b.recv < b.clock then -2 else if b.clock < b.recv then -1 else 0)
  else lexCmp [(a.clock, b.clock), (a.recvPort, b.recvPort)]

/-- The better of two. -/
def Cand.pick (a b : Cand) : Cand := if b.cmp a < 0 then b else a

/-- What clock c's port n announced to port p. -/
def State.candOf (s : State) (p : Nat) (d : PtpData) (c n : Nat) : Cand := { data := d, clock := c, port := n, recv := s.clockId, recvPort := p + 1 }

/-- The best qualified foreign master of port p: one heard at least twice. -/
def State.portBest (s : State) (p : Nat) : Option Cand :=
  match ((s.portAt p).foreign.filter (fun f => 2 ≤ f.heard)).map (fun f => s.candOf p f.data f.clock f.port) with
  | [] => none
  | c :: cs => some (cs.foldl Cand.pick c)

/-- The best over the clock's ports, with its port. -/
def State.best (s : State) : Option (Nat × Cand) :=
  match (if s.clockPort 0 then s.portBest 0 else none), (if s.clockPort 1 then s.portBest 1 else none) with
  | some a, some b => if b.cmp a < 0 then some (1, b) else some (0, a)
  | some a, none => some (0, a)
  | none, some b => some (1, b)
  | none, none => none

/-- The servo loses its master (R327): LOCKED becomes HOLDOVER, with the last increment, ACQUIRE becomes FREE, which MODE 1 runs at the
nominal one (R293). [DEDUCED, log entry 71] -/
def State.lostMaster (s : State) : State :=
  if s.bit aTbCfg 31 && !s.follower then
    if s.sync = 2 then s.setSync 3
    else if s.sync = 1 then (s.clearStep).setSync 0
    else s
  else s

/-- Port p follows a master. A change of the parent needs a new path delay. -/
def State.becomeSlave (s : State) (p : Nat) (c : Cand) : State :=
  let same : Bool := (s.portAt p).parent = some (c.clock, c.port)
  let s := if same then s else s.onPort p (fun x =>
    { x with parent := some (c.clock, c.port), heldSync := none, down := none, req := none, mpd := if s.ptpP2P then x.mpd else none })
  let s := if s.slavePort p then s else s.setPort p psUNCALIBRATED
  let s := s.setReg (PTP + 0x30) (b2n c.data.utcValid * 65536 + c.data.utc % 65536)
  s.setGm p c.data.gm

/-- Port p stops following a master. -/
def State.leaveSlave (s : State) (p n : Nat) : State :=
  (s.onPort p (fun x => { x with parent := none, heldSync := none, down := none })).setPort p n

/-- A time of n intervals of logarithm k, in 2^-16 ns. -/
def logTime (n : Nat) (k : Int) : Nat :=
  if k < 0 then n * (1000000000 * NS) / 2 ^ k.natAbs else n * (1000000000 * NS) * 2 ^ k.natAbs

/-- A logarithm in PTP_PINTV of port p, at its top bit. -/
def State.portIntv (s : State) (p hi : Nat) : Int := sx 4 (bits (s.reg (aPort p 4)) hi (hi - 3))

/-- Port p is to be master. With a master on another port that is `steps` away it passes PRE_MASTER, for one announce interval more
than the steps the clock itself is away; otherwise it is MASTER at once. [PRESUMED, log entry 69] -/
def State.toMaster (s : State) (p : Nat) (steps : Option Nat) : State :=
  let st := s.portState p
  if st = psMASTER || st = psPREMASTER then s.leaveSlave p st
  else match steps with
    | none => s.leaveSlave p psMASTER
    | some n => (s.onPort p (fun x => { x with qualify := s.rawNow + logTime (n + 2) (s.portIntv p 27) })).leaveSlave p psPREMASTER

/-- The qualification time of a port in PRE_MASTER has passed. [DESIGN CHOICE, log entry 2; PRESUMED, log entry 69] -/
def State.tickPort (s : State) (p : Nat) : State :=
  if s.runs .ptp && s.portState p = psPREMASTER && decide ((s.portAt p).qualify ≤ s.rawNow) then s.setPort p psMASTER else s

/-- The recommended state of port p (R326, IEEE 1588-2019): a listening port with no master waits for its timeout. [PRESUMED, log entry 69] -/
def State.bmcaPort (s : State) (timedOut : Nat → Bool) (p : Nat) : State :=
  if !s.clockPort p || !s.portLink p then s
  else
    let own := s.ownCand
    let mine := s.portBest p
    if s.portState p = psLISTENING && mine.isNone && !timedOut p then s
    else if own.data.class_ < 128 then
      match mine with
      | some c => if c.cmp own < 0 then s.leaveSlave p psPASSIVE else s.toMaster p none
      | none => s.toMaster p none
    else
      match s.best with
      | none => s.toMaster p none
      | some (r, b) =>
        if own.cmp b < 0 then s.toMaster p none
        else if r = p then s.becomeSlave p b
        else match mine with
          | some c => if b.cmp c = -1 then s.leaveSlave p psPASSIVE else s.toMaster p (some b.data.steps)
          | none => s.toMaster p (some b.data.steps)

/-- A port follows a master. -/
def State.hasSlave (s : State) : Bool := s.slavePort 0 || s.slavePort 1

/-- The servo has lost its master when no port follows one any more where one did (R327); a change of the parent alone, from
one port to the other too, is no loss. -/
def State.orLost (s : State) (was : Bool) : State := if was && !s.hasSlave then s.lostMaster else s

/-- A head with no slave port, on which a clock runs, is grandmaster (R326). -/
def State.ownGm (s : State) : State := if s.ptpRole ≠ 0 && !s.hasSlave then s.setGm 2 s.clockId else s

/-- The best master is chosen anew. A head with no slave port is grandmaster (R326). [PRESUMED, log entry 69; DEDUCED, log entry 71] -/
def State.bmca (s : State) (timedOut : Nat → Bool) : State :=
  let s := if s.ptpFixed then s else ((s.bmcaPort timedOut 0).bmcaPort timedOut 1).orLost s.hasSlave
  s.ownGm

/-! ### The servo (R327–R329) -/

/-- The servo acts on the timebase: MODE 1, TB and PTP RUNNING, no pair follower (R314, R329). -/
def State.servoOn (s : State) : Bool := s.bit aTbCfg 31 && s.runs .tb && s.runs .ptp && !s.follower && s.sync ≠ 4

/-- A first offset (R327): one step to the master's time is requested. -/
def State.servoFirst (s : State) (ofs : Int) : State :=
  ((s.onPtp (fun t => { t with gm := some (s.reg64 (PTP + 0x28)), good := 0 })).requestStep (.by (-ofs))).setSync 1

/-- The increment changes, within the limits of R290. [DESIGN CHOICE, log entry 66] -/
def State.servoRate (s : State) : State :=
  (s.putInc (0x7F5C28F6 + (Config.servoInc s.freeUse).toNat % (0x80A3D70A - 0x7F5C28F6 + 1))).useFree

/-- What the servo does with an offset (R327). While a step waits the servo slews, and its latest request replaces the one that
waits (R296). -/
def State.servoAct (s : State) (p : Nat) (ofs : Int) : State :=
  if !s.servoOn then s
  else
    let changed : Bool := s.ptp.gm ≠ some (s.reg64 (PTP + 0x28))
    if s.sync = 0 || changed then s.servoFirst ofs
    else if s.sync = 3 && decide (s.fld aTbCfg 23 0 * NS < ofs.natAbs) then ((s.requestStep (.by (-ofs))).setSync 2).setPort p psSLAVE
    else
      let s := if s.tb.pend.isSome then s.requestStep (.by (-ofs)) else s
      let s := s.servoRate
      if s.sync = 1 then
        let ok : Bool := s.tb.pend.isNone && decide (ofs.natAbs ≤ s.fld (PTP + 8) 31 16 * NS)
        let n := if ok then s.ptp.good + 1 else 0
        let s := s.onPtp (fun t => { t with good := n })
        if 8 ≤ n then (s.setSync 2).setPort p psSLAVE else s
      else (s.setSync 2).setPort p psSLAVE

/-- An offset is measured and shown (R327, R336). -/
def State.takeOffset (s : State) (p : Nat) (ofs : Int) : State :=
  (s.setReg (PTP + 0x20) (ux 32 (clampI (-(2 ^ 31)) (2 ^ 31 - 1) ofs))).servoAct p ofs

/-- A Sync is complete: t2 − t1 without correction and asymmetry; with a path delay it gives an offset. -/
def State.syncDone (s : State) (p : Nat) (t1 t2 : Stamp) (corr : Int) : State :=
  let d := (t2 : Int) - t1 - corr - s.portAsym p
  let s := s.onPort p (fun x => { x with down := some d })
  match (s.portAt p).mpd with
  | some m => s.takeOffset p (d - m)
  | none => s

/-- A path delay is measured (R327); the first one completes the first offset. -/
def State.takeDelay (s : State) (p : Nat) (m : Int) : State :=
  let first : Bool := (s.portAt p).mpd.isNone
  let s := s.onPort p (fun x => { x with mpd := some m })
  let s := if s.slavePort p || !s.ptpP2P then s.setReg (PTP + 0x24) (clampI 0 (2 ^ 32 - 1) m).toNat else s
  match (s.portAt p).down with
  | some d => if first && s.slavePort p then s.takeOffset p (d - m) else s
  | none => s

/-! ### Receiving PTP messages (R320, R322) -/

/-- Port p receives frames: PTP RUNNING, port enabled, link. [DEDUCED, log entry 4] -/
def State.portLive (s : State) (p : Nat) : Bool := s.runs .ptp && s.portOn p && s.portLink p

/-- A message uses no option beyond R322: no unicast, no alternate timescale, and no TLV, of which the default profiles require none
(security is one). [PRESUMED, log entry 69] -/
def ptpSupported (h : PtpHead) : Bool := !h.unicast && !h.alternate && h.tlvs.isEmpty

/-- The message is one the device supports and is set to: tag, transport and group, options, version, domain, delay mechanism (R320, R322).
[PRESUMED, log entry 69] -/
def State.ptpFits (s : State) (p : Nat) (h : PtpHead) (mech : Option Bool) : Bool :=
  s.tagOk p h.tag && h.udp == s.bit PTP 27 && h.peer == s.ptpP2P && ptpSupported h && h.version = 2 && h.domain = s.fld PTP 7 0
    && mech ≠ some (!s.ptpP2P)

/-- A PTP message of the given mechanism is accepted, or discarded and counted; a port on which no clock runs, or that is DISABLED, takes
none (R326). -/
def State.ptpTake (s : State) (p : Nat) (h : PtpHead) (mech : Option Bool) : State × Bool :=
  if !s.portLive p then (s, false)
  else if !h.fcs then (s.count (aPort p 0x54), false)
  else if !s.ptpFits p h mech then (s.count (aPort p 0x48), false)
  else if !s.clockPort p || s.portState p = psDISABLED then (s, false)
  else (s.count (aPort p 0x40), true)

/-- The body of a receive command: what a message does once it is accepted. -/
def State.ptpRx (s : State) (p : Nat) (h : PtpHead) (mech : Option Bool) (g : State → State) : State :=
  let r := s.ptpTake p h mech
  if r.2 then g r.1 else r.1

/-- The message comes from the master that port p follows; with fixed roles a slave port takes the first it hears. -/
def State.fromParent (s : State) (p : Nat) (h : PtpHead) : Bool :=
  s.slavePort p && (match (s.portAt p).parent with
    | some (c, n) => c = h.clock && n = h.port
    | none => s.ptpFixed)

/-- R327: a Sync is received. One that the timeout overtook is late; a two-step Sync waits for its Follow_Up (R328). [DEDUCED, log entry 71] -/
def syncRx (p : Fin 2) (h : PtpHead) (twoStep : Bool) (origin raw : Nat) (s : State) : State :=
  s.ptpRx p.val h none (fun s =>
    if !s.fromParent p.val h then s
    else
      let late : Bool := match (s.portAt p.val).silent with | some t => decide (raw ≤ t) | none => false
      if late then s.count (aPort p.val 0x4C)
      else
        let s := s.onPort p.val (fun x => { x with silent := none, parent := some (h.clock, h.port) })
        let s := if (s.portAt p.val).heldSync.isSome then s.count (aPort p.val 0x4C) else s
        let t2 := s.rxStamp p.val raw
        if twoStep then s.onPort p.val (fun x => { x with heldSync := some (h.seq, t2, h.corr) })
        else (s.onPort p.val (fun x => { x with heldSync := none })).syncDone p.val (origin * NS) t2 h.corr)

/-- R322, R328: a Follow_Up completes the held Sync of its sequenceId, or is late. -/
def followUpRx (p : Fin 2) (h : PtpHead) (origin : Nat) (s : State) : State :=
  s.ptpRx p.val h none (fun s =>
    match (s.portAt p.val).heldSync with
    | some (q, t2, corr) =>
      if q = h.seq && s.fromParent p.val h then
        (s.onPort p.val (fun x => { x with heldSync := none })).syncDone p.val (origin * NS) t2 (corr + h.corr)
      else s.count (aPort p.val 0x4C)
    | none => s.count (aPort p.val 0x4C))

/-- logMessageInterval of a message that port p sends (PTP_PINTV, R337): the interval of its kind, 0x7F for the requests and Pdelay_Resp.
[PRESUMED, log entry 69] -/
def State.ptpIntv (s : State) (p kind : Nat) : Int :=
  if kind = 0 then s.portIntv p 31 else if kind = 11 then s.portIntv p 27 else if kind = 9 then s.portIntv p 23 else 0x7F

/-- A PTP message leaves port p (R322, R324): fields in the order of its kind, then domainNumber, the sourcePortIdentity, twoStepFlag and
logMessageInterval. -/
def State.ptpSend (s : State) (p kind : Nat) (fields : List Int) : State :=
  let ident : List Int := [(s.fld PTP 7 0 : Int), (s.clockId : Int), (p + 1 : Int), 0, s.ptpIntv p kind]
  (s.emit (.eth p (s.ptpHead p kind) kind (fields ++ ident) [])).count (aPort p 0x44)

/-- R322: a Delay_Req on a master port is answered with its arrival (messageType 9). -/
def delayReqRx (p : Fin 2) (h : PtpHead) (raw : Nat) (s : State) : State :=
  s.ptpRx p.val h (some false) (fun s =>
    if s.portState p.val = psMASTER then
      let t := s.rxStamp p.val raw
      s.ptpSend p.val 9 [(h.seq : Int), (t / NS : Nat), h.corr - (t % NS : Nat), (h.clock : Int), (h.port : Int)]
    else s)

/-- The message answers the request in flight: its sequenceId and the requesting port's identity are this port's. -/
def State.answers (s : State) (p : Nat) (h : PtpHead) (reqClock reqPort : Nat) : Option Stamp :=
  match (s.portAt p).req with
  | some (q, t) => if q = h.seq && reqClock = s.clockId && reqPort = p + 1 then some t else none
  | none => none

/-- R327: a Delay_Resp gives the path delay, with the last Sync. -/
def delayRespRx (p : Fin 2) (h : PtpHead) (recv reqClock reqPort : Nat) (s : State) : State :=
  s.ptpRx p.val h (some false) (fun s =>
    match s.answers p.val h reqClock reqPort, (s.portAt p.val).down with
    | some t3, some d =>
      if s.fromParent p.val h then
        let up := (recv * NS : Nat) - (t3 : Int) - h.corr
        (s.onPort p.val (fun x => { x with req := none })).takeDelay p.val ((d + up) / 2)
      else s
    | _, _ => s)

/-- R324: a Pdelay_Req is answered with a one-step Pdelay_Resp (messageType 3), its turnaround in correctionField. -/
def pdelayReqRx (p : Fin 2) (h : PtpHead) (raw : Nat) (s : State) : State :=
  s.ptpRx p.val h (some true) (fun s =>
    let turn : Int := (s.txStamp p.val : Int) - s.rxStamp p.val raw
    s.ptpSend p.val 3 [(h.seq : Int), 0, h.corr + turn, (h.clock : Int), (h.port : Int)])

/-- R327: a Pdelay_Resp gives the peer delay; a two-step one waits for its follow-up. -/
def pdelayRespRx (p : Fin 2) (h : PtpHead) (twoStep : Bool) (recv reqClock reqPort raw : Nat) (s : State) : State :=
  s.ptpRx p.val h (some true) (fun s =>
    match s.answers p.val h reqClock reqPort with
    | some t1 =>
      let t4 := s.rxStamp p.val raw
      let corr := h.corr + s.portAsym p.val
      if twoStep then s.onPort p.val (fun x => { x with heldResp := some (h.seq, t4, (recv * NS : Nat), corr) })
      else (s.onPort p.val (fun x => { x with req := none })).takeDelay p.val (((t4 : Int) - t1 - corr) / 2)
    | none => s)

/-- R322: a Pdelay_Resp_Follow_Up completes a two-step peer delay. -/
def pdelayRespFollowUpRx (p : Fin 2) (h : PtpHead) (origin reqClock reqPort : Nat) (s : State) : State :=
  s.ptpRx p.val h (some true) (fun s =>
    match s.answers p.val h reqClock reqPort, (s.portAt p.val).heldResp with
    | some t1, some (q, t4, t2, corr) =>
      if q = h.seq then
        let turn : Int := (origin * NS : Nat) - t2
        (s.onPort p.val (fun x => { x with req := none, heldResp := none })).takeDelay p.val
          (((t4 : Int) - t1 - turn - corr - h.corr) / 2)
      else s
    | _, _ => s)

/-- R326: an Announce is received and the best master chosen anew; with fixed roles a slave port follows its sender. [PRESUMED, log entry 69] -/
def announceRx (p : Fin 2) (h : PtpHead) (d : PtpData) (s : State) : State :=
  s.ptpRx p.val h none (fun s =>
    if h.clock = s.clockId || 255 ≤ d.steps then s
    else if s.ptpFixed then
      let known : Bool := match (s.portAt p.val).parent with | some q => q = (h.clock, h.port) | none => true
      if s.slavePort p.val && known then
        (s.onPort p.val (fun x => { x with foreign := [{ clock := h.clock, port := h.port, data := d, heard := 2 }] })).becomeSlave p.val
          (s.candOf p.val d h.clock h.port)
      else s
    else
      let old := (s.portAt p.val).foreign
      let n := match old.find? (fun f => f.clock = h.clock && f.port = h.port) with | some f => f.heard + 1 | none => 1
      let f : Foreign := { clock := h.clock, port := h.port, data := d, heard := n }
      let s := s.onPort p.val (fun x => { x with foreign := f :: old.filter (fun f => !(f.clock = h.clock && f.port = h.port)) })
      s.bmca (fun _ => false))

/-! ### Sending (R322, R324) -/

/-- R324: a master port sends a one-step Sync (messageType 0). -/
def syncTx (p : Fin 2) (s : State) : State :=
  if s.portLive p.val && s.clockPort p.val && s.portState p.val = psMASTER then
    let t := s.txStamp p.val
    let q := (s.portAt p.val).syncSeq
    (s.ptpSend p.val 0 [(q : Int), (t / NS : Nat), (t % NS : Nat)]).onPort p.val (fun x => { x with syncSeq := (q + 1) % 65536 })
  else s

/-- R322: a master port sends Announce (messageType 11) with the grandmaster it follows or is. [PRESUMED, log entry 69] -/
def announceTx (p : Fin 2) (s : State) : State :=
  if s.portLive p.val && s.clockPort p.val && s.portState p.val = psMASTER then
    let q := (s.portAt p.val).annSeq
    let d := match (if s.hasSlave then s.best else none) with
      | some (_, c) => { c.data with steps := c.data.steps + 1 }
      | none => s.ownCand.data
    (s.ptpSend p.val 11 [(q : Int), (d.gm : Int), (d.prio1 : Int), (d.class_ : Int), (d.acc : Int), (d.variance : Int), (d.prio2 : Int),
      (d.steps : Int), (d.utc : Int), (b2n d.utcValid : Int)]).onPort p.val (fun x => { x with annSeq := (q + 1) % 65536 })
  else s

/-- A request leaves and its departure is kept (R324); originTimestamp is zero, correctionField the asymmetry taken back. -/
def State.sendReq (s : State) (p kind : Nat) : State :=
  let q := (s.portAt p).reqSeq
  let t := s.txStamp p
  (s.ptpSend p kind [(q : Int), 0, -(s.portAsym p)]).onPort p (fun x =>
    { x with reqSeq := (q + 1) % 65536, req := some (q, t), heldResp := none })

/-- R324: a slave port sends Delay_Req (messageType 1). -/
def delayReqTx (p : Fin 2) (s : State) : State :=
  if s.portLive p.val && s.clockPort p.val && s.slavePort p.val && !s.ptpP2P then s.sendReq p.val 1 else s

/-- R324: a port sends Pdelay_Req (messageType 2). -/
def pdelayReqTx (p : Fin 2) (s : State) : State :=
  if s.portLive p.val && s.clockPort p.val && s.portState p.val ≠ psDISABLED && s.ptpP2P then s.sendReq p.val 2 else s

/-- R327: the announce receipt timeout or the sync timeout expires. [DEDUCED, log entry 71] -/
def masterTimeout (p : Fin 2) (announce : Bool) (s : State) : State :=
  if !s.portLive p.val || !s.clockPort p.val || s.portState p.val = psMASTER || s.portState p.val = psPREMASTER || s.portState p.val = psDISABLED then s
  else
    let s := s.count (aPort p.val 0x50)
    let was := s.slavePort p.val
    let s := if was then s.onPort p.val (fun x => { x with silent := some s.rawNow, heldSync := none }) else s
    if announce && !s.ptpFixed then (s.onPort p.val (fun x => { x with foreign := [] })).bmca (fun q => q = p.val)
    else if was then s.lostMaster
    else s

/-! ### Links (R321) -/

/-- The portState a port takes when it gains its link, or without one. -/
def State.portBegin (s : State) (p : Nat) : Nat :=
  if !s.clockPort p then psDISABLED
  else if !s.portLink p then psINITIALIZING
  else if s.ptpFixed then
    match s.fld (aPort p 0) 27 26 with
    | 1 => psMASTER
    | 2 => psUNCALIBRATED
    | 3 => psPASSIVE
    | _ => psDISABLED
  else psLISTENING

/-- R321: 500 ms without lock: a port in fallback mode tries the other rate. -/
def ethRateFallback (p : Fin 2) (s : State) : State :=
  if s.runs .ptp && s.portOn p.val && !s.portLink p.val && s.portRate p.val = 0 then
    s.onPort p.val (fun x => { x with try25 := !x.try25 })
  else s

/-- R321: the port gains block lock at the rate it tries. -/
def ethBlockLock (p : Fin 2) (s : State) : State :=
  if s.runs .ptp && s.portOn p.val && !s.portLink p.val then
    let s := (s.setBit (aPort p.val 0x0C) 31 true).setBit (aPort p.val 0x0C) 30 (s.portAt p.val).try25
    (s.setPort p.val (s.portBegin p.val)).bmca (fun _ => false)
  else s

/-- The port's link goes: it starts again from the first rate of its mode, and follows no master. -/
def State.portDrop (s : State) (p : Nat) : State :=
  let s := s.setFld (aPort p 0x0C) 31 30 0
  let s := s.onPort p (fun x => { x with try25 := s.portRate p ≠ 1, foreign := [], parent := none, heldSync := none, heldResp := none,
                                           down := none, mpd := none, req := none, silent := none })
  s.setPort p (s.portBegin p)

/-- R321: a port that loses lock starts its rate sequence again. -/
def ethLockLoss (p : Fin 2) (s : State) : State :=
  if s.runs .ptp && s.portOn p.val && s.portLink p.val then ((s.portDrop p.val).bmca (fun _ => false)).orLost s.hasSlave else s

/-! ### Rig triggers (R330–R332) -/

/-- The bytes of a rig message (R330). -/
def rigMessage (type hops origin seq : Nat) (body : List Byte) : List Byte :=
  let b := leBytes 2 0x4852 ++ leBytes 1 type ++ leBytes 1 hops ++ leBytes 8 origin ++ leBytes 2 seq ++ leBytes 2 body.length ++ body
  b ++ leBytes 4 (crc32c b)

/-- A rig message leaves port p; in role 0 a port sends nothing (R326). [DEDUCED, log entry 70; DEDUCED, log entry 72] -/
def State.rigSend (s : State) (p type hops origin seq : Nat) (body : List Byte) : State :=
  if s.ptpRole = 0 then s else s.emit (.eth p (s.rigHead p) 0x88B5 [] (rigMessage type hops origin seq body))

/-- Port p sends rig messages: it runs with a link, and the role is not 0 (R326). [DEDUCED, log entry 70] -/
def State.rigPort (s : State) (p : Nat) : Bool := s.portLive p && s.ptpRole ≠ 0

/-- What a rig message says (R330): HOPS, ORIGIN, SEQ, BODY. -/
structure RigMsg where
  hops : Nat
  origin : Nat
  seq : Nat
  body : List Byte
deriving DecidableEq, Repr

/-- The payload of a frame of an Ethertype that port p takes: it has the tag that the port expects (R320). -/
def State.framePayload (s : State) (p etherType : Nat) (b : List Byte) : Option (List Byte) :=
  let word (i : Nat) : Nat := 256 * byteAt b i + byteAt b (i + 1)
  let tagged : Bool := word 12 = 0x8100
  let vid : Option Nat := if tagged then some (word 14 % 4096) else none
  let at_ := if tagged then 16 else 12
  if s.tagOk p vid && word at_ = etherType then some (b.drop (at_ + 2)) else none

/-- The rig message of a TYPE in a payload, which Ethernet may have padded: MAGIC, TYPE, LEN and CRC are right (R330). -/
def rigParse (type : Nat) (m : List Byte) : Option RigMsg :=
  let n := fieldLE m 14 2
  if fieldLE m 0 2 = 0x4852 && byteAt m 2 = type && byteAt m 3 < 16 && n ≤ 1040 && decide (n + 20 ≤ m.length)
      && fieldLE m (16 + n) 4 = crc32c (m.take (16 + n)) then
    some { hops := byteAt m 3, origin := fieldLE m 4 8, seq := fieldLE m 12 2, body := slice m 16 n }
  else none

/-- The rig message of a TYPE that port p takes from a frame, given from its destination address on: sent to the group of R330.
[DEDUCED, log entry 70] -/
def State.rigMsg (s : State) (p type : Nat) (frame : List Byte) : Option RigMsg :=
  if frame.take 6 = beBytes 6 macPeer then (s.framePayload p 0x88B5 frame).bind (rigParse type) else none

/-- The body of a receive command: a frame with a bad FCS, and any that is no such message, is discarded and counted (R320, R330); `ok`
says what its TYPE asks of a message. [DEDUCED, log entry 70] -/
def State.rigRx (s : State) (p type : Nat) (fcs : Bool) (frame : List Byte) (ok : RigMsg → Bool) (g : RigMsg → State → State) : State :=
  if !s.portLive p then s
  else if !fcs then s.count (aPort p 0x54)
  else match s.rigMsg p type frame with
    | some m => if ok m then g m s else s.count (aPort p 0x48)
    | none => s.count (aPort p 0x48)

/-- SEQ b is newer than a (R331). -/
def seqNewer (b a : Nat) : Bool := let d := (b + 65536 - a % 65536) % 65536; decide (1 ≤ d) && decide (d ≤ 32767)

/-- The last SEQ of an origin is held, the least recently seen of 17 forgotten (R331). -/
def State.holdOrigin (s : State) (origin seq : Nat) : State :=
  s.onPtp (fun t => { t with origins := ((origin, seq) :: t.origins.filter (fun c => c.1 ≠ origin)).take 16 })

/-- A rig trigger reaches this head's trigger engine (R332); on a follower the holder's engine takes it, with status hs
(R389). -/
def State.rigLocal (s : State) (idx time seq hs : Nat) : State × Nat :=
  let r := if s.follower then (s.mirrorSend mFORWARD (pack 32 [(0, 1, kTIMETRIGGER), (4, 8, time)]), hs) else s.setTimeTrigger time
  let s := r.1
  let st := r.2
  let s := if st = stDONE then s.log s.nowPtp 9 idx 3 [(20, 8, time), (28, 2, seq)]
    else s.log s.nowPtp 9 idx 4 [(20, 8, time), (28, 2, seq), (30, 1, st)]
  (s, st)

/-- R331: a TRIGGER message arrives, its frame given from the destination address on: a new one is forwarded and passed to the trigger
engine. -/
def rigTriggerRx (p : Fin 2) (fcs : Bool) (frame : List Byte) (hs : Nat) (s : State) : State :=
  s.rigRx p.val 1 fcs frame (fun m => m.body.length = 8) (fun m s =>
    let time := fromLE m.body
    let fresh : Bool := match s.ptp.origins.find? (fun c => c.1 = m.origin) with | some c => seqNewer m.seq c.2 | none => true
    if !fresh then s
    else
      let s := s.holdOrigin m.origin m.seq
      let q := 1 - p.val
      let s := if 0 < m.hops && s.rigPort q then (s.rigSend q 1 (m.hops - 1) m.origin m.seq m.body).count (aPort q 0x58) else s
      (s.rigLocal p.val time m.seq hs).1)

/-- R332: RIG_TRIGGER originates a TRIGGER message on every port with link, and completes with the own engine's status. [DEDUCED, log entry 72] -/
def rigTrigger (src : Src) (hs : Nat) (s : State) : State :=
  s.serve src kRIGTRIGGER (fun c s =>
    let seq := (s.ptp.rigSeq + 1) % 65536
    let s := (s.onPtp (fun t => { t with rigSeq := seq })).holdOrigin s.clockId seq
    let body := leBytes 8 (c.arg64 0)
    let s := s.each [0, 1] (fun s p => if s.rigPort p then s.rigSend p 1 15 s.clockId seq body else s)
    let r := s.rigLocal 2 (c.arg64 0) seq hs
    let s := r.1
    let st := r.2
    s.reply c st [])

/-! ### The PTP function (R334) -/

/-- An interval register is outside R322. -/
def State.badInterval (s : State) (p : Nat) : Bool :=
  let r := s.reg (aPort p 4)
  let i (hi : Nat) : Int := sx 4 (bits r hi (hi - 3))
  !(decide (-7 ≤ i 31) && decide (i 31 ≤ 1) && decide (-3 ≤ i 27) && decide (i 27 ≤ 3) && decide (-7 ≤ i 23) && decide (i 23 ≤ 4)
    && decide (2 ≤ bits r 19 16) && decide (bits r 19 16 ≤ 10))

/-- The first failing check of STARTING, or 0 (R334). -/
def State.ptpFault (s : State) : Nat :=
  let slave (p : Nat) : Bool := s.clockPort p && s.fld (aPort p 0) 27 26 = 2
  if 127 < s.fld PTP 7 0 || (upTo s.part.ethPorts).any s.badInterval then 1
  else if (s.ptpRole = 2 && s.part.ethPorts < 2) || (s.ptpFixed && slave 0 && slave 1) then 2
  else 0

/-- STARTING ends: each port begins its rate sequence; a head with no slave port is grandmaster (R326). -/
def State.ptpStart (s : State) : State :=
  let s := s.onPtp (fun t => { t with good := 0 })
  let s := s.each (upTo s.part.ethPorts) (fun s p =>
    let s := s.setFld (aPort p 0x0C) 31 30 0
    (s.onPort p (fun x => { x with try25 := s.portRate p ≠ 1, send := none })).setPort p (s.portBegin p))
  s.ownGm

/-- PTP leaves RUNNING: the links drop, and the servo has lost its master (R334). -/
def State.ptpStop (s : State) : State :=
  let s := s.lostMaster
  s.each (upTo s.part.ethPorts) (fun s p => (s.portDrop p).onPort p (fun x => { x with send := none }))

end Sys2Proof.Machine
end

