-- ==== Sys2Proof/Machine/Tongs.lean ====
section
/-!
DEFINITION. The pair's roles and the Tongs interlock (R380, R381), the end of a follower's translated time (R293, R297), the PAIR
function (R396).
-/

namespace Sys2Proof.Machine

def State.onPair (s : State) (g : PairState → PairState) : State := s.putPair (g s.pair)

/-- A mirror lane number as a lane. -/
def mirLane (m : Nat) : Lane := .mir ⟨m % 8, Nat.mod_lt _ (by decide)⟩

/-- PAIR_STAT.ROLE is set (R380); a role without a partner in step is not SYNCED. -/
def State.setRole (s : State) (n : Nat) : State :=
  let s := s.setFld aPairStat 31 29 n
  if n = roFOLLOWER || n = roHOLDER then s else s.setBit aPairStat 24 false

/-- TONGS_IN is asserted (R381). -/
def State.tongsIn (s : State) : Bool := s.bit aPairStat 27

/-- The HOME strap. -/
def State.home (s : State) : Bool := s.bit aPairStat 26

/-- PAIR_STAT.SYNCED (R391). -/
def State.synced (s : State) : Bool := s.bit aPairStat 24

/-- The member becomes a follower in time (R293, R297): the counter runs at the nominal increment, and stamps are translated. -/
def State.enterFollow (s : State) : State :=
  if s.sync = 4 then s
  else
    let s := (s.putInc incNominal).setReg (TB + 0x14) 2
    let s : State := s.putTb { s.tb with transl := false }
    s.setSync 4

/-- The member is no follower any more: the counter changes by steps only, so that the last translation stays in force until one; the
device's time goes on without a jump (R293, R297). [DEDUCED, log entry 77] -/
def State.leaveFollow (s : State) : State :=
  if s.sync = 4 then
    let s : State := s.putTb { s.tb with transl := true }
    s.setSync (if s.bit aTbCfg 31 then 3 else 0)
  else s

/-- A holder releases TONGS_OUT (R381) for a cause of R395: 0 planned, 1 a fault, 2 a reset of PAIR, 3 a silent heartbeat. -/
def State.dropTongs (s : State) (cause : Nat) : State :=
  if s.holds && s.pairPresent then
    let s := s.setBit aPairStat 28 false
    let s := s.logDev .pair 2 stDONE [(21, 1, cause)]
    (s.setRole (if s.runs .pair then roWAITING else roSOLO)).onPair (fun p => { p with handover := none })
  else s

/-- The functions that carry capture data (R29). -/
def captureFns : List Fn := [.ing, .anv, .cmp, .hrt, .trg]

/-- A function enters FAULT (R30); one that carries capture data takes the Tongs with it (R381). [DEDUCED, log entry 14] -/
def State.faultOut (s : State) (f : Fn) (code : Nat) : State :=
  let s := s.faultFn f code
  if captureFns.contains f then s.dropTongs 1 else s

/-- Nothing is known of the partner's decisions and digests any more. -/
def State.pairForget (s : State) : State :=
  s.onPair (fun p => { p with own := [], theirs := [], gaveUp := [], quenched := [], fragDiff := [], lastK := none, ownDecs := [], theirDecs := [], partner := none,
                              lost := none, xchg := none, xprev := none, sent := none, timeAt := none, closes := [], handover := none, from_ := none, joinF0 := none,
                              img := [] })

/-- A HEARTBEAT (R377) on every mirror lane that carries messages, with a role. The body's layout is the model's. [DESIGN CHOICE, log entry 74] -/
def State.heartbeat (s : State) (role : Nat) : State :=
  s.each ((upTo 8).filter (fun m => decide (4 ≤ s.mlStage m) && decide (s.mlStage m ≤ 6))) (fun s _ =>
    let h := s.mirrorHeader role mHEARTBEAT 12
    let view := b2n s.holds + 2 * b2n s.tongsIn + 4 * b2n s.home + 8 * b2n s.pair.resync
    let b := pack 12 [(0, 1, role), (1, 1, view), (4, 4, s.part.number), (8, 4, s.pair.seq)]
    let s := s.onPair (fun p => { p with seq := (p.seq + 1) % 2 ^ 32 })
    s.emit (.mirror mHEARTBEAT (mirrorBytes h b)))

/-- The mirror lanes stop. -/
def State.mirrorOff (s : State) : State := s.each (upTo 8) (fun s m => s.laneOff (mirLane m))

/-- START is refused (R63, R374, R396): no pair member, or a present tile in compatibility mode, or one that has declared no
dual transmitter. -/
def State.pairRefused (s : State) : Bool :=
  !s.pairPresent || (upTo (8 * s.part.sectors)).any (fun l =>
    s.compat l || (s.rxAt l).noDual)

/-- PAIR runs (R380, R396): the mirror lanes are brought up. -/
def State.pairStart (s : State) : State :=
  let s := s.pairForget.onPair (fun p => { p with rxNext := none, held := [], resync := false })
  let s := s.each (upTo 8) (fun s m => s.enterMode (mirLane m))
  s.setRole (if s.holds then roALONE else roWAITING)

/-- PAIR has stopped (R396): the lanes stop, and the role is SOLO; a holder keeps Tongs. -/
def State.pairStopped (s : State) : State := ((s.mirrorOff.leaveFollow).pairForget).setRole roSOLO

/-- PAIR enters FAULT (R396): a holder keeps Tongs and is ALONE. -/
def State.pairFaultNow (s : State) (code : Nat) : State :=
  let s := (((s.faultFn .pair code).mirrorOff).leaveFollow).pairForget
  s.setRole (if s.holds then roALONE else roSOLO)

/-- R396: no mirror lane has reached run within 1 s of START. -/
def mirrorLaneFault (s : State) : State := if s.runs .pair && !s.mirrorUp then s.pairFaultNow 3 else s

end Sys2Proof.Machine
end

