-- ==== Sys2Proof/Machine/FnCmds.lean ====
section
/-!
DEFINITION. Functions are started, stopped and quenched (R30–R34, R43, R45), STARTING and STOPPING end as each function's chapter
says, the field die's reset and link (R18, R19, R44), the die temperature (R41).
-/

namespace Sys2Proof.Machine

/-! ### Stored settings -/

/-- A page that a commit page names stands as it was written: its trailer has the logical number and the generation, and its CRC is
right (R425). -/
def Nvs.pageOk (n : Nvs) (c : Nat × Nat × Nat) : Bool := n.phys.find? (fun x => x.1 = c.2.1) = some (c.2.1, { logical := c.1, gen := c.2.2 })

/-- A generation of the user set of which every page passes, the commit page among them (R425). [DESIGN CHOICE, log entry 81] -/
def Nvs.intact (n : Nvs) (u : UserSet) : Bool := u.names.all n.pageOk

/-- The user set in use: the highest generation that passes (R425). [DESIGN CHOICE, log entry 81] -/
def Nvs.current (n : Nvs) : Option UserSet := n.sets.find? n.intact

/-- The settings of the user set, its generation (0: none), and the physical page each of its logical pages stands on (R425, R443). -/
def Nvs.user (n : Nvs) : Option Settings := n.current.map (·.set)
def Nvs.gen (n : Nvs) : Nat := (n.current.map (·.gen)).getD 0
def Nvs.pages (n : Nvs) : List (Nat × Nat) := ((n.current.map (·.names)).getD []).map (fun c => (c.1, c.2.1))

/-- The payload of a slot's firmware (R423, R430). -/
def ImgSlot.payload (k : ImgSlot) : List Byte := if k.maker then Config.makerPayload else (k.image.drop 512).take (fieldLE k.image 8 4)

/-- The settings in force at boot and on RECALL: the user set, else the factory set (R425, R428). -/
def State.stored (s : State) : Settings := s.nvs.user.getD s.nvs.factory

/-- A stored register is written with its stored value, or returns to its reset value (R428). -/
def State.restoreReg (s : State) (x : Settings) (a : Nat) : State :=
  s.setReg a ((x.regs.find? (fun c => c.1 = a)).map (fun c => c.2.toNat) |>.getD (s.rst a).toNat)

/-! ### The field die (R18, R19, R44) -/

/-- GLB_DIE.LINK. -/
def State.dieLink (s : State) : Nat := s.fld aGlbDie 1 0

/-- AUX and AOU go OFF (R31): the analogue side stops, outputs are off (R364). -/
def State.fieldOff (s : State) : State :=
  if !s.part.field then s
  else
    let s := (s.setFn .aux .off).setFn .aou .off
    let s := s.onField (fun f =>
      { f with adcs := Vector.replicate 2 {}, amps := Vector.replicate 8 {}, volts := Vector.replicate 4 {}, testing := none })
    s.aouOff.domainsOff

/-- The link's state is shown. -/
def State.setLink (s : State) (n : Nat) : State := s.setFld aGlbDie 1 0 n

/-- The field die's reset returns its writable registers to their reset values (R18). [DEDUCED, log entry 15] -/
def State.dieRegsReset (s : State) : State :=
  let s := s.each [aExc 0, aExc 1] (fun s a => s.setReg a (s.rst a).toNat)
  let s := s.each (upTo 8) (fun s k => s.setReg (aOut k 0) 0)
  s.onField (fun f => { f with excs := Vector.replicate 2 {} })

/-- R44: FD_RESET = 1 is written: refused unless AUX and AOU are STOPPED or OFF. [DEDUCED, log entry 15] -/
def fieldDieResetAssert (s : State) : State :=
  if !s.ready || !s.part.field || s.bit aGlbDie 8 then s
  else if s.idle .aux && s.idle .aou then ((s.setBit aGlbDie 8 true).setLink 0).fieldOff.dieRegsReset
  else s.refuseSt 9

/-- R44, R19: FD_RESET = 0 is written, and the link begins to train. -/
def fieldDieResetRelease (s : State) : State :=
  if !s.ready || !s.part.field || !s.bit aGlbDie 8 then s
  else if s.idle .aux && s.idle .aou then (s.setBit aGlbDie 8 false).setLink 1
  else s.refuseSt 9

/-- R19: the die-to-die link has come up. -/
def d2dLinkUp (s : State) : State :=
  if s.part.field && !s.bit aGlbDie 8 && s.ready then s.setLink 2 else s

/-- R19: the die-to-die link goes down while the field die is out of reset. -/
def d2dLinkDown (s : State) : State :=
  if s.part.field && !s.bit aGlbDie 8 && s.dieLink ≠ 0 then ((s.setLink 0).setBit aGlbErr 29 true).fieldOff else s

/-- R19: firmware has reloaded the coefficients and moves AUX and AOU from OFF to STOPPED; their outputs stand at SAFE (R364). -/
def fieldDieReinitDone (s : State) : State :=
  if s.part.field && !s.bit aGlbDie 8 && s.dieLink = 2 && s.fnState .aux = .off && s.fnState .aou = .off then
    let s := (s.restoreReg s.stored (aAdcCal 0)).restoreReg s.stored (aAdcCal 1)
    let s := ((s.setFn .aux .stopped).setFn .aou .stopped).domUp 50
    s.aouStop
  else s

/-- R41: the die temperature, in 1/128 °C: OT_ALARM sets at 105 °C and clears below 100 °C; OT_SEEN remembers it. -/
def dieTempThreshold (temp : Int) (s : State) : State :=
  if s.inReset then s
  else if 105 * 128 ≤ temp then ((s.setBit aGlbErr 27 true).setBit aGlbErr 28 true).updateAlarms
  else if temp < 100 * 128 then (s.setBit aGlbErr 27 false).updateAlarms
  else s

/-! ### Supervisor cores 0 and 1 -/

/-- Core c starts on the running firmware (R423): its 256 KiB of the image's payload, from bundle address 0. [PRESUMED, log entry 90] -/
def State.startFwCore (s : State) (c : Nat) : State :=
  let code := (((s.nvs.slots[b2n (s.bit 0x900100 25)]?).getD {}).payload.drop (262144 * c)).take 262144
  s.onCore c (fun _ => { proc := Proc.zero (Memory.write [] 0 code), run := .exec, nextSeq := s.tb.logCount % 2 ^ 32, reply := none })

/-- Core 1, which runs the services and the settings store. -/
def State.startCore1 (s : State) : State := s.startFwCore 1

/-! ### What START, STOP and QUENCH do to each function -/

/-- START has been accepted: what a function takes up in STARTING before it ends. -/
def State.startEffect (s : State) : Fn → State
  | .anv => s.anvStart
  | .tb => s.tbStart
  | .bgs => if (s.coreAt 1).run = .stopped then s.startCore1 else s
  | _ => s

/-- The first failing check of STARTING, by FAULT_CODE; 0: none fails. -/
def State.startFault (s : State) : Fn → Nat
  | .ing => s.ingFault
  | .anv => s.anvFault
  | .hrt => s.hrtFault
  | .trg => s.trgFault
  | .cmp => s.cmpFault
  | .tdc => s.tdcFault
  | .ptp => s.ptpFault
  | .aux => s.auxFault
  | .aou => s.aouFault
  | .hst => s.hstFault
  | .lnk | .tb | .pair | .bgs => 0

/-- STARTING can end: the power domains it needs are up (R452), engines have reached their first wait.strip (R151), a QUENCH's
slot writes are done (R232). -/
def State.startReady (s : State) (f : Fn) : Bool :=
  s.domainsUp f && (match f with
    | .anv => s.anvFault ≠ 0 || s.anvReady
    | .hrt => !s.bit (HRT + 4) 31
    | _ => true)

/-- What ends STARTING in RUNNING. -/
def State.runEffect (s : State) : Fn → State
  | .lnk => s.lnkEnter
  | .ing => s.ingStart
  | .hrt => s.hrtStart
  | .trg => s.trgStart
  | .cmp => s.cmpStart
  | .tdc => s.tdcStart
  | .ptp => s.ptpStart
  | .aux => s.auxStart
  | .aou => s.aouStart
  | .pair => s.pairStart
  | .hst => s.hstStart
  | .anv | .tb | .bgs => s

/-- What follows once a function runs: AUX repeats its ring check when HRT enters RUNNING (R367), continuous sequences begin. -/
def State.ranEffect (s : State) : Fn → State
  | .hrt =>
    if s.runs .aux && s.ringOverlaps s.ringBase s.ringLen then s.faultOut .aux 3 else s
  | .aux => s.auxRunning
  | _ => s

/-- STOP has been accepted: the drain begins. -/
def State.stopEffect (s : State) : Fn → State
  | .ing => s.ingStop
  | .anv => s.anvStop
  | .cmp => s.cmpStop.jobsAbort
  | .trg => s.trgStop
  | .tb => s.tbStop
  | .tdc => s.tdcStop
  | .ptp => s.ptpStop
  | .aou => s.aouStop
  | .pair => s.heartbeat roSOLO
  | .hst => s.hstStop
  | .bgs => s.bgsStop
  | .lnk | .hrt | .aux => s

/-- The drain can end (R107, R152, R284, R367); functions without a condition end when their row says so. -/
def State.stopReady (s : State) : Fn → Bool
  | .ing => s.ingDrained
  | .anv => s.anvStopped
  | .cmp => s.cmpEmpty
  | .aux => s.auxReady
  | _ => true

/-- What the end of a drain does. -/
def State.stoppedEffect (s : State) : Fn → State
  | .lnk => s.lnkOff
  | .hrt => s.hrtStopped
  | .trg => s.trgStopped
  | .aux => s.auxStopped
  | .pair => s.pairStopped
  | _ => s

/-- What a QUENCH does to a function at work; `global` says that HRT closes the record (R263, R34). -/
def State.quenchEffect (s : State) (global : Bool) : Fn → State
  | .lnk => s.lnkOff
  | .ing => s.ingQuench
  | .anv => s.anvQuench
  | .hrt => s.hrtQuench
  | .trg => s.trgQuench global
  | .cmp => s.cmpDiscard.jobsAbort
  | .tb => s.tbStop
  | .tdc => s.tdcQuench
  | .ptp => s.ptpStop
  | .aux => s.auxQuench
  | .aou => s.aouStop
  | .pair => s.pairStopped
  | .hst => s.hstQuench
  | .bgs => s.bgsStop

/-! ### Commands to functions (R31, R34, R43) -/

/-- LAST_STATUS of a function (R45). -/
def State.lastStatus (s : State) (f : Fn) (st : Nat) : State := s.onFn f (fun i => { i with lastStatus := st })

/-- A command without a transition is ignored (R31): to an absent function ABSENT, to AUX or AOU while the field die is not
reached REFUSED_RUNNING, otherwise BAD_ARG with BAD_CMD. [DEDUCED, log entry 13; DEDUCED, log entry 15] -/
def State.ignored (s : State) (f : Fn) : State × Nat :=
  if s.fnState f = .absent then (s.lastStatus f stABSENT, stABSENT)
  else if (f = .aux || f = .aou) && s.fnState f = .off && (s.bit aGlbDie 8 || s.dieLink ≠ 2) then (s.lastStatus f stREFUSED, stREFUSED)
  else ((s.badCmd f.num).lastStatus f stBADARG, stBADARG)

/-- START (R31); PAIR refuses it as R396 says. [DEDUCED, log entry 14; DEDUCED, log entry 79] -/
def State.startFn (s : State) (f : Fn) : State × Nat :=
  if s.fnState f ≠ .stopped then s.ignored f
  else if f = .pair && s.pairRefused then (s.lastStatus f stBADARG, stBADARG)
  else
    let s := s.onFn f (fun i => { i with state := .starting, faultCode := 0, lastStatus := stDONE })
    (s.startEffect f, stDONE)

/-- A function leaves FAULT for STOPPED: the role of a pair member whose PAIR does not run is SOLO (R380). -/
def State.faultLeft (s : State) (f : Fn) : State := if f = .pair then s.setRole roSOLO else s

/-- STOP (R31). [DEDUCED, log entry 79] -/
def State.stopFn (s : State) (f : Fn) : State × Nat :=
  match s.fnState f with
  | .starting | .running => (((s.setFn f .stopping).lastStatus f stDONE).stopEffect f, stDONE)
  | .fault => (((s.setFn f .stopped).lastStatus f stDONE).faultLeft f, stDONE)
  | _ => s.ignored f

/-- The function is in a state that a QUENCH leaves (R31, R34). -/
def State.quenchable (s : State) (f : Fn) : Bool :=
  match s.fnState f with
  | .starting | .running | .stopping | .fault => true
  | _ => false

/-- A function's QUENCH: it discards what it holds and stands in STOPPED. [DESIGN CHOICE, log entry 16; DEDUCED, log entry 79] -/
def State.quenchNow (s : State) (f : Fn) (global : Bool) : State :=
  let work : Bool := s.fnState f ≠ .fault
  let s := (s.setFn f .stopped).lastStatus f stDONE
  if work || f = .ing then s.quenchEffect global f else s.faultLeft f

/-- QUENCH of one function (R31). -/
def State.quenchFn (s : State) (f : Fn) : State × Nat :=
  if s.quenchable f then ((s.quenchNow f false).domainsOff, stDONE) else s.ignored f

/-- The holder tells its follower a command to a function that carries capture data, with its stamp (R383). The body's layout is the
model's. [DESIGN CHOICE, log entry 74] -/
def State.tellFn (s : State) (f : Fn) (cmd : Nat) : State :=
  if s.role = roHOLDER && captureFns.contains f then s.mirrorSend mSTATE (pack 16 [(0, 1, 3), (1, 1, f.num), (2, 1, cmd), (4, 10, s.cmdStamp)]) else s

/-- A command 1 START, 2 STOP, 3 QUENCH to a function; the answer has its status. -/
def State.fnCommand (s : State) (f : Fn) (cmd : Nat) : State × Nat :=
  let r := if cmd = 1 then s.startFn f else if cmd = 2 then s.stopFn f else s.quenchFn f
  let s := r.1
  let st := r.2
  (if st = stDONE then s.tellFn f cmd else s, st)

/-- Every one of the five functions that can be quenched is (R34); the answer says whether any was. [DESIGN CHOICE, log entry 16] -/
def State.quenchFive (s : State) : State × Bool :=
  let any : Bool := captureFns.any s.quenchable
  let s := s.each ([.ing, .anv, .cmp, .hrt, .trg] : List Fn) (fun s f => if s.quenchable f then s.quenchNow f true else s)
  (s.domainsOff, any)

/-- The frames that a global QUENCH has caught: those that were open, and those whose digests await the partner's (R387). [DEDUCED, log entry 106] -/
def State.noteQuenched (s : State) : State :=
  s.onPair (fun p => { p with quenched := (s.hearth.unwritten.map (·.n) ++ p.own.map (·.frame)).eraseDups })

/-- A global QUENCH of this member (R34): the partner is told its stamp (R387), and a pair logs whose quench it was (R388). -/
def State.quenchGlobal (s : State) : State :=
  let t := s.now
  let r := s.quenchFive
  let s := r.1
  let any := r.2
  if s.paired2 && s.runs .pair then
    let s := if any then s.noteQuenched.logDev .pair 10 stDONE [(21, 1, 1)] else s
    s.mirrorSend mQUENCH (stampBytes t)
  else s

/-- A value written to GLB_FNCMD (R43), or ARG0 of FNCMD (R417). -/
def State.fnCmdWrite (s : State) (v : Nat) : State × Nat :=
  let cmd := bits v 1 0
  if cmd = 0 then (s, stDONE)
  else if bitOf v 12 then (if cmd = 3 then (s.quenchGlobal, stDONE) else (s.badCmd 0xF, stBADARG))
  else match fnOf (bits v 11 8) with
    | some f => s.fnCommand f cmd
    | none => (s.badCmd 0xF, stBADARG)

/-! ### The commands -/

/-- R31: START of a function, by GLB_FNCMD or its RUNCTL register. -/
def start (f : Fn) (s : State) : State := if s.ready then (s.fnCommand f 1).1 else s

/-- R31: STOP. -/
def stop (f : Fn) (s : State) : State := if s.ready then (s.fnCommand f 2).1 else s

/-- R31: QUENCH. -/
def quench (f : Fn) (s : State) : State := if s.ready then (s.fnCommand f 3).1 else s

/-- R34: GLB_FNCMD with GLOBAL = 1 and CMD = 3. -/
def globalQuench (s : State) : State := if s.ready then s.quenchGlobal else s

/-- R31: a function's STARTING ends, in RUNNING or, when a start check fails, in FAULT. [DEDUCED, log entry 105] -/
def startingComplete (f : Fn) (s : State) : State :=
  if s.fnState f ≠ .starting || !s.startReady f then s
  else
    let code := s.startFault f
    if code ≠ 0 then
      let s := s.faultOut f code
      if f = .anv then s.each s.engineIds (fun s e => s.onEngine e (fun g => { g with run := .stopped })) else s
    else (((s.runEffect f).setFn f .running).ranEffect f)

/-- R32: a function's drain has ended. -/
def stoppingComplete (f : Fn) (s : State) : State :=
  if s.fnState f ≠ .stopping || !s.stopReady f then s
  else (((s.stoppedEffect f).setFn f .stopped).domainsOff)

/-- R415: the mailbox hardware applies a QUENCH at acceptance, wherever its command stands; the reply follows. [DEDUCED, log entry 79] -/
def mboxQuench (src : Src) (s : State) : State :=
  match s.host.fw.find? (fun c => c.src = src && c.code = kQUENCH) with
  | some c => s.quenchGlobal.reply c stDONE []
  | none => s

/-- R417: FNCMD; it ends on acceptance of the transition. -/
def fncmd (src : Src) (s : State) : State :=
  s.serve src kFNCMD (fun c s =>
    let r := s.fnCmdWrite (c.arg 0)
    let s := r.1
    let st := r.2
    s.reply c st [])

end Sys2Proof.Machine
end

