-- ==== Sys2Proof/Machine/RegFile.lean ====
section
/-!
DEFINITION. A register is written field by field (R9, R10, R12): the register file, the segment registers of HRT (R235), the
registers a pair mirrors (R383), GLB_ERR (R41).
-/

namespace Sys2Proof.Machine

/-! ### Field by field (R10) -/

/-- The function whose state governs the ST fields of a block lets them change (R10); where none does, nothing is ST. -/
def State.stFree (s : State) (n : Nat) : Bool :=
  match fnOf n with
  | some f => s.idle f
  | none => true

/-- The value of a register after a write: RW fields take v, ST fields take v unless they are refused, each 1 clears a W1C bit. -/
def merged (r : RegSpec) (old v : Nat) (refused : Bool) : Nat :=
  let flip (n : Nat) : Nat := all32 ^^^ (n &&& all32)
  let st := if refused then old else v
  (old &&& flip (r.rw ||| r.st ||| r.w1c)) ||| (v &&& r.rw) ||| (st &&& r.st) ||| (old &&& (r.w1c &&& flip v))

/-- A write to a register of the register file; the answer says whether its ST part was refused (R10). -/
def State.writeFields (s : State) (a v : Nat) : State × Bool :=
  let f := (specAndFn a).1
  let r := (specAndFn a).2
  let old := s.reg a
  let refused : Bool := decide ((old ^^^ v) &&& r.st ≠ 0) && !s.stFree f
  let s := s.setReg a (merged r old v refused)
  (if refused then s.refuseSt f else s, refused)

/-- A write to GLB_ERR (R41): clearing CFG_REFUSED and BAD_CMD returns what goes with them to its reset value. -/
def State.glbErrWrite (s : State) (v : Nat) : State :=
  let s := (s.writeFields aGlbErr v).1
  let s := if bitOf v 31 then (s.setFld aGlbErr 19 16 0xF).setFld aGlbErr 7 0 0 else s
  if bitOf v 30 then s.setFld aGlbErr 23 20 0xF else s

/-! ### The segment registers (R214, R235) -/

/-- HRT_SEG_QIDX.TILE. -/
def State.segTile (s : State) : Nat := s.fld (HRT + 0x3C) 5 0

/-- An HRT_SEG register of segment i as it reads, with HRT_SEG_QIDX at a tile (R235). [DEDUCED, log entry 47] -/
def State.segRead (s : State) (i tile o : Nat) : Nat :=
  let g := s.segAt i
  if o = 0x20 then g.base
  else if o = 0x24 then g.length
  else if o = 0x28 then b2n g.ecc * 2 ^ 31 + g.next
  else if o = 0x2C then g.p
  else if o = 0x30 then g.q
  else if o = 0x34 then g.mbase
  else if o = 0x38 then g.mslots
  else if o = 0x40 then (if tile < 48 then g.quotaOf tile else 0)
  else if o = 0x48 then
    let code := if g.length = 0 then 0 else match g.phase with
      | .empty => 1 | .armed => 2 | .post => 3 | .closed => 4
    code * 2 ^ 29 + (if g.length = 0 then 0 else g.cap % 2 ^ 29)
  else 0

/-- The geometry of a segment with one of its ST fields at the value of a write; a Q of 0 is stored as 1 (R235). -/
def Segment.withField (g : Segment) (tile o v : Nat) : Segment :=
  if o = 0x20 then { g with base := bits v 23 0 }
  else if o = 0x24 then { g with length := bits v 23 0 }
  else if o = 0x28 then { g with ecc := bitOf v 31 }
  else if o = 0x2C then { g with p := bits v 23 0 }
  else if o = 0x30 then { g with q := max 1 (bits v 23 0) }
  else if o = 0x34 then { g with mbase := bits v 20 0 }
  else if o = 0x38 then { g with mslots := bits v 20 0 }
  else if o = 0x40 && tile < 48 then { g with quota := sput 0 g.quota tile (bits v 23 0) }
  else g

/-- A segment with all that a write to one of its registers gives it. -/
def Segment.written (g : Segment) (tile o v : Nat) : Segment :=
  let g' := g.withField tile o v
  if o = 0x28 then { g' with next := bits v 6 0 } else g'

/-- A write to an HRT_SEG register of segment i: NEXT takes effect at once; a change of the geometry is refused while HRT runs,
and, whatever HRT does, while the segment holds a closed record (R214, R216). -/
def State.segWrite (s : State) (i o v : Nat) : State × Bool :=
  let g := s.segAt i
  let g' := g.withField s.segTile o v
  let refused : Bool := g' ≠ g && (!s.idle .hrt || g.phase = .closed)
  let kept := if refused then g else g'
  let s := s.onSeg i (fun _ => if o = 0x28 then { kept with next := bits v 6 0 } else kept)
  (if refused then s.refuseSt 3 else s, refused)

/-- An address in the HRT_SEG registers that stand in the state of the selected segment. -/
def isSegReg (a : Nat) : Bool := decide (HRT + 0x20 ≤ a) && decide (a ≤ HRT + 0x48) && a ≠ HRT + 0x3C

/-! ### Registers that a pair mirrors (R383) -/

/-- HRT_CFG, the HRT_SEG registers, CMP_TCFGi, CMP_CFG, ING_QCFG. -/
def mirroredReg (a : Nat) : Bool :=
  a = HRT || (decide (HRT + 0x20 ≤ a) && decide (a ≤ HRT + 0x40))
    || (decide (0x600000 ≤ a) && decide (a < 0x600C00) && decide (a % 0x100 ≤ 0x10))
    || a = 0x700F00
    || (decide (0x1000000 ≤ a) && decide (a < 0x1C00000) && decide (0x1000 ≤ a % 0x100000) && decide (a % 0x100000 < 0x1200)
        && a % 0x40 = 0)

/-- A holder tells its follower a write to a mirrored register, with the segment it goes to (R377). The body's layout is the
model's. [DESIGN CHOICE, log entry 74] -/
def State.tellReg (s : State) (a seg tile : Nat) : State :=
  if s.role = roHOLDER && mirroredReg a then
    let v := if isSegReg a then s.segRead seg tile (a - HRT) else s.reg a
    s.mirrorSend mSTATE (pack 16 [(0, 1, 2), (1, 1, seg), (2, 1, tile), (4, 4, a), (8, 4, v)])
  else s

/-- A follower's register takes the value the holder's has (R383). -/
def State.storeMirrored (s : State) (a seg tile v : Nat) : State :=
  if !mirroredReg a || !s.present a then s
  else if isSegReg a then s.onSeg (seg % 64) (fun g => g.written tile (a - HRT) v)
  else s.setReg a (merged (specOf a) (s.reg a) v false)

/-- A write to a register without an effect of its own beyond its fields, for the selected or a given segment. -/
def State.writeStored (s : State) (a seg v : Nat) : State × Bool :=
  if !s.present a then (s, false)
  else if a = aGlbErr then (s.glbErrWrite v, false)
  else if isSegReg a then s.segWrite seg (a - HRT) v
  else s.writeFields a v

/-- The status of a register write: the answer of REG_WRITE (R417). A mirrored register is not written on a follower (R383). -/
def State.writeMirrored (s : State) (a v : Nat) : State × Nat :=
  if s.follower && mirroredReg a then (s.setBit aPairStat 15 true, stNOTHOLDER)
  else
    let seg := s.fld (HRT + 0x10) 5 0
    let r := s.writeStored a seg v
    let s := r.1
    let refused := r.2
    (s.tellReg a seg s.segTile, if refused then stREFUSED else stDONE)

end Sys2Proof.Machine
end

