-- ==== Sys2Proof/Machine/Strips.lean ====
section
/-!
DEFINITION. Strips (R52–R59): the receiver's checks in their order, sequence tracking and loss notices, stamps, deskew.
-/

namespace Sys2Proof.Machine

/-- Bits of a pixel format; none for an unknown one (R53). -/
def fmtBits : Nat → Option Nat
  | 0x0A => some 10 | 0x0C => some 12 | 0x10 => some 16
  | _ => none

/-- The header checks of R56, third row; a strip whose payload has not the blocks that PLEN asks for fails them too. [DESIGN CHOICE, log entry 101] -/
def headerOk (l : Nat) (h t : List Byte) (payloadBlocks : Nat) : Bool :=
  match fmtBits (byteAt h 1) with
  | none => false
  | some b =>
    let npix := fieldLE h 8 2
    let plen := fieldLE t 0 2
    byteAt h 0 = 0x40 && 1 ≤ npix && npix ≤ 2048 && plen = cdiv (npix * b) 8 && plen ≤ 3072 && byteAt h 2 = tileOf l
      && payloadBlocks = cdiv plen 16

/-- SEQ a is behind the next expected value b (R56). -/
def seqBehind (a b : Nat) : Bool := 32768 ≤ (a + 65536 - b) % 65536

/-- The loss notice of R57: n strips lost before strip i, after the tile's last strip that set the next expected SEQ. -/
def State.noticeLoss (s : State) (f n firstSeq : Nat) (i : StripItem) : State :=
  let p := ((s.tileAt f).pred).getD i.ident
  let a : Ident := { p with seq := firstSeq, tile := f }
  let b : Ident := { i.ident with seq := (i.seq + 65535) % 65536 }
  (s.count (aRx i.lane oLOST) n).pendLoss i.lane
    { cause := cLINK, queue := i.lane, nLink := sat32 n, first := some a, last := some b }

/-- A strip is released (R59): it takes its place in the release order, and goes to its queue unless it was discarded, or a flush of
the queue met it as it was arriving (R97). [DEDUCED, log entry 20; DEDUCED, log entry 28] -/
def State.releaseStrip (s : State) (f : Nat) (h : Held) : State :=
  let s := s.onTile f (fun t => { t with next := some ((h.seq + 1) % 65536), pred := some h.item.ident })
  let s := match h.gone with | some c => s.partialLost h.item c | none => s
  if h.disc || h.gone.isSome then s
  else
    let rel := (s.tileAt f).released
    let s := s.onTile f (fun t => { t with released := rel + 1 })
    s.admitStrip { h.item with rel := rel }

/-- Strips held in deskew are released as long as the next expected one is among them. -/
def State.releaseHeld (s : State) (f : Nat) : Nat → State
  | 0 => s
  | k + 1 =>
    match (s.tileAt f).held.find? (fun h => some h.seq = (s.tileAt f).next) with
    | some h =>
      let s := s.onTile f (fun t => { t with held := t.held.erase h })
      (s.releaseStrip f h).releaseHeld f k
    | none => s

/-- A checked strip that is not stale goes through deskew (R57, R59). [DEDUCED, log entry 20] -/
def State.acceptStrip (s : State) (f : Nat) (h : Held) : State :=
  match (s.tileAt f).next with
  | none => s.releaseStrip f h
  | some nxt =>
    if s.paired f then
      let s := s.onTile f (fun t => { t with held := t.held ++ [h] })
      s.releaseHeld f ((s.tileAt f).held.length)
    else
      let n := (h.seq + 65536 - nxt) % 65536
      let s := if h.disc || n = 0 then s else s.noticeLoss f n nxt h.item
      s.releaseStrip f h

/-- Bits from position i on are inverted, n of them (R77). -/
def invertBits (bs : List Byte) (i n : Nat) : List Byte :=
  let v := fromLE bs
  let m := (2 ^ n - 1) * 2 ^ i
  leBytes bs.length (v ^^^ m)

/-- Data blocks have arrived (R69): unless it is frozen, the equaliser adapts, and LN_EQ0 and LN_EQ1 show where it stands, which
the spec does not state. [DESIGN CHOICE, log entry 9] -/
def State.adapt (s : State) (l : Nat) : State :=
  if s.bit (aRx l oSTAT) 16 then s
  else
    let x := (Config.adapted s.freeUse).toNat
    ((s.setReg (aRx l 0x1C) (x % 2 ^ 32 &&& 0xF8FFFFFF)).setReg (aRx l 0x20) (x / 2 ^ 32)).useFree

/-- The bits that a lane's pending injections invert in a strip's bytes (R77). [DESIGN CHOICE, log entry 19] -/
def injected (use : Nat) (bytes : List Byte) (ns : List Nat) : List Byte :=
  (ns.zip (upTo ns.length)).foldl (fun bs c => invertBits bs (Config.injectOffset (use + c.2) % (8 * bytes.length + 1)) c.1) bytes

/-- R56: a strip arrives on receive lane l; t is the raw arrival of its first header bit, and cut says that an invalid sync
header, a control block or the end of reception stopped it before its trailer. The first row of R56 that matches applies; a strip
shorter than header and trailer is discarded as its third row says.
[DESIGN CHOICE, log entry 18; DESIGN CHOICE, log entry 19; DEDUCED, log entry 20; DESIGN CHOICE, log entry 101] -/
def stripRx (l : Fin 96) (bytes : List Byte) (t : Nat) (cut : Bool) (s : State) : State :=
  if !s.present (aRx l.val 0) || s.inReset then s
  else if cut then (if s.stage (.rx l) = 6 then s.adapt l.val else s).count (aRx l.val oHDR)
  else if s.stage (.rx l) ≠ 6 then s
  else
    let inj := (s.rxAt l.val).inject
    let data := injected s.freeUse bytes inj
    let s := if inj.isEmpty then s
      else (s.onRx l.val (fun r => { r with inject := [] })).putFreeUse (s.freeUse + inj.length)
    let s := s.adapt l.val
    let n := data.length
    let h := data.take 16
    let tr := data.drop (n - 16)
    if n < 32 || n % 16 ≠ 0 then s.count (aRx l.val oHDR)
    else if crc32c (data.take (n - 4)) ≠ fieldLE tr 12 4 then s.count (aRx l.val oCRC)
    else if !headerOk l.val h tr ((n - 32) / 16) then s.count (aRx l.val oHDR)
    else
      let f := tileOf l.val
      let seq := fieldLE h 14 2
      let stale := match (s.tileAt f).next with
        | some nxt => seqBehind seq nxt || (s.tileAt f).held.any (fun x => x.seq = seq)
        | none => false
      if stale then s.count (aRx l.val oLATE)
      else
        let item : StripItem :=
          { lane := l.val, header := h, trailer := tr.take 12, payload := (data.drop 16).take (fieldLE tr 0 2),
            stamp := s.stampOf t res312 (sx 32 (s.reg (aRx l.val oSKEWC))), rel := 0,
            mark := s.stampMark }
        let running := s.runs .ing
        let s := s.count (aRx l.val (if running then oSTRIP else oDISC))
        s.acceptStrip f { seq := seq, item := item, disc := !running, gone := s.overtaken l.val t }

/-- R59: strip seq of tile f has waited DESKEW_WIN; its missing predecessors are declared lost and it is released. [DEDUCED, log entry 20] -/
def State.stripDeskew (s : State) (f : Fin 48) (seq : Nat) : State :=
  match (s.tileAt f.val).held.find? (fun h => h.seq = seq) with
  | none => s
  | some _ =>
    let rec go : Nat → State → State
      | 0, s => s
      | k + 1, s =>
        let t := s.tileAt f.val
        if t.held.all (fun h => h.seq ≠ seq) then s
        else
          let nxt := t.next.getD seq
          let ahead (h : Held) : Nat := (h.seq + 65536 - nxt) % 65536
          match sortBy (fun a b => decide (ahead a < ahead b)) t.held with
          | [] => s
          | h :: _ =>
            let s := if h.disc || ahead h = 0 then s else s.noticeLoss f.val (ahead h) nxt h.item
            let s := s.onTile f.val (fun t => { t with held := t.held.erase h })
            go k (s.releaseStrip f.val h)
    go ((s.tileAt f.val).held.length) s |>.releaseHeld f.val ((s.tileAt f.val).held.length)

end Sys2Proof.Machine
end

