-- ==== Sys2Proof/Machine/Pair.lean ====
section
/-!
DEFINITION. Paired concentrators (chapter 13): what the mirror port brings, time on the follower (R378), roles and Tongs (R380–R382,
R390), joining (R391), planned hand-overs (R392–R394). The bodies of messages are the model's; their content is the spec's.
-/

namespace Sys2Proof.Machine

/-! ### Joining (R391) -/

/-- The partner's role, as its last heartbeat has it. -/
def State.partnerRole (s : State) : Option Nat := s.pair.partner.map (·.role)

/-- A member becomes JOINING: its functions carrying capture data are quenched, and the holder's state is to come. -/
def State.beginJoin (s : State) : State :=
  let h := s.pair.partner
  let s := s.quenchFive.1
  let s := s.pairForget.onPair (fun p => { p with partner := h })
  s.setRole roJOINING

/-- The addresses of the mirrored registers outside HRT_SEG. -/
def State.mirroredPlain (s : State) : List Nat :=
  [HRT] ++ (upTo s.part.sectors).flatMap (fun k => (upTo 5).map (fun i => 0x600000 + 0x100 * k + 4 * i))
    ++ (upTo (8 * s.part.sectors)).map (fun l => aQ l 0) ++ (if s.part.field then [0x700F00] else [])

/-- A running function that carries capture data is told as a START. -/
def State.tellRunning (s : State) (f : Fn) : State :=
  match s.fnState f with
  | .running | .starting => s.tellFn f 1
  | _ => s

/-- The registers of segment i go to the follower. -/
def State.sendSegRegs (s : State) (i : Nat) : State :=
  let s := s.each ((upTo 7).map (fun k => HRT + 0x20 + 4 * k)) (fun s a => s.tellReg a i 0)
  s.each (upTo (4 * s.part.sectors)) (fun s f => s.tellReg (HRT + 0x40) i f)

/-- The state of segment i goes to the follower. [DESIGN CHOICE, log entry 74] -/
def State.sendSegState (s : State) (i : Nat) : State :=
  let g := s.segAt i
  let code := match g.phase with | .empty => 1 | .armed => 2 | .post => 3 | .closed => 4
  let f0 := match s.hearth.act with | some a => a.f0 | none => 0
  s.mirrorSend mSTATE (pack 16 [(0, 1, 4), (1, 1, i), (2, 1, code), (4, 4, g.recCount), (8, 4, f0)])

/-- A pending time trigger goes to the follower. -/
def State.sendTimeTrig (s : State) : State :=
  match s.trig.timeTrig with
  | some ns => s.mirrorSend mSTATE (pack 16 [(0, 1, 5), (8, 8, ns)])
  | none => s

/-- What a joining member receives (R391): the image, the mirrored registers, the functions that run, every segment, the pending
time trigger. [DEDUCED, log entry 75] -/
def State.sendAll (s : State) : State :=
  let s := match s.kept with | some img => s.tellImage img | none => s
  let s := s.each s.mirroredPlain (fun s a => s.tellReg a 0 0)
  let s := s.each (upTo 64) State.sendSegRegs
  let s := s.each captureFns State.tellRunning
  (s.each (upTo 64) State.sendSegState).sendTimeTrig

/-- The next frame that will be issued. -/
def State.nextFrame (s : State) : Nat :=
  match s.trig.frames.getLast? with
  | some fr => (fr.n + 1) % 2 ^ 32
  | none => s.trig.seq.nextN

/-- SYNCED sets once the ring since the join holds P frames of the armed segment (R391). [DEDUCED, log entry 75] -/
def State.syncCheck (s : State) : State :=
  match s.pair.joinedAt, s.hearth.act with
  | some fj, some a =>
    let n := (s.hearth.ring.filter (fun fr => frameLe fj fr.n)).length
    if s.comparing && a.post.isNone && decide ((s.segAt a.seg).p ≤ n) then
      (s.setBit aPairStat 24 true).onPair (fun p => { p with joinedAt := none })
    else s
  | _, _ => s

/-! ### Heartbeats (R377, R380, R382) -/

/-- R377: a HEARTBEAT leaves on every mirror lane. -/
def heartbeatTx (s : State) : State :=
  if s.runs .pair then ((s.heartbeat s.role).onPair (fun p => { p with resync := false })).syncCheck else s

/-- A member that holds Tongs hears its partner: it is HOLDER while the partner follows or joins, and sends a member that begins
to join, or asks for it, everything (R376, R380, R391). -/
def State.holderHears (s : State) (before : Option Heartbeat) (h : Heartbeat) : State :=
  if h.role = roFOLLOWER || h.role = roJOINING then
    let s := s.setRole roHOLDER
    let joining (b : Option Heartbeat) : Bool := match b with | some b => b.role = roJOINING | none => false
    let asked (b : Option Heartbeat) : Bool := match b with | some b => b.resync | none => false
    let anew : Bool := h.role = roJOINING && (!joining before || (h.resync && !asked before))
    let s := if anew then (s.setBit aPairStat 24 false).sendAll else s
    if h.role = roFOLLOWER && joining before then s.onPair (fun p => { p with joinedAt := some s.nextFrame }) else s
  else s.setRole roALONE

/-- A member that does not hold Tongs hears a partner that does: it joins unless it already follows or joins (R391). -/
def State.otherHears (s : State) (h : Heartbeat) : State :=
  if h.tongs && (h.role = roHOLDER || h.role = roALONE) && s.role ≠ roFOLLOWER && s.role ≠ roJOINING then s.beginJoin else s

/-- A HEARTBEAT of the partner that came at the raw time t (R380). One that lost its race with the timeout is only counted (R382);
equal HOME straps and unequal parts are faults (R396). [DEDUCED, log entry 77] -/
def State.takeHeartbeat (s : State) (h : Heartbeat) (t : Stamp) : State :=
  if (match s.pair.lost with | some t0 => decide (t ≤ t0) | none => false) then s.count (PAIR + 0x110)
  else if h.home = s.home then s.pairFaultNow 1
  else if h.part ≠ s.part.number then s.pairFaultNow 2
  else
    let before := s.pair.partner
    let s := s.onPair (fun p => { p with partner := some h, lost := none })
    if s.holds then s.holderHears before h else s.otherHears h

/-- A decision enters Hearth on this member (R248, R251). A follower's own decision of those stamps is still to come (R385). -/
def State.applyDecision (s : State) (d : Decision) : State :=
  match s.hearth.act with
  | some a =>
    let dist := frameDiff d.frame a.f0
    if a.seg ≠ d.seg || a.post.isSome || 2 ^ 31 ≤ dist then s
    else
      let p := (s.segAt d.seg).p
      let s := if s.follower then s else s.onTrig (fun t => { t with phase := .post d.seg })
      s.applyTrigger d (min p dist) (if dist < p then rsFORCED else rsTAKEN)
  | none => s

/-- The holder is silent or gone: this member's own decisions serve every stamp beyond the last K received (R385, R390). -/
def State.ownServe (s : State) : State :=
  let later (d : Decision) : Bool := match s.pair.lastK with | some k => frameLt k d.frame | none => true
  let ds := s.pair.ownDecs.filter later
  let s := s.onPair (fun p => { p with ownDecs := [], theirDecs := [] })
  let s : State := match s.hearth.act with
    | some a => if a.post.isSome then s.onTrig (fun t => { t with phase := if t.phase = TrigPhase.armed a.seg then .post a.seg else t.phase }) else s
    | none => s
  s.each ds (fun s d => s.applyDecision d)

/-- R382: no heartbeat for HBTMO: a follower becomes ORPHAN while TONGS_IN is asserted, and otherwise waits to take hold; a holder
is ALONE. [DESIGN CHOICE, log entry 3; DEDUCED, log entry 77] -/
def heartbeatTimeout (s : State) : State :=
  if !s.runs .pair || s.pair.partner.isNone then s
  else
    let orphan : Bool := s.role = roFOLLOWER && s.tongsIn
    let next := if s.holds then roALONE else if orphan then roORPHAN else if s.role = roJOINING then roWAITING else s.role
    let s := s.count (PAIR + 0x10C)
    let s := if orphan then s.leaveFollow.setRole next else s.setRole next
    let s := s.onPair (fun p => { p with partner := none, lost := some s.rawNow, rxNext := none, held := [] })
    let s := s.logDev .pair 3 0 [(21, 1, next)]
    if orphan then s.ownServe else s

/-! ### Tongs (R381, R390) -/

/-- R381: TONGS_IN changes level; a member with HOME = 0 that took hold within the last 500 ns yields. -/
def tongsInChange (asserted : Bool) (s : State) : State :=
  let s := s.setBit aPairStat 27 asserted
  let tie : Bool := match s.pair.tookAt with | some t => decide (s.rawNow ≤ t + 500 * NS) | none => false
  if asserted && s.holds && s.pairPresent && !s.home && tie then
    let s := (s.setBit aPairStat 28 false).onPair (fun p => { p with tookAt := none })
    (s.setRole (if s.runs .pair then roWAITING else roSOLO)).logDev .pair 8 0 []
  else s

/-- R381: TONGS_IN has been released for 2 µs: the member takes hold, its decisions serve from now on (R390). [DEDUCED, log entry 76] -/
def tongsTakeHold (s : State) : State :=
  if !s.pairPresent || s.holds || s.tongsIn || !s.runs .pair || captureFns.any (fun f => s.fnState f = .fault) then s
  else
    let cause := if s.pair.handover.isSome then 2 else if s.pair.lost.isSome then 1 else 0
    let next := if s.pair.partner.isSome then roHOLDER else roALONE
    let s := (s.setBit aPairStat 28 true).count (PAIR + 0x118)
    let s := s.leaveFollow.setRole next
    let s := s.onPair (fun p => { p with tookAt := some s.rawNow, from_ := p.handover.map (·.2), handover := none })
    let s := s.ownServe
    s.logDev .pair 1 0 [(21, 1, next), (22, 1, cause)]

/-- R381: the holder's heartbeat generator has been silent for HBTMO. -/
def heartbeatSilent (s : State) : State := s.dropTongs 3

/-! ### What the mirror port brings to a follower (R383) -/

/-- This member takes what the holder sends. -/
def State.copies (s : State) : Bool := s.runs .pair && (s.role = roFOLLOWER || s.role = roJOINING)

/-- A piece of the image: a complete one with a good CRC is loaded (R383). [DEDUCED, log entry 75] -/
def State.imagePiece (s : State) (total off : Nat) (body : List Byte) : State :=
  let had := if off = 0 then [] else s.pair.img
  if had.length ≠ off then s.onPair (fun p => { p with img := [] })
  else
    let img := had ++ body
    if img.length < total then s.onPair (fun p => { p with img := img })
    else
      let s := s.onPair (fun p => { p with img := [] })
      if img.length = total && imgCrcOk img then s.loadImage img else s

/-- The state of a segment, as a joining member takes it (R391): a record in POST is not recorded here. [DEDUCED, log entry 75] -/
def State.copySegment (s : State) (i phase recCount f0 : Nat) : State :=
  let ph : SegPhase := if phase = 2 then .armed else if phase = 4 then .closed else .empty
  let s := if ph = .empty then s else s.cutJob (s.segAt (i % 64))
  let s := s.onSeg (i % 64) (fun g => { g with phase := ph, recCount := recCount, record := none })
  if phase = 2 then s.onPair (fun p => { p with joinF0 := some f0 }) else s

/-- R383: a STATE message. -/
def State.takeState (s : State) (m : StateMsg) : State :=
  if !s.copies then s
  else match m with
    | .image total off body => s.imagePiece total off body
    | .reg a seg tile v => s.storeMirrored a seg tile v
    | .fnCmd f cmd at_ =>
      if captureFns.contains f then
        ((s.onPair (fun p => { p with cmdAt := some at_ })).fnCommand f cmd).1.onPair (fun p => { p with cmdAt := none })
      else s
    | .segment i phase recCount f0 => if s.role = roJOINING then s.copySegment i phase recCount f0 else s
    | .timeTrig ns => s.onTrig (fun t => { t with timeTrig := some ns, timeStamp := some (ns * NS) })
    | .step d => s.requestStep (.by d)

/-- The shadow sequencer goes on after frame n, which started at t (R383). [DEDUCED, log entry 36; DEDUCED, log entry 78] -/
def State.shadowAfter (s : State) (n : Nat) (t : Stamp) : State :=
  let b := s.trig.sched
  if b.isEmpty || !s.trgLive then s.onSeq (fun q => { q with nextN := (n + 1) % 2 ^ 32, renumber := false })
  else
    let base : Int := (t : Int) - s.frameOfs
    s.onSeq (fun q =>
      let i := if q.run then q.tab else 0
      { q with run := true, renumber := false, nextN := (n + 1) % 2 ^ 32, nextT := stampInt (base + schInterval b i), tab := i + 1 })

/-- R383: SCHED gives a frame's number and T_k; the first for a frame is compared with the shadow sequencer's, a later one is the
refined value. [DEDUCED, log entry 78] -/
def State.takeSched (s : State) (n : Nat) (t : Nat) : State :=
  if !s.copies then s
  else match s.trig.frames.find? (fun fr => fr.n = n) with
    | some fr =>
      let s := if fr.copied then s else s.shadowDiff n t fr.sched
      let fr' : FrameTime := { fr with t := t, copied := true, refined := fr.copied, sched := if fr.copied then fr.sched else t }
      let s := s.restamp fr fr'
      if fr.copied then s.logFrame fr' else s
    | none =>
      let q := s.trig.seq
      let s := if q.run && q.nextN = n then s.shadowDiff n t (s.withOfs q.nextT) else s
      (s.knowFrame n t true).shadowAfter n t

/-- R385: DECISION brings a taken trigger, or none, and K: it is compared with this member's own and applied. Own decisions that K
passes were taken by this member only. [DEDUCED, log entry 78] -/
def State.takeDecision (s : State) (d : Option Decision) (k : Option Nat) : State :=
  if !s.copies || s.role ≠ roFOLLOWER then s
  else
    let s := match d with
      | none => s
      | some d =>
        let s := match s.counterpart d s.pair.ownDecs with
          | some e =>
            let s := s.onPair (fun p => { p with ownDecs := p.ownDecs.erase e })
            if s.agree d e then s else s.decMismatch (some d) (some e)
          | none => s.onPair (fun p => { p with theirDecs := p.theirDecs ++ [d] })
        s.applyDecision d
    match k with
    | none => s
    | some k =>
      let passed (e : Decision) : Bool := frameLe e.frame k
      let gone := s.pair.ownDecs.filter passed
      let s := s.onPair (fun p => { p with lastK := some k, ownDecs := p.ownDecs.filter (fun e => !passed e) })
      s.each gone (fun s e => (s.decMismatch none (some e)).onTrig (fun t =>
        { t with phase := if t.phase = TrigPhase.post e.seg && !s.inPost then .armed e.seg else t.phase }))

/-- The record of a segment takes what the holder says of its close (R383). -/
def State.patchClosed (s : State) (seg qact flags : Nat) (cstamp : Stamp) : State :=
  match (s.segAt seg).record with
  | some r =>
    let r := r.asHolder qact flags cstamp
    (s.onSeg seg (fun g => { g with record := some r })).writeDir seg r
  | none => s

/-- The holder's record has closed: this member's closes with the same last frame, or has closed already (R383). -/
def State.copyClose (s : State) (seg qact flags : Nat) (cstamp : Stamp) : State :=
  match s.hearth.act with
  | some a =>
    match a.post with
    | some p =>
      if a.seg = seg then
        let s := s.onPair (fun x => { x with closes := x.closes ++ [(seg, qact, flags, cstamp)] })
        (s.onH (fun h => { h with act := some { a with endAfter := some (frameAdd p.t ((qact : Int) - 1)) } })).settleFrames
      else s.patchClosed seg qact flags cstamp
    | none => s.patchClosed seg qact flags cstamp
  | none => s.patchClosed seg qact flags cstamp

/-- The record number of the open record is the holder's (R383). -/
def State.copyRecno (s : State) (seg recno : Nat) : State :=
  match s.hearth.act with
  | some a =>
    match a.post with
    | some p =>
      if a.seg = seg then
        (s.onSeg seg (fun g => { g with recCount := (recno + 1) % 2 ^ 32 })).onH (fun h =>
          { h with act := some { a with post := some { p with recno := recno } } })
      else s
    | none => s
  | none => s

/-- A follower tells the holder what its own checks of an ARM gave (R385). The body's layout is the model's. [DESIGN CHOICE, log entry 74] -/
def State.tellArmCheck (s : State) (st engine check pCheck : Nat) : State :=
  s.mirrorSend mFORWARD (pack 16 [(0, 1, kARM), (1, 1, st), (2, 1, engine), (3, 1, check), (4, 4, pCheck)])

/-- The holder has armed a segment: by an ARM, which this member applies once its own checks of R249, R200 and R224 have passed and whose
result it answers (R385), or at a re-arm, which makes no pace check and keeps the scores of before (R240, R252). `meas` is as in arm.
[DEDUCED, log entry 75] -/
def State.copyArm (s : State) (seg f0 : Nat) (again : Bool) (meas : List (Nat × Nat)) : State :=
  if !s.armCheckTrg seg then (if again then s else s.tellArmCheck stBADARG 0 0 0)
  else if again then (if s.armCheckHrt seg = stDONE then s.armNow seg f0 true else s)
  else
    let r := if s.segActive then none else s.paceRefusal meas
    let s := if s.segActive then s else (s.paceWake meas).wakeHeld
    match r with
    | some (e, k, p) => (s.logPace e k p 0).tellArmCheck stPACE e k p
    | none =>
      let st := s.armCheckHrt seg
      if st ≠ stDONE then s.tellArmCheck st 0 0 0
      else ((s.renumber.armResets.onTrig (fun t => { t with prev := [] })).armNow seg f0 false).tellArmCheck stDONE 0 0 0

/-- R383: RECORD applies ARM, DISARM, POST, close or RELEASE. [DEDUCED, log entry 36; DEDUCED, log entry 75] -/
def State.takeRecord (s : State) (m : RecordMsg) (meas : List (Nat × Nat)) : State :=
  if !s.copies then s
  else if s.role = roJOINING then
    match m with
    | .arm seg f0 _ => ((s.cutJob (s.segAt (seg % 64))).onSeg (seg % 64) (fun g => { g with phase := .armed })).onPair (fun p => { p with joinF0 := some f0 })
    | .post seg recno => s.onSeg (seg % 64) (fun g => { g with phase := .empty, recCount := (recno + 1) % 2 ^ 32 })
    | .disarm => (s.each (upTo 64) (fun s i => if (s.segAt i).phase = .armed then s.onSeg i (fun g => { g with phase := .empty }) else s)).onPair
        (fun p => { p with joinF0 := none })
    | .close seg _ _ _ => (s.cutJob (s.segAt (seg % 64))).onSeg (seg % 64) (fun g => { g with phase := .closed, record := none })
    | .release seg => s.onSeg (seg % 64) (fun g => if g.phase = .closed then { g with phase := .empty } else g)
  else match m with
    | .arm seg f0 again => s.copyArm (seg % 64) f0 again meas
    | .disarm => s.disarmAll
    | .post seg recno => s.copyRecno (seg % 64) recno
    | .close seg qact flags cstamp => s.copyClose (seg % 64) qact flags cstamp
    | .release seg => s.releaseSegment (seg % 64)

/-- Frames a to b − 1 are logged as UNCOMPARED and counted (R384, R391). -/
def State.uncompared (s : State) (a b : Nat) : State :=
  if frameLt a b then
    (s.count (PAIR + 0x104) (frameDiff b a)).logDev .pair 6 0 [(24, 4, a), (28, 4, frameAdd b (-1))]
  else s

/-! ### Time on the follower (R297, R378, R379) -/

/-- The offset from the holder that an exchange measured, in the manner of a two-way exchange (R378). -/
def TimeXchg.offset (x : TimeXchg) : Int := (((x.t1 : Int) - x.t2) + ((x.t4 : Int) - x.t3)) / 2

/-- How fast the holder's time runs against the own counter by the last two exchanges, in 2^-40. -/
def State.measuredRate (s : State) : Int :=
  match s.pair.xchg, s.pair.xprev with
  | some x, some y => if x.t2 = y.t2 then 0 else (x.offset - y.offset) * 2 ^ 40 / ((x.t2 : Int) - y.t2)
  | _, _ => 0

/-- The offset from the holder at raw time t, as the exchanges measured it. -/
def State.measuredOffset (s : State) (x : TimeXchg) (t : Stamp) : Int := x.offset + s.measuredRate * ((t : Int) - x.t2) / 2 ^ 40

/-- 1 ms in 2^-16 ns: from one update of the time to the next (R378). -/
def timeUpdate : Int := 1000000 * 65536

/-- RATE (R297): such that the offset ofs at raw time t grows within 1 ms to the holder's offset as measured, to within the 50 ps of R379;
a free value says where in that range. [DESIGN CHOICE, log entry 66] -/
def State.newRate (s : State) (x : TimeXchg) (t : Stamp) (ofs : Int) : Nat :=
  let goal := s.measuredOffset x (t + timeUpdate.toNat)
  let slack : Int := (Config.pairRate s.freeUse).toNat % 109901 - 54950
  ux 32 (clampI (-(2 ^ 31)) (2 ^ 31 - 1) ((goal - ofs) * 2 ^ 40 / timeUpdate + slack))

/-- The pair logic writes OFS, RATE and TREF together (R297), with the offset ofs at this tick. [DESIGN CHOICE, log entry 66] -/
def State.writeTime (s : State) (x : TimeXchg) (ofs : Int) : State :=
  let t := s.rawNow
  let rate := s.newRate x t ofs
  let tref := t / NS
  let o := ux 64 (ofs - ((t : Int) - tref * 65536) * sx 32 rate / (2 ^ 40 : Int))
  let s := (s.setReg (TB + 0x60) (o % 2 ^ 32)).setReg (TB + 0x64) (o / 2 ^ 32)
  let s := (s.setReg (TB + 0x6C) (tref % 2 ^ 32)).setReg (TB + 0x70) (tref / 2 ^ 32)
  (s.setReg (TB + 0x68) rate).useFree

/-- R378, R297: the update every 1 ms: H is continuous at this tick. -/
def pairTimeUpdate (s : State) : State :=
  match s.pair.xchg with
  | some x => if s.sync = 4 then s.writeTime x ((s.translate s.rawNow : Int) - s.rawNow) else s
  | none => s

/-- A member that begins to follow takes the holder's time as it last measured it; one that has followed all along goes on with H as it
stands, which nothing but a step may move (R297). [DEDUCED, log entry 75] -/
def State.followTime (s : State) : State :=
  if s.sync = 4 then s
  else
    let s := s.enterFollow
    match s.pair.xchg with
    | some x => s.writeTime x (s.measuredOffset x s.rawNow)
    | none => s

/-- R391: the first frame boundary F_j after the last message of a join: the member is FOLLOWER, and its ring begins at F_j.
[DEDUCED, log entry 75] -/
def joinComplete (s : State) : State :=
  if !s.runs .pair || s.role ≠ roJOINING then s
  else
    let fj := s.nextFrame
    let s := (s.setRole roFOLLOWER).followTime
    let s := s.onPair (fun p => { p with joinedAt := some fj })
    let s := s.logDev .pair 4 0 [(24, 4, fj)]
    match (upTo 64).find? (fun i => (s.segAt i).phase = .armed) with
    | some i =>
      let s := match s.pair.joinF0 with | some f0 => s.uncompared f0 fj | none => s
      let s := (s.armRing i fj).onPair (fun p => { p with joinF0 := none })
      s.trigItem s.now (.phase (.armed i))
    | none => s

/-- A stamp of a mirror message on this member's own counter, at 312.5 ps (R378). -/
def State.mirrorRaw (s : State) : Stamp := s.rawNow - s.rawNow % res312

/-- R378: TIME leaves on every mirror lane in run, with its departure stamp and the arrival stamp of the partner's last. -/
def timeTx (s : State) : State :=
  if s.runs .pair then
    let t := s.mirrorRaw
    let s := s.each ((upTo 8).filter (fun m => s.mlStage m = 6)) (fun s _ => s.mirrorSend mTIME (stampBytes t ++ stampBytes (s.pair.timeAt.getD 0)))
    s.onPair (fun p => { p with sent := some t })
  else s

/-- PAIR_SKEWC and PAIR_ASYM. -/
def State.pairSkew (s : State) : Int := sx 32 (s.reg (PAIR + 0x20))
def State.pairAsym (s : State) : Int := sx 32 (s.reg (PAIR + 0x24))

/-- A number of ps as PAIR_TERR shows it: signed and saturating. -/
def sat32s (z : Int) : Nat := ux 32 (clampI (-(2 ^ 31)) (2 ^ 31 - 1) z)

/-- R378: a TIME of the partner arrives, and every member stamps its arrival. On a follower it carries the holder's departure, and the
holder's arrival stamp of this member's last TIME: the mean path delay and the residual of the exchange are shown. [DESIGN CHOICE, log entry 74] -/
def State.takeTime (s : State) (dep back : Nat) (t : Stamp) : State :=
  let t2 := stampInt ((t - t % res312 : Int) - s.pairSkew)
  let s := s.onPair (fun p => { p with timeAt := some t2 })
  match s.pair.sent with
  | none => s
  | some t3 =>
    if !s.copies then s
    else
      let x : TimeXchg := { t1 := dep, t2 := stampInt ((t2 : Int) - s.pairAsym), t3 := t3, t4 := back }
      let mpd := (((x.t2 : Int) - x.t1) + ((x.t4 : Int) - x.t3)) / 2
      let resid := x.offset - ((s.translate t2 : Int) - t2)
      let s := s.onPair (fun p => { p with xchg := some x, xprev := p.xchg })
      (s.setReg (PAIR + 0x18) (ux 32 mpd)).setReg (PAIR + 0x14) (sat32s (resid * 1000 / 65536))

/-! ### Digests, truncation, QUENCH, forwarded commands (R384–R389) -/

/-- The partner's digest is compared, or waits for this member's own (R384). One that comes after DIGTMO has given its frame up is discarded
and counted (R23). [DEDUCED, log entry 106] -/
def State.theirDigest (s : State) (d : DigestNote) : State :=
  if !s.comparing then s
  else if s.pair.gaveUp.contains d.frame then s.count (PAIR + 0x114)
  else match s.pair.own.find? (fun e => e.tile = d.tile && e.frame = d.frame) with
    | some e => (s.onPair (fun p => { p with own := p.own.erase e })).compareDigest e d
    | none => s.onPair (fun p => { p with theirs := p.theirs ++ [d] })

/-- R384: the partner has not sent the digests of the oldest frame that waits: the frame is left uncompared, and a fragment mismatch found
in it is logged. A frame that a global QUENCH caught and of which only this member has kept data is DIVERGENT (R387). [DEDUCED, log entry 106] -/
def digestTimeout (s : State) : State :=
  match s.pair.own with
  | d :: _ =>
    let other (e : DigestNote) : Bool := e.frame ≠ d.frame
    let alone : Bool := s.pair.quenched.contains d.frame
    let s := s.onPair (fun p => { p with own := p.own.filter other, theirs := p.theirs.filter other, gaveUp := p.gaveUp ++ [d.frame],
                                         quenched := p.quenched.erase d.frame })
    if alone then (s.diverge d.frame).logDivergent d.frame true
    else (s.uncompared d.frame (frameAdd d.frame 1)).logDivergent d.frame false
  | [] => s

/-- Frame n lies in the open record, at or after its trigger frame. -/
def State.inOpenRecord (s : State) (n : Nat) : Bool :=
  match s.hearth.act with
  | some a => match a.post with
    | some p => frameLe p.t n && frameLt n (frameAdd p.t (s.segAt a.seg).q)
    | none => false
  | none => false

/-- R386: SPACE: the record closes at the lower of the two members' frames; one that has just closed here is cut back to it. -/
def State.takeSpace (s : State) (n : Nat) : State :=
  if !s.comparing then s else if s.inOpenRecord n then s.truncate n false else s.truncateClosed n

/-- R387, R388: the partner's global QUENCH; the log says whose took effect. The stamp t is the partner's. -/
def State.takeQuench (s : State) (t : Nat) : State :=
  if !s.runs .pair then s
  else
    let r := s.quenchFive
    let s := r.1
    let any := r.2
    if any then s.noteQuenched.log t 13 11 (11 * 16 + 10) [(21, 1, 0)] else s

/-- The frame whose FRAME command is the last before a hand-over, with its scheduled instant, and the first frame after it (R393): the
last before a gap of at least 2.5 µs between command slots; if none comes within 10 ms, the next. With no command to come the release may
be at any time. [DEDUCED, log entry 76] -/
def State.handoverFrame (s : State) : Option Stamp × Nat :=
  let q := s.trig.seq
  if !q.run then (none, q.nextN)
  else match gapFrom s.trig.sched (s.nowFine + 10000000 * NS) 16384 q.nextN q.nextT q.tab q.left with
    | some (t, n) => (some t, (n + 1) % 2 ^ 32)
    | none => (some q.nextT, (q.nextN + 1) % 2 ^ 32)

/-- The longest and the shortest block on a command lane in run, in 2^-16 ns. -/
def State.blockRange (s : State) : Nat × Nat :=
  let bs := ((upTo (4 * s.part.sectors)).filter s.txRun).map (fun f => blockTime16 (s.txStep f) * 4096)
  let long := bs.foldl max 0
  (long, bs.foldl min long)

/-- The release instant and the first frame of a hand-over (R393): the frame is the schedule's; the instant is the holder's choice h, as
far as it lies at the end of the block that carries the last command, whose slot begins four to five blocks before the scheduled instant
(R73). [DEDUCED, log entry 76] -/
def State.handoverAt (s : State) (h : Nat) : Nat × Nat :=
  match s.handoverFrame with
  | (none, n) => (max h s.nowFine, n)
  | (some t, n) => (max (t - 4 * s.blockRange.1) (min h (t - 3 * s.blockRange.2)), n)

/-- A planned hand-over begins (R393), at the instant that the holder chooses. -/
def State.planHandover (s : State) (h : Nat) (test : Bool) : State :=
  let (h, n) := s.handoverAt h
  let s := s.onPair (fun p => { p with handover := some (h, n) })
  s.mirrorSend mHANDOVER (pack 16 [(0, 10, h), (10, 1, b2n test), (12, 4, n)])

/-- A hand-over can be made: the partner is FOLLOWER, and no segment is in POST (R392). -/
def State.canHandOver (s : State) : Bool :=
  s.runs .pair && s.role = roHOLDER && s.partnerRole = some roFOLLOWER && !s.inPost

/-- R389, R394: the holder executes what its follower forwards. -/
def State.takeForward (s : State) (c : ForwardCmd) : State :=
  if !s.runs .pair || s.role ≠ roHOLDER then s
  else match c with
    | .trigger stamp force => if s.runs .trg then s.srcEvent stamp 51 (.edge 51 force) else s
    | .release seg => s.releaseSegment (seg % 64)
    | .timeTrigger ns => (s.ownTimeTrigger ns).1
    | .handover h _ => if s.canHandOver then s.planHandover h false else s
    | .armCheck .. => s

/-! ### Planned hand-overs (R392–R394) -/

/-- R393: HANDOVER names the release instant, the first frame for the new holder, and whether it is a swap test. -/
def State.takeHandover (s : State) (h n : Nat) (test : Bool) : State :=
  if s.copies && s.role = roFOLLOWER then s.onPair (fun p => { p with handover := some (h, n), testing := test }) else s

/-- R393: the release instant has come. [DEDUCED, log entry 76] -/
def handoverRelease (s : State) : State :=
  match s.pair.handover with
  | some (h, _) => if s.holds && decide (h ≤ s.nowFine) then s.dropTongs 0 else s
  | none => s

/-- R392: SWAPINT has passed, and SYNCED = 1 with no segment ARMED or in POST; or SWAPTEST has, and the roles return. The holder
chooses the release instant h; the first frame for the new holder is the schedule's, which n can only repeat (R393). [DEDUCED, log entry 76] -/
def roleSwapDue (h _n : Nat) (s : State) : State :=
  if !s.canHandOver then s
  else if s.pair.testing then (s.onPair (fun p => { p with testing := false })).planHandover h false
  else if s.bit aPairCfg 31 && s.synced && !s.segActive then s.planHandover h true
  else s

/-- The status of a SWAP_ROLE (R389, R392). [DEDUCED, log entry 76] -/
def State.swapStatus (s : State) : Nat :=
  if !s.part.mirror then stABSENT else if s.follower then stNOTHOLDER else if s.canHandOver then stDONE else stBADARG

/-- R392: SWAP_ROLE. -/
def swapRole (src : Src) (h _n : Nat) (s : State) : State :=
  s.serve src kSWAPROLE (fun c s =>
    let st := s.swapStatus
    (if st = stDONE then s.planHandover h false else s).reply c st [])

/-- R397: PAIR_CMD.SWAP. -/
def pairSwap (h _n : Nat) (s : State) : State :=
  if !s.part.mirror || s.inReset then s
  else
    let st := s.swapStatus
    (if st = stDONE then s.planHandover h false else s).lastStatus .pair st

/-- R394: the home primary's take-back conditions are met: it asks the holder for a hand-over. [DEDUCED, log entry 76] -/
def takebackDue (s : State) : State :=
  if s.runs .pair && s.follower && s.home && s.bit aPairCfg 30 && s.synced && !s.inPost then
    s.mirrorSend mFORWARD (pack 16 [(0, 1, kSWAPROLE)])
  else s

/-! ### The order of mirror messages (R375–R377) -/

/-- A message takes its effect, its predecessors having taken theirs (R377). -/
def State.mirApply (s : State) : MirMsg → State
  | .heartbeat h t => s.takeHeartbeat h t
  | .state m => s.takeState m
  | .sched n t => s.takeSched n t
  | .decision d k => s.takeDecision d k
  | .record m meas => s.takeRecord m meas
  | .time dep back t => s.takeTime dep back t
  | .digest tile frame value => s.theirDigest { tile := tile, frame := frame, value := value }
  | .space n => s.takeSpace n
  | .quench t => s.takeQuench t
  | .forward c => s.takeForward c
  | .handover h n test => s.takeHandover h n test
  | .lost => s

/-- How far a SEQ lies ahead of the next one in order. -/
def State.seqAhead (s : State) (q : Nat) : Nat := frameDiff q (s.pair.rxNext.getD q)

/-- Message q takes its effect and is passed; a member whose PAIR no longer runs takes nothing more. [DESIGN CHOICE, log entry 96] -/
def State.mirPass (s : State) (q : Nat) (m : MirMsg) : State :=
  let s := s.onPair (fun p => { p with rxNext := some ((q + 1) % 2 ^ 32), held := p.held.filter (fun e => e.1 ≠ q) })
  if s.runs .pair then s.mirApply m else s

/-- The messages that wait and whose turn has come take their effect, one after the other. -/
def State.mirDrain : Nat → State → State
  | 0, s => s
  | k + 1, s =>
    match s.pair.held.find? (fun e => s.pair.rxNext = some e.1) with
    | some e => State.mirDrain k (s.mirPass e.1 e.2)
    | none => s

/-- A mirror message arrives (R375): it takes its effect in the order of SEQ. One whose SEQ has been passed, and so declared lost, is
discarded. The first after a START, or after the partner was lost, begins the order. [DESIGN CHOICE, log entry 96] -/
def State.mirrorIn (s : State) (q : Nat) (m : MirMsg) : State :=
  if !s.runs .pair then s
  else if 2 ^ 31 ≤ s.seqAhead q then s.count (PAIR + 0x114)
  else if s.seqAhead q = 0 then State.mirDrain s.pair.held.length (s.mirPass q m)
  else if s.pair.held.any (fun e => e.1 = q) then s
  else s.onPair (fun p => { p with held := p.held ++ [(q, m)] })

/-- R376: a full resynchronisation is requested: a member that follows or joins joins anew, and its next HEARTBEAT says so.
[DESIGN CHOICE, log entry 96] -/
def State.askResync (s : State) : State :=
  if s.role = roFOLLOWER || s.role = roJOINING then s.beginJoin.onPair (fun p => { p with resync := true }) else s

/-- The waiting messages up to SEQ q take their effect, whatever is missing between them. [DESIGN CHOICE, log entry 96] -/
def State.mirSkip : Nat → Nat → State → State
  | 0, _, s => s
  | k + 1, q, s =>
    match sortBy (fun a b => decide (s.seqAhead a.1 < s.seqAhead b.1)) s.pair.held with
    | e :: _ => if s.seqAhead e.1 ≤ s.seqAhead q then State.mirSkip k q (s.mirPass e.1 e.2) else s
    | [] => s

/-- R375, R59: message q has waited too long: the missing predecessors are declared lost, whatever they were, and it takes its effect.
[DESIGN CHOICE, log entry 96] -/
def State.mirrorDeskew (s : State) (q : Nat) : State :=
  if !s.runs .pair || s.pair.held.all (fun e => e.1 ≠ q) then s
  else
    let n := s.pair.held.length
    State.mirDrain n (State.mirSkip n q s.askResync)

/-- R59, R375: a strip of a tile, or a mirror message, has waited too long for its predecessors.
[DESIGN CHOICE, log entry 3; DESIGN CHOICE, log entry 96] -/
def deskewTimeout (d : DeskewAt) (seq : Nat) (s : State) : State :=
  match d with
  | .tile f => s.stripDeskew f seq
  | .mirror => s.mirrorDeskew seq

/-- R377: a partner's HEARTBEAT arrives on mirror lane m; the first one completes the lane's stage 4 (R375). [DESIGN CHOICE, log entry 18] -/
def heartbeatRx (m : Fin 8) (q : Nat) (h : Heartbeat) (s : State) : State :=
  let ln : Lane := .mir m
  let s := if s.laneLive ln && s.stage ln = 4 then (laneOn s (fun r => { r with capsDone := true }) ln).riseOrRun ln else s
  s.mirrorIn q (.heartbeat h s.rawNow)

/-- R383: a STATE message. -/
def stateRx (q : Nat) (m : StateMsg) (s : State) : State := s.mirrorIn q (.state m)

/-- R383: a SCHED message. -/
def schedRx (q n t : Nat) (s : State) : State := s.mirrorIn q (.sched n t)

/-- R385: a DECISION message. -/
def decisionRx (q : Nat) (d : Option Decision) (k : Option Nat) (s : State) : State := s.mirrorIn q (.decision d k)

/-- R383: a RECORD message. -/
def recordRx (q : Nat) (m : RecordMsg) (meas : List (Nat × Nat)) (s : State) : State := s.mirrorIn q (.record m meas)

/-- R378: a TIME message, stamped as it arrives. -/
def timeRx (q dep back : Nat) (s : State) : State := s.mirrorIn q (.time dep back s.rawNow)

/-- R384: an FDIGEST message. -/
def fdigestRx (q : Nat) (tile : Fin 48) (frame value : Nat) (s : State) : State := s.mirrorIn q (.digest tile.val frame value)

/-- R384: a DIGEST message. -/
def digestRx (q frame value : Nat) (s : State) : State := s.mirrorIn q (.digest 0xFF frame value)

/-- R386: a SPACE message. -/
def spaceRx (q n : Nat) (s : State) : State := s.mirrorIn q (.space n)

/-- R387: a QUENCH message. -/
def quenchRx (q t : Nat) (s : State) : State := s.mirrorIn q (.quench t)

/-- R389: a FORWARD message. -/
def forwardRx (q : Nat) (c : ForwardCmd) (s : State) : State := s.mirrorIn q (.forward c)

/-- R393: a HANDOVER message. -/
def handoverRx (q h n : Nat) (test : Bool) (s : State) : State := s.mirrorIn q (.handover h n test)

/-- R376: a message with a bad CRC or TYPE is discarded and counted; its SEQ is declared lost, and a STATE, DECISION or RECORD makes
the member ask for everything again. [DESIGN CHOICE, log entry 96] -/
def mirrorMessageBad (q type : Nat) (s : State) : State :=
  if !s.runs .pair then s
  else
    let s := s.count (PAIR + 0x114)
    let s := if type = mSTATE || type = mDECISION || type = mRECORD then s.askResync else s
    if 2 ^ 31 ≤ s.seqAhead q then s else s.mirrorIn q .lost

end Sys2Proof.Machine
end

