-- ==== Sys2Proof/Machine/Store.lean ====
section
/-!
DEFINITION. The settings store (R424–R429): the stored fields and their groups, STORE, RECALL, wear. A settings set is held by its
fields; the physical pages a STORE writes are counted, and the page a field stands on is a free value.
-/

namespace Sys2Proof.Machine

def NVS : Nat := 0x00900000
def aUpdStat : Nat := NVS + 0x100
def aUpdCfg : Nat := NVS + 0x104

def State.onNvs (s : State) (g : Nvs → Nvs) : State := s.putNvs (g s.nvs)
def State.onSys (s : State) (g : SysState → SysState) : State := s.putSys (g s.sys)

/-! ### The stored fields (R428) -/

/-- The register addresses of a group of stored fields. -/
def groupRegs : Nat → List Nat
  | 1 => (upTo 96).flatMap (fun l => [aRx l oCFG, aRx l oSKEWC]) ++ (upTo 48).map (fun f => aCmd f 0) ++ (upTo 12).map (fun k => secBase k + 0xC00)
  | 2 => (upTo 97).map (fun q => aQ q 0)
  | 3 => [HRT]
  | 4 => (upTo 12).flatMap (fun k => (upTo 5).map (fun i => 0x600000 + 0x100 * k + 4 * i))
  | 5 => [aTbCfg]
  | 6 => (upTo 16).flatMap (fun n => [aChCfg n, aChCfg n + 4]) ++ (upTo 6).map (fun i => TDC + 0x200 + 4 * i)
      ++ (upTo 8).flatMap (fun u => [aUnit u 0, aUnit u 4])
  | 7 => (upTo 4).map (fun i => PTP + 4 * i) ++ (upTo 2).flatMap (fun p => (upTo 3).map (fun i => aPort p (4 * i)))
  | 8 => [aPairCfg, aPairCfg1, PAIR + 0x20, PAIR + 0x24]
  | 9 => [aAdcCal 0, aAdcCal 1]
  | 10 => [aUpdCfg]
  | _ => []

/-- The functions that must be STOPPED or OFF before a group is recalled. -/
def groupFns : Nat → List Fn
  | 1 => [.lnk] | 2 => [.ing, .aux] | 3 => [.hrt] | 4 => [.cmp] | 5 => [.tb] | 6 => [.tdc] | 7 => [.ptp] | 8 => [.pair] | 9 => [.aux]
  | _ => []

/-- Every stored register that the part has. -/
def State.storedRegs (s : State) : List Nat := ((upTo 11).flatMap groupRegs).filter s.present

/-- A segment with its geometry and NEXT alone. -/
def Segment.geometry (g : Segment) : Segment :=
  { base := g.base, length := g.length, ecc := g.ecc, p := g.p, q := g.q, mbase := g.mbase, mslots := g.mslots, next := g.next,
    quota := g.quota }

/-- The interpolator that serves a timed input (R310, R318). -/
def State.servingOf (s : State) (i : Nat) : Interp := s.ipolAt (s.fld (aChStat i) 15 8)

/-- The current value of every stored field, with an identity (R429). -/
def State.snapshot (s : State) (id : Settings) : Settings :=
  { regs := (s.storedRegs.filter (fun a => s.reg a ≠ (s.rst a).toNat)).map (fun a => (a, BitVec.ofNat 32 (s.reg a))),
    segs := ((upTo 64).map (fun i => (i, (s.segAt i).geometry))).filter (fun c => c.2 ≠ {}),
    tables := (upTo 22).map (fun i => (i, s.servingOf i)), mac := id.mac, subsys := id.subsys, bar2 := id.bar2 }

/-- The keys of the fields in which a new set differs from the old one: registers by address, segments, tables, identity.
[DESIGN CHOICE, log entry 81] -/
def State.changedFields (s : State) (old : Option Settings) (x : Settings) : List Nat :=
  let all := s.storedRegs ++ (upTo 64).map (0x10000000 + ·) ++ (upTo 22).map (0x20000000 + ·) ++ [0x30000000]
  match old with
  | none => all
  | some o => all.filter (fun k =>
      if k < 0x10000000 then o.regs.find? (fun c => c.1 = k) ≠ x.regs.find? (fun c => c.1 = k)
      else if k < 0x20000000 then o.segs.find? (fun c => c.1 = k - 0x10000000) ≠ x.segs.find? (fun c => c.1 = k - 0x10000000)
      else if k < 0x30000000 then o.tables.find? (fun c => c.1 = k - 0x20000000) ≠ x.tables.find? (fun c => c.1 = k - 0x20000000)
      else o.mac ≠ x.mac || o.subsys ≠ x.subsys || o.bar2 ≠ x.bar2)

/-! ### Pages (R425, R426) -/

/-- Erase cycles of a page of the store. -/
def Nvs.erased (n : Nvs) (page : Nat) : Nat := sget 0 n.cycles page

/-- A page is retired at 100,000 cycles. -/
def Nvs.retired (n : Nvs) (page : Nat) : Bool := decide (100000 ≤ n.erased page)

/-- The physical pages of the settings area that can hold the user set: the first 1,022 from store offset 0xC0_2000, less those of
the factory set. [DESIGN CHOICE, log entry 81] -/
def settingsPages : List Nat := (upTo (1022 - Config.factoryPages.val)).map (3074 + ·)

/-- The good free pages of the settings area. -/
def Nvs.free (n : Nvs) : List Nat := settingsPages.filter (fun p => !n.retired p && !n.pages.any (fun c => c.2 = p))

/-- The store with pages erased and programmed once. -/
def Nvs.programmed (n : Nvs) (ps : List Nat) : Nvs := { n with cycles := ps.foldl (fun m p => sput 0 m p (sget 0 m p + 1)) n.cycles }

/-- The free page with the fewest erase cycles, the lowest of several. -/
def Nvs.coolest (n : Nvs) (fs : List Nat) : Option Nat :=
  match fs with
  | [] => none
  | p :: ps => some (ps.foldl (fun b q => if n.erased q < n.erased b then q else b) p)

/-- A physical page is programmed once with a logical page of a generation. -/
def Nvs.putPage (n : Nvs) (p : Nat) (x : NvPage) : Nvs := { n.programmed [p] with phys := (p, x) :: n.phys.filter (fun c => c.1 ≠ p) }

/-- Logical pages of generation g are written one after the other, each to the coolest free page; the pages they stood on stay in use
until the commit page is written. The answer is none when no free page is left. -/
def Nvs.writePages (n : Nvs) (g : Nat) (placed : List (Nat × Nat × Nat)) : List Nat → Option (Nvs × List (Nat × Nat × Nat))
  | [] => some (n, placed)
  | l :: ls =>
    match n.coolest (n.free.filter (fun p => !placed.any (fun c => c.2.1 = p))) with
    | some p => (n.putPage p { logical := l, gen := g }).writePages g (placed ++ [(l, p, g)]) ls
    | none => none

/-- The generation that a STORE writes: one more than the highest that stands in the store. -/
def Nvs.nextGen (n : Nvs) : Nat := (((n.sets.head?.map (·.gen)).getD 0) + 1) % 2 ^ 32

/-- The pages of the set in use that a STORE does not write anew. -/
def Nvs.keptPages (n : Nvs) (placed : List (Nat × Nat × Nat)) : List (Nat × Nat × Nat) :=
  ((n.current.map (·.names)).getD []).filter (fun c => !placed.any (fun d => d.1 = c.1))

/-- A STORE's page writes (R425, R426): the changed logical pages, then the commit page (number 512), which carries the new generation and
names every page of the set; then the pages they replace are free. [DESIGN CHOICE, log entry 81] -/
def Nvs.storePages (n : Nvs) (x : Settings) (ls : List Nat) : Option Nvs :=
  match n.writePages n.nextGen [] (ls ++ [512]) with
  | some (n', placed) =>
    let n' := { n' with sets := { gen := n.nextGen, set := x, names := n.keptPages placed ++ placed } :: n'.sets }
    if n'.free.length < 64 then none else some n'
  | none => none

/-- What stands on a page is written onto another, and the set in use names that one from then on (R426). [DESIGN CHOICE, log entry 81] -/
def Nvs.movePage (n : Nvs) (page target : Nat) : Nvs :=
  let x := ((n.phys.find? (fun c => c.1 = page)).map (·.2)).getD { logical := 0, gen := 0, sound := false }
  let sets := (n.sets.filter n.intact).map (fun u =>
    { u with names := u.names.map (fun c => if c.2.1 = page then (c.1, target, c.2.2) else c) })
  { n.putPage target x with sets := sets }

/-- Pages counted in NVS_STAT.RETIRED. -/
def Nvs.retiredCount (n : Nvs) : Nat := (n.cycles.filter (fun c => decide (100000 ≤ c.2))).length

/-- NVS_STAT and NVS_MAXCYC as read (R443). -/
def State.nvsStat (s : State) : Nat :=
  let busy : Bool := s.sys.storing.isSome || (match s.sys.upd with | some u => u.committing | none => false)
  b2n busy * 2 ^ 31 + min s.nvs.retiredCount 4095 * 2 ^ 16 + min s.nvs.free.length 1023
def State.nvsMaxCyc (s : State) : Nat := ((s.nvs.cycles.map (·.2)).filter (fun c => decide (c < 100000))).foldl max 0

/-- The generation of the user set (R425, R443). -/
def State.nvsGen (s : State) : Nat := s.nvs.gen

/-- A boot, settings or update event (R444). -/
def State.logUpd (s : State) (idx code : Nat) (fields : List (Nat × Nat × Nat)) : State := s.log s.now 11 idx code fields

/-- The source of a command in class 11 (R299): its port, or firmware. -/
def srcIdx : Src → Nat
  | .port p => p.val
  | .core _ => 4

/-! ### STORE and RECALL (R429) -/

/-- R429: STORE. It is begun when firmware takes it up, and NVS_STAT.BUSY shows that; the command executed again ends it, and a reset in
between leaves the previous generation in force (R427). [DESIGN CHOICE, log entry 81] -/
def store (src : Src) (s : State) : State :=
  s.serve src kSTORE (fun c s =>
    if c.arg 0 / 2 ≠ 0 then s.reply c stBADARG []
    else if s.sys.storing ≠ some src then s.onSys (fun x => { x with storing := some src })
    else
      let s := s.onSys (fun x => { x with storing := none })
      let old := s.stored
      let id : Settings := if bitOf (c.arg 0) 0 then
          { mac := c.arg 1 + 2 ^ 32 * bits (c.arg 2) 15 0, subsys := bits (c.arg 2) 31 16, bar2 := bitOf (c.arg 3) 0 }
        else old
      let x := s.snapshot id
      let ls := ((s.changedFields s.nvs.user x).map (fun k => (Config.pageOf k).val)).eraseDups
      match s.nvs.storePages x ls with
      | none => (s.logUpd (srcIdx src) 0x23 [(20, 1, stWEAR), (24, 4, s.nvs.gen)]).reply c stWEAR []
      | some n =>
        let s := s.onNvs (fun _ => n)
        let s := s.logUpd (srcIdx src) 0x23 [(20, 1, stDONE), (24, 4, s.nvs.gen)]
        s.reply c stDONE (leBytes 4 ls.length ++ leBytes 4 s.nvs.free.length))

/-- The geometry of a segment comes from a settings set; a segment that holds a closed record keeps its own (R216). [DEDUCED, log entry 85] -/
def State.recallSegment (s : State) (x : Settings) (i : Nat) : State :=
  let g := s.segAt i
  let n : Segment := ((x.segs.find? (fun c => c.1 = i)).map (·.2)).getD {}
  if n = g.geometry then s
  else if g.phase = .closed then (s.onSeg i (fun g => { g with next := n.next })).refuseSt 3
  else s.onSeg i (fun g => { n with phase := g.phase, recCount := g.recCount, cap := g.cap, record := g.record })

/-- The interpolator of timed input i as a settings set has it; one without an entry is nominal. -/
def Settings.interp (x : Settings) (i : Nat) : Interp := ((x.tables.find? (fun c => c.1 = i)).map (·.2)).getD { table := some nominalTable }

/-- The code-density table of timed input i comes from a settings set (R310): the input is calibrated from the first edge on, and its
age counts from then (R318). [DEDUCED, log entry 68] -/
def State.recallTable (s : State) (x : Settings) (i : Nat) : State :=
  let k := s.fld (aChStat i) 15 8
  let p := x.interp i
  let s := s.onTdc (fun t => { t with ipols := t.ipols.setIfInBounds k p })
  (s.setBit (aChStat i) 31 p.table.isSome).onInput i (fun c => { c with calTick := s.tb.ticks })

/-- The fields of a group are written from a settings set (R428). A holder tells its follower the mirrored ones (R383). -/
def State.recallGroup (s : State) (x : Settings) (g : Nat) : State :=
  let s := s.each ((groupRegs g).filter s.present) (fun s a => (s.restoreReg x a).tellReg a 0 0)
  let s := if g = 3 then s.each (upTo 64) (fun s i => (s.recallSegment x i).sendSegRegs i) else s
  if g = 6 then s.each (upTo 22) (fun s i => s.recallTable x i) else s

/-- Every function named for the groups lets its fields change; an absent one has none. [DEDUCED, log entry 85] -/
def State.recallFree (s : State) (gs : List Nat) : Bool :=
  (gs.flatMap groupFns).all (fun f => s.idle f || s.fnState f = .absent)

/-- R429: RECALL. [DEDUCED, log entry 85] -/
def recallSet (src : Src) (s : State) : State :=
  s.serve src kRECALL (fun c s =>
    let gs := (upTo 11).filter (fun g => decide (g ≠ 0) && bitOf (c.arg 1) g)
    if 2 ≤ c.arg 0 || (c.arg 0 = 0 && s.nvs.user.isNone) then s.reply c stBADARG []
    else if s.follower && gs.any (fun g => [2, 3, 4].contains g) then s.reply c stNOTHOLDER []
    else if !s.recallFree gs then s.reply c stREFUSED []
    else
      let x := if c.arg 0 = 1 then s.nvs.factory else s.stored
      (s.each gs (fun s g => s.recallGroup x g)).reply c stDONE [])

/-- R426: Temper moves a rarely rewritten page onto a worn one that is free and good, outside post-trigger windows (R445), at most one page
per 10 s. [DESIGN CHOICE, log entry 81] -/
def wearPageMove (page target : Nat) (s : State) : State :=
  let last := sget 0 s.bgs.runs 0x600
  if !s.temper || s.inPost || s.svcBusy || !s.nvs.free.contains target || !s.nvs.pages.any (fun c => c.2 = page)
      || (decide (last ≠ 0) && decide (s.tb.ticks < last + 10 * ticksPerSec)) then s
  else
    let s := s.onNvs (fun n => n.movePage page target)
    s.ranAt 0x600 (2 ^ 64)

end Sys2Proof.Machine
end

