-- ==== Sys2Proof/Machine/Update.lean ====
section
/-!
DEFINITION. Images (R430–R434), their staging and commit (R435–R437), on every path by which they enter: mailbox, chain, recovery,
test access port.
-/

namespace Sys2Proof.Machine

/-! ### The header (R430, R431, R434) -/

/-- LENGTH, KIND, VERSION and TARGET of an image. -/
def imgLength (h : List Byte) : Nat := fieldLE h 8 4
def imgKind (h : List Byte) : Nat := byteAt h 6
def imgVersion (h : List Byte) : Nat := fieldLE h 16 4
def imgFamily (h : List Byte) : Nat := fieldLE h 20 2

/-- The payload blocks of an image. -/
def imgBlocks (h : List Byte) : Nat := cdiv (imgLength h) 65536

/-- What the signature covers. -/
def signedPart (h : List Byte) : List Byte := h.take 128 ++ (h.drop 192).take 316

/-- The public key of a key slot. -/
def KeySlot.public (k : KeySlot) : List Byte := if k.maker then Config.makerKey.toList else k.key

/-- The signature of a header verifies with the key in its slot, which is VALID with IMAGE (R434 orders 3 and 4). -/
def State.signedOk (s : State) (h : List Byte) : Bool :=
  match s.nvs.keys[byteAt h 7]? with
  | some k => k.state = 1 && bitOf k.perm 0 && ed25519 k.public (signedPart h) ((h.drop 128).take 64)
  | none => false

/-- The bit of TARGET that names a part. -/
def Part.targetBit : Part → Nat
  | .p7196 => 0 | .p7148 => 1 | .p7124 => 2

/-- The place that a family's image takes: the one that holds it, else a free one (R433). -/
def State.fePlace (s : State) (family : Nat) : Option Nat :=
  let at_ (i : Nat) : List Byte := (s.nvs.fe[i]?).getD []
  match (upTo 8).find? (fun i => !(at_ i).isEmpty && imgFamily (at_ i) = family) with
  | some i => some i
  | none => (upTo 8).find? (fun i => (at_ i).isEmpty)

/-- The fields of a header are as its kind asks, but for a place in the front-end area (R430, R433). -/
def State.headerFields (s : State) (h : List Byte) (kind : Nat) : Bool :=
  let len := imgLength h
  let nblk := imgBlocks h
  imgKind h = kind && fieldLE h 12 4 = 65536
    && (match kind with
      | 1 => within 1 4193792 len && bitOf (imgFamily h) s.part.targetBit
      | 2 => within 1 523776 len
      | _ => len = 36 && imgFamily h = 0)
    && zeroAt h 22 2 && zeroAt h 28 36 && zeroAt h 448 60 && zeroAt h (192 + 4 * nblk) (256 - 4 * nblk)
    && (if kind = 1 then zeroAt h 26 2 else zeroAt h 24 4)

/-- R434: the header check; the first failure decides the status. -/
def State.headerCheck (s : State) (h : List Byte) (kind : Nat) : Nat :=
  if h.length ≠ 512 || fieldLE h 0 4 ≠ 0x49514E48 || fieldLE h 4 2 ≠ 1 || fieldLE h 508 4 ≠ crc32c (h.take 508) then stCHECK
  else if !s.headerFields h kind then stBADARG
  else if kind = 2 && (s.fePlace (imgFamily h)).isNone then stNOSPACE
  else if !s.signedOk h then stSIGN
  else stDONE

/-- The payload of an image, and its block j. -/
def payloadOf (img : List Byte) : List Byte := (img.drop 512).take (imgLength img)
def payloadBlock (img : List Byte) (j : Nat) : List Byte := ((payloadOf img).drop (65536 * j)).take 65536

/-- Payload block j passes its entry of BCRC. -/
def blockOk (img : List Byte) (j : Nat) : Bool := crc32c (payloadBlock img j) = fieldLE img (192 + 4 * j) 4

/-- Every payload block passes, and the payload's SHA-512 is the header's. -/
def payloadOk (img : List Byte) : Bool :=
  (upTo (imgBlocks img)).all (blockOk img) && sha512 (payloadOf img) = (img.drop 64).take 64

/-! ### Staging (R432, R435) -/

/-- [a, b) lies in the union of ranges that are kept apart and rising. -/
def covered (rs : List (Nat × Nat)) (a b : Nat) : Bool := a = b || rs.any (fun r => decide (r.1 ≤ a) && decide (b ≤ r.2))

/-- The ranges with [a, b) added; ranges that touch become one. -/
def addRange (rs : List (Nat × Nat)) (a b : Nat) : List (Nat × Nat) :=
  if b ≤ a then rs
  else
    let near := rs.filter (fun r => decide (r.1 ≤ b) && decide (a ≤ r.2))
    let far := rs.filter (fun r => !(decide (r.1 ≤ b) && decide (a ≤ r.2)))
    let lo := near.foldl (fun m r => min m r.1) a
    let hi := near.foldl (fun m r => max m r.2) b
    insertBy (fun x y => decide (x.1 < y.1)) (lo, hi) far

/-- The ranges without [a, b). -/
def cutRange (rs : List (Nat × Nat)) (a b : Nat) : List (Nat × Nat) :=
  (rs.flatMap (fun r => [(r.1, min r.2 a), (max r.1 b, r.2)])).filter (fun r => decide (r.1 < r.2))

/-- Every block of an image has been checked. -/
def ImgIn.whole (u : ImgIn) : Bool := u.header && u.blocks.length = imgBlocks (Memory.read u.data 0 512)

/-- The staged header, and the staged image. -/
def ImgIn.head (u : ImgIn) : List Byte := Memory.read u.data 0 512
def ImgIn.image (u : ImgIn) : List Byte := Memory.read u.data 0 (512 + imgLength u.head)

/-- Offset a lies in something that has been checked: the header, or a checked block. -/
def ImgIn.checkedAt (u : ImgIn) (a : Nat) : Bool := if a < 512 then u.header else u.blocks.contains ((a - 512) / 65536)

/-- The ends of a payload block in image offsets. -/
def payloadRange (h : List Byte) (j : Nat) : Nat × Nat := (512 + 65536 * j, min (512 + 65536 * (j + 1)) (512 + imgLength h))

/-- Bytes of an image that begin at offset o differ from bytes that have been checked. -/
def ImgIn.clashes (u : ImgIn) (o : Nat) : List Byte → Bool
  | [] => false
  | b :: bs => (u.checkedAt o && Memory.get u.data o ≠ b) || u.clashes (o + 1) bs

/-- The pieces of new bytes at an offset that stand outside what has been checked are staged. -/
def ImgIn.stage (u : ImgIn) (o : Nat) (bs : List Byte) : ImgIn :=
  { u with data := Memory.write u.data o bs, got := addRange u.got o (o + bs.length) }

/-- The KIND that a target takes (R435). -/
def kindOf (target : Nat) : Nat := target + 1

/-- An update ends without a commit (R444); a slot that was RECEIVING stays so (R437). -/
def State.updEnd (s : State) (u : ImgIn) (status : Nat) : State :=
  let s := s.onSys (fun x => { x with upd := none })
  if 4 ≤ u.src then s else s.logUpd u.src 0x22 [(20, 1, status), (21, 1, u.target)]

/-- Every block that a piece has made whole is checked; a block that fails is discarded, and the update goes on (R435). -/
def ImgIn.checkBlocks (u : ImgIn) (js : List Nat) : ImgIn × Nat :=
  js.foldl (fun (acc : ImgIn × Nat) j =>
    let (u, st) := acc
    let r := payloadRange u.head j
    if u.blocks.contains j || !covered u.got r.1 r.2 then (u, st)
    else if crc32c (Memory.read u.data r.1 (r.2 - r.1)) = fieldLE u.head (192 + 4 * j) 4 then ({ u with blocks := u.blocks ++ [j] }, st)
    else ({ u with data := Memory.clear u.data r.1 (r.2 - r.1), got := cutRange u.got r.1 r.2 }, stCHECK)) (u, stDONE)

/-- The payload blocks that bytes o to o + n − 1 touch. -/
def touchedBlocks (o n : Nat) : List Nat :=
  if o + n ≤ 512 then [] else (upTo ((o + n - 513) / 65536 + 1)).filter (fun j => decide ((max o 512 - 512) / 65536 ≤ j))

/-- A piece of an image is taken (R432, R435): the header comes whole before any payload byte and is checked when it is whole;
a block is checked when it is whole. The answer is the status, and the update goes on unless the header failed. [DEDUCED, log entry 82] -/
def State.updPiece (s : State) (u : ImgIn) (o : Nat) (bs : List Byte) : State × Nat :=
  let n := bs.length
  let keep (u : ImgIn) (s : State) : State := s.onSys (fun x => { x with upd := some u })
  if u.clashes o bs then (s, stBADARG)
  else if u.header && 512 + imgLength u.head < o + n then (s, stBADARG)
  else
    let u1 := if u.header then u else u.stage o (bs.take (512 - o))
    let whole : Bool := covered u1.got 0 512
    if !whole then
      (if 512 < o + n then (s, stBADARG) else (keep u1 s, stDONE))
    else
      let st := if u.header then stDONE else s.headerCheck u1.head (kindOf u.target)
      if st ≠ stDONE then (s.updEnd u st, st)
      else
        let u2 := { u1 with header := true }
        if 512 + imgLength u2.head < o + n then (keep u2 s, stBADARG)
        else
          let p := max o 512
          let u3 := if o + n ≤ 512 then u2 else u2.stage p (bs.drop (p - o))
          let (u4, st) := u3.checkBlocks (touchedBlocks o n)
          (keep u4 s, st)

/-! ### Programming (R436) -/

/-- The pages of the store that an image programs: a slot, a front-end place, the key pages. -/
def State.imgPages (s : State) (u : ImgIn) : List Nat :=
  let n := cdiv (512 + imgLength u.head) 4096
  if u.target = 0 then (upTo n).map (1024 * u.slot + ·)
  else if u.target = 1 then (upTo n).map (2048 + 128 * (s.fePlace (imgFamily u.head)).getD 0 + ·)
  else [3072, 3073]

def State.slotAt (s : State) (i : Nat) : ImgSlot := (s.nvs.slots[i]?).getD {}
def State.onSlot (s : State) (i : Nat) (g : ImgSlot → ImgSlot) : State :=
  s.onNvs (fun n => { n with slots := n.slots.setIfInBounds i (g (s.slotAt i)) })
def State.keyAt (s : State) (i : Nat) : KeySlot := (s.nvs.keys[i]?).getD {}

/-- A key operation may be committed (R431). -/
def State.keyOpOk (s : State) (img : List Byte) : Bool :=
  let p := payloadOf img
  let slot := byteAt p 1
  let usable (i : Nat) : Bool := (s.keyAt i).state = 1 && bitOf (s.keyAt i).perm 0
  decide (slot < 4) && zeroAt p 3 1
    && (if byteAt p 0 = 1 then (s.keyAt slot).state = 0 && decide (byteAt p 2 < 4)
        else byteAt p 0 = 2 && zeroAt p 2 1 && zeroAt p 4 32 && (s.keyAt slot).state = 1 && slot ≠ byteAt img 7
          && (upTo 4).any (fun i => decide (i ≠ slot) && usable i))

/-- A key operation takes effect (R431, R436). -/
def State.keyOp (s : State) (img : List Byte) : State :=
  let p := payloadOf img
  let k : KeySlot := if byteAt p 0 = 1 then { state := 1, perm := byteAt p 2, key := (p.drop 4).take 32 }
    else { s.keyAt (byteAt p 1) with state := 2 }
  s.onNvs (fun n => { n with keys := n.keys.setIfInBounds (byteAt p 1) k })

/-- The running slot (UPD_STAT.RUN). -/
def State.runSlot (s : State) : Nat := b2n (s.bit aUpdStat 25)

/-- An image that has been programmed and read back takes effect (R436): a firmware slot is TRIAL, or ACTIVE after a recovery
without a usable other slot (R441). -/
def State.installed (s : State) (u : ImgIn) (img : List Byte) : State :=
  if u.target = 0 then
    let other := (s.slotAt (1 - u.slot)).state
    let code := if u.src = 4 && other ≠ 1 && other ≠ 2 then 1 else 3
    s.onSlot u.slot (fun _ => { state := code, image := img })
  else if u.target = 1 then
    match s.fePlace (imgFamily img) with
    | some i => s.onNvs (fun n => { n with fe := n.fe.setIfInBounds i img })
    | none => s
  else s.keyOp img

/-- A slot whose programming failed holds no image. [DEDUCED, log entry 82] -/
def State.spoilSlot (s : State) (u : ImgIn) : State := if u.target = 0 then s.onSlot u.slot (fun _ => { state := 4 }) else s

/-- The commit of an update begins, which UPD_STAT and NVS_STAT show until it ends (R443). -/
def State.beginCommit (s : State) (u : ImgIn) : State := s.onSys (fun x => { x with upd := some { u with committing := true } })

/-- A commit (R436): `fail` says that programming or reading back meets a failure. Recovery has programmed its blocks before (R441). The
answer has the status; after any but a BAD_ARG the update has ended. [DEDUCED, log entry 82] -/
def State.commit (s : State) (u : ImgIn) (fail : Bool) : State × Nat :=
  let img := u.image
  if !u.whole then (s, stBADARG)
  else
    let pages := s.imgPages u
    let worn : Bool := u.target ≠ 2 && pages.any (fun p => s.nvs.retired p)
    let st :=
      if u.target = 2 && !s.keyOpOk img then stBADARG
      else if worn then stWEAR
      else if fail || !(upTo (imgBlocks img)).all (blockOk img) then stCHECK
      else if !payloadOk img || !s.signedOk (img.take 512) then stSIGN
      else stDONE
    let before : Bool := u.src = 4 && u.target ≠ 2
    let s := if st = stWEAR || st = stBADARG || before then s else s.onNvs (fun n => n.programmed pages)
    if st = stBADARG then (s.onSys (fun x => { x with upd := some { u with committing := false } }), st)
    else if st ≠ stDONE then ((if st = stWEAR then s else s.spoilSlot u).updEnd u st, st)
    else
      let s := (s.installed u img).onSys (fun x => { x with upd := none })
      (if 4 ≤ u.src then s else s.logUpd u.src 0x21 [(20, 1, stDONE), (21, 1, u.target), (24, 4, imgVersion img)], stDONE)

/-! ### The mailbox commands (R435–R437) -/

/-- Another update begins: the image that last came whole along the chain is no duplicate any more (R333). [DEDUCED, log entry 83] -/
def State.forgetChain (s : State) : State := s.each [0, 1] (fun s p => s.onPort p (fun x => { x with taken := [], redo := false, refused := none }))

/-- The firmware slot that an update is for is RECEIVING; what it holds stands until it is programmed (R435). -/
def State.receiving (s : State) (slot : Nat) : State := s.onSlot slot (fun k => { k with state := 4, attempted := false })

/-- R435: UPDATE_BEGIN. -/
def updateBegin (src : Src) (s : State) : State :=
  s.serve src kUPDBEGIN (fun c s =>
    let t := c.arg 0
    if 3 ≤ t || s.sys.upd.isSome || (t = 0 && (s.slotAt s.runSlot).state = 3) then s.reply c stBADARG []
    else
      let slot := 1 - s.runSlot
      let s := (s.onSys (fun x => { x with upd := some { src := srcIdx src, target := t, slot := slot } })).forgetChain
      let s := if t = 0 then s.receiving slot else s
      s.reply c stDONE [])

/-- R435: UPDATE_BLOCK; `e` is what memory errors reading the piece meets (R213). [DEDUCED, log entry 82] -/
def updateBlock (src : Src) (e : MemErrs) (s : State) : State :=
  s.serve src kUPDBLOCK (fun c s =>
    let a := c.arg64 0
    let n := c.arg 3
    match s.sys.upd with
    | none => s.reply c stBADARG []
    | some u =>
      if 2 ≤ u.src || !within 1 65536 n || 0x04000000 < a + n || s.capacity < a + n then s.reply c stBADARG []
      else
        let s := s.noteErrs e a n
        if badIn e a n then s.reply c stCHECK (leBytes 4 u.blocks.length)
        else
          let r := s.updPiece u (c.arg 2) (s.hread a n)
          let s := r.1
          let st := r.2
          let k := match s.sys.upd with | some u => u.blocks.length | none => 0
          s.reply c st (leBytes 4 k))

/-! ### The chain (R333, R438) -/

/-- The clock identity a rig message of this head carries, and the SEQ of its next IMG_BLOCK. -/
def State.sendPiece (s : State) (p o : Nat) (img : List Byte) : State :=
  let body := leBytes 4 o ++ leBytes 4 img.length ++ (img.drop o).take 1024
  let n := s.ptp.imgSeq
  let s := s.onPtp (fun x => { x with imgSeq := (x.imgSeq + 1) % 65536 })
  s.rigSend p 2 0 s.clockId n body

/-- Pieces leave while fewer than 8 are unacknowledged (R333). -/
def State.sendMore (s : State) (p : Nat) : Nat → State
  | 0 => s
  | fuel + 1 =>
    match (s.portAt p).send with
    | some x =>
      if x.wait.length < 8 && x.next < x.image.length then
        let s := s.sendPiece p x.next x.image
        (s.onPort p (fun q => { q with send := some { x with next := x.next + 1024, wait := x.wait ++ [(x.next, 1, s.rawNow)] } })).sendMore p fuel
      else s
    | none => s

/-- The ports that pass an image on after a commit with CHAIN = 1: every one with link (R438). -/
def State.chainTo (s : State) (img : List Byte) (ports : List Nat) : State :=
  s.each ports (fun s p => s.onPort p (fun x => { x with send := some { image := img } }))

/-- ARG0 of UPDATE_COMMIT: its mode, CHAIN, and whether its other bits are zero. -/
def commitMode (v : Nat) : Nat := bits v 1 0
def commitClean (v : Nat) : Bool := bits v 7 2 = 0 && bits v 31 9 = 0

/-- The host's update under way. -/
def State.hostUpd (s : State) : Option ImgIn :=
  match s.sys.upd with
  | some u => if u.src < 2 then some u else none
  | none => none

/-- An image that has been committed with CHAIN = 1 goes to every port with link (R438). -/
def State.passOn (s : State) (img : List Byte) (ports : List Nat) : State :=
  s.each (ports.filter s.rigPort) (fun s p => (s.chainTo img [p]).sendMore p 8)

/-- R436: UPDATE_COMMIT mode 0; mode 3 and nonzero other bits are BAD_ARG. The commit of a whole image begins, and the command executed
again ends it. [DEDUCED, log entry 82] -/
def updateCommit (src : Src) (fail : Bool) (s : State) : State :=
  s.serve src kUPDCOMMIT (fun c s =>
    let v := c.arg 0
    if !commitClean v || commitMode v = 3 then s.reply c stBADARG []
    else if commitMode v ≠ 0 then s
    else match s.hostUpd with
      | none => s.reply c stBADARG []
      | some u =>
        if u.whole && !u.committing then s.beginCommit u
        else
          let r := s.commit u fail
          let s := r.1
          let st := r.2
          let s := if st = stDONE && bitOf v 8 then s.passOn u.image [0, 1] else s
          s.reply c st [])

/-- The TRIAL slot that runs is confirmed (R437): it is ACTIVE, and what was ACTIVE is STANDBY. -/
def State.confirm (s : State) (idx how : Nat) : State :=
  let r := s.runSlot
  let s := (s.onSlot r (fun k => { k with state := 1, attempted := false })).onSlot (1 - r) (fun k => if k.state = 1 then { k with state := 2 } else k)
  s.logUpd idx 0x25 [(20, 1, r), (21, 1, how)]

/-- R437: UPDATE_COMMIT mode 1. -/
def updateConfirm (src : Src) (s : State) : State :=
  s.serve src kUPDCOMMIT (fun c s =>
    let v := c.arg 0
    if !commitClean v || commitMode v ≠ 1 then s
    else if (s.slotAt s.runSlot).state = 3 then (s.confirm (srcIdx src) 1).reply c stDONE []
    else s.reply c stBADARG [])

/-- R437: CONFIRM_S seconds have passed after ready. -/
def trialConfirmTimeout (s : State) : State :=
  if s.ready && (s.slotAt s.runSlot).state = 3 then s.confirm 4 0 else s

/-- R436: UPDATE_COMMIT mode 2; on DONE the image is passed on where CHAIN = 1, and the device resets after the reply. -/
def updateCommitReset (src : Src) (fail : Bool) (s : State) : State :=
  s.serve src kUPDCOMMIT (fun c s =>
    let v := c.arg 0
    if !commitClean v || commitMode v ≠ 2 then s
    else if captureFns.any (fun f => !s.idle f) then s.reply c stREFUSED []
    else if (upTo 64).any (fun i => (s.segAt i).phase = .closed) then s.reply c stBADARG []
    else match s.hostUpd with
      | none => s.reply c stBADARG []
      | some u =>
        if u.whole && !u.committing then s.beginCommit u
        else
          let r := s.commit u fail
          let s := r.1
          let st := r.2
          let s := if st = stDONE && bitOf v 8 then s.passOn u.image [0, 1] else s
          let s := s.reply c st []
          if st = stDONE then s.deviceReset else s)

/-- R437: UPD_CTL.CANCEL; one written while a commit is running is ignored. -/
def updateCancel (s : State) : State :=
  if !s.ready then s
  else match s.sys.upd with
    | some u => if u.committing then s else s.updEnd u stABORTED
    | none => s

/-- R443: UPD_CTL.RECOVER: the next boot enters recovery. -/
def recover (s : State) : State := if s.ready then s.onNvs (fun n => { n with recover := true }) else s

/-! ### Image messages (R333, R438) -/

/-- A transfer to a neighbour ends with a status (R333, R335, R438). -/
def State.abandon (s : State) (p o status : Nat) : State :=
  (s.onPort p (fun q => { q with send := none })).log s.nowPtp 9 p 5 [(20, 4, o), (24, 1, status)]

/-- The pieces of a chain whose handling found a block wrong, once another piece has been handled: one that touches the same block takes
the earlier one off, and the piece itself joins if it found its block wrong. -/
def ImgIn.noteFailed (u : ImgIn) (o : Nat) (bs : List Byte) (st : Nat) : ImgIn :=
  let js := touchedBlocks o bs.length
  let kept := u.failed.filter (fun c => (touchedBlocks c.1 c.2.length).all (fun j => !js.contains j))
  if st = stBADARG then u else { u with failed := if st = stCHECK then kept ++ [(o, bs)] else kept }

/-- What a head does with a piece that a neighbour sends (R438): its header begins an update, whose target follows from KIND; the piece
is handled as an UPDATE_BLOCK piece. The answer has the status of the handling. [DEDUCED, log entry 83] -/
def State.chainPiece (s : State) (p o : Nat) (bs : List Byte) : State × Nat :=
  if !s.bit aUpdCfg 31 then (s, stBADARG)
  else
    let mine : Bool := match s.sys.upd with | some u => u.src = 2 + p | none => false
    let kind := if o = 0 then byteAt bs 6 else 0
    let begins : Bool := s.sys.upd.isNone && o = 0 && within 1 3 kind && !(kind = 1 && (s.slotAt s.runSlot).state = 3)
    if !mine && !begins then (s, stBADARG)
    else
      let slot := 1 - s.runSlot
      let fresh : ImgIn := { src := 2 + p, target := kind - 1, slot := slot }
      let s := if mine then s else s.forgetChain
      let s := if mine || kind ≠ 1 then s else s.receiving slot
      let u := if mine then (s.sys.upd).getD fresh else fresh
      let r := s.updPiece u o bs
      let s := r.1
      let st := r.2
      match s.sys.upd with
      | some u => (s.onSys (fun x => { x with upd := some (u.noteFailed o bs st) }), st)
      | none => (s.onPort p (fun x => { x with refused := some (o, bs, st) }), st)

/-- Every block of a chain's image has been checked: the head commits it as UPDATE_COMMIT mode 0, and after its own DONE one with CHAINFWD
= 1 sends it on its other port (R438). [DEDUCED, log entry 83] -/
def State.chainCommit (s : State) (p len : Nat) (fail : Bool) : State :=
  match s.sys.upd with
  | some u =>
    if u.src = 2 + p && u.whole && len = 512 + imgLength u.head then
      let r := s.commit u fail
      let s := r.1
      let done : Bool := r.2 = stDONE
      let s := if r.2 = stBADARG then s else s.onPort p (fun x => { x with taken := u.image, redo := !done })
      if done && s.bit aUpdCfg 30 then s.passOn u.image [1 - p] else s
    else s
  | none => s

/-- A piece that repeats one that has been handled, and the status of that handling (R333): one whose bytes are staged, one that found its
block wrong, one that ended an update, one of the image that last came whole. [DEDUCED, log entry 83] -/
def State.handledPiece (s : State) (p o : Nat) (bs : List Byte) : Option Nat :=
  match s.sys.upd with
  | some u =>
    if u.src ≠ 2 + p then none
    else if covered u.got o (o + bs.length) && Memory.read u.data o bs.length = bs then some stDONE
    else if u.failed.contains (o, bs) then some stCHECK
    else none
  | none =>
    let x := s.portAt p
    let done : Bool := decide (o + bs.length ≤ x.taken.length) && !bs.isEmpty && (x.taken.drop o).take bs.length = bs && !(o = 0 && x.redo)
    if done then some stDONE
    else match x.refused with
      | some (o', bs', st) => if o' = o && bs' = bs then some st else none
      | none => none

/-- A rig message of the image transfer moves between neighbours only: HOPS 0 (R333). -/
def RigMsg.near (m : RigMsg) (lo hi : Nat) : Bool := m.hops = 0 && within lo hi m.body.length

/-- The acknowledgement of a piece (R333). [DEDUCED, log entry 83] -/
def State.sendAck (s : State) (p off status : Nat) : State :=
  let n := s.ptp.ackSeq
  let s := s.onPtp (fun x => { x with ackSeq := (x.ackSeq + 1) % 65536 })
  s.rigSend p 3 0 s.clockId n (leBytes 4 off ++ leBytes 4 status)

/-- R333: IMG_BLOCK, its frame given from the destination address on: the piece is handled, and acknowledged with the status of that; a
duplicate is acknowledged again without handling it twice. The piece that makes an image whole is acknowledged before the commit (R438).
[DEDUCED, log entry 83] -/
def imgBlockRx (p : Fin 2) (fcs : Bool) (frame : List Byte) (fail : Bool) (s : State) : State :=
  s.rigRx p.val 2 fcs frame (fun m => m.near 8 1032) (fun m s =>
    let off := fieldLE m.body 0 4
    let bytes := m.body.drop 8
    match s.handledPiece p.val off bytes with
    | some st => s.sendAck p.val off st
    | none =>
      let r := s.chainPiece p.val off bytes
      let s := r.1.sendAck p.val off r.2
      if r.2 = stDONE then s.chainCommit p.val (fieldLE m.body 4 4) fail else s)

/-- R333: IMG_ACK, its frame given from the destination address on: a piece is acknowledged; a nonzero status ends the transfer (R438). One
that arrived before the piece was resent, or acknowledges nothing that waits, is late; raw is the arrival's raw stamp. [DEDUCED, log entry 83] -/
def imgAckRx (p : Fin 2) (fcs : Bool) (frame : List Byte) (raw : Nat) (s : State) : State :=
  s.rigRx p.val 3 fcs frame (fun m => m.near 8 8) (fun m s =>
    let off := fieldLE m.body 0 4
    let status := fieldLE m.body 4 4
    match (s.portAt p.val).send with
    | none => s.count (aPort p.val 0x4C)
    | some x =>
      match x.wait.find? (fun w => w.1 = off) with
      | none => s.count (aPort p.val 0x4C)
      | some w =>
        if 1 < w.2.1 && decide (raw ≤ w.2.2) then s.count (aPort p.val 0x4C)
        else if status ≠ 0 then s.abandon p.val off status
        else
          let x' := { x with wait := x.wait.filter (fun w => w.1 ≠ off) }
          if x'.wait.isEmpty && x'.image.length ≤ x'.next then s.onPort p.val (fun q => { q with send := none })
          else (s.onPort p.val (fun q => { q with send := some x' })).sendMore p.val 8)

/-- R333: 1 ms passes without the acknowledgement of a piece: it is resent, up to 8 times, and then the transfer is abandoned. -/
def imgResendTimeout (p : Fin 2) (off : Nat) (s : State) : State :=
  match (s.portAt p.val).send with
  | none => s
  | some x =>
    match x.wait.find? (fun w => w.1 = off) with
    | none => s
    | some w =>
      if 9 ≤ w.2.1 then s.abandon p.val off stTIMEOUT
      else
        let s := s.sendPiece p.val off x.image
        s.onPort p.val (fun q => { q with send := some { x with wait := x.wait.map (fun v => if v.1 = off then (off, v.2.1 + 1, s.rawNow) else v) } })

/-! ### UPD registers as read (R443) -/

/-- UPD_STAT as read. [DEDUCED, log entry 82] -/
def State.updStat (s : State) : Nat :=
  let base := (s.slotAt 0).state * 2 ^ 29 + (s.slotAt 1).state * 2 ^ 26 + bits (s.reg aUpdStat) 25 24 * 2 ^ 24
  match s.sys.upd with
  | some u => base + (if u.committing then 3 else if u.header then 2 else 1) * 2 ^ 21 + (if u.src < 4 then u.src - 1 else 0) * 2 ^ 19 + u.target * 2 ^ 17 + u.blocks.length
  | none => base

/-- UPD_VERA and UPD_VERB: 0 while the slot is EMPTY; a slot shows the VERSION of what it holds, and one that holds nothing whole a value
the spec does not give. -/
def State.slotVersion (s : State) (i : Nat) : Nat :=
  let k := s.slotAt i
  if k.state = 0 then 0
  else if k.maker then 0x01000000
  else if k.image.length < 512 then (Config.blankVersion i).toNat
  else imgVersion k.image

/-- UPD_KEYSTAT. -/
def State.keyStat (s : State) : Nat := (upTo 4).foldl (fun n i => n + ((s.keyAt i).perm * 4 + (s.keyAt i).state) * 2 ^ (8 * i)) 0

end Sys2Proof.Machine
end

