-- ==== Sys2Proof/Machine/Boot.lean ====
section
/-!
DEFINITION. Reset and boot (R421–R423, R428, R465, R468), the reload of front-ends (R439, R440), recovery (R441).
-/

namespace Sys2Proof.Machine

/-! ### Front-end reload (R439, R440) -/

/-- The stored image of a family, if its SHA-512 is right (R439). -/
def State.feImage (s : State) (family : Nat) : Option (List Byte) :=
  (s.nvs.fe.toList.find? (fun b => !b.isEmpty && imgFamily b = family)).bind (fun b =>
    if sha512 (payloadOf b) = (b.drop 64).take 64 then some b else none)

/-- The 14 content bytes of a LOAD block (R439). -/
def loadBlock (index kind : Nat) (body : List Byte) : List Byte :=
  overlay (zeros 14) 0 (leBytes 2 index ++ leBytes 1 kind ++ body)

/-- The LOAD blocks of a payload: begin, the data in INDEX order, end. -/
def loadBlocks (p : List Byte) : List (List Byte) :=
  [loadBlock 0 1 (leBytes 4 p.length ++ leBytes 4 (crc32c p))]
    ++ (chunks 8 p).zipIdx.map (fun c => loadBlock c.2 0 c.1) ++ [loadBlock 0 2 []]

/-- A payload is broadcast on the command lanes of tiles, each block on all at once; a member that has lost Tongs sends only
FILL (R75, R374). -/
def State.broadcast (s : State) (tiles : List Nat) (p : List Byte) : State :=
  s.each (loadBlocks p) (fun s b => s.each tiles (fun s f => s.sendBlock f 0xAA b))

/-- The payload that the group under way loads: that of the image which was stored when the reload began (R436). -/
def FeReload.payload (r : FeReload) : List Byte := ((r.images.find? (fun c => c.1 = r.fam)).map (·.2)).getD []

/-- A tile's bit in UPD_FEFAIL or UPD_FENOIMG, at offset o. -/
def State.feMark (s : State) (o f : Nat) : State :=
  if f < 32 then s.setBit (NVS + o) f true else s.setBit (NVS + o + 4) (f - 32) true

/-- Both receive lanes of a tile retrain (R440 step 5). -/
def State.retrainTile (s : State) (f : Nat) : State :=
  s.each [2 * f, 2 * f + 1] (fun s l => retrain ⟨l % 96, Nat.mod_lt _ (by decide)⟩ s)

/-- The next group of a reload begins; after the last one the lanes of the tiles retrain, the reload ends and is logged (R440, R444), and a
device that boots is ready (R422). [DEDUCED, log entry 84; DEDUCED, log entry 84; DEDUCED, log entry 87] -/
def State.reloadNext (s : State) (r : FeReload) : State :=
  match r.todo with
  | (fam, tiles) :: rest =>
    let r : FeReload := { r with todo := rest, fam := fam, wait := tiles, bad := [], again := false }
    (s.broadcast tiles r.payload).onSys (fun x => { x with reload := some r })
  | [] =>
    ((s.each r.ended State.retrainTile).onSys (fun x =>
        { x with reload := none, boot := if x.boot = .loading then .ready else x.boot })).logUpd 4 0x24
      [(20, 1, if r.failed = 0 then stDONE else stTIMEOUT), (21, 1, r.loaded), (22, 1, r.failed)]

/-- Every tile of the group has answered or run out of time: those that failed are repeated once, then marked (R440 steps 4, 5). -/
def State.reloadRound (s : State) (r : FeReload) : State :=
  if !r.wait.isEmpty then s.onSys (fun x => { x with reload := some r })
  else if !r.bad.isEmpty && !r.again then
    let r' : FeReload := { r with wait := r.bad, bad := [], again := true }
    (s.broadcast r.bad r.payload).onSys (fun x => { x with reload := some r' })
  else
    let s := s.each r.bad (fun s f => s.feMark 0x120 f)
    s.reloadNext { r with bad := [], ended := r.ended ++ r.bad, failed := r.failed + r.bad.length }

/-- A tile's answer on lane l to the end of a broadcast (R439): status 0 and the payload's CRC load it. One that nothing waits for is
late (R23, R85). [DEDUCED, log entry 84] -/
def State.reloadAnswer (s : State) (l status data : Nat) : State :=
  let f := tileOf l
  match s.sys.reload with
  | some r =>
    if !r.wait.contains f then s.count (aRx l oLATE)
    else if status = 0 && data = crc32c r.payload then
      s.reloadRound { r with wait := r.wait.erase f, ended := r.ended ++ [f], loaded := r.loaded + 1 }
    else s.reloadRound { r with wait := r.wait.erase f, bad := r.bad ++ [f] }
  | none => s.count (aRx l oLATE)

/-- Step 1 of a reload (R440): a tile without a usable image of the family it declares is marked. [DEDUCED, log entry 84] -/
def State.reloadMark (s : State) (families : List (Nat × Nat)) : State :=
  let s := s.each [0x120, 0x124, 0x128, 0x12C] (fun s o => s.setReg (NVS + o) 0)
  s.each (families.filter (fun c => decide (c.1 < 4 * s.part.sectors))) (fun s c => if (s.feImage c.2).isSome then s else s.feMark 0x128 c.1)

/-- A reload begins (R440): tiles are marked, and grouped by the family each declares. [DEDUCED, log entry 84] -/
def State.reloadStart (s : State) (families : List (Nat × Nat)) : State :=
  let s := s.reloadMark families
  let good := families.filter (fun c => decide (c.1 < 4 * s.part.sectors) && (s.feImage c.2).isSome)
  let fams := (good.map (·.2)).eraseDups
  s.reloadNext { todo := fams.map (fun g => (g, (good.filter (fun c => c.2 = g)).map (·.1))),
                 images := fams.map (fun g => (g, payloadOf ((s.feImage g).getD []))) }

/-- The families that the tiles have declared in their CAPS. [DEDUCED, log entry 84] -/
def State.declared (s : State) : List (Nat × Nat) :=
  (upTo (4 * s.part.sectors)).filterMap (fun f =>
    match (s.rxAt (2 * f)).caps, (s.rxAt (2 * f + 1)).caps with
    | some c, _ => some (f, c.family)
    | none, some c => some (f, c.family)
    | none, none => none)

/-- R440: UPD_CTL.FERELOAD; a member that does not hold Tongs does not reload. [DEDUCED, log entry 84] -/
def fereload (s : State) : State :=
  if !s.ready then s
  else if !s.idle .ing then s.refuseSt 1
  else if s.nonHolder || s.sys.reload.isSome then s
  else s.reloadStart s.declared

/-- R440: 300 ms pass, and the tiles that have not answered fail. -/
def feReloadTimeout (s : State) : State :=
  match s.sys.reload with
  | some r => s.reloadRound { r with wait := [], bad := r.bad ++ r.wait }
  | none => s

/-- R74, R439: a CFGA arrives on receive lane l: with tag 0xFF it answers a reload, otherwise a register access. -/
def cfgaRx (l : Fin 96) (tag status data : Nat) (s : State) : State :=
  if !s.laneLive (.rx l) then s
  else if tag % 256 = 0xFF then s.reloadAnswer l.val status data
  else s.cfgaAnswer l.val (tag % 256) status data

/-! ### Choosing a firmware slot (R423) -/

/-- The image in a slot passes the checks of R434 and of its payload. The maker's image is whole and for this part, and signed with the key
that manufacture installed in slot 0: it passes while that key is VALID with IMAGE. [DESIGN CHOICE, log entry 86] -/
def State.slotPasses (s : State) (i : Nat) : Bool :=
  let k := s.slotAt i
  let key := s.keyAt 0
  if k.maker then key.maker && key.state = 1 && bitOf key.perm 0
  else s.headerCheck (k.image.take 512) 1 = stDONE && payloadOk k.image

/-- A slot is marked REJECTED or INVALID, which boot shows as ROLLBACK. -/
def State.markSlot (s : State) (i code : Nat) : State := (s.onSlot i (fun k => { k with state := code })).setBit aUpdStat 24 true

/-- The first of the slots that passes is chosen; one that fails is INVALID. The answer has what is to be logged. -/
def State.trySlots (s : State) : List Nat → State × Option Nat × List (Nat × Nat)
  | [] => (s, none, [])
  | i :: is =>
    let c := (s.slotAt i).state
    if c = 0 || 4 ≤ c then s.trySlots is
    else if s.slotPasses i then (s, some i, [])
    else
      let r := (s.markSlot i 6).trySlots is
      (r.1, r.2.1, (i, 1) :: r.2.2)

/-- R423: boot ROM chooses the slot; none means recovery. -/
def State.chooseSlot (s : State) : State × Option Nat × List (Nat × Nat) :=
  if s.nvs.recover then (s.onNvs (fun n => { n with recover := false }), none, [])
  else
    let spent := [0, 1].filter (fun i => (s.slotAt i).state = 3 && (s.slotAt i).attempted)
    let s := s.each spent (fun s i => s.markSlot i 5)
    let first := match [0, 1].find? (fun i => (s.slotAt i).state = 3) with
      | some t => t
      | none => ([0, 1].find? (fun i => (s.slotAt i).state = 1)).getD 0
    let s := if (s.slotAt first).state = 3 then s.onSlot first (fun k => { k with attempted := true }) else s
    let r := s.trySlots [first, 1 - first]
    (r.1, r.2.1, spent.map (fun i => (i, 0)) ++ r.2.2)

/-- A loaded slot that was TRIAL stays so; another is ACTIVE, and a valid other slot is STANDBY (R423). -/
def State.runFrom (s : State) (i : Nat) : State :=
  let s := s.setBit aUpdStat 25 (i = 1)
  let s := if (s.slotAt i).state = 3 then s
    else (s.onSlot i (fun k => { k with state := 1 })).onSlot (1 - i) (fun k => if k.state = 1 then { k with state := 2 } else k)
  s.setReg aCap3 (if (s.slotAt i).maker then 0x0100 else fieldLE (s.slotAt i).image 24 2)

/-! ### Boot (R422) -/

/-- The channels that train and match the reference come into service (R206). [DEDUCED, log entry 87] -/
def State.trainMemory (s : State) (chans : List (Nat × Nat × Nat)) : State :=
  let here := (upTo s.part.channels).filterMap (fun c => chans.find? (fun x => x.1 = c))
  match here with
  | [] => s
  | r :: _ =>
    let ok := (here.filter (fun x => x.2 = r.2)).map (·.1)
    let s := s.setReg MEM (r.2.1 % 4 * 64 + r.2.2 % 64)
    let s := s.setReg (MEM + 0x10) ((ok.filter (· < 32)).foldl (fun m c => m ||| 2 ^ c) 0)
    s.setReg (MEM + 0x14) ((ok.filter (32 ≤ ·)).foldl (fun m c => m ||| 2 ^ (c - 32)) 0)

/-- The stored settings are in force, except group 3; the identity is read (R428). -/
def State.loadSettings (s : State) : State :=
  let x := s.stored
  let s := s.each (((upTo 11).filter (· ≠ 3)).flatMap groupRegs |>.filter s.present) (fun s a => s.restoreReg x a)
  let s := s.each (upTo 22) (fun s i => s.recallTable x i)
  let s := (s.setReg (PTP + 0x10) (x.mac % 2 ^ 32)).setReg (PTP + 0x14) (x.mac / 2 ^ 32 % 65536)
  s.onSys (fun y => { y with subsys := x.subsys, bar2 := x.bar2 })

/-- A function is started and ends STARTING. -/
def State.bootStart (s : State) (f : Fn) : State := startingComplete f (s.startFn f).1

/-- Core 0 places the payload beyond its resident 256 KiB in the firmware working area (R423, R208). [DESIGN CHOICE, log entry 86] -/
def State.placeFirmware (s : State) : State := s.hwrite 0x09001000 ((s.slotAt s.runSlot).payload.drop 262144)

/-- Boot from step 5 on, with the running slot chosen (R422): the device is ready once the reload of the front-ends has ended.
[DEDUCED, log entry 87] -/
def State.bootOn (x : BootFacts) (events : List (Nat × Nat)) (s : State) : State :=
  let s := (s.loadSettings.trainMemory x.chans).placeFirmware
  let s : State := s.putFns (s.fns.map (fun i => if i.state = .absent then i else { i with state := .stopped }))
  let s := if s.part.field then (s.domUp 50).aouStop else s
  let s := (s.startFwCore 0).startFwCore 1
  let s := (s.bootStart .tb).bootStart .bgs
  let s := if s.pairPresent then tongsTakeHold (s.bootStart .pair) else s
  let s := s.each events (fun s e => s.logUpd 4 0x20 [(20, 1, e.1), (21, 1, e.2)])
  let s := (s.bootStart .lnk).onSys (fun y => { y with boot := .loading })
  if s.nonHolder then (s.reloadMark x.families).onSys (fun y => { y with boot := .ready }) else s.reloadStart x.families

/-- R422, R465: boot, from step 1: straps are sampled, the slot is chosen, the device becomes ready or enters recovery. [DEDUCED, log entry 87] -/
def State.bootNow (x : BootFacts) (s : State) : State :=
  let pair : Bool := x.pair && s.part.mirror
  let s := ((s.setBit aPairStat 26 (x.home && s.part.mirror)).setBit aPairStat 25 pair).setBit aTbStat 26 x.tb25
  let s := if s.part.field then s.setLink 2 else s
  let r := s.chooseSlot
  match r.2.1 with
  | some i => (r.1.runFrom i).bootOn x r.2.2
  | none => r.1.onSys (fun y => { y with boot := .recovery })

def State.onTap (s : State) (g : Tap → Tap) : State := s.putTap (g s.tap)

/-- Boot runs once the device is held by nothing (R468, R482). [DEDUCED, log entry 87; DEDUCED, log entry 95] -/
def State.leaveReset (x : BootFacts) (s : State) : State :=
  if s.sys.boot = .held && s.tap.resetN && s.tap.pwrOk && !s.tap.hold then s.bootNow x else s

/-- R468, R422: RESET_N and PWR_OK are both high: the device leaves reset. [DESIGN CHOICE, log entry 7; DEDUCED, log entry 87] -/
def resetRelease (x : BootFacts) (s : State) : State := (s.onTap (fun t => { t with resetN := true, pwrOk := true })).leaveReset x

/-- R468: PWR_OK goes low. -/
def pwrOkDeassert (s : State) : State := (s.onTap (fun t => { t with pwrOk := false })).deviceReset

/-- R468: RESET_N goes low for long enough. -/
def resetNAssert (s : State) : State := (s.onTap (fun t => { t with resetN := false })).deviceReset

/-! ### Recovery (R441) -/

/-- The device is in recovery. -/
def State.recovering (s : State) : Bool := s.sys.boot = .recovery

/-- The USB 2.0 device that recovery presents on the D+ and D− pair of port 0 (R441): its vendor and product IDs; one vendor-specific
interface with a bulk endpoint each way. -/
structure UsbDevice where
  vendor : Nat
  product : Nat
  interfaceClass : Nat := 0xFF
  bulkOut : Nat := 1
  bulkIn : Nat := 1
deriving DecidableEq, Repr

/-- What the host finds on the USB 2.0 pair of port 0: a device in recovery, and nothing otherwise (R441). [DEDUCED, log entry 110] -/
def State.usbDevice (s : State) : Option UsbDevice :=
  if s.recovering then some { vendor := Config.vendorId.toNat, product := s.part.number } else none

/-- Bytes of an image are programmed at an image offset, into its slot or its family's place; a key operation is kept until its commit. -/
def State.programAt (s : State) (u : ImgIn) (lo : Nat) (bs : List Byte) : State :=
  let pages := ((s.imgPages u).zipIdx.filter (fun c => decide (lo ≤ 4096 * c.2) && decide (4096 * c.2 < lo + bs.length))).map (·.1)
  if u.target = 0 then
    (s.onSlot u.slot (fun k => { k with maker := false, image := k.image.take lo ++ bs })).onNvs (fun n => n.programmed pages)
  else if u.target = 1 then
    match s.fePlace (imgFamily u.head) with
    | some i => s.onNvs (fun n => { n.programmed pages with fe := n.fe.setIfInBounds i (((n.fe[i]?).getD []).take lo ++ bs) })
    | none => s
  else s

/-- What a piece has made whole is programmed: the header, payload blocks (R441); nothing where a page it needs is retired (R426).
[DEDUCED, log entry 82] -/
def State.programNew (s : State) (u v : ImgIn) : State :=
  let head : List (Nat × Nat) := if v.header && !u.header then [(0, 512)] else []
  let parts := head ++ (v.blocks.filter (fun j => !u.blocks.contains j)).map (payloadRange v.head)
  if (s.imgPages v).any (fun p => s.nvs.retired p) then s
  else s.each parts (fun s r => s.programAt v r.1 (Memory.read v.data r.1 (r.2 - r.1)))

/-- Recovery takes a piece: it is handled, and what it makes whole is programmed (R441). -/
def State.recPiece (s : State) (u : ImgIn) (o : Nat) (bs : List Byte) : State × Nat :=
  let r := s.updPiece u o bs
  match r.1.sys.upd with
  | some v => (r.1.programNew u v, r.2)
  | none => r

/-- A reply of 16 bytes. -/
def State.recReply (s : State) (status : Nat) : State :=
  s.emit (.recovery status (pack 16 [(0, 1, status), (4, 4, s.updStat), (8, 4, Config.romVersion.toNat)]))

/-- The next image offset that a recovery transfer takes. -/
def ImgIn.fill (u : ImgIn) : Nat := match u.got with | (0, e) :: _ => e | _ => 0

/-- R441: BEGIN. [DEDUCED, log entry 82] -/
def recoveryBegin (target : Nat) (s : State) : State :=
  if !s.recovering then s
  else if 4 ≤ target || s.sys.upd.isSome then s.recReply stBADARG
  else
    let s := s.onSys (fun x => { x with upd := some { src := 4, target := target - 1, slot := target % 2 } })
    let s := if target < 2 then s.receiving target else s
    s.recReply stDONE

/-- R441: BLOCK: bytes must arrive in ascending order; a block is programmed when it is whole. [DEDUCED, log entry 82] -/
def recoveryBlock (off : Nat) (bytes : List Byte) (s : State) : State :=
  if !s.recovering then s
  else match s.sys.upd with
    | some u =>
      if !within 1 65536 bytes.length || off ≠ u.fill then s.recReply stBADARG
      else
        let r := s.recPiece u off bytes
        let s := r.1
        let st := r.2
        s.recReply st
    | none => s.recReply stBADARG

/-- R441: COMMIT. -/
def recoveryCommit (fail : Bool) (s : State) : State :=
  if !s.recovering then s
  else match s.sys.upd with
    | some u =>
      let r := s.commit u fail
      let s := r.1
      let st := r.2
      s.recReply st
    | none => s.recReply stBADARG

/-- R441: STATUS. -/
def recoveryStatus (s : State) : State := if s.recovering then s.recReply stDONE else s

/-- R441: RESET. -/
def recoveryReset (s : State) : State := if s.recovering then (s.recReply stDONE).deviceReset else s

end Sys2Proof.Machine
end

