-- ==== Sys2Proof/Machine/Bus.lean ====
section
/-!
DEFINITION. BAR0 as the host, firmware and the test access port see it (R9–R13, R401, R457–R459): every register's value as it
reads, and what a write to each commands.
-/

namespace Sys2Proof.Machine

/-! ### Reads -/

/-- GLB_FNSTATE0 or 1 (R42): the states of functions b to b + 7. -/
def State.fnStates (s : State) (b : Nat) : Nat :=
  (allFns.filter (fun f => decide (b ≤ f.num) && decide (f.num < b + 8))).foldl
    (fun n f => n + (s.fnState f).code * 2 ^ (4 * (f.num - b))) 0

/-- The GLB block as it reads (R36–R45). [DEDUCED, log entry 13; DEDUCED, log entry 92] -/
def State.glbRead (s : State) (a : Nat) : Nat :=
  if a = 0x000 then s.stepping % 16 * 2 ^ 28 + s.part.number * 2 ^ 12
  else if a = 0x010 then s.part.cap0
  else if a = 0x014 then b2n (decide (s.fld MEM 5 0 ≠ 0)) * 2 ^ 31 + s.capacity / 2 ^ 30 % 1024 * 2 ^ 16 + s.part.channels
  else if a = 0x018 then 8 * s.part.sectors
  else if a = 0x030 then s.fnStates 0
  else if a = 0x034 then s.fnStates 8
  else if a = 0x050 then (if s.part.field then putBits (s.reg a) 31 31 1 else 0)
  else if 0x100 ≤ a ∧ a < 0x170 then
    match fnOf ((a - 0x100) / 8) with
    | some f => if a % 8 = 4 then (s.fn f).faultCode % 256 * 2 ^ 24 + (s.fn f).lastStatus % 256 * 2 ^ 16 + (s.fnState f).code else 0
    | none => 0
  else s.reg a

/-- The SUP block as the host at a port reads it (R419): its own mailbox. -/
def State.supRead (s : State) (port : Option (Fin 2)) (o : Nat) : Nat :=
  match port with
  | some p =>
    if o = 0 then s.mboxRead p.val
    else if 0x080 ≤ o ∧ o < 0x100 then (sget (0 : Word) (s.mboxAt p.val).req ((o - 0x80) / 4)).toNat
    else if 0x100 ≤ o ∧ o < 0x180 then (sget (0 : Word) (s.mboxAt p.val).rep ((o - 0x100) / 4)).toNat
    else 0
  | none => 0

/-- TB_NOW_LO, TB_STAT and TB_LOGSEQ as they read; the rest of the TB block stands in its registers (R316). -/
def State.tbRead (s : State) (o : Nat) : Nat :=
  if o = 0x04 then putBits (s.reg aTbStat) 23 16 s.epoch
  else if o = 0x20 then s.nowFine / NS % 2 ^ 32
  else if o = 0x80 then s.tb.logCount % 2 ^ 32
  else s.reg (TB + o)

/-- The TDC block as it reads (R318, R319). -/
def State.tdcRead (s : State) (o : Nat) : Nat :=
  if o < 0x200 ∧ o % 0x20 = 8 then s.chStat (o / 0x20)
  else if 0x308 ≤ o ∧ o < 0x3C8 ∧ o % 0x20 = 8 then s.chStat (16 + (o - 0x308) / 0x20)
  else if 0x400 ≤ o ∧ o < 0x600 ∧ 0x0C ≤ o % 0x40 ∧ o % 0x40 < 0x2C then s.unitRead ((o - 0x400) / 0x40) (o % 0x40)
  else s.reg (TDC + o)

/-- The TRG block as it reads (R264, R265). [DEDUCED, log entry 92] -/
def State.trgRead (s : State) (o : Nat) : Nat :=
  if o = 0x00 then s.trgStat
  else if o = 0x18 then s.trig.timeTrig.getD 0 % 2 ^ 32
  else if o = 0x1C then s.trig.timeTrig.getD 0 / 2 ^ 32 % 2 ^ 32
  else if o = 0x20 then s.dcStat
  else if o = 0x24 then s.outStat
  else s.reg (TRG + o)

/-- MEM_CHSTAT of channel c (R237): its domain tells retention; no access is outstanding between two commands.
[DESIGN CHOICE, log entry 17; DESIGN CHOICE, log entry 46; DEDUCED, log entry 92] -/
def State.memChan (s : State) (c : Nat) : Nat :=
  if s.part.channels ≤ c then 0
  else if s.channels.contains c then (if s.domState (36 + c / 8) = 1 then 3 else 2) * 2 ^ 30 + 2048
  else 2 ^ 30

/-- The HRT and MEM blocks as they read (R234–R237). -/
def State.hrtRead (s : State) (a : Nat) : Nat :=
  let o := a - HRT
  if o = 0x04 then s.hrtStat
  else if isSegReg a then s.segRead (s.fld (HRT + 0x10) 5 0) s.segTile o
  else if MEM + 0x100 ≤ a ∧ a < MEM + 0x200 then s.memChan ((a - MEM - 0x100) / 4)
  else s.reg a

/-- The CMP block as it reads (R286, R288). -/
def State.cmpRead (s : State) (o : Nat) : Nat :=
  if o < 0xC00 ∧ o % 0x100 = 0x14 then s.statusOf (24 + o / 0x100) (0x600000 + o) (s.cmpStat (o / 0x100))
  else if o = 0x1044 then s.jStat
  else s.reg (0x600000 + o)

/-- A register of the field die: the converters' results, the exciters, the coefficients, the outputs (R370, R371, R373). [DEDUCED, log entry 15] -/
def dieReg (o : Nat) : Bool :=
  [0x10, 0x14, 0x20, 0x24, 0x40, 0x44].contains o || (decide (0x800 ≤ o) && decide (o < 0x900) && (o % 0x20 = 0 || o % 0x20 = 8))

/-- The AUX window as it reads (R112, R370–R373); a field-die register reads zero while the die is in reset. -/
def State.auxRead (s : State) (o : Nat) : Nat :=
  if dieReg o && s.bit aGlbDie 8 then 0
  else if o = 0x00 then s.auxStat
  else if o = 0x10 then s.auxData 0
  else if o = 0x14 then s.auxData 1
  else if o = 0x54 ∨ o = 0x58 ∨ o = 0x5C then s.auxRange o
  else if o = 0x60 then s.field.ringNext % 2 ^ 32
  else if 0x800 ≤ o ∧ o < 0x900 ∧ o % 0x20 = 4 then s.aouStat ((o - 0x800) / 0x20)
  else if o = 0xF08 then s.qStat 96 false
  else s.reg (AUX + o)

/-- Mirror lane m is in run in both directions: this member's receiver is, and what the partner's last CAPS and RATE said of its own
receiver, with no TRAIN since, says that it is at its last step (R375, R397). [DEDUCED, log entry 109] -/
def State.mirrorBoth (s : State) (m : Nat) : Bool :=
  let r := (s.mirLanes[m]?).getD {}
  s.mlStage m = 6 && r.peerFinal && !r.peerTrains

/-- The PAIR block as it reads (R397): LANES of PAIR_STAT are the mirror lanes in run in both directions. -/
def State.pairRead (s : State) (o : Nat) : Nat :=
  if o = 0x10 then
    putBits (s.reg aPairStat) 23 16 ((upTo 8).foldl (fun n m => n + b2n (s.mirrorBoth m) * 2 ^ m) 0)
  else s.reg (PAIR + o)

/-- The HST block, with the MSI-X table and pending bits of the accessing port's function (R402, R419). -/
def State.hstRead (s : State) (port : Option (Fin 2)) (o : Nat) : Nat :=
  if o = 0 then s.hstStat
  else if 0x400 ≤ o ∧ o < 0x800 ∧ o % 0x40 = 0x20 then s.qsStat ((o - 0x400) / 0x40)
  else match port with
    | some p =>
      if 0x8000 ≤ o ∧ o < 0x8400 then s.msixWord p.val ((o - 0x8000) / 16) (o % 16 / 4)
      else if o = 0x9000 ∨ o = 0x9004 then
        let b := if o = 0x9000 then 0 else 32
        (upTo 32).foldl (fun n v => n + b2n (((s.host.pba[p.val]?).getD []).contains (b + v)) * 2 ^ v) 0
      else s.reg (HST + o)
    | none => s.reg (HST + o)

/-- The NVS and UPD block as it reads (R443). -/
def State.nvsRead (s : State) (o : Nat) : Nat :=
  if o = 0x000 then s.nvsStat
  else if o = 0x004 then s.nvsGen
  else if o = 0x008 then s.nvsMaxCyc
  else if o = 0x100 then s.updStat
  else if o = 0x110 then s.slotVersion 0
  else if o = 0x114 then s.slotVersion 1
  else if o = 0x130 then s.keyStat
  else s.reg (NVS + o)

/-- The BGS, TEL and PWR block as it reads (R456). [DEDUCED, log entry 92] -/
def State.bgsRead (s : State) (o : Nat) : Nat :=
  if o = 0x004 then s.bgsStat
  else if 0x100 ≤ o ∧ o < 0x1CC then (if s.domHere ((o - 0x100) / 4) then putBits (s.reg (BGS + o)) 27 27 1 else 0)
  else s.reg (BGS + o)

/-- A register of sector k at offset o of its window (chapters 02, 03, 04). -/
def State.sectorRead (s : State) (k o : Nat) : Nat :=
  let a := secBase k + o
  if o < 0x800 ∧ o % 0x100 = 0x10 then s.lnAlign (8 * k + o / 0x100)
  else if 0x800 ≤ o ∧ o < 0xC00 ∧ o % 0x100 = 8 then s.txStat (4 * k + (o - 0x800) / 0x100)
  else if 0x1000 ≤ o ∧ o < 0x1200 ∧ o % 0x40 = 8 then
    let q := 8 * k + (o - 0x1000) / 0x40
    s.statusOf k a (s.qStat q (s.bypassed q))
  else if o = 0x1400 then s.blwRead k
  else if 0x2000 ≤ o ∧ o < 0x2200 ∧ o % 0x40 = 4 then s.statusOf (12 + k) a (s.eStat (8 * k + (o - 0x2000) / 0x40))
  else if 0x2000 ≤ o ∧ o < 0x2200 ∧ o % 0x40 = 0x10 then
    s.statusOf (12 + k) a (s.engineAt (8 * k + (o - 0x2000) / 0x40)).proc.ksr.toNat
  else s.reg a

/-- A word of an engine's local store (R131). -/
def State.storeRead (s : State) (o : Nat) : Nat := Memory.readLE (s.engineAt (o / 0x40000)).proc.mem (o % 0x40000) 4

/-- The value that a BAR0 read of an aligned address returns to an accessor: the host at a port, or none of them. [DEDUCED, log entry 11] -/
def State.busRead (s : State) (port : Option (Fin 2)) (a : Nat) : Nat :=
  if !s.present a then 0
  else if a < 0x100000 then s.glbRead a
  else if a < 0x200000 then s.supRead port (a - 0x100000)
  else if a < 0x280000 then s.tbRead (a - TB)
  else if a < 0x300000 then s.reg a
  else if a < 0x400000 then s.tdcRead (a - TDC)
  else if a < 0x500000 then s.trgRead (a - TRG)
  else if a < 0x600000 then s.hrtRead a
  else if a < 0x700000 then s.cmpRead (a - 0x600000)
  else if a < 0x780000 then s.auxRead (a - AUX)
  else if a < 0x800000 then s.pairRead (a - PAIR)
  else if a < 0x900000 then s.hstRead port (a - HST)
  else if a < 0xA00000 then s.nvsRead (a - NVS)
  else if a < 0xB00000 then s.bgsRead (a - BGS)
  else if a < 0xC00000 then s.reg a
  else if 0x1000000 ≤ a ∧ a < 0x1C00000 then s.sectorRead ((a - 0x1000000) / 0x100000) (a % 0x100000)
  else if 0x2000000 ≤ a ∧ a < 0x3800000 then s.storeRead (a - 0x2000000)
  else 0

/-- What a read leaves behind (R9, R291, R130): an RC field is cleared, TB_NOW_LO latches, and a single-bit error corrected in a word
of an engine's local store (`ce`) is counted. [DEDUCED, log entry 92] -/
def State.afterRead (s : State) (a : Nat) (ce : Bool) : State :=
  if !s.present a then s
  else if a = TB + 0x20 then s.tbLatch
  else if 0x2000000 ≤ a then (if ce && decide (a < 0x3800000) then s.count (aEng ((a - 0x2000000) / 0x40000) 0x34) else s)
  else
    let rc := (specOf a).rc
    if rc = 0 then s else s.setReg a (s.reg a - (s.reg a &&& rc))

/-! ### Writes -/

/-- Acts while a bit of the written value is 1. -/
def ifBit (v i : Nat) (g : State → State) (s : State) : State := if bitOf v i then g s else s

/-- A write into a port's mailbox (R414, R419): DONE clears, ABORT, GO, request words. [DEDUCED, log entry 91] -/
def State.supWrite (s : State) (p : Fin 2) (o v : Nat) : State :=
  if o = 0 then
    let s := if bitOf v 30 then s.onMbox p.val (fun m => { m with done := false }) else s
    ifBit v 28 (mboxGo p) (ifBit v 29 (mboxAbort p) s)
  else if 0x080 ≤ o ∧ o < 0x100 then s.onMbox p.val (fun m => { m with req := sput 0 m.req ((o - 0x80) / 4) (BitVec.ofNat 32 v) })
  else s

/-- A write into the MSI-X table of port p's function (R402); an unmasked vector that was pending is sent. [PRESUMED, log entry 93] -/
def State.msixWrite (s : State) (p : Fin 2) (i v : Nat) : State :=
  let old := (s.host.msix[p.val]?).getD []
  let s : State := s.putHost { s.host with
    msix := s.host.msix.setIfInBounds p.val (sput (if i % 4 = 3 then 1 else 0) old i (BitVec.ofNat 32 v)) }
  let pend := (s.host.pba[p.val]?).getD []
  if i % 4 = 3 && !bitOf v 0 && pend.contains (i / 4) then
    let s : State := s.putHost { s.host with pba := s.host.pba.setIfInBounds p.val (pend.erase (i / 4)) }
    s.signal p.val (i / 4)
  else s

/-- A write to LN_CTL, LN_SLIP or LN_PRBSINJ of lane l (R68, R77, R82), or none of them. [DEDUCED, log entry 91] -/
def laneCmd (l : Fin 96) (r v : Nat) : Option (State → State) :=
  if r = 0x04 then some (fun s => ifBit v 0 (retrain l) (ifBit v 2 (alignDone l) (ifBit v 1 (clrCeil l) s)))
  else if r = 0x0C then some (ifBit v 0 (slip l))
  else if r = 0x54 then some (prbsInject (bits v 7 0) (.rx l))
  else none

/-- A write to LN_FECTL or LN_PRBSINJ of the command lane of tile f (R74, R77), or none of them. -/
def cmdLaneCmd (f : Fin 48) (r v : Nat) : Option (State → State) :=
  if r = 0x14 then some (ifBit v 0 (feAccessGo f))
  else if r = 0x54 then some (prbsInject (bits v 7 0) (.tx f))
  else none

/-- A write to ING_QCTL of queue q (R97, R111). [DEDUCED, log entry 30] -/
def queueCmd (q : Fin 97) (v : Nat) (s : State) : State := ifBit v 1 (clrPeak q) (ifBit v 0 (queueFlush q) s)

/-- What a write to a register of sector k commands, where it commands something. -/
def sectorCmd (k o v : Nat) : Option (State → State) :=
  if o < 0x800 then
    (if h : 8 * k + o / 0x100 < 96 then laneCmd ⟨8 * k + o / 0x100, h⟩ (o % 0x100) v else none)
  else if o < 0xC00 then
    (if h : 4 * k + (o - 0x800) / 0x100 < 48 then cmdLaneCmd ⟨4 * k + (o - 0x800) / 0x100, h⟩ (o % 0x100) v else none)
  else if 0x1000 ≤ o ∧ o < 0x1200 ∧ o % 0x40 = 4 then
    (if h : 8 * k + (o - 0x1000) / 0x40 < 97 then some (queueCmd ⟨8 * k + (o - 0x1000) / 0x40, h⟩ v) else none)
  else if o = 0x1400 then (if h : k < 12 then some (blwForce ⟨k, h⟩ (bitOf v 29)) else none)
  else none

/-- A write to AUX_CHCMD (R339, R343, R344, R349). [DEDUCED, log entry 91] -/
def chCmd (v : Nat) (s : State) : State :=
  let s := chargeAmpReset (BitVec.ofNat 8 v) s
  let s := ifBit v 17 (adcCalibration 1) (ifBit v 16 (adcCalibration 0) s)
  let s := ifBit v 9 (rscan 1) (ifBit v 8 (rscan 0) s)
  ifBit v 19 (iscan 1) (ifBit v 18 (iscan 0) s)

/-- A write of GLB_DIE: FD_RESET is set or cleared, or left (R44). -/
def dieWrite (v : Nat) (s : State) : State :=
  if bitOf v 8 then fieldDieResetAssert s else fieldDieResetRelease s

/-- What a write to a register of the HST block commands (R405, R411, R412, R402), where it commands something. -/
def hstCmd (port : Option (Fin 2)) (o v : Nat) : Option (State → State) :=
  let w : Word := BitVec.ofNat 32 v
  if o = 0x30 then some (eqHeadWrite w)
  else if o = 0x50 then some (pvHeadWrite w)
  else if 0x8000 ≤ o ∧ o < 0x8400 then
    (match port with | some p => some (fun s => s.msixWrite p ((o - 0x8000) / 4) v) | none => none)
  else if h : 0x400 ≤ o ∧ o < 0x800 then
    let q : Fin 16 := ⟨(o - 0x400) / 0x40, by omega⟩
    if o % 0x40 = 0x14 then some (sqDoorbell q w) else if o % 0x40 = 0x1C then some (cqHeadWrite q w) else none
  else none

/-- What a write to a register of the TB, TDC, TRG or HRT block commands (R290, R293, R313, R254, R223). [DEDUCED, log entry 91] -/
def timeCmd (a v : Nat) : Option (State → State) :=
  if a = TB + 0x10 then some (tbIncWrite (BitVec.ofNat 32 v))
  else if a = TB + 0x58 then some (fun s => ifBit v 0 stepGo (ifBit v 1 stepCancel s))
  else if h : TDC + 0x400 ≤ a ∧ a < TDC + 0x600 ∧ a % 0x40 = 8 then
    let u : Fin 8 := ⟨(a - (TDC + 0x400)) / 0x40, by omega⟩
    some (fun s => ifBit v 0 (tdcSoftwareArm u) (ifBit v 1 (statisticsClear u) s))
  else if a = TRG + 0x14 then some (ifBit v 0 hosttrigGo)
  else if a = HRT + 0x4C then some (ifBit v 0 segcmdRelease)
  else none

/-- What a write to a register of the AUX window commands. -/
def auxCmd (a v : Nat) : Option (State → State) :=
  if a = aExc 0 then some (excWriteCmd 0 (BitVec.ofNat 32 v))
  else if a = aExc 1 then some (excWriteCmd 1 (BitVec.ofNat 32 v))
  else if a = AUX + 0x30 then some (chCmd v)
  else if a = AUX + 0xF04 then some (queueCmd 96 v)
  else if AUX + 0x800 ≤ a ∧ a < AUX + 0x900 ∧ a % 0x20 = 0 then some (fun s => s.aouValWrite ((a - AUX - 0x800) / 0x20) (bits v 15 0))
  else none

/-- What a write to a register commands, where it commands something; `ho` are the release instant and the first frame of the
hand-over that a swap plans (R393). [DEDUCED, log entry 91] -/
def busCmd (port : Option (Fin 2)) (a v : Nat) (ho : Nat × Nat) : Option (State → State) :=
  if a = aGlbDie then some (dieWrite v)
  else if 0x100000 ≤ a ∧ a < 0x200000 then port.map (fun p s => s.supWrite p (a - 0x100000) v)
  else if a < 0x580000 then timeCmd a v
  else if a = aJob 0x40 then some (ifBit v 0 jobSubmit)
  else if a = aJob 0x48 then some (ifBit v 0 jobAbort)
  else if a < 0x780000 then auxCmd a v
  else if a = PAIR + 0x30 then some (ifBit v 0 (pairSwap ho.1 ho.2))
  else if HST ≤ a ∧ a < HST + 0x100000 then hstCmd port (a - HST) v
  else if a = NVS + 0x108 then some (fun s => ifBit v 2 fereload (ifBit v 1 recover (ifBit v 0 updateCancel s)))
  else if 0x1000000 ≤ a ∧ a < 0x1C00000 then sectorCmd ((a - 0x1000000) / 0x100000) (a % 0x100000) v
  else none

/-- A host write into an engine's local store acts while ANV is STOPPED or OFF (R131). -/
def State.storeWrite (s : State) (o v : Nat) : State × Nat :=
  if s.idle .anv then
    (s.onEngine (o / 0x40000) (fun g => { g with proc := { g.proc with mem := Memory.writeLE g.proc.mem (o % 0x40000) 4 v } }), stDONE)
  else (s.refuseSt 2, stREFUSED)

/-- A write of the word v at an aligned address, with the status that REG_WRITE answers (R10, R417). [DEDUCED, log entry 79] -/
def State.busWrite (s : State) (port : Option (Fin 2)) (a v : Nat) (ho : Nat × Nat) : State × Nat :=
  if a = 0x040 then ((s.fnCmdWrite v).1, stDONE)
  else if 0x100 ≤ a ∧ a < 0x170 ∧ a % 8 = 0 then
    (match fnOf ((a - 0x100) / 8) with
    | some f => if bits v 1 0 = 0 then s else (s.fnCommand f (bits v 1 0)).1
    | none => s, stDONE)
  else if !s.present a then (s, stDONE)
  else if 0x2000000 ≤ a then (if a < 0x3800000 then s.storeWrite (a - 0x2000000) v else (s, stDONE))
  else
    match busCmd port a v ho with
    | some g => (g s, if a = aGlbDie && bitOf v 8 ≠ s.bit a 8 && !(s.idle .aux && s.idle .aou) then stREFUSED else stDONE)
    | none => s.writeMirrored a v

/-! ### The commands -/

/-- An address that BAR0 takes (R400, R401). -/
def busAddr (a : Nat) : Bool := a % 4 = 0 && decide (a < 0x4000000)

/-- R10, R401: the host at a port writes a register; only an aligned access with all byte enables acts. [DESIGN CHOICE, log entry 18] -/
def registerWrite (port : Fin 2) (addr : Nat) (be : BitVec 4) (val : Word) (ho : Nat × Nat) (s : State) : State :=
  if s.ready && busAddr addr && be = 15 && decide (port.val < s.part.usbPorts) then (s.busWrite (some port) addr val.toNat ho).1 else s

/-- R13: the host at a port reads a register; what an RC counter held is returned and cleared. [DEDUCED, log entry 92] -/
def rcCounterRead (port : Fin 2) (addr : Nat) (ce : Bool) (s : State) : State :=
  if s.ready && busAddr addr && decide (port.val < s.part.usbPorts) then
    (s.afterRead addr ce).emit (.readData addr (s.busRead (some port) addr))
  else s

/-- The port a mailbox command came from, none for a core. -/
def Src.portOf : Src → Option (Fin 2)
  | .port p => some p
  | .core _ => none

/-- R417: REG_WRITE. [DEDUCED, log entry 79] -/
def regWrite (src : Src) (ho : Nat × Nat) (s : State) : State :=
  s.serve src kREGWRITE (fun c s =>
    if busAddr (c.arg 0) then
      let r := s.busWrite (Src.portOf src) (c.arg 0) (c.arg 1) ho
      let s := r.1
      let st := r.2
      s.reply c st []
    else s.reply c stBADARG [])

/-- R417: REG_READ. [DEDUCED, log entry 79] -/
def regRead (src : Src) (ce : Bool) (s : State) : State :=
  s.serve src kREGREAD (fun c s =>
    if busAddr (c.arg 0) then
      let v := s.busRead (Src.portOf src) (c.arg 0)
      (s.afterRead (c.arg 0) ce).reply c stDONE (leBytes 4 v)
    else s.reply c stBADARG [])

end Sys2Proof.Machine
end

