-- ==== Sys2Proof/Machine/RowsArch.lean ====
section
/-!
DEFINITION. Architecture: registers, functions, the field die (chapters 00, 01): what each command of the chapter answers. Each is total: the next state is the effect its meaning has,
and the queue of waiting commands stays as it was.
-/

namespace Sys2Proof.Machine

/-- REGISTER_WRITE (R10). -/
def execRegisterWrite (port : Fin 2) (addr : Nat) (be : BitVec 4) (val : Word) (ho : Nat × Nat) (s : State) : Answer :=
  s.answer (registerWrite port addr be val ho s)

/-- RC_COUNTER_READ (R13). -/
def execRcCounterRead (port : Fin 2) (addr : Checked Nat) (s : State) : Answer :=
  s.answer (rcCounterRead port addr.access addr.ce s)

/-- START (R31). -/
def execStart (f : Fn) (s : State) : Answer :=
  s.answer (start f s)

/-- STOP (R31). -/
def execStop (f : Fn) (s : State) : Answer :=
  s.answer (stop f s)

/-- QUENCH (R31). -/
def execQuench (f : Fn) (s : State) : Answer :=
  s.answer (quench f s)

/-- GLOBAL_QUENCH (R34). -/
def execGlobalQuench (s : State) : Answer :=
  s.answer (globalQuench s)

/-- STARTING_COMPLETE (R31). -/
def execStartingComplete (f : Fn) (s : State) : Answer :=
  s.answer (startingComplete f s)

/-- STOPPING_COMPLETE (R32). -/
def execStoppingComplete (f : Fn) (s : State) : Answer :=
  s.answer (stoppingComplete f s)

/-- FIELD_DIE_RESET_ASSERT (R44). -/
def execFieldDieResetAssert (s : State) : Answer :=
  s.answer (fieldDieResetAssert s)

/-- FIELD_DIE_RESET_RELEASE (R19). -/
def execFieldDieResetRelease (s : State) : Answer :=
  s.answer (fieldDieResetRelease s)

/-- D2D_LINK_UP (R19). -/
def execD2dLinkUp (s : State) : Answer :=
  s.answer (d2dLinkUp s)

/-- D2D_LINK_DOWN (R19). -/
def execD2dLinkDown (s : State) : Answer :=
  s.answer (d2dLinkDown s)

/-- FIELD_DIE_REINIT_DONE (R19). -/
def execFieldDieReinitDone (s : State) : Answer :=
  s.answer (fieldDieReinitDone s)

/-- DIE_TEMP_THRESHOLD (R41). -/
def execDieTempThreshold (temp : Int) (s : State) : Answer :=
  s.answer (dieTempThreshold temp s)

/-- LOG_WINDOW_CLOSE (R28). -/
def execLogWindowClose (e k : Nat) (s : State) : Answer :=
  s.answer (logWindowClose e k s)

end Sys2Proof.Machine
end

