-- ==== Sys2Proof/Machine/RowsCompress.lean ====
section
/-!
DEFINITION. Verified compression (chapter 09): what each command of the chapter answers. Each is total: the next state is the effect its meaning has,
and the queue of waiting commands stays as it was.
-/

namespace Sys2Proof.Machine

/-- FRAGMENT_ENTER_STREAM (R268). -/
def execFragmentEnterStream (f : Fin 48) (s : State) : Answer :=
  s.answer (fragmentEnterStream f s)

/-- BLOCK_CODING_START (R273). -/
def execBlockCodingStart (k : Fin 12) (s : State) : Answer :=
  s.answer (blockCodingStart k s)

/-- BLOCK_VERIFY_DONE (R274). -/
def execBlockVerifyDone (k : Fin 12) (bad : Bool) (s : State) : Answer :=
  s.answer (blockVerifyDone k bad s)

/-- BLOCK_COMMIT (R276). -/
def execBlockCommit (k : Fin 12) (s : State) : Answer :=
  s.answer (blockCommit k s)

/-- JOB_SUBMIT (R281). -/
def execJobSubmit (s : State) : Answer :=
  s.answer (jobSubmit s)

/-- COMPRESS (R281). -/
def execCompress (bad : List Nat) (e : MemErrs) (s : State) : Answer :=
  s.answer (compress bad e s)

/-- DECOMPRESS (R281). -/
def execDecompress (e : MemErrs) (s : State) : Answer :=
  s.answer (decompress e s)

/-- CHECK (R281). -/
def execCheck (e : MemErrs) (s : State) : Answer :=
  s.answer (check e s)

/-- JOB_DONE (R283). -/
def execJobDone (s : State) : Answer :=
  s.answer (jobDone s)

/-- JOB_ABORT (R288). -/
def execJobAbort (s : State) : Answer :=
  s.answer (jobAbort s)

/-- CMP_STOP_TIMEOUT (R284). -/
def execCmpStopTimeout (s : State) : Answer :=
  s.answer (cmpStopTimeout s)

end Sys2Proof.Machine
end

