-- ==== Sys2Proof/Machine/RowsField.lean ====
section
/-!
DEFINITION. The field die (chapter 12): what each command of the chapter answers. Each is total: the next state is the effect its meaning has,
and the queue of waiting commands stays as it was.
-/

namespace Sys2Proof.Machine

/-- CHARGE_AMP_RESET (R339). -/
def execChargeAmpReset (mask : BitVec 8) (s : State) : Answer :=
  s.answer (chargeAmpReset mask s)

/-- CHARGE_RESET_END (R339). -/
def execChargeResetEnd (n : Fin 8) (s : State) : Answer :=
  s.answer (chargeResetEnd n s)

/-- EXC_WRITE (R341). -/
def execExcWrite (n : Fin 2) (v : Word) (s : State) : Answer :=
  s.answer (excWriteCmd n v s)

/-- EXCITATION_APPLY (R341). -/
def execExcitationApply (n : Fin 2) (s : State) : Answer :=
  s.answer (excitationApply n s)

/-- EXCITATION_SETTLED (R341). -/
def execExcitationSettled (n : Fin 2) (s : State) : Answer :=
  s.answer (excitationSettled n s)

/-- ADC_PERIODIC_TRIGGER (R343). -/
def execAdcPeriodicTrigger (x : Fin 2) (s : State) : Answer :=
  s.answer (adcPeriodicTrigger x s)

/-- RSCAN (R343). -/
def execRscan (x : Fin 2) (s : State) : Answer :=
  s.answer (rscan x s)

/-- ISCAN (R344). -/
def execIscan (x : Fin 2) (s : State) : Answer :=
  s.answer (iscan x s)

/-- ADC_SAMPLING_INSTANT (R342). -/
def execAdcSamplingInstant (x : Fin 2) (t : Stamp) (s : State) : Answer :=
  s.answer (adcSamplingInstant x t s)

/-- ADC_CONVERSION_DONE (R342). -/
def execAdcConversionDone (x : Fin 2) (raw : Int) (s : State) : Answer :=
  s.answer (adcConversionDone x raw s)

/-- ADC_POWER_DOWN (R342). -/
def execAdcPowerDown (x : Fin 2) (s : State) : Answer :=
  s.answer (adcPowerDown x s)

/-- SAMPLE_FORWARD (R345). -/
def execSampleForward (x : Fin 2) (s : State) : Answer :=
  s.answer (sampleForward x s)

/-- SAMPLE_ROUTE (R347). -/
def execSampleRoute (ecc : QueueEcc) (s : State) : Answer :=
  s.answer (sampleRoute ecc s)

/-- RING_RANGE_LAST (R357). -/
def execRingRangeLast (seg : Fin 64) (s : State) : Answer :=
  s.answer (ringRangeLast seg s)

/-- ADC_CALIBRATION (R349). -/
def execAdcCalibration (x : Fin 2) (s : State) : Answer :=
  s.answer (adcCalibration x s)

/-- ADC_CALIBRATION_DUE (R349). -/
def execAdcCalibrationDue (x : Fin 2) (s : State) : Answer :=
  s.answer (adcCalibrationDue x s)

/-- ADC_CALIBRATION_DONE (R349). -/
def execAdcCalibrationDone (x : Fin 2) (ofs : Int) (gain : Nat) (s : State) : Answer :=
  s.answer (adcCalibrationDone x ofs gain s)

/-- VOLTAGE_BREAK_TRIP (R352). -/
def execVoltageBreakTrip (v : Fin 4) (s : State) : Answer :=
  s.answer (voltageBreakTrip v s)

/-- VOLTAGE_BREAK_RELEASE (R352). -/
def execVoltageBreakRelease (v : Fin 4) (s : State) : Answer :=
  s.answer (voltageBreakRelease v s)

/-- LVDT_SUM_TRIP (R353). -/
def execLvdtSumTrip (k : Fin 2) (s : State) : Answer :=
  s.answer (lvdtSumTrip k s)

/-- LVDT_SUM_RELEASE (R353). -/
def execLvdtSumRelease (k : Fin 2) (s : State) : Answer :=
  s.answer (lvdtSumRelease k s)

/-- CHARGE_INPUT_TEST (R354). -/
def execChargeInputTest (n : Fin 8) (s : State) : Answer :=
  s.answer (chargeInputTest n s)

/-- CHARGE_INPUT_TEST_DONE (R354). -/
def execChargeInputTestDone (cap : Nat) (s : State) : Answer :=
  s.answer (chargeInputTestDone cap s)

/-- AOU_UPDATE (R359). -/
def execAouUpdate (s : State) : Answer :=
  s.answer (aouUpdate s)

/-- AOU_STALE_TIMEOUT (R359). -/
def execAouStaleTimeout (o : Fin 8) (s : State) : Answer :=
  s.answer (aouStaleTimeout o s)

/-- AOU_LOOP_ERROR (R361). -/
def execAouLoopError (o : Fin 6) (readback : BitVec 16) (s : State) : Answer :=
  s.answer (aouLoopError o readback s)

/-- AOU_LOOP_ERROR_CLEAR (R361). -/
def execAouLoopErrorClear (o : Fin 6) (readback : BitVec 16) (s : State) : Answer :=
  s.answer (aouLoopErrorClear o readback s)

/-- AOU_LOOP_TEST_START (R362). -/
def execAouLoopTestStart (o : Fin 6) (readback : BitVec 16) (s : State) : Answer :=
  s.answer (aouLoopTestStart o readback s)

/-- AOU_TEST_COMPARE (R362). -/
def execAouTestCompare (o : Fin 6) (readback : BitVec 16) (s : State) : Answer :=
  s.answer (aouTestCompare o readback s)

/-- AOU_TEST_RESTORE (R362). -/
def execAouTestRestore (o : Fin 6) (s : State) : Answer :=
  s.answer (aouTestRestore o s)

/-- AOU_TEST_RESULT (R362). -/
def execAouTestResult (o : Fin 6) (readback : BitVec 16) (s : State) : Answer :=
  s.answer (aouTestResult o readback s)

end Sys2Proof.Machine
end

