-- ==== Sys2Proof/Machine/RowsHearth.lean ====
section
/-!
DEFINITION. Capture memory (chapter 07): what each command of the chapter answers. Each is total: the next state is the effect its meaning has,
and the queue of waiting commands stays as it was.
-/

namespace Sys2Proof.Machine

/-- HEARTH_WRITE_RESUME (R225). -/
def execHearthWriteResume (k : Fin 12) (s : State) : Answer :=
  s.answer (hearthWriteResume k s)

/-- SLOT_WRITE_RESUME (R218). -/
def execSlotWriteResume (s : State) : Answer :=
  s.answer (slotWriteResume s)

/-- TILE_FRAME_TIMEOUT (R217). -/
def execTileFrameTimeout (f : Fin 48) (n : Nat) (s : State) : Answer :=
  s.answer (tileFrameTimeout f n s)

/-- SEGCMD_RELEASE (R227). -/
def execSegcmdRelease (s : State) : Answer :=
  s.answer (segcmdRelease s)

/-- SCRUB_STEP (R229). -/
def execScrubStep (finding : ScrubFinding) (prog : Fin 65536) (s : State) : Answer :=
  s.answer (scrubStep finding prog s)

/-- QUENCH_SLOT_WRITES_DONE (R233). -/
def execQuenchSlotWritesDone (s : State) : Answer :=
  s.answer (quenchSlotWritesDone s)

end Sys2Proof.Machine
end

