-- ==== Sys2Proof/Machine/RowsHost.lean ====
section
/-!
DEFINITION. The host and the mailbox (chapter 14): what each command of the chapter answers. Each is total: the next state is the effect its meaning has,
and the queue of waiting commands stays as it was.
-/

namespace Sys2Proof.Machine

/-- MEASURE (R417). -/
def execMeasure (src : Src) (s : State) : Answer :=
  s.answer (measure src s)

/-- USB4_LINK_UP (R408). -/
def execUsb4LinkUp (p : Fin 2) (gen : Nat) (s : State) : Answer :=
  s.answer (usb4LinkUp p gen s)

/-- USB4_LINK_DOWN (R408). -/
def execUsb4LinkDown (p : Fin 2) (s : State) : Answer :=
  s.answer (usb4LinkDown p s)

/-- FUNCTION_LEVEL_RESET (R403). -/
def execFunctionLevelReset (p : Fin 2) (s : State) : Answer :=
  s.answer (functionLevelReset p s)

/-- APERTURE_READ (R404). -/
def execApertureRead (p : Fin 2) (o n : Nat) (e : MemErrs) (s : State) : Answer :=
  s.answer (apertureRead p o n e s)

/-- APERTURE_WRITE (R404). -/
def execApertureWrite (p : Fin 2) (o : Nat) (data : List Byte) (s : State) : Answer :=
  s.answer (apertureWrite p o data s)

/-- SQ_DOORBELL (R405). -/
def execSqDoorbell (q : Fin 16) (v : Word) (s : State) : Answer :=
  s.answer (sqDoorbell q v s)

/-- CQ_HEAD_WRITE (R405). -/
def execCqHeadWrite (q : Fin 16) (v : Word) (s : State) : Answer :=
  s.answer (cqHeadWrite q v s)

/-- EQ_HEAD_WRITE (R411). -/
def execEqHeadWrite (v : Word) (s : State) : Answer :=
  s.answer (eqHeadWrite v s)

/-- PV_HEAD_WRITE (R412). -/
def execPvHeadWrite (v : Word) (s : State) : Answer :=
  s.answer (pvHeadWrite v s)

/-- READ_RANGE (R406). -/
def execReadRange (q : Fin 16) (desc : List Byte) (e : MemErrs) (s : State) : Answer :=
  s.answer (readRange q desc e s)

/-- READ_FRAME (R406). -/
def execReadFrame (q : Fin 16) (desc : List Byte) (e : MemErrs) (s : State) : Answer :=
  s.answer (readFrame q desc e s)

/-- READ_DECODED (R406). -/
def execReadDecoded (q : Fin 16) (desc : List Byte) (e : MemErrs) (s : State) : Answer :=
  s.answer (readDecoded q desc e s)

/-- WRITE_RANGE (R406). -/
def execWriteRange (q : Fin 16) (desc data : List Byte) (s : State) : Answer :=
  s.answer (writeRange q desc data s)

/-- DMA_DESCRIPTOR_DONE (R409). -/
def execDmaDescriptorDone (q : Fin 16) (s : State) : Answer :=
  s.answer (dmaDescriptorDone q s)

/-- WRITE_RANGE_TIMEOUT (R407). -/
def execWriteRangeTimeout (q : Fin 16) (late : Nat) (s : State) : Answer :=
  s.answer (writeRangeTimeout q late s)

/-- MBOX_GO (R414). -/
def execMboxGo (p : Fin 2) (s : State) : Answer :=
  s.answer (mboxGo p s)

/-- MBOX_ABORT (R416). -/
def execMboxAbort (p : Fin 2) (s : State) : Answer :=
  s.answer (mboxAbort p s)

/-- MBOX_LIMIT_EXPIRY (R416). -/
def execMboxLimitExpiry (src : Src) (s : State) : Answer :=
  s.answer (mboxLimitExpiry src s)

/-- FNCMD (R417). -/
def execFncmd (src : Src) (s : State) : Answer :=
  s.answer (fncmd src s)

/-- REG_WRITE (R417). -/
def execRegWrite (src : Src) (ho : Nat × Nat) (s : State) : Answer :=
  s.answer (regWrite src ho s)

/-- REG_READ (R417). -/
def execRegRead (src : Checked Src) (s : State) : Answer :=
  s.answer (regRead src.access src.ce s)

/-- RELEASE (R417). -/
def execRelease (src : Src) (hs : Nat) (s : State) : Answer :=
  s.answer (release src hs s)

/-- MBOX_QUENCH (R415). -/
def execMboxQuench (src : Src) (s : State) : Answer :=
  s.answer (mboxQuench src s)

end Sys2Proof.Machine
end

