-- ==== Sys2Proof/Machine/RowsIngest.lean ====
section
/-!
DEFINITION. Ingest queues (chapter 03): what each command of the chapter answers. Each is total: the next state is the effect its meaning has,
and the queue of waiting commands stays as it was.
-/

namespace Sys2Proof.Machine

/-- AUX_PACKER_TIMEOUT (R91). -/
def execAuxPackerTimeout (s : State) : Answer :=
  s.answer (auxPackerTimeout s)

/-- QUEUE_FLUSH (R97). -/
def execQueueFlush (q : Fin 97) (s : State) : Answer :=
  s.answer (queueFlush q s)

/-- CLR_PEAK (R111). -/
def execClrPeak (q : Fin 97) (s : State) : Answer :=
  s.answer (clrPeak q s)

/-- BELLOWS_PIN_CHANGE (R99). -/
def execBellowsPinChange (k : Fin 12) (asserted : Bool) (s : State) : Answer :=
  s.answer (bellowsPinChange k asserted s)

/-- BLW_FORCE (R114). -/
def execBlwForce (k : Fin 12) (on : Bool) (s : State) : Answer :=
  s.answer (blwForce k on s)

/-- ITEM_COPY_START (R102). -/
def execItemCopyStart (l : Fin 96) (s : State) : Answer :=
  s.answer (itemCopyStart l s)

/-- TOKEN_POST (R102). -/
def execTokenPost (l : Fin 96) (ecc : QueueEcc) (s : State) : Answer :=
  s.answer (tokenPost l ecc s)

/-- BYPASS_DISPATCH (R104). -/
def execBypassDispatch (l : Fin 96) (ecc : QueueEcc) (s : State) : Answer :=
  s.answer (bypassDispatch l ecc s)

/-- ING_DRAIN_TIMEOUT (R107). -/
def execIngDrainTimeout (s : State) : Answer :=
  s.answer (ingDrainTimeout s)

end Sys2Proof.Machine
end

