-- ==== Sys2Proof/Machine/RowsLanes.lean ====
section
/-!
DEFINITION. Front-end lanes (chapter 02): what each command of the chapter answers. Each is total: the next state is the effect its meaning has,
and the queue of waiting commands stays as it was.
-/

namespace Sys2Proof.Machine

/-- STRIP_RX (R56). -/
def execStripRx (l : Fin 96) (bytes : List Byte) (t : Nat) (cut : Bool) (s : State) : Answer :=
  s.answer (stripRx l bytes t cut s)

/-- DESKEW_TIMEOUT (R59). -/
def execDeskewTimeout (d : DeskewAt) (seq : Nat) (s : State) : Answer :=
  s.answer (deskewTimeout d seq s)

/-- INVALID_SYNC_HEADER (R50). -/
def execInvalidSyncHeader (ln : Lane) (s : State) : Answer :=
  s.answer (invalidSyncHeader ln s)

/-- BLOCK_LOCK_GAINED (R50). -/
def execBlockLockGained (ln : Lane) (s : State) : Answer :=
  s.answer (blockLockGained ln s)

/-- BLOCK_LOCK_LOST (R67). -/
def execBlockLockLost (ln : Lane) (s : State) : Answer :=
  s.answer (blockLockLost ln s)

/-- FILL_RX (R61). -/
def execFillRx (ln : Lane) (held : Nat) (s : State) : Answer :=
  s.answer (fillRx ln held s)

/-- IDLE_RX (R51). -/
def execIdleRx (ln : Lane) (counter fill : Nat) (s : State) : Answer :=
  s.answer (idleRx ln counter fill s)

/-- TRAIN_RX (R51). -/
def execTrainRx (ln : Lane) (align : Bool) (pos : Nat) (lock0 lock1 : Bool) (counter : Nat) (s : State) : Answer :=
  s.answer (trainRx ln align pos lock0 lock1 counter s)

/-- CAPS_RX (R65). -/
def execCapsRx (l : Fin 96) (c : Caps) (s : State) : Answer :=
  s.answer (capsRx l c s)

/-- RATE_RX (R65). -/
def execRateRx (ln : Lane) (step : Nat) (bits : RateBits) (s : State) : Answer :=
  s.answer (rateRx ln step bits s)

/-- RATE_SWITCH (R65). -/
def execRateSwitch (ln : Lane) (s : State) : Answer :=
  s.answer (rateSwitch ln s)

/-- CFGA_RX (R74). -/
def execCfgaRx (l : Fin 96) (tag status data : Nat) (s : State) : Answer :=
  s.answer (cfgaRx l tag status data s)

/-- ELASTIC_OVERFLOW (R61). -/
def execElasticOverflow (ln : Lane) (s : State) : Answer :=
  s.answer (elasticOverflow ln s)

/-- FILL_GAP_RESEND (R60). -/
def execFillGapResend (l : Fin 96) (ppm10 : Int) (s : State) : Answer :=
  s.answer (fillGapResend l ppm10 s)

/-- TRAINING_COMPLETE (R64). -/
def execTrainingComplete (ln : Lane) (ppm10 : Int) (eq : EqSettings) (s : State) : Answer :=
  s.answer (trainingComplete ln ppm10 eq s)

/-- STAGE_TIMEOUT (R66). -/
def execStageTimeout (ln : Lane) (s : State) : Answer :=
  s.answer (stageTimeout ln s)

/-- STAGE_RETRY (R66). -/
def execStageRetry (ln : Lane) (s : State) : Answer :=
  s.answer (stageRetry ln s)

/-- SLIP (R68). -/
def execSlip (l : Fin 96) (s : State) : Answer :=
  s.answer (slip l s)

/-- RETRAIN (R82). -/
def execRetrain (l : Fin 96) (s : State) : Answer :=
  s.answer (retrain l s)

/-- CLR_CEIL (R82). -/
def execClrCeil (l : Fin 96) (s : State) : Answer :=
  s.answer (clrCeil l s)

/-- ALIGN_DONE (R82). -/
def execAlignDone (l : Fin 96) (s : State) : Answer :=
  s.answer (alignDone l s)

/-- EQ_FREEZE (R69). -/
def execEqFreeze (ln : Lane) (s : State) : Answer :=
  s.answer (eqFreeze ln s)

/-- EQ_RESUME (R69). -/
def execEqResume (ln : Lane) (s : State) : Answer :=
  s.answer (eqResume ln s)

/-- FRAME_COMMAND (R73). -/
def execFrameCommand (slots : List Nat) (s : State) : Answer :=
  s.answer (frameCommand slots s)

/-- FILL_INSERT (R72). -/
def execFillInsert (t : TxLane) (s : State) : Answer :=
  s.answer (fillInsert t s)

/-- FE_ACCESS_GO (R74). -/
def execFeAccessGo (f : Fin 48) (s : State) : Answer :=
  s.answer (feAccessGo f s)

/-- FE_ACCESS_TIMEOUT (R74). -/
def execFeAccessTimeout (f : Fin 48) (s : State) : Answer :=
  s.answer (feAccessTimeout f s)

/-- PRBS_LOCK (R76). -/
def execPrbsLock (p : PrbsRun) (s : State) : Answer :=
  s.answer (prbsLock p.lane p.bits s)

/-- PRBS_RESEED (R76). -/
def execPrbsReseed (p : PrbsLane) (errors : Nat) (s : State) : Answer :=
  s.answer (prbsReseed p errors s)

/-- PRBS_INJECT (R77). -/
def execPrbsInject (n : Nat) (p : PrbsLane) (s : State) : Answer :=
  s.answer (prbsInject n p s)

/-- LANE_PLL_LOSS (R79). -/
def execLanePllLoss (s : State) : Answer :=
  s.answer (lanePllLoss s)

/-- TX_GROUP_PLL_LOSS (R79). -/
def execTxGroupPllLoss (s : State) : Answer :=
  s.answer (txGroupPllLoss s)

/-- DISCARDED_CONTROL_BLOCK (R51). -/
def execDiscardedControlBlock (ln : CtlRx) (s : State) : Answer :=
  s.answer (discardedControlBlock ln.lane ln.bytes s)

end Sys2Proof.Machine
end

