-- ==== Sys2Proof/Machine/Jtag.lean ====
section
/-!
DEFINITION. The test access port (R479–R483) and the debug lock (R442): each command loads an instruction and moves its data
register once. What a scan shifts in, and what the pins show at the capture, are operands. In a bit string bit i of byte i / 8 is the
bit that is shifted i-th, of the pins the one for cell i of the chain.
-/

namespace Sys2Proof.Machine

def aDbgStat : Nat := 0x00B00000

/-! ### The port -/

/-- The instructions of R480. -/
inductive TapInstr where
  | bypass | idcode | samplePreload | extest | extestPulse | extestTrain | clamp | highz
  | dbgChallenge | dbgResponse | dbgAccess | imgLoad
deriving DecidableEq, Repr

/-- The instruction an 8-bit opcode is (R480): any that is not listed, 0x44 to 0x4F among them, acts as BYPASS, as does a private one while
the port is locked (R442). [DEDUCED, log entry 95] -/
def tapInstr (unlocked : Bool) (op : Nat) : TapInstr :=
  match op with
  | 0x01 => .idcode
  | 0x02 => .samplePreload
  | 0x03 => .extest
  | 0x04 => .extestPulse
  | 0x05 => .extestTrain
  | 0x06 => .clamp
  | 0x07 => .highz
  | 0x40 => .dbgChallenge
  | 0x41 => .dbgResponse
  | 0x42 => if unlocked then .dbgAccess else .bypass
  | 0x43 => if unlocked then .imgLoad else .bypass
  | _ => .bypass

/-- What Capture-IR loads (R480): 0b0000_0U01, with U DBG_STAT.UNLOCKED. -/
def State.irCapture (s : State) : Byte := BitVec.ofNat 8 (1 + 4 * b2n (s.bit aDbgStat 31))

/-- An instruction becomes the current one; the scan shifts out what Capture-IR loaded (R480). [DESIGN CHOICE, log entry 18; DEDUCED, log entry 95] -/
def State.loadIr (s : State) (ir : Nat) : State := (s.emit (.tdo [s.irCapture])).onTap (fun t => { t with ir := ir })

/-- The IDCODE (R481). -/
def State.idcodeWord (s : State) : Nat := s.stepping % 16 * 2 ^ 28 + s.part.number * 2 ^ 12 + 0x2B7 * 2 + 1

/-- The port enters Test-Logic-Reset: IDCODE is selected, and a device that an instruction of R482 held boots once nothing else
holds it. -/
def State.tapIdle (s : State) (x : BootFacts) : State :=
  (s.onTap (fun t => { t with ir := 0x01, hold := false })).leaveReset x

/-- An instruction of R482 becomes current: the device is held in reset. [DEDUCED, log entry 95] -/
def State.tapHold (s : State) (ir : Nat) : State := ((s.loadIr ir).onTap (fun t => { t with hold := true })).deviceReset

/-! ### The boundary chain (R479) -/

/-- The bits of a string of bytes, the lowest of the first first; bits as bytes, the last filled up with zeros. -/
def bitString (b : List Byte) : List Bool := b.flatMap (fun x => (upTo 8).map (fun i => bitOf x.toNat i))
def bytesOfBits (bs : List Bool) : List Byte :=
  (chunks 8 bs).map (fun c => BitVec.ofNat 8 (c.zipIdx.foldl (fun n x => n + b2n x.1 * 2 ^ x.2) 0))

/-- The part has the unit of a ball (R463). -/
def ballPresent (p : Part) : Config.Ball → Bool
  | .lnRx l => decide (l < 8 * p.sectors)
  | .lnTx f => decide (f < 4 * p.sectors)
  | .mirTx _ | .mirRx _ | .tongsOut => p.mirror
  | .mem c => decide (c < p.channels)
  | .memGroup g => decide (8 * g < p.channels)
  | .usbTx q | .usbRx q | .usbSide q => decide (q < p.usbPorts)
  | .ethTx q | .ethRx q => decide (q < p.ethPorts)
  | .blw k => decide (k < p.sectors)
  | _ => true

/-- The AC-coupled balls, whose cells are those of IEEE 1149.6 (R479). -/
def acBall : Config.Ball → Bool
  | .lnRx _ | .lnTx _ | .mirTx _ | .mirRx _ | .ethTx _ | .ethRx _ | .usbTx _ | .usbRx _ | .refLn => true
  | _ => false

/-- What the chain captures: each cell its ball's pin, where the part has the ball's unit. [DEDUCED, log entry 95] -/
def State.captured (s : State) (pins : List Byte) : List Bool :=
  Config.chain.zipIdx.map (fun c => if ballPresent s.part c.1 then (bitString pins).getD c.2 false else Config.absentCell c.2)

/-- A scan of the boundary chain: what it captured is shifted out, followed by what runs through it, and its latches take what it holds
at the end. -/
def State.boundaryScan (s : State) (cells pins : List Byte) : State :=
  let run := s.captured pins ++ bitString cells
  let n := 8 * cells.length
  (s.onTap (fun t => { t with boundary := run.drop n })).emit (.tdo (bytesOfBits (run.take n)))

/-- How a ball is driven (R463, R480, R482): by the device, from a latch of the chain, or not at all. -/
inductive BallDrive where
  | device
  | latch (v : Bool)
  | free
deriving DecidableEq, Repr

/-- The latch of a ball's first cell. -/
def State.latchOf (s : State) (b : Config.Ball) : Bool :=
  ((Config.chain.zip s.tap.boundary).find? (fun c => c.1 = b)).any (·.2)

/-- What drives a ball that can be driven: EXTEST and CLAMP the latches, EXTEST_PULSE and EXTEST_TRAIN too, HIGHZ nothing; no ball of
an absent unit is driven. [DEDUCED, log entry 95] -/
def State.ballDrive (s : State) (b : Config.Ball) : BallDrive :=
  if !ballPresent s.part b then .free
  else match tapInstr false s.tap.ir with
    | .extest | .extestPulse | .extestTrain | .clamp => .latch (s.latchOf b)
    | .highz => .free
    | _ => .device

/-- EXTEST_PULSE and EXTEST_TRAIN put edges on a ball instead of a level (R480): on the driven balls of IEEE 1149.6. -/
def State.ballPulses (s : State) (b : Config.Ball) : Bool :=
  ballPresent s.part b && acBall b && (match tapInstr false s.tap.ir with | .extestPulse | .extestTrain => true | _ => false)

/-- The level of an event output's ball, whichever drives it (R473). -/
def State.outBall (s : State) (o : Nat) : Bool :=
  match s.ballDrive (.out o) with
  | .latch v => v
  | .free => s.outIdle o
  | .device => s.outLevel o

/-- R483: TRST_N or power-on resets the port. -/
def tapReset (x : BootFacts) (s : State) : State := s.tapIdle x

/-- R482: the port enters Test-Logic-Reset under TMS. -/
def testLogicResetEntry (x : BootFacts) (s : State) : State := s.tapIdle x

/-! ### The instructions -/

/-- R480: BYPASS, whose register captures 0; an opcode that is not listed acts as it (tapInstr). -/
def bypass (s : State) : State := (s.loadIr 0xFF).emit (.tdo [0])

/-- R481: IDCODE. -/
def idcode (s : State) : State := (s.loadIr 0x01).emit (.tdo (leBytes 4 s.idcodeWord))

/-- R480: SAMPLE/PRELOAD. -/
def samplePreload (cells pins : List Byte) (s : State) : State := (s.loadIr 0x02).boundaryScan cells pins

/-- R482: EXTEST. -/
def extest (cells pins : List Byte) (s : State) : State := (s.tapHold 0x03).boundaryScan cells pins

/-- R482: EXTEST_PULSE. -/
def extestPulse (cells pins : List Byte) (s : State) : State := (s.tapHold 0x04).boundaryScan cells pins

/-- R482: EXTEST_TRAIN. -/
def extestTrain (cells pins : List Byte) (s : State) : State := (s.tapHold 0x05).boundaryScan cells pins

/-- R482: CLAMP; the selected register is Bypass. -/
def clamp (s : State) : State := (s.tapHold 0x06).emit (.tdo [0])

/-- R482: HIGHZ; the selected register is Bypass. -/
def highz (s : State) : State := (s.tapHold 0x07).emit (.tdo [0])

/-! ### The debug lock (R442) -/

/-- DBG_STAT.UNLOCKED. [DEDUCED, log entry 94] -/
def State.unlocked (s : State) : Bool := s.bit aDbgStat 31

/-- The device is out of reset, so that its debug unit answers. -/
def State.awake (s : State) : Bool := s.sys.boot ≠ .held

/-- R442: a fresh challenge of 16 noise bytes, GLB_ID and 12 zero bytes is shifted out. -/
def dbgChallenge (noise : List Byte) (s : State) : State :=
  let s := s.loadIr 0x40
  if !s.awake then s
  else
    let c := overlay (zeros 16) 0 noise ++ leBytes 4 (s.glbRead 0) ++ zeros 12
    (s.onSys (fun y => { y with challenge := some c })).emit (.tdo c)

/-- The response verifies with the slot's key, which is VALID and has DEBUG. -/
def State.responseOk (s : State) (slot : Nat) (sig : List Byte) : Bool :=
  match s.sys.challenge with
  | some c =>
    let k := s.keyAt slot
    decide (slot < 4) && k.state = 1 && bitOf k.perm 1 && ed25519 k.public c sig
  | none => false

/-- R442: a response unlocks the port until reset, or counts as a failure; the third locks it. [DEDUCED, log entry 94] -/
def dbgResponse (slot : BitVec 8) (sig : List Byte) (s : State) : State :=
  let s := s.loadIr 0x41
  if !s.awake || s.bit aDbgStat 30 then s
  else if s.responseOk slot.toNat sig then (s.setBit aDbgStat 31 true).setFld aDbgStat 3 2 slot.toNat
  else
    let n := s.fld aDbgStat 1 0 + 1
    let s := s.setFld aDbgStat 1 0 n
    if n = 3 then (s.setBit aDbgStat 30 true).setBit aDbgStat 31 false else s

/-- R480: one access of BAR0: the data of the access before is shifted out, and the word's access is made. A locked port acts as
BYPASS. `ho` and `ce` are as in registerWrite and rcCounterRead. [DEDUCED, log entry 94] -/
def dbgAccess (w : BitVec 64) (ho : Nat × Nat) (ce : Bool) (s : State) : State :=
  let s := s.loadIr 0x42
  if !s.awake || tapInstr s.unlocked 0x42 = .bypass then s.emit (.tdo [0])
  else
    let a := 4 * bits w.toNat 55 32
    let v := bits w.toNat 31 0
    let s := s.emit (.tdo (leBytes 8 s.tap.access))
    if bitOf w.toNat 63 then
      let s := if busAddr a then (s.busWrite none a v ho).1 else s
      s.onTap (fun t => { t with access := v })
    else
      let x := if busAddr a then s.busRead none a else 0
      (if busAddr a then s.afterRead a ce else s).onTap (fun t => { t with access := x })

/-- R480: four image bytes, lowest first, go to the recovery path, at the next offset of the transfer that a BEGIN opened; bytes
beyond the image's end are dropped. [DEDUCED, log entry 95] -/
def imgLoad (w : Word) (s : State) : State :=
  let s := s.loadIr 0x43
  if tapInstr s.unlocked 0x43 = .bypass then s.emit (.tdo [0])
  else if !s.recovering then s
  else match s.sys.upd with
    | some u =>
      let room := if u.header then 512 + imgLength u.head - u.fill else 4
      (s.recPiece u u.fill ((leBytes 4 w.toNat).take room)).1
    | none => s

end Sys2Proof.Machine
end

