-- ==== Sys2Proof/Machine/RowsPackage.lean ====
section
/-!
DEFINITION. Reset pins and the test access port (chapters 17, 18): what each command of the chapter answers. Each is total: the next state is the effect its meaning has,
and the queue of waiting commands stays as it was.
-/

namespace Sys2Proof.Machine

/-- PWR_OK_DEASSERT (R468). -/
def execPwrOkDeassert (s : State) : Answer :=
  s.answer (pwrOkDeassert s)

/-- RESET_N_ASSERT (R468). -/
def execResetNAssert (s : State) : Answer :=
  s.answer (resetNAssert s)

/-- TAP_RESET (R483). -/
def execTapReset (x : BootFacts) (s : State) : Answer :=
  s.answer (tapReset x s)

/-- BYPASS (R480). -/
def execBypass (s : State) : Answer :=
  s.answer (bypass s)

/-- IDCODE (R481). -/
def execIdcode (s : State) : Answer :=
  s.answer (idcode s)

/-- SAMPLE_PRELOAD (R480). -/
def execSamplePreload (cells pins : List Byte) (s : State) : Answer :=
  s.answer (samplePreload cells pins s)

/-- EXTEST (R482). -/
def execExtest (cells pins : List Byte) (s : State) : Answer :=
  s.answer (extest cells pins s)

/-- EXTEST_PULSE (R482). -/
def execExtestPulse (cells pins : List Byte) (s : State) : Answer :=
  s.answer (extestPulse cells pins s)

/-- EXTEST_TRAIN (R482). -/
def execExtestTrain (cells pins : List Byte) (s : State) : Answer :=
  s.answer (extestTrain cells pins s)

/-- CLAMP (R482). -/
def execClamp (s : State) : Answer :=
  s.answer (clamp s)

/-- HIGHZ (R482). -/
def execHighz (s : State) : Answer :=
  s.answer (highz s)

/-- DBG_ACCESS (R480). -/
def execDbgAccess (w : Checked (BitVec 64)) (ho : Nat × Nat) (s : State) : Answer :=
  s.answer (dbgAccess w.access ho w.ce s)

/-- IMG_LOAD (R480). -/
def execImgLoad (w : Word) (s : State) : Answer :=
  s.answer (imgLoad w s)

/-- TEST_LOGIC_RESET_ENTRY (R482). -/
def execTestLogicResetEntry (x : BootFacts) (s : State) : Answer :=
  s.answer (testLogicResetEntry x s)

end Sys2Proof.Machine
end

