-- ==== Sys2Proof/Machine/RowsPair.lean ====
section
/-!
DEFINITION. Paired concentrators (chapter 13): what each command of the chapter answers. Each is total: the next state is the effect its meaning has,
and the queue of waiting commands stays as it was.
-/

namespace Sys2Proof.Machine

/-- HEARTBEAT_TX (R377). -/
def execHeartbeatTx (s : State) : Answer :=
  s.answer (heartbeatTx s)

/-- HEARTBEAT_RX (R377). -/
def execHeartbeatRx (m : Fin 8) (h : Seqd Heartbeat) (s : State) : Answer :=
  s.answer (heartbeatRx m h.seq h.body s)

/-- HEARTBEAT_TIMEOUT (R382). -/
def execHeartbeatTimeout (s : State) : Answer :=
  s.answer (heartbeatTimeout s)

/-- STATE_RX (R383). -/
def execStateRx (m : Seqd StateMsg) (s : State) : Answer :=
  s.answer (stateRx m.seq m.body s)

/-- SCHED_RX (R383). -/
def execSchedRx (n : Seqd Nat) (t : Nat) (s : State) : Answer :=
  s.answer (schedRx n.seq n.body t s)

/-- DECISION_RX (R385). -/
def execDecisionRx (d : Seqd (Option Decision)) (k : Option Nat) (s : State) : Answer :=
  s.answer (decisionRx d.seq d.body k s)

/-- RECORD_RX (R383). -/
def execRecordRx (m : Seqd (RecordMsg × List (Nat × Nat))) (s : State) : Answer :=
  s.answer (recordRx m.seq m.body.1 m.body.2 s)

/-- TIME_TX (R378). -/
def execTimeTx (s : State) : Answer :=
  s.answer (timeTx s)

/-- TIME_RX (R378). -/
def execTimeRx (dep : Seqd Nat) (back : Nat) (s : State) : Answer :=
  s.answer (timeRx dep.seq dep.body back s)

/-- PAIR_TIME_UPDATE (R378). -/
def execPairTimeUpdate (s : State) : Answer :=
  s.answer (pairTimeUpdate s)

/-- FDIGEST_RX (R384). -/
def execFdigestRx (tile : Seqd (Fin 48)) (frame value : Nat) (s : State) : Answer :=
  s.answer (fdigestRx tile.seq tile.body frame value s)

/-- DIGEST_RX (R384). -/
def execDigestRx (frame : Seqd Nat) (value : Nat) (s : State) : Answer :=
  s.answer (digestRx frame.seq frame.body value s)

/-- DIGEST_TIMEOUT (R384). -/
def execDigestTimeout (s : State) : Answer :=
  s.answer (digestTimeout s)

/-- SPACE_RX (R386). -/
def execSpaceRx (n : Seqd Nat) (s : State) : Answer :=
  s.answer (spaceRx n.seq n.body s)

/-- QUENCH_RX (R387). -/
def execQuenchRx (t : Seqd Nat) (s : State) : Answer :=
  s.answer (quenchRx t.seq t.body s)

/-- FORWARD_RX (R389). -/
def execForwardRx (c : Seqd ForwardCmd) (s : State) : Answer :=
  s.answer (forwardRx c.seq c.body s)

/-- HANDOVER_RX (R393). -/
def execHandoverRx (h : Seqd Nat) (n : Nat) (test : Bool) (s : State) : Answer :=
  s.answer (handoverRx h.seq h.body n test s)

/-- MIRROR_MESSAGE_BAD (R376). -/
def execMirrorMessageBad (type : Seqd Nat) (s : State) : Answer :=
  s.answer (mirrorMessageBad type.seq type.body s)

/-- TONGS_IN_CHANGE (R381). -/
def execTongsInChange (asserted : Bool) (s : State) : Answer :=
  s.answer (tongsInChange asserted s)

/-- TONGS_TAKE_HOLD (R381). -/
def execTongsTakeHold (s : State) : Answer :=
  s.answer (tongsTakeHold s)

/-- JOIN_COMPLETE (R391). -/
def execJoinComplete (s : State) : Answer :=
  s.answer (joinComplete s)

/-- ROLE_SWAP_DUE (R392). -/
def execRoleSwapDue (h _n : Nat) (s : State) : Answer :=
  s.answer (roleSwapDue h _n s)

/-- SWAP_ROLE (R392). -/
def execSwapRole (src : Src) (h _n : Nat) (s : State) : Answer :=
  s.answer (swapRole src h _n s)

/-- PAIR_SWAP (R397). -/
def execPairSwap (h _n : Nat) (s : State) : Answer :=
  s.answer (pairSwap h _n s)

/-- HANDOVER_RELEASE (R393). -/
def execHandoverRelease (s : State) : Answer :=
  s.answer (handoverRelease s)

/-- TAKEBACK_DUE (R394). -/
def execTakebackDue (s : State) : Answer :=
  s.answer (takebackDue s)

/-- MIRROR_LANE_FAULT (R396). -/
def execMirrorLaneFault (s : State) : Answer :=
  s.answer (mirrorLaneFault s)

/-- HEARTBEAT_SILENT (R381). -/
def execHeartbeatSilent (s : State) : Answer :=
  s.answer (heartbeatSilent s)

end Sys2Proof.Machine
end

