-- ==== Sys2Proof/Machine/RowsPower.lean ====
section
/-!
DEFINITION. Background services and power (chapter 16): what each command of the chapter answers. Each is total: the next state is the effect its meaning has,
and the queue of waiting commands stays as it was.
-/

namespace Sys2Proof.Machine

/-- LANE_ADAPT_MONITOR (R445). -/
def execLaneAdaptMonitor (s : State) : Answer :=
  s.answer (laneAdaptMonitor s)

/-- PACE_MEASUREMENT (R447). -/
def execPaceMeasurement (island : Fin 12) (ps : Nat) (s : State) : Answer :=
  s.answer (paceMeasurement island ps s)

/-- TELEMETRY_RECORD (R449). -/
def execTelemetryRecord (x : Sensors) (s : State) : Answer :=
  s.answer (telemetryRecord x s)

/-- DOMAIN_RETENTION_ENTRY (R452). -/
def execDomainRetentionEntry (n : Fin 51) (s : State) : Answer :=
  s.answer (domainRetentionEntry n s)

/-- DOMAIN_WAKE (R452). -/
def execDomainWake (n : Fin 51) (s : State) : Answer :=
  s.answer (domainWake n s)

/-- DOMAIN_WAKE_DONE (R452). -/
def execDomainWakeDone (n : Fin 51) (s : State) : Answer :=
  s.answer (domainWakeDone n s)

/-- DOMAIN_POWER_UP (R452). -/
def execDomainPowerUp (n : Fin 51) (s : State) : Answer :=
  s.answer (domainPowerUp n s)

/-- SIDEBAND_IDLE_TIMEOUT (R452). -/
def execSidebandIdleTimeout (p : Fin 2) (s : State) : Answer :=
  s.answer (sidebandIdleTimeout p s)

/-- SIDEBAND_ACTIVITY (R452). -/
def execSidebandActivity (p : Fin 2) (s : State) : Answer :=
  s.answer (sidebandActivity p s)

end Sys2Proof.Machine
end

