-- ==== Sys2Proof/Machine/RowsSync.lean ====
section
/-!
DEFINITION. Rig synchronisation (chapter 11): what each command of the chapter answers. Each is total: the next state is the effect its meaning has,
and the queue of waiting commands stays as it was.
-/

namespace Sys2Proof.Machine

/-- ETH_RATE_FALLBACK (R321). -/
def execEthRateFallback (p : Fin 2) (s : State) : Answer :=
  s.answer (ethRateFallback p s)

/-- ETH_BLOCK_LOCK (R321). -/
def execEthBlockLock (p : Fin 2) (s : State) : Answer :=
  s.answer (ethBlockLock p s)

/-- ETH_LOCK_LOSS (R321). -/
def execEthLockLoss (p : Fin 2) (s : State) : Answer :=
  s.answer (ethLockLoss p s)

/-- SYNC_RX (R327). -/
def execSyncRx (p : Fin 2) (h : PtpHead) (twoStep : Bool) (origin raw : Nat) (s : State) : Answer :=
  s.answer (syncRx p h twoStep origin raw s)

/-- FOLLOW_UP_RX (R322). -/
def execFollowUpRx (p : Fin 2) (h : PtpHead) (origin : Nat) (s : State) : Answer :=
  s.answer (followUpRx p h origin s)

/-- DELAY_REQ_RX (R322). -/
def execDelayReqRx (p : Fin 2) (h : PtpHead) (raw : Nat) (s : State) : Answer :=
  s.answer (delayReqRx p h raw s)

/-- DELAY_RESP_RX (R327). -/
def execDelayRespRx (p : Fin 2) (h : PtpHead) (recv reqClock reqPort : Nat) (s : State) : Answer :=
  s.answer (delayRespRx p h recv reqClock reqPort s)

/-- PDELAY_REQ_RX (R324). -/
def execPdelayReqRx (p : Fin 2) (h : PtpHead) (raw : Nat) (s : State) : Answer :=
  s.answer (pdelayReqRx p h raw s)

/-- PDELAY_RESP_RX (R327). -/
def execPdelayRespRx (p : Fin 2) (h : PtpHead) (twoStep : Bool) (recv reqClock reqPort raw : Nat) (s : State) : Answer :=
  s.answer (pdelayRespRx p h twoStep recv reqClock reqPort raw s)

/-- PDELAY_RESP_FOLLOW_UP_RX (R322). -/
def execPdelayRespFollowUpRx (p : Fin 2) (h : PtpHead) (origin reqClock reqPort : Nat) (s : State) : Answer :=
  s.answer (pdelayRespFollowUpRx p h origin reqClock reqPort s)

/-- ANNOUNCE_RX (R326). -/
def execAnnounceRx (p : Fin 2) (h : PtpHead) (d : PtpData) (s : State) : Answer :=
  s.answer (announceRx p h d s)

/-- SYNC_TX (R324). -/
def execSyncTx (p : Fin 2) (s : State) : Answer :=
  s.answer (syncTx p s)

/-- ANNOUNCE_TX (R322). -/
def execAnnounceTx (p : Fin 2) (s : State) : Answer :=
  s.answer (announceTx p s)

/-- DELAY_REQ_TX (R324). -/
def execDelayReqTx (p : Fin 2) (s : State) : Answer :=
  s.answer (delayReqTx p s)

/-- PDELAY_REQ_TX (R324). -/
def execPdelayReqTx (p : Fin 2) (s : State) : Answer :=
  s.answer (pdelayReqTx p s)

/-- MASTER_TIMEOUT (R327). -/
def execMasterTimeout (p : Fin 2) (announce : Bool) (s : State) : Answer :=
  s.answer (masterTimeout p announce s)

/-- RIG_TRIGGER_RX (R331). -/
def execRigTriggerRx (p : Fin 2) (fcs : Bool) (frame : List Byte) (hs : Nat) (s : State) : Answer :=
  s.answer (rigTriggerRx p fcs frame hs s)

/-- IMG_BLOCK_RX (R333). -/
def execImgBlockRx (p : Fin 2) (fcs : Bool) (addrs kind body : List Byte) (fail : Bool) (s : State) : Answer :=
  s.answer (imgBlockRx p fcs (addrs ++ kind ++ body) fail s)

/-- IMG_ACK_RX (R333). -/
def execImgAckRx (p : Fin 2) (fcs : Bool) (frame : List Byte) (raw : Nat) (s : State) : Answer :=
  s.answer (imgAckRx p fcs frame raw s)

/-- IMG_RESEND_TIMEOUT (R333). -/
def execImgResendTimeout (p : Fin 2) (off : Nat) (s : State) : Answer :=
  s.answer (imgResendTimeout p off s)

/-- RIG_TRIGGER (R332). -/
def execRigTrigger (src : Src) (hs : Nat) (s : State) : Answer :=
  s.answer (rigTrigger src hs s)

end Sys2Proof.Machine
end

