-- ==== Sys2Proof/Machine/RowsTiming.lean ====
section
/-!
DEFINITION. Timebase and event timing (chapter 10): what each command of the chapter answers. Each is total: the next state is the effect its meaning has,
and the queue of waiting commands stays as it was.
-/

namespace Sys2Proof.Machine

/-- TB_INC_WRITE (R290). -/
def execTbIncWrite (v : Word) (s : State) : Answer :=
  s.answer (tbIncWrite v s)

/-- TB_NOW_READ (R291). -/
def execTbNowRead (s : State) : Answer :=
  s.answer (tbNowRead s)

/-- STEP_GO (R293). -/
def execStepGo (s : State) : Answer :=
  s.answer (stepGo s)

/-- STEP_CANCEL (R294). -/
def execStepCancel (s : State) : Answer :=
  s.answer (stepCancel s)

/-- STEP_APPLY (R294). -/
def execStepApply (s : State) : Answer :=
  s.answer (stepApply s)

/-- TDC_EDGE (R305). -/
def execTdcEdge (n : Fin 16) (c : Nat) (e : Fin 2500000) (s : State) : Answer :=
  s.answer (tdcEdge n c e s)

/-- GATE_EDGE (R311). -/
def execGateEdge (i : Fin 2) (c : Nat) (e : Fin 2500000) (s : State) : Answer :=
  s.answer (gateEdge i c e s)

/-- TDC_SOFTWARE_ARM (R311). -/
def execTdcSoftwareArm (u : Fin 8) (s : State) : Answer :=
  s.answer (tdcSoftwareArm u s)

/-- STATISTICS_CLEAR (R313). -/
def execStatisticsClear (u : Fin 8) (s : State) : Answer :=
  s.answer (statisticsClear u s)

/-- TDC_WINDOW_END (R311). -/
def execTdcWindowEnd (u : Fin 8) (s : State) : Answer :=
  s.answer (tdcWindowEnd u s)

/-- INTERPOLATOR_RECAL_START (R309). -/
def execInterpolatorRecalStart (target : Fin 22) (s : State) : Answer :=
  s.answer (interpolatorRecalStart target s)

/-- CODE_DENSITY_COLLECTED (R309). -/
def execCodeDensityCollected (hist : List Nat) (s : State) : Answer :=
  s.answer (codeDensityCollected hist s)

/-- INTERPOLATOR_HANDOVER (R310). -/
def execInterpolatorHandover (offs temp : Int) (s : State) : Answer :=
  s.answer (interpolatorHandover offs temp s)

end Sys2Proof.Machine
end

