-- ==== Sys2Proof/Machine/RowsTrigger.lean ====
section
/-!
DEFINITION. Triggering, records, outputs (chapter 08): what each command of the chapter answers. Each is total: the next state is the effect its meaning has,
and the queue of waiting commands stays as it was.
-/

namespace Sys2Proof.Machine

/-- TRIG_EDGE (R245). -/
def execTrigEdge (ch : Fin 4) (c : Nat) (e : Fin 2500000) (s : State) : Answer :=
  s.answer (trigEdge ch c e s)

/-- DISCREPANCY_TIMEOUT (R245). -/
def execDiscrepancyTimeout (i : Fin 2) (s : State) : Answer :=
  s.answer (discrepancyTimeout i s)

/-- DUAL_INPUT_IDLE (R246). -/
def execDualInputIdle (i : Fin 2) (s : State) : Answer :=
  s.answer (dualInputIdle i s)

/-- FRAME_START (R247). -/
def execFrameStart (s : State) : Answer :=
  s.answer (frameStart s)

/-- TRIGGER_EVALUATION (R242). -/
def execTriggerEvaluation (t : Stamp) (s : State) : Answer :=
  s.answer (triggerEvaluation t s)

/-- ARM (R249). -/
def execArm (src : Src) (meas : List (Nat × Nat)) (partner : ArmCheck) (s : State) : Answer :=
  s.answer (arm src meas partner s)

/-- DISARM (R249). -/
def execDisarm (src : Src) (s : State) : Answer :=
  s.answer (disarm src s)

/-- REARM (R252). -/
def execRearm (s : State) : Answer :=
  s.answer (rearm s)

/-- HOSTTRIG_GO (R254). -/
def execHosttrigGo (s : State) : Answer :=
  s.answer (hosttrigGo s)

/-- TRIGGER (R251). -/
def execTrigger (src : Src) (hs : Nat) (s : State) : Answer :=
  s.answer (trigger src hs s)

/-- TIME_TRIGGER (R254). -/
def execTimeTrigger (src : Src) (hs : Nat) (s : State) : Answer :=
  s.answer (timeTrigger src hs s)

/-- TIME_TRIGGER_FIRE (R254). -/
def execTimeTriggerFire (s : State) : Answer :=
  s.answer (timeTriggerFire s)

/-- REDUCTION_INTERVAL_END (R255). -/
def execReductionIntervalEnd (ch : Fin 32) (s : State) : Answer :=
  s.answer (reductionIntervalEnd ch s)

/-- MEASUREMENT_READY (R256). -/
def execMeasurementReady (s : State) : Answer :=
  s.answer (measurementReady s)

/-- OUTPUT_TIMED_PULSE (R258). -/
def execOutputTimedPulse (o : Fin 9) (t : Stamp) (s : State) : Answer :=
  s.answer (outputTimedPulse o t s)

/-- OUTPUT_PULSE_END (R258). -/
def execOutputPulseEnd (o : Fin 9) (s : State) : Answer :=
  s.answer (outputPulseEnd o s)

/-- OUTPUT_TEST_START (R259). -/
def execOutputTestStart (o : Fin 9) (s : State) : Answer :=
  s.answer (outputTestStart o s)

/-- OUTPUT_TEST_READBACK (R259). -/
def execOutputTestReadback (o : Fin 9) (level : Bool) (s : State) : Answer :=
  s.answer (outputTestReadback o level s)

/-- OUTPUT_TEST_END (R259). -/
def execOutputTestEnd (o : Fin 9) (s : State) : Answer :=
  s.answer (outputTestEnd o s)

end Sys2Proof.Machine
end

