-- ==== Sys2Proof/Machine/RowsUpdate.lean ====
section
/-!
DEFINITION. Start-up, settings, update, debug (chapter 15): what each command of the chapter answers. Each is total: the next state is the effect its meaning has,
and the queue of waiting commands stays as it was.
-/

namespace Sys2Proof.Machine

/-- STORE (R429). -/
def execStore (src : Src) (s : State) : Answer :=
  s.answer (store src s)

/-- RECALL (R429). -/
def execRecallSet (src : Src) (s : State) : Answer :=
  s.answer (recallSet src s)

/-- UPDATE_BEGIN (R435). -/
def execUpdateBegin (src : Src) (s : State) : Answer :=
  s.answer (updateBegin src s)

/-- UPDATE_BLOCK (R435). -/
def execUpdateBlock (src : Src) (e : MemErrs) (s : State) : Answer :=
  s.answer (updateBlock src e s)

/-- UPDATE_COMMIT (R436). -/
def execUpdateCommit (src : Src) (fail : Bool) (s : State) : Answer :=
  s.answer (updateCommit src fail s)

/-- UPDATE_CONFIRM (R437). -/
def execUpdateConfirm (src : Src) (s : State) : Answer :=
  s.answer (updateConfirm src s)

/-- UPDATE_COMMIT_RESET (R436). -/
def execUpdateCommitReset (src : Src) (fail : Bool) (s : State) : Answer :=
  s.answer (updateCommitReset src fail s)

/-- UPDATE_CANCEL (R437). -/
def execUpdateCancel (s : State) : Answer :=
  s.answer (updateCancel s)

/-- TRIAL_CONFIRM_TIMEOUT (R437). -/
def execTrialConfirmTimeout (s : State) : Answer :=
  s.answer (trialConfirmTimeout s)

/-- FERELOAD (R440). -/
def execFereload (s : State) : Answer :=
  s.answer (fereload s)

/-- FE_RELOAD_TIMEOUT (R440). -/
def execFeReloadTimeout (s : State) : Answer :=
  s.answer (feReloadTimeout s)

/-- RECOVER (R443). -/
def execRecover (s : State) : Answer :=
  s.answer (recover s)

/-- RECOVERY_BEGIN (R441). -/
def execRecoveryBegin (target : Nat) (s : State) : Answer :=
  s.answer (recoveryBegin target s)

/-- RECOVERY_BLOCK (R441). -/
def execRecoveryBlock (off : Nat) (bytes : List Byte) (s : State) : Answer :=
  s.answer (recoveryBlock off bytes s)

/-- RECOVERY_COMMIT (R441). -/
def execRecoveryCommit (fail : Bool) (s : State) : Answer :=
  s.answer (recoveryCommit fail s)

/-- RECOVERY_STATUS (R441). -/
def execRecoveryStatus (s : State) : Answer :=
  s.answer (recoveryStatus s)

/-- RECOVERY_RESET (R441). -/
def execRecoveryReset (s : State) : Answer :=
  s.answer (recoveryReset s)

/-- WEAR_PAGE_MOVE (R426). -/
def execWearPageMove (page target : Nat) (s : State) : Answer :=
  s.answer (wearPageMove page target s)

/-- RESET_RELEASE (R422). -/
def execResetRelease (x : BootFacts) (s : State) : Answer :=
  s.answer (resetRelease x s)

/-- DBG_CHALLENGE (R442). -/
def execDbgChallenge (noise : List Byte) (s : State) : Answer :=
  s.answer (dbgChallenge noise s)

/-- DBG_RESPONSE (R442). -/
def execDbgResponse (slot : BitVec 8) (sig : List Byte) (s : State) : Answer :=
  s.answer (dbgResponse slot sig s)

end Sys2Proof.Machine
end

