-- ==== Sys2Proof/Machine/Dispatch.lean ====
section
/-!
DEFINITION. The command dispatch: one arm per command, each a direct call of its meaning.
-/

namespace Sys2Proof.Machine

/-- The effect of a command on everything but the queue. [DESIGN CHOICE, log entry 1; DESIGN CHOICE, log entry 17] -/
def exec (i : Instr) (s : State) : Host.Outcome State Fault Refusal :=
  match i with
  | .registerWrite port addr be val ho => Sys2Proof.Machine.execRegisterWrite port addr be val ho s
  | .rcCounterRead port addr => Sys2Proof.Machine.execRcCounterRead port addr s
  | .start f => Sys2Proof.Machine.execStart f s
  | .stop f => Sys2Proof.Machine.execStop f s
  | .quench f => Sys2Proof.Machine.execQuench f s
  | .globalQuench => Sys2Proof.Machine.execGlobalQuench s
  | .startingComplete f => Sys2Proof.Machine.execStartingComplete f s
  | .stoppingComplete f => Sys2Proof.Machine.execStoppingComplete f s
  | .fieldDieResetAssert => Sys2Proof.Machine.execFieldDieResetAssert s
  | .fieldDieResetRelease => Sys2Proof.Machine.execFieldDieResetRelease s
  | .d2dLinkUp => Sys2Proof.Machine.execD2dLinkUp s
  | .d2dLinkDown => Sys2Proof.Machine.execD2dLinkDown s
  | .fieldDieReinitDone => Sys2Proof.Machine.execFieldDieReinitDone s
  | .dieTempThreshold temp => Sys2Proof.Machine.execDieTempThreshold temp s
  | .logWindowClose e k => Sys2Proof.Machine.execLogWindowClose e k s
  | .stripRx l bytes t cut => Sys2Proof.Machine.execStripRx l bytes t cut s
  | .deskewTimeout d seq => Sys2Proof.Machine.execDeskewTimeout d seq s
  | .invalidSyncHeader ln => Sys2Proof.Machine.execInvalidSyncHeader ln s
  | .blockLockGained ln => Sys2Proof.Machine.execBlockLockGained ln s
  | .blockLockLost ln => Sys2Proof.Machine.execBlockLockLost ln s
  | .fillRx ln held => Sys2Proof.Machine.execFillRx ln held s
  | .idleRx ln counter fill => Sys2Proof.Machine.execIdleRx ln counter fill s
  | .trainRx ln align pos lock0 lock1 counter => Sys2Proof.Machine.execTrainRx ln align pos lock0 lock1 counter s
  | .capsRx l c => Sys2Proof.Machine.execCapsRx l c s
  | .rateRx ln step bits => Sys2Proof.Machine.execRateRx ln step bits s
  | .rateSwitch ln => Sys2Proof.Machine.execRateSwitch ln s
  | .cfgaRx l tag status data => Sys2Proof.Machine.execCfgaRx l tag status data s
  | .elasticOverflow ln => Sys2Proof.Machine.execElasticOverflow ln s
  | .fillGapResend l ppm10 => Sys2Proof.Machine.execFillGapResend l ppm10 s
  | .trainingComplete ln ppm10 eq => Sys2Proof.Machine.execTrainingComplete ln ppm10 eq s
  | .stageTimeout ln => Sys2Proof.Machine.execStageTimeout ln s
  | .stageRetry ln => Sys2Proof.Machine.execStageRetry ln s
  | .slip l => Sys2Proof.Machine.execSlip l s
  | .retrain l => Sys2Proof.Machine.execRetrain l s
  | .clrCeil l => Sys2Proof.Machine.execClrCeil l s
  | .alignDone l => Sys2Proof.Machine.execAlignDone l s
  | .eqFreeze ln => Sys2Proof.Machine.execEqFreeze ln s
  | .eqResume ln => Sys2Proof.Machine.execEqResume ln s
  | .frameCommand slots => Sys2Proof.Machine.execFrameCommand slots s
  | .fillInsert t => Sys2Proof.Machine.execFillInsert t s
  | .feAccessGo f => Sys2Proof.Machine.execFeAccessGo f s
  | .feAccessTimeout f => Sys2Proof.Machine.execFeAccessTimeout f s
  | .prbsLock p => Sys2Proof.Machine.execPrbsLock p s
  | .prbsReseed p errors => Sys2Proof.Machine.execPrbsReseed p errors s
  | .prbsInject n p => Sys2Proof.Machine.execPrbsInject n p s
  | .lanePllLoss => Sys2Proof.Machine.execLanePllLoss s
  | .txGroupPllLoss => Sys2Proof.Machine.execTxGroupPllLoss s
  | .auxPackerTimeout => Sys2Proof.Machine.execAuxPackerTimeout s
  | .queueFlush q => Sys2Proof.Machine.execQueueFlush q s
  | .clrPeak q => Sys2Proof.Machine.execClrPeak q s
  | .bellowsPinChange k asserted => Sys2Proof.Machine.execBellowsPinChange k asserted s
  | .blwForce k on => Sys2Proof.Machine.execBlwForce k on s
  | .itemCopyStart l => Sys2Proof.Machine.execItemCopyStart l s
  | .tokenPost l ecc => Sys2Proof.Machine.execTokenPost l ecc s
  | .bypassDispatch l ecc => Sys2Proof.Machine.execBypassDispatch l ecc s
  | .ingDrainTimeout => Sys2Proof.Machine.execIngDrainTimeout s
  | .bundleIssue p ecc => Sys2Proof.Machine.execBundleIssue p ecc s
  | .fenceComplete p => Sys2Proof.Machine.execFenceComplete p s
  | .waitStripReturn e => Sys2Proof.Machine.execWaitStripReturn e s
  | .emitAccepted e => Sys2Proof.Machine.execEmitAccepted e s
  | .postLsResume c => Sys2Proof.Machine.execPostLsResume c s
  | .waitEventReturn c => Sys2Proof.Machine.execWaitEventReturn c s
  | .waitEventTimeout c => Sys2Proof.Machine.execWaitEventTimeout c s
  | .sysComplete c => Sys2Proof.Machine.execSysComplete c s
  | .anvStopTimeout => Sys2Proof.Machine.execAnvStopTimeout s
  | .loadRunImage src e meas => Sys2Proof.Machine.execLoadRunImage src e meas s
  | .fragmentEnterStream f => Sys2Proof.Machine.execFragmentEnterStream f s
  | .blockCodingStart k => Sys2Proof.Machine.execBlockCodingStart k s
  | .blockVerifyDone k bad => Sys2Proof.Machine.execBlockVerifyDone k bad s
  | .blockCommit k => Sys2Proof.Machine.execBlockCommit k s
  | .hearthWriteResume k => Sys2Proof.Machine.execHearthWriteResume k s
  | .slotWriteResume => Sys2Proof.Machine.execSlotWriteResume s
  | .tileFrameTimeout f n => Sys2Proof.Machine.execTileFrameTimeout f n s
  | .segcmdRelease => Sys2Proof.Machine.execSegcmdRelease s
  | .scrubStep finding prog => Sys2Proof.Machine.execScrubStep finding prog s
  | .quenchSlotWritesDone => Sys2Proof.Machine.execQuenchSlotWritesDone s
  | .trigEdge ch c e => Sys2Proof.Machine.execTrigEdge ch c e s
  | .discrepancyTimeout k => Sys2Proof.Machine.execDiscrepancyTimeout k s
  | .dualInputIdle k => Sys2Proof.Machine.execDualInputIdle k s
  | .frameStart => Sys2Proof.Machine.execFrameStart s
  | .triggerEvaluation t => Sys2Proof.Machine.execTriggerEvaluation t s
  | .arm src meas partner => Sys2Proof.Machine.execArm src meas partner s
  | .disarm src => Sys2Proof.Machine.execDisarm src s
  | .rearm => Sys2Proof.Machine.execRearm s
  | .hosttrigGo => Sys2Proof.Machine.execHosttrigGo s
  | .trigger src hs => Sys2Proof.Machine.execTrigger src hs s
  | .timeTrigger src hs => Sys2Proof.Machine.execTimeTrigger src hs s
  | .timeTriggerFire => Sys2Proof.Machine.execTimeTriggerFire s
  | .reductionIntervalEnd ch => Sys2Proof.Machine.execReductionIntervalEnd ch s
  | .measurementReady => Sys2Proof.Machine.execMeasurementReady s
  | .measure src => Sys2Proof.Machine.execMeasure src s
  | .outputTimedPulse o t => Sys2Proof.Machine.execOutputTimedPulse o t s
  | .outputPulseEnd o => Sys2Proof.Machine.execOutputPulseEnd o s
  | .outputTestStart o => Sys2Proof.Machine.execOutputTestStart o s
  | .outputTestReadback o level => Sys2Proof.Machine.execOutputTestReadback o level s
  | .outputTestEnd o => Sys2Proof.Machine.execOutputTestEnd o s
  | .jobSubmit => Sys2Proof.Machine.execJobSubmit s
  | .compress bad e => Sys2Proof.Machine.execCompress bad e s
  | .decompress e => Sys2Proof.Machine.execDecompress e s
  | .check e => Sys2Proof.Machine.execCheck e s
  | .jobDone => Sys2Proof.Machine.execJobDone s
  | .jobAbort => Sys2Proof.Machine.execJobAbort s
  | .cmpStopTimeout => Sys2Proof.Machine.execCmpStopTimeout s
  | .tbIncWrite v => Sys2Proof.Machine.execTbIncWrite v s
  | .tbNowRead => Sys2Proof.Machine.execTbNowRead s
  | .stepGo => Sys2Proof.Machine.execStepGo s
  | .stepCancel => Sys2Proof.Machine.execStepCancel s
  | .stepApply => Sys2Proof.Machine.execStepApply s
  | .tdcEdge n c e => Sys2Proof.Machine.execTdcEdge n c e s
  | .gateEdge k c e => Sys2Proof.Machine.execGateEdge k c e s
  | .tdcSoftwareArm u => Sys2Proof.Machine.execTdcSoftwareArm u s
  | .statisticsClear u => Sys2Proof.Machine.execStatisticsClear u s
  | .tdcWindowEnd u => Sys2Proof.Machine.execTdcWindowEnd u s
  | .interpolatorRecalStart target => Sys2Proof.Machine.execInterpolatorRecalStart target s
  | .codeDensityCollected hist => Sys2Proof.Machine.execCodeDensityCollected hist s
  | .interpolatorHandover offs temp => Sys2Proof.Machine.execInterpolatorHandover offs temp s
  | .ethRateFallback p => Sys2Proof.Machine.execEthRateFallback p s
  | .ethBlockLock p => Sys2Proof.Machine.execEthBlockLock p s
  | .ethLockLoss p => Sys2Proof.Machine.execEthLockLoss p s
  | .syncRx p h twoStep origin raw => Sys2Proof.Machine.execSyncRx p h twoStep origin raw s
  | .followUpRx p h origin => Sys2Proof.Machine.execFollowUpRx p h origin s
  | .delayReqRx p h raw => Sys2Proof.Machine.execDelayReqRx p h raw s
  | .delayRespRx p h recv reqClock reqPort => Sys2Proof.Machine.execDelayRespRx p h recv reqClock reqPort s
  | .pdelayReqRx p h raw => Sys2Proof.Machine.execPdelayReqRx p h raw s
  | .pdelayRespRx p h twoStep recv reqClock reqPort raw => Sys2Proof.Machine.execPdelayRespRx p h twoStep recv reqClock reqPort raw s
  | .pdelayRespFollowUpRx p h origin reqClock reqPort => Sys2Proof.Machine.execPdelayRespFollowUpRx p h origin reqClock reqPort s
  | .announceRx p h d => Sys2Proof.Machine.execAnnounceRx p h d s
  | .syncTx p => Sys2Proof.Machine.execSyncTx p s
  | .announceTx p => Sys2Proof.Machine.execAnnounceTx p s
  | .delayReqTx p => Sys2Proof.Machine.execDelayReqTx p s
  | .pdelayReqTx p => Sys2Proof.Machine.execPdelayReqTx p s
  | .masterTimeout p announce => Sys2Proof.Machine.execMasterTimeout p announce s
  | .rigTriggerRx p fcs frame hs => Sys2Proof.Machine.execRigTriggerRx p fcs frame hs s
  | .imgBlockRx p fcs addrs kind body fail => Sys2Proof.Machine.execImgBlockRx p fcs addrs kind body fail s
  | .imgAckRx p fcs frame raw => Sys2Proof.Machine.execImgAckRx p fcs frame raw s
  | .imgResendTimeout p off => Sys2Proof.Machine.execImgResendTimeout p off s
  | .rigTrigger src hs => Sys2Proof.Machine.execRigTrigger src hs s
  | .chargeAmpReset mask => Sys2Proof.Machine.execChargeAmpReset mask s
  | .chargeResetEnd n => Sys2Proof.Machine.execChargeResetEnd n s
  | .excWrite n v => Sys2Proof.Machine.execExcWrite n v s
  | .excitationApply n => Sys2Proof.Machine.execExcitationApply n s
  | .excitationSettled n => Sys2Proof.Machine.execExcitationSettled n s
  | .adcPeriodicTrigger x => Sys2Proof.Machine.execAdcPeriodicTrigger x s
  | .rscan x => Sys2Proof.Machine.execRscan x s
  | .iscan x => Sys2Proof.Machine.execIscan x s
  | .adcSamplingInstant x t => Sys2Proof.Machine.execAdcSamplingInstant x t s
  | .adcConversionDone x raw => Sys2Proof.Machine.execAdcConversionDone x raw s
  | .adcPowerDown x => Sys2Proof.Machine.execAdcPowerDown x s
  | .sampleForward x => Sys2Proof.Machine.execSampleForward x s
  | .sampleRoute ecc => Sys2Proof.Machine.execSampleRoute ecc s
  | .ringRangeLast seg => Sys2Proof.Machine.execRingRangeLast seg s
  | .adcCalibration x => Sys2Proof.Machine.execAdcCalibration x s
  | .adcCalibrationDue x => Sys2Proof.Machine.execAdcCalibrationDue x s
  | .adcCalibrationDone x ofs gain => Sys2Proof.Machine.execAdcCalibrationDone x ofs gain s
  | .voltageBreakTrip v => Sys2Proof.Machine.execVoltageBreakTrip v s
  | .voltageBreakRelease v => Sys2Proof.Machine.execVoltageBreakRelease v s
  | .lvdtSumTrip k => Sys2Proof.Machine.execLvdtSumTrip k s
  | .lvdtSumRelease k => Sys2Proof.Machine.execLvdtSumRelease k s
  | .chargeInputTest n => Sys2Proof.Machine.execChargeInputTest n s
  | .chargeInputTestDone cap => Sys2Proof.Machine.execChargeInputTestDone cap s
  | .aouUpdate => Sys2Proof.Machine.execAouUpdate s
  | .aouStaleTimeout o => Sys2Proof.Machine.execAouStaleTimeout o s
  | .aouLoopError o readback => Sys2Proof.Machine.execAouLoopError o readback s
  | .aouLoopErrorClear o readback => Sys2Proof.Machine.execAouLoopErrorClear o readback s
  | .aouLoopTestStart o readback => Sys2Proof.Machine.execAouLoopTestStart o readback s
  | .aouTestCompare o readback => Sys2Proof.Machine.execAouTestCompare o readback s
  | .aouTestRestore o => Sys2Proof.Machine.execAouTestRestore o s
  | .aouTestResult o readback => Sys2Proof.Machine.execAouTestResult o readback s
  | .heartbeatTx => Sys2Proof.Machine.execHeartbeatTx s
  | .heartbeatRx m h => Sys2Proof.Machine.execHeartbeatRx m h s
  | .heartbeatTimeout => Sys2Proof.Machine.execHeartbeatTimeout s
  | .stateRx m => Sys2Proof.Machine.execStateRx m s
  | .schedRx n t => Sys2Proof.Machine.execSchedRx n t s
  | .decisionRx d k => Sys2Proof.Machine.execDecisionRx d k s
  | .recordRx m => Sys2Proof.Machine.execRecordRx m s
  | .timeTx => Sys2Proof.Machine.execTimeTx s
  | .timeRx dep back => Sys2Proof.Machine.execTimeRx dep back s
  | .pairTimeUpdate => Sys2Proof.Machine.execPairTimeUpdate s
  | .fdigestRx tile frame value => Sys2Proof.Machine.execFdigestRx tile frame value s
  | .digestRx frame value => Sys2Proof.Machine.execDigestRx frame value s
  | .digestTimeout => Sys2Proof.Machine.execDigestTimeout s
  | .spaceRx n => Sys2Proof.Machine.execSpaceRx n s
  | .quenchRx t => Sys2Proof.Machine.execQuenchRx t s
  | .forwardRx c => Sys2Proof.Machine.execForwardRx c s
  | .handoverRx h n test => Sys2Proof.Machine.execHandoverRx h n test s
  | .mirrorMessageBad type => Sys2Proof.Machine.execMirrorMessageBad type s
  | .tongsInChange asserted => Sys2Proof.Machine.execTongsInChange asserted s
  | .tongsTakeHold => Sys2Proof.Machine.execTongsTakeHold s
  | .joinComplete => Sys2Proof.Machine.execJoinComplete s
  | .roleSwapDue h _n => Sys2Proof.Machine.execRoleSwapDue h _n s
  | .swapRole src h _n => Sys2Proof.Machine.execSwapRole src h _n s
  | .pairSwap h _n => Sys2Proof.Machine.execPairSwap h _n s
  | .handoverRelease => Sys2Proof.Machine.execHandoverRelease s
  | .takebackDue => Sys2Proof.Machine.execTakebackDue s
  | .mirrorLaneFault => Sys2Proof.Machine.execMirrorLaneFault s
  | .usb4LinkUp p gen => Sys2Proof.Machine.execUsb4LinkUp p gen s
  | .usb4LinkDown p => Sys2Proof.Machine.execUsb4LinkDown p s
  | .functionLevelReset p => Sys2Proof.Machine.execFunctionLevelReset p s
  | .apertureRead p o n e => Sys2Proof.Machine.execApertureRead p o n e s
  | .apertureWrite p o data => Sys2Proof.Machine.execApertureWrite p o data s
  | .sqDoorbell q v => Sys2Proof.Machine.execSqDoorbell q v s
  | .cqHeadWrite q v => Sys2Proof.Machine.execCqHeadWrite q v s
  | .eqHeadWrite v => Sys2Proof.Machine.execEqHeadWrite v s
  | .pvHeadWrite v => Sys2Proof.Machine.execPvHeadWrite v s
  | .readRange q desc e => Sys2Proof.Machine.execReadRange q desc e s
  | .readFrame q desc e => Sys2Proof.Machine.execReadFrame q desc e s
  | .readDecoded q desc e => Sys2Proof.Machine.execReadDecoded q desc e s
  | .writeRange q desc data => Sys2Proof.Machine.execWriteRange q desc data s
  | .dmaDescriptorDone q => Sys2Proof.Machine.execDmaDescriptorDone q s
  | .writeRangeTimeout q late => Sys2Proof.Machine.execWriteRangeTimeout q late s
  | .mboxGo p => Sys2Proof.Machine.execMboxGo p s
  | .mboxAbort p => Sys2Proof.Machine.execMboxAbort p s
  | .mboxLimitExpiry src => Sys2Proof.Machine.execMboxLimitExpiry src s
  | .fncmd src => Sys2Proof.Machine.execFncmd src s
  | .regWrite src ho => Sys2Proof.Machine.execRegWrite src ho s
  | .regRead src => Sys2Proof.Machine.execRegRead src s
  | .release src hs => Sys2Proof.Machine.execRelease src hs s
  | .mboxQuench src => Sys2Proof.Machine.execMboxQuench src s
  | .store src => Sys2Proof.Machine.execStore src s
  | .recallSet src => Sys2Proof.Machine.execRecallSet src s
  | .updateBegin src => Sys2Proof.Machine.execUpdateBegin src s
  | .updateBlock src e => Sys2Proof.Machine.execUpdateBlock src e s
  | .updateCommit src fail => Sys2Proof.Machine.execUpdateCommit src fail s
  | .updateConfirm src => Sys2Proof.Machine.execUpdateConfirm src s
  | .updateCommitReset src fail => Sys2Proof.Machine.execUpdateCommitReset src fail s
  | .updateCancel => Sys2Proof.Machine.execUpdateCancel s
  | .trialConfirmTimeout => Sys2Proof.Machine.execTrialConfirmTimeout s
  | .fereload => Sys2Proof.Machine.execFereload s
  | .feReloadTimeout => Sys2Proof.Machine.execFeReloadTimeout s
  | .recover => Sys2Proof.Machine.execRecover s
  | .recoveryBegin target => Sys2Proof.Machine.execRecoveryBegin target s
  | .recoveryBlock off bytes => Sys2Proof.Machine.execRecoveryBlock off bytes s
  | .recoveryCommit fail => Sys2Proof.Machine.execRecoveryCommit fail s
  | .recoveryStatus => Sys2Proof.Machine.execRecoveryStatus s
  | .recoveryReset => Sys2Proof.Machine.execRecoveryReset s
  | .wearPageMove page target => Sys2Proof.Machine.execWearPageMove page target s
  | .pwrOkDeassert => Sys2Proof.Machine.execPwrOkDeassert s
  | .resetNAssert => Sys2Proof.Machine.execResetNAssert s
  | .resetRelease x => Sys2Proof.Machine.execResetRelease x s
  | .tapReset x => Sys2Proof.Machine.execTapReset x s
  | .bypass => Sys2Proof.Machine.execBypass s
  | .idcode => Sys2Proof.Machine.execIdcode s
  | .samplePreload cells pins => Sys2Proof.Machine.execSamplePreload cells pins s
  | .extest cells pins => Sys2Proof.Machine.execExtest cells pins s
  | .extestPulse cells pins => Sys2Proof.Machine.execExtestPulse cells pins s
  | .extestTrain cells pins => Sys2Proof.Machine.execExtestTrain cells pins s
  | .clamp => Sys2Proof.Machine.execClamp s
  | .highz => Sys2Proof.Machine.execHighz s
  | .dbgChallenge noise => Sys2Proof.Machine.execDbgChallenge noise s
  | .dbgResponse slot sig => Sys2Proof.Machine.execDbgResponse slot sig s
  | .dbgAccess w ho => Sys2Proof.Machine.execDbgAccess w ho s
  | .imgLoad w => Sys2Proof.Machine.execImgLoad w s
  | .laneAdaptMonitor => Sys2Proof.Machine.execLaneAdaptMonitor s
  | .paceMeasurement island ps => Sys2Proof.Machine.execPaceMeasurement island ps s
  | .telemetryRecord x => Sys2Proof.Machine.execTelemetryRecord x s
  | .domainRetentionEntry n => Sys2Proof.Machine.execDomainRetentionEntry n s
  | .domainWake n => Sys2Proof.Machine.execDomainWake n s
  | .domainWakeDone n => Sys2Proof.Machine.execDomainWakeDone n s
  | .domainPowerUp n => Sys2Proof.Machine.execDomainPowerUp n s
  | .discardedControlBlock ln => Sys2Proof.Machine.execDiscardedControlBlock ln s
  | .heartbeatSilent => Sys2Proof.Machine.execHeartbeatSilent s
  | .sidebandIdleTimeout p => Sys2Proof.Machine.execSidebandIdleTimeout p s
  | .sidebandActivity p => Sys2Proof.Machine.execSidebandActivity p s
  | .testLogicResetEntry x => Sys2Proof.Machine.execTestLogicResetEntry x s

end Sys2Proof.Machine
end

