-- ==== Sys2Proof/Machine/Tick.lean ====
section
/-!
DEFINITION. What passes with one tick of the timebase while no command waits (R289): the counter advances, times that counters
and services accumulate grow, edges whose order is settled reach the measurement units (R306), strobes that can no longer arrive
are counted (R247).
-/

namespace Sys2Proof.Machine

/-- Ticks in a microsecond: 2.5 ns each (R289). -/
def ticksPerUs : Nat := 400

/-- A time that grows in ticks and counts whole microseconds in a register. -/
def State.growTime (s : State) (a n : Nat) : State × Nat :=
  if n + 1 = ticksPerUs then (s.count a, 0) else (s, n + 1)

/-- Time with a Bellows pin asserted (R114). -/
def State.tickBellows (s : State) (k : Nat) : State :=
  let b := s.bellowsAt k
  if b.pin && decide (k < s.part.sectors) then
    let r := s.growTime (aBlw k 8) b.ticks
    let s := r.1
    let n := r.2
    s.onBellows k (fun b => { b with ticks := n })
  else s

/-- Time an engine is stalled on an emission (R158). -/
def State.tickEngine (s : State) (e : Nat) : State :=
  match (s.engineAt e).run with
  | .stalled _ =>
    let r := s.growTime (aEng e 0x3C) (s.engineAt e).stallTicks
    let s := r.1
    let n := r.2
    s.onEngine e (fun g => { g with stallTicks := n })
  | _ => s

/-- Time Hearth withholds acceptance from a compressor (R277). -/
def State.tickComp (s : State) (k : Nat) : State :=
  if (s.compAt k).hstall then
    let r := s.growTime (aCmp k 0x5C) (s.compAt k).ticks
    let s := r.1
    let n := r.2
    s.onComp k (fun c => { c with ticks := n })
  else s

/-- The block at the head of compressor k's commit buffer waits for space in its stream (R225), and not for HRT to run. -/
def State.spaceWait (s : State) (k : Nat) : Bool :=
  (s.compAt k).hstall && (s.runs .hrt || s.fnState .hrt = .stopping)
    && (match (s.compAt k).ready with | b :: _ => (s.acceptBytes b.tile b.frame b.bytes).isNone | [] => false)

/-- Time writes wait under R225 or R218 (R236). [DESIGN CHOICE, log entry 2] -/
def State.tickHold (s : State) : State :=
  if s.hearth.slotWait || (upTo 12).any s.spaceWait then
    let r := s.growTime (HRT + 0x104) s.hearth.stallTicks
    let s := r.1
    let n := r.2
    s.onH (fun h => { h with stallTicks := n })
  else s

/-- Time of the scrub pass with no post-trigger window open (R229, R451). -/
def State.tickScrub (s : State) : State :=
  if !s.inPost then s.putBgs { s.bgs with scrubTicks := s.bgs.scrubTicks + 1 } else s

/-- One tick of the timebase with no command waiting; nothing passes while TB is OFF. [DESIGN CHOICE, log entry 2] -/
def idleTick (s : State) : State :=
  match s.fnState .tb with
  | .off | .absent => s
  | _ =>
    let s := s.tbTick.tickScrub.tickHold
    let s := s.each (upTo 12) State.tickBellows
    let s := s.each (upTo 96) State.tickEngine
    let s := s.each (upTo 12) State.tickComp
    let s := s.each (upTo 48) State.tickCmd
    let s := s.each (upTo 8) State.tickMir
    let s := s.each (upTo 9) State.tickOutput
    let s := (s.each (upTo 2) State.tickPort).tickDue
    (s.tdcSettle s.nowFine).checkStrobes

end Sys2Proof.Machine
end

