-- ==== Sys2Proof/Machine/Step.lean ====
section
/-!
DEFINITION. One step of the block: the command at the front of the queue acts; with none waiting the timebase ticks.
-/

namespace Sys2Proof.Machine

/-- One step: the front of the queue is taken and executed with the queue's rest; on an empty queue one tick of the timebase
passes (R289). [DESIGN CHOICE, log entry 1; DESIGN CHOICE, log entry 2] -/
def step (s : State) : Host.Outcome State Fault Refusal :=
  match s.pending with
  | [] => .next (idleTick s)
  | c :: rest => exec c { s with pending := rest }

/-- The machine with the command that a word spells at the front of its queue; no word spells one. [DESIGN CHOICE, log entry 7] -/
def State.withFetchWord (s : State) (nbits w : Nat) : State :=
  match Sys2Proof.decodeTableWord nbits w with
  | some c => { s with pending := c :: s.pending }
  | none => s

end Sys2Proof.Machine
end

