-- ==== Sys2Proof/Safety.lean ====
section
/-!
DEFINITION. What a safe run is: every step answers a next state (no command of the table faults or is refused), and the
memories stay in their canonical form. And how statements say what a command leaves alone: the parts of the state by name, and
two states that agree but for some of them.
-/

namespace Sys2Proof

open Sys2Proof.Machine

/-- The step from s goes on. -/
def StepGoes (s : State) : Prop := ∃ t, step s = .next t

/-- The capture memory is in its canonical form: addresses rise strictly and no entry is redundant. [DESIGN CHOICE, log entry 10] -/
def State.memOk (s : Machine.State) : Prop := Memory.wf s.hearth.mem = true

/-- The parts of the state that a command can change, each named as its field of State; `mem` is the capture memory's content,
`hearth` the rest of that field. The queue, the part number and its stepping are not among them: no command changes them. -/
inductive Comp where
  | out
  | freeUse
  | fns
  | regs
  | tb
  | rx
  | tiles
  | cmd
  | mirLanes
  | order
  | queues
  | bellows
  | engines
  | cores
  | postRecs
  | postSeq
  | slots
  | tdc
  | bgs
  | field
  | hearth
  | mem
  | trig
  | staging
  | comps
  | jobs
  | pair
  | host
  | ptp
  | nvs
  | sys
  | tap
  | kept
  | keptBad
deriving DecidableEq, Repr

/-- The state with the parts that a mask names emptied. -/
def State.blank (m : Comp → Bool) (s : Machine.State) : Machine.State where
  pending := s.pending
  part := s.part
  stepping := s.stepping
  out := if m .out then Machine.State.reset.out else s.out
  freeUse := if m .freeUse then Machine.State.reset.freeUse else s.freeUse
  fns := if m .fns then Machine.State.reset.fns else s.fns
  regs := if m .regs then Machine.State.reset.regs else s.regs
  tb := if m .tb then Machine.State.reset.tb else s.tb
  rx := if m .rx then Machine.State.reset.rx else s.rx
  tiles := if m .tiles then Machine.State.reset.tiles else s.tiles
  cmd := if m .cmd then Machine.State.reset.cmd else s.cmd
  mirLanes := if m .mirLanes then Machine.State.reset.mirLanes else s.mirLanes
  order := if m .order then Machine.State.reset.order else s.order
  queues := if m .queues then Machine.State.reset.queues else s.queues
  bellows := if m .bellows then Machine.State.reset.bellows else s.bellows
  engines := if m .engines then Machine.State.reset.engines else s.engines
  cores := if m .cores then Machine.State.reset.cores else s.cores
  postRecs := if m .postRecs then Machine.State.reset.postRecs else s.postRecs
  postSeq := if m .postSeq then Machine.State.reset.postSeq else s.postSeq
  slots := if m .slots then Machine.State.reset.slots else s.slots
  tdc := if m .tdc then Machine.State.reset.tdc else s.tdc
  bgs := if m .bgs then Machine.State.reset.bgs else s.bgs
  field := if m .field then Machine.State.reset.field else s.field
  hearth := { (if m .hearth then {} else s.hearth) with mem := if m .mem then [] else s.hearth.mem }
  trig := if m .trig then Machine.State.reset.trig else s.trig
  staging := if m .staging then Machine.State.reset.staging else s.staging
  comps := if m .comps then Machine.State.reset.comps else s.comps
  jobs := if m .jobs then Machine.State.reset.jobs else s.jobs
  pair := if m .pair then Machine.State.reset.pair else s.pair
  host := if m .host then Machine.State.reset.host else s.host
  ptp := if m .ptp then Machine.State.reset.ptp else s.ptp
  nvs := if m .nvs then Machine.State.reset.nvs else s.nvs
  sys := if m .sys then Machine.State.reset.sys else s.sys
  tap := if m .tap then Machine.State.reset.tap else s.tap
  kept := if m .kept then Machine.State.reset.kept else s.kept
  keptBad := if m .keptBad then Machine.State.reset.keptBad else s.keptBad

/-- t agrees with s in every part but those named: what a frame statement says. -/
def SameBut (l : List Comp) (s t : Machine.State) : Prop :=
  t.pending = s.pending ∧ t.part = s.part ∧ t.stepping = s.stepping
    ∧ (.out ∉ l → t.out = s.out)
    ∧ (.freeUse ∉ l → t.freeUse = s.freeUse)
    ∧ (.fns ∉ l → t.fns = s.fns)
    ∧ (.regs ∉ l → t.regs = s.regs)
    ∧ (.tb ∉ l → t.tb = s.tb)
    ∧ (.rx ∉ l → t.rx = s.rx)
    ∧ (.tiles ∉ l → t.tiles = s.tiles)
    ∧ (.cmd ∉ l → t.cmd = s.cmd)
    ∧ (.mirLanes ∉ l → t.mirLanes = s.mirLanes)
    ∧ (.order ∉ l → t.order = s.order)
    ∧ (.queues ∉ l → t.queues = s.queues)
    ∧ (.bellows ∉ l → t.bellows = s.bellows)
    ∧ (.engines ∉ l → t.engines = s.engines)
    ∧ (.cores ∉ l → t.cores = s.cores)
    ∧ (.postRecs ∉ l → t.postRecs = s.postRecs)
    ∧ (.postSeq ∉ l → t.postSeq = s.postSeq)
    ∧ (.slots ∉ l → t.slots = s.slots)
    ∧ (.tdc ∉ l → t.tdc = s.tdc)
    ∧ (.bgs ∉ l → t.bgs = s.bgs)
    ∧ (.field ∉ l → t.field = s.field)
    ∧ (.hearth ∉ l → { t.hearth with mem := [] } = { s.hearth with mem := [] })
    ∧ (.mem ∉ l → t.hearth.mem = s.hearth.mem)
    ∧ (.trig ∉ l → t.trig = s.trig)
    ∧ (.staging ∉ l → t.staging = s.staging)
    ∧ (.comps ∉ l → t.comps = s.comps)
    ∧ (.jobs ∉ l → t.jobs = s.jobs)
    ∧ (.pair ∉ l → t.pair = s.pair)
    ∧ (.host ∉ l → t.host = s.host)
    ∧ (.ptp ∉ l → t.ptp = s.ptp)
    ∧ (.nvs ∉ l → t.nvs = s.nvs)
    ∧ (.sys ∉ l → t.sys = s.sys)
    ∧ (.tap ∉ l → t.tap = s.tap)
    ∧ (.kept ∉ l → t.kept = s.kept)
    ∧ (.keptBad ∉ l → t.keptBad = s.keptBad)

/-- A command answers a next state, and P holds of it. -/
def Does (c : Instr) (s : Machine.State) (P : Machine.State → Prop) : Prop := ∃ t, Machine.exec c s = .next t ∧ P t

/-- A command answers a next state that agrees with s in every part but those named. -/
def Changes (l : List Comp) (c : Instr) (s : Machine.State) : Prop := Does c s (SameBut l s)

/-- A mirror message comes in its turn: the one with the awaited SEQ, or the first of all, while no other waits. s is the machine as it
is once that SEQ has been passed; P holds of what the message then does. -/
def InTurn (c : Nat → Instr) (s : Machine.State) (P : Machine.State → Prop) : Prop :=
  ∀ (q : Nat) (r : Option Nat), q < 2 ^ 32 → s.pair.rxNext = some ((q + 1) % 2 ^ 32) → s.pair.held = [] → r = none ∨ r = some q →
    Does (c q) (s.putPair { s.pair with rxNext := r }) P

/-- The row that brings a mirror message, without its SEQ; a HEARTBEAT and a TIME are stamped as they arrive. -/
def Carries (c : Nat → Instr) (m : MirMsg) (now : Stamp) : Prop :=
  (∃ (l : Fin 8) (h : Heartbeat), c = (fun q => .heartbeatRx l ⟨q, h⟩) ∧ m = .heartbeat h now) ∨
  (∃ x : StateMsg, c = (fun q => .stateRx ⟨q, x⟩) ∧ m = .state x) ∨
  (∃ n t : Nat, c = (fun q => .schedRx ⟨q, n⟩ t) ∧ m = .sched n t) ∨
  (∃ (d : Option Decision) (k : Option Nat), c = (fun q => .decisionRx ⟨q, d⟩ k) ∧ m = .decision d k) ∨
  (∃ (x : RecordMsg) (meas : List (Nat × Nat)), c = (fun q => .recordRx ⟨q, x, meas⟩) ∧ m = .record x meas) ∨
  (∃ dep back : Nat, c = (fun q => .timeRx ⟨q, dep⟩ back) ∧ m = .time dep back now) ∨
  (∃ (tile : Fin 48) (frame value : Nat), c = (fun q => .fdigestRx ⟨q, tile⟩ frame value) ∧ m = .digest tile.val frame value) ∨
  (∃ frame value : Nat, c = (fun q => .digestRx ⟨q, frame⟩ value) ∧ m = .digest 0xFF frame value) ∨
  (∃ n : Nat, c = (fun q => .spaceRx ⟨q, n⟩) ∧ m = .space n) ∨
  (∃ t : Nat, c = (fun q => .quenchRx ⟨q, t⟩) ∧ m = .quench t) ∨
  (∃ x : ForwardCmd, c = (fun q => .forwardRx ⟨q, x⟩) ∧ m = .forward x) ∨
  (∃ (h n : Nat) (test : Bool), c = (fun q => .handoverRx ⟨q, h⟩ n test) ∧ m = .handover h n test)

/-- A mailbox command has been answered with a status (R414, R416): it waits no longer, and its reply stands in its port's mailbox,
with DONE and without BUSY, or waits for its core. -/
def Replied (s t : Machine.State) (c : FwCmd) (status : Nat) : Prop :=
  t.host.fw = s.host.fw.erase c ∧
  ∃ res, match c.src with
    | .port p =>
      (t.mboxAt p.val).rep = wordsOf (replyBlock c.code status res) ∧ (t.mboxAt p.val).done = true ∧ (t.mboxAt p.val).busy = false
    | .core k => (t.coreAt k.val).reply = some (replyBlock c.code status res, status)

/-- Engine e executes, and its next bundle is the one instruction i, for which the held token has steps left (R123, R127). -/
def IssuesOne (s : Machine.State) (e : Fin 96) (i : KInstr) : Prop :=
  let g := s.engineAt e.val
  e.val < 8 * s.part.sectors ∧ g.run = .exec ∧ s.anvLive = true ∧
  (∃ w, fetchWords g.proc.mem 0x10000 g.proc.pc = ([w], false) ∧ kdecode true w = some i) ∧
  (g.held.isSome = true → g.steps + 4 ≤ s.stepCap e.val)

/-- The engine's bundle ends without a fault: it goes on at the next address, or at `next`, and P holds of its processor before and after. -/
def Computes (s : Machine.State) (e : Fin 96) (i : KInstr) (next : Option Nat) (P : Proc → Proc → Prop) : Prop :=
  IssuesOne s e i → Does (.bundleIssue (.eng e) .clean) s (fun t =>
    (t.engineAt e.val).run = .exec ∧ (t.engineAt e.val).proc.pc = next.getD ((s.engineAt e.val).proc.pc + 4) ∧
    P (s.engineAt e.val).proc (t.engineAt e.val).proc)

/-- The engine's bundle ends in a fault of a cause (R141, R142). -/
def FaultsWith (s : Machine.State) (e : Fin 96) (i : KInstr) (cause : Nat) : Prop :=
  IssuesOne s e i → Does (.bundleIssue (.eng e) .clean) s (fun t =>
    (t.engineAt e.val).run = .faulted ∧ t.fld (aEng e.val 0x08) 31 28 = cause)

end Sys2Proof
end

