-- ==== Sys2Proof/Certificates/Slice0/Obligations.lean ====
section
/-!
DEFINITION. The statements for the provers: what each command does on the states and operands it is meant for, what it leaves alone,
and what every step keeps. Each is of the model; a docstring says so where it rests on a choice of the model's (the log entry is
named there).
-/

open Sys2Proof Sys2Proof.Machine

/-- On a device that is ready: START of a STOPPED function (PAIR: unless its start is refused) leaves it STARTING with FAULT_CODE 0 and
LAST_STATUS DONE; STOP of a function in STARTING or RUNNING leaves it STOPPING, of one in FAULT leaves it STOPPED; QUENCH of a function in
STARTING, RUNNING, STOPPING or FAULT leaves it STOPPED; the last two keep FAULT_CODE and record DONE. On a device that is ready, START, STOP
or QUENCH of a function in a state from which it has no transition leaves every part of the state as it was but for LAST_STATUS of that
function and GLB_ERR. An absent function: ABSENT, GLB_ERR as before. AUX and AOU in OFF while the field die is held in reset or its link is
not up: REFUSED_RUNNING, GLB_ERR as before. Otherwise: BAD_ARG and GLB_ERR.BAD_CMD, with CMD_FN the function's number if BAD_CMD was clear. -/
def Obligations.FunctionCommands : Prop :=
  (∀ (s : State) (f : Fn), s.ready = true →
    (s.fnState f = .stopped → ¬(f = .pair ∧ s.pairRefused = true) →
      Does (.start f) s (fun t => t.fn f = { state := .starting, faultCode := 0, lastStatus := 0 })) ∧
    (s.fnState f = .starting ∨ s.fnState f = .running →
      Does (.stop f) s (fun t => t.fn f = { s.fn f with state := .stopping, lastStatus := 0 })) ∧
    (s.fnState f = .fault →
      Does (.stop f) s (fun t => t.fn f = { s.fn f with state := .stopped, lastStatus := 0 })) ∧
    (s.fnState f = .starting ∨ s.fnState f = .running ∨ s.fnState f = .stopping ∨ s.fnState f = .fault →
      Does (.quench f) s (fun t => t.fn f = { s.fn f with state := .stopped, lastStatus := 0 }))) ∧
  (∀ (s : State) (f : Fn) (c : Instr), s.ready = true →
    (c = .start f ∧ s.fnState f ≠ .stopped ∨ c = .stop f ∧ s.fnState f ≠ .starting ∧ s.fnState f ≠ .running ∧ s.fnState f ≠ .fault
      ∨ c = .quench f ∧ (s.fnState f = .absent ∨ s.fnState f = .off ∨ s.fnState f = .stopped)) →
    let held : Prop := (f = .aux ∨ f = .aou) ∧ s.fnState f = .off ∧ (s.bit aGlbDie 8 = true ∨ s.fld aGlbDie 1 0 ≠ 2)
    Does c s (fun t =>
      SameBut [.fns, .regs] s t ∧ (∀ a, a ≠ aGlbErr → t.reg a = s.reg a) ∧ (∀ g, g ≠ f → t.fn g = s.fn g) ∧
      t.fnState f = s.fnState f ∧ (t.fn f).faultCode = (s.fn f).faultCode ∧
      (s.fnState f = .absent → (t.fn f).lastStatus = 3 ∧ t.reg aGlbErr = s.reg aGlbErr) ∧
      (held → (t.fn f).lastStatus = 1 ∧ t.reg aGlbErr = s.reg aGlbErr) ∧
      (s.fnState f ≠ .absent → ¬held →
        (t.fn f).lastStatus = 2 ∧ t.bit aGlbErr 30 = true ∧
        t.fld aGlbErr 23 20 = (if s.bit aGlbErr 30 = true then s.fld aGlbErr 23 20 else f.num))))

/-- On a device that is ready, after a global QUENCH each of ING, ANV, CMP, HRT and TRG that was in STARTING, RUNNING, STOPPING or FAULT is
STOPPED; every other function, and each of the five that was STOPPED, OFF or ABSENT, is in the state it was in; every function keeps its
FAULT_CODE. A function in STARTING whose power domains are up and which has nothing to wait for (startReady) becomes RUNNING if no check of
its chapter fails (startFault is 0), and otherwise FAULT with that check's FAULT_CODE; a function in STOPPING whose drain can end
(stopReady) becomes STOPPED and keeps its FAULT_CODE and LAST_STATUS. -/
def Obligations.FunctionStates : Prop :=
  (∀ s : State, s.ready = true →
    Does .globalQuench s (fun t => ∀ f : Fn,
      (t.fn f).faultCode = (s.fn f).faultCode ∧
      t.fnState f =
        if (f = .ing ∨ f = .anv ∨ f = .cmp ∨ f = .hrt ∨ f = .trg) ∧
          (s.fnState f = .starting ∨ s.fnState f = .running ∨ s.fnState f = .stopping ∨ s.fnState f = .fault)
        then .stopped else s.fnState f)) ∧
  (∀ (s : State) (f : Fn),
    (s.fnState f = .starting → s.startReady f = true → s.startFault f = 0 →
      Does (.startingComplete f) s (fun t => t.fn f = { s.fn f with state := .running })) ∧
    (s.fnState f = .starting → s.startReady f = true → s.startFault f ≠ 0 →
      Does (.startingComplete f) s (fun t => t.fn f = { s.fn f with state := .fault, faultCode := s.startFault f })) ∧
    (s.fnState f = .stopping → s.stopReady f = true →
      Does (.stoppingComplete f) s (fun t => t.fn f = { s.fn f with state := .stopped })))

/-- On a part with a field die, on a device that is ready: FD_RESET is set while AUX and AOU are STOPPED or OFF, the link then reads 0 and both
are OFF; while one of them is in another state the write is refused, recorded with FN 9 if CFG_REFUSED was clear, and changes neither
function; FD_RESET is cleared under the same condition and the link reads 1, training. With the die out of reset the link coming up reads 2;
its going down sets D2D_FAULT and makes AUX and AOU OFF; firmware's reinitialisation makes both STOPPED. At 105 °C or more the temperature
sets OT_ALARM and OT_SEEN; below 100 °C it clears OT_ALARM and leaves OT_SEEN; between the two it leaves both. The temperature is counted in
1/128 °C. No other bit of GLB_ERR changes. A device held in reset leaves all as it was. -/
def Obligations.FieldDieAndTemperature : Prop :=
  (∀ s : State, s.ready = true → s.part.field = true → s.fnState .aux ≠ .absent → s.fnState .aou ≠ .absent →
    (s.bit aGlbDie 8 = false → s.idle .aux = true → s.idle .aou = true →
      Does .fieldDieResetAssert s (fun t =>
        t.bit aGlbDie 8 = true ∧ t.fld aGlbDie 1 0 = 0 ∧ t.fnState .aux = .off ∧ t.fnState .aou = .off)) ∧
    (s.bit aGlbDie 8 = false → ¬(s.idle .aux = true ∧ s.idle .aou = true) →
      Does .fieldDieResetAssert s (fun t =>
        SameBut [.regs] s t ∧ t.reg aGlbDie = s.reg aGlbDie ∧ t.bit aGlbErr 31 = true ∧
        (s.bit aGlbErr 31 = false → t.fld aGlbErr 19 16 = 9))) ∧
    (s.bit aGlbDie 8 = true → s.idle .aux = true → s.idle .aou = true →
      Does .fieldDieResetRelease s (fun t => t.bit aGlbDie 8 = false ∧ t.fld aGlbDie 1 0 = 1)) ∧
    (s.bit aGlbDie 8 = false → Does .d2dLinkUp s (fun t => t.fld aGlbDie 1 0 = 2)) ∧
    (s.bit aGlbDie 8 = false → s.fld aGlbDie 1 0 ≠ 0 →
      Does .d2dLinkDown s (fun t =>
        t.fld aGlbDie 1 0 = 0 ∧ t.bit aGlbErr 29 = true ∧ t.fnState .aux = .off ∧ t.fnState .aou = .off)) ∧
    (s.bit aGlbDie 8 = false → s.fld aGlbDie 1 0 = 2 → s.fnState .aux = .off → s.fnState .aou = .off →
      Does .fieldDieReinitDone s (fun t => t.fnState .aux = .stopped ∧ t.fnState .aou = .stopped))) ∧
  (∀ (s : State) (temp : Int),
    (s.inReset = true → Does (.dieTempThreshold temp) s (fun t => t = s)) ∧
    (s.inReset = false → Does (.dieTempThreshold temp) s (fun t =>
      t.bit aGlbErr 27 = (if 105 * 128 ≤ temp then true else if temp < 100 * 128 then false else s.bit aGlbErr 27) ∧
      t.bit aGlbErr 28 = (if 105 * 128 ≤ temp then true else s.bit aGlbErr 28) ∧
      ∀ i, i ≠ 27 → i ≠ 28 → t.bit aGlbErr i = s.bit aGlbErr i)))

/-- The host writes all four bytes of an aligned register below 32 MiB of a unit that is present, on a device that is ready: a register that
commands nothing, is neither GLB_ERR nor one of a segment, and, where the pair mirrors it, on a member without a partner. Its RW bits take
the value; of its W1C bits those written 1 clear; its ST bits take the value unless one of them would change while the function that governs
them is neither STOPPED nor OFF, and then they all stay; every other bit stays. A refusal sets CFG_REFUSED, records the function's number if
it was clear, and counts in REFUSED_CNT up to 255. No other register changes, and no other part of the state. A host's write to GLB_ERR:
bits 28 to 31 clear where it has a 1, and OT_ALARM stays; with CFG_REFUSED written FN becomes 0xF and REFUSED_CNT 0, with BAD_CMD written
CMD_FN 0xF; else these stay. A register of the selected segment, outside a pair: it takes the value, unless that changes the geometry while
HRT is neither STOPPED nor OFF or the segment is CLOSED: then all but NEXT stays and CFG_REFUSED is set. A mirrored register: a HOLDER sends
its follower a STATE message; on a FOLLOWER it stays, and bit 15 of PAIR_STAT is set. A write with other than all four byte enables changes
nothing. The host reads a register of a present unit all of whose bits are RC, on a device that is ready: the value it reads as leaves the
device, the register holds 0 afterwards, and every other register and every other part of the state stays. -/
def Obligations.RegisterAccess : Prop :=
  (∀ (s : State) (port : Fin 2) (a : Nat) (v : Word) (ho : Nat × Nat),
    s.ready = true → port.val < s.part.usbPorts → a % 4 = 0 → a < 0x2000000 → s.present a = true → a ≠ 0x040 →
    ¬(0x100 ≤ a ∧ a < 0x170) → a ≠ aGlbErr → isSegReg a = false → (mirroredReg a = true → s.role ≠ roHOLDER ∧ s.role ≠ roFOLLOWER) →
    busCmd (some port) a v.toNat ho = none →
    let r := specOf a
    let refused : Prop := (∃ i, r.st.testBit i = true ∧ s.bit a i ≠ v.toNat.testBit i) ∧ s.stFree (specAndFn a).1 = false
    Does (.registerWrite port a 15 v ho) s (fun t =>
      SameBut [.regs] s t ∧
      (∀ i, i < 32 → r.rw.testBit i = true → r.st.testBit i = false → r.w1c.testBit i = false → t.bit a i = v.toNat.testBit i) ∧
      (∀ i, i < 32 → r.w1c.testBit i = true → r.rw.testBit i = false → r.st.testBit i = false →
        t.bit a i = (s.bit a i && !v.toNat.testBit i)) ∧
      (∀ i, i < 32 → r.st.testBit i = true → r.rw.testBit i = false → r.w1c.testBit i = false →
        (¬refused → t.bit a i = v.toNat.testBit i) ∧ (refused → t.bit a i = s.bit a i)) ∧
      (∀ i, i < 32 → r.rw.testBit i = false → r.st.testBit i = false → r.w1c.testBit i = false → t.bit a i = s.bit a i) ∧
      (∀ b, b ≠ a → b ≠ aGlbErr → t.reg b = s.reg b) ∧
      (¬refused → t.reg aGlbErr = s.reg aGlbErr) ∧
      (refused → t.bit aGlbErr 31 = true ∧ t.fld aGlbErr 7 0 = min (s.fld aGlbErr 7 0 + 1) 255 ∧
        (s.bit aGlbErr 31 = false → t.fld aGlbErr 19 16 = (specAndFn a).1)))) ∧
  (∀ (s : State) (port : Fin 2) (a : Nat) (v : Word) (ho : Nat × Nat), s.ready = true → port.val < s.part.usbPorts →
    Does (.registerWrite port aGlbErr 15 v ho) s (fun t =>
      SameBut [.regs] s t ∧ (∀ b, b ≠ aGlbErr → t.reg b = s.reg b) ∧
      (∀ i, 28 ≤ i → i < 32 → t.bit aGlbErr i = (s.bit aGlbErr i && !v.toNat.testBit i)) ∧ t.bit aGlbErr 27 = s.bit aGlbErr 27 ∧
      t.fld aGlbErr 19 16 = (if v.toNat.testBit 31 = true then 15 else s.fld aGlbErr 19 16) ∧
      t.fld aGlbErr 7 0 = (if v.toNat.testBit 31 = true then 0 else s.fld aGlbErr 7 0) ∧
      t.fld aGlbErr 23 20 = (if v.toNat.testBit 30 = true then 15 else s.fld aGlbErr 23 20)) ∧
    (a % 4 = 0 → isSegReg a = true → s.present a = true → s.role ≠ roHOLDER → s.role ≠ roFOLLOWER →
      let i := s.fld (HRT + 0x10) 5 0
      let g := s.segAt i
      let new := g.withField s.segTile (a - HRT) v.toNat
      let refused : Prop := new ≠ g ∧ (s.idle .hrt = false ∨ g.phase = .closed)
      Does (.registerWrite port a 15 v ho) s (fun t =>
        SameBut [.regs, .hearth] s t ∧ (∀ j, j < 64 → j ≠ i → t.segAt j = s.segAt j) ∧
        (¬refused → t.segAt i = (if a = HRT + 0x28 then { new with next := v.toNat % 128 } else new) ∧ (∀ b, t.reg b = s.reg b)) ∧
        (refused → t.segAt i = (if a = HRT + 0x28 then { g with next := v.toNat % 128 } else g) ∧ t.bit aGlbErr 31 = true))) ∧
    (a % 4 = 0 → mirroredReg a = true → isSegReg a = false → s.present a = true →
      (s.role = roFOLLOWER → Does (.registerWrite port a 15 v ho) s (fun t =>
        SameBut [.regs] s t ∧ t.bit aPairStat 15 = true ∧ ∀ b, b ≠ aPairStat → t.reg b = s.reg b)) ∧
      (s.role = roHOLDER → s.runs .pair = true → s.mirrorUp = true → Does (.registerWrite port a 15 v ho) s (fun t =>
        SameBut [.regs, .pair, .out] s t ∧ (∃ m, t.out = .mirror mSTATE m :: s.out) ∧
        (s.stFree (specAndFn a).1 = true →
          ∀ i, i < 32 → (specOf a).rw.testBit i = true ∨ (specOf a).st.testBit i = true → t.bit a i = v.toNat.testBit i)))) ∧
    ∀ be, be ≠ 15 → Does (.registerWrite port a be v ho) s (fun t => t = s)) ∧
  (∀ (s : State) (port : Fin 2) (a : Nat) (ce : Bool),
    s.ready = true → port.val < s.part.usbPorts → a % 4 = 0 → a < 0x4000000 → s.present a = true → (specOf a).rc = 0xFFFFFFFF →
    Does (.rcCounterRead port ⟨a, ce⟩) s (fun t =>
      SameBut [.out, .regs] s t ∧ t.out = .readData a (s.busRead (some port) a) :: s.out ∧ t.reg a = 0 ∧
      ∀ b, b ≠ a → t.reg b = s.reg b))

/-- While TB is not OFF, the close of window k of an epoch that has begun, at or after the window that closes next and once its time has
come (R28: the window's end and the log delay have passed, whatever steps the time has made), leaves in the
ordering exactly the events that are not late and belong to a later window, moves the next window to k + 1 of that epoch, and never
lowers the count of entries published. -/
def Obligations.LogWindowsClose : Prop :=
  ∀ (s : State) (e k : Nat),
    e ≤ s.tb.epochs → s.windowDue e k = true → windowLe (s.tb.closeEpoch, s.tb.closeWin) (e, k) = true → s.fnState .tb ≠ .off →
    Does (.logWindowClose e k) s (fun t =>
      t.tb.log = s.tb.log.filter (fun x => !x.late && !windowLe x.window (e, k)) ∧
      t.tb.closeEpoch = e ∧ t.tb.closeWin = k + 1 ∧ s.tb.logCount ≤ t.tb.logCount)

/-- A live lane (its function STARTING or RUNNING) that is not waiting for a retry. Training that completes moves stage 1 to 2. Block lock
sets LOCK and moves stage 2 to 3. In stage 3 with automatic alignment the ALIGN marker found in place leaves the stage for 4, or for
rise or run where capabilities have been exchanged; found elsewhere before firmware's thirty-first try it slips one bit; SLIP slips one
bit; ALIGN_DONE leaves a manual stage 3. In stage 4 a CAPS that declares a fitting mode records MAX_STEP of the peer and, both ends having
acknowledged, ends the stage. In stage 5 an ACCEPT of the next step is kept, and the switch puts the lane into stage 1 at that step. A
partner's RATE on a mirror lane in bring-up or in run is answered with ACCEPT, or, with FINAL, noted (where stages begin anew is the
model's reading, log entry 22). -/
def Obligations.LaneBringUp : Prop :=
  ∀ (s : State) (ln : Lane), s.laneLive ln = true → (laneGet s ln).waiting = false →
    (∀ (ppm10 : Int) (eq : EqSettings), s.stage ln = 1 →
      Does (.trainingComplete ln ppm10 eq) s (fun t => t.stage ln = 2 ∧ t.step ln = s.step ln)) ∧
    (2 ≤ s.stage ln → s.stage ln ≤ 6 → Does (.blockLockGained ln) s (fun t =>
      t.bit (statOf ln) 18 = true ∧ t.stage ln = (if s.stage ln = 2 then 3 else s.stage ln))) ∧
    (∀ (pos : Nat) (lock0 lock1 : Bool) (counter : Nat), s.stage ln = 3 → s.manualAlign ln = false →
      Does (.trainRx ln true pos lock0 lock1 counter) s (fun t =>
        ((pos + 32 - (laneGet s ln).slips) % 32 = 0 →
          t.bit (statOf ln) 17 = true ∧ ((laneGet s ln).capsDone = false → t.stage ln = 4) ∧
          ((laneGet s ln).capsDone = true → t.stage ln = if s.step ln < s.targetStep ln then 5 else 6)) ∧
        ((pos + 32 - (laneGet s ln).slips) % 32 ≠ 0 → (laneGet s ln).tries < 31 →
          t.stage ln = 3 ∧ (laneGet t ln).slips = ((laneGet s ln).slips + 1) % 32 ∧ (laneGet t ln).tries = (laneGet s ln).tries + 1))) ∧
    (∀ l : Fin 96, ln = .rx l → s.stage ln = 3 →
      Does (.slip l) s (fun t => (laneGet t ln).slips = ((laneGet s ln).slips + 1) % 32 ∧ t.stage ln = 3) ∧
      (s.manualAlign ln = true → (laneGet s ln).capsDone = false →
        Does (.alignDone l) s (fun t => t.stage ln = 4 ∧ t.bit (statOf ln) 17 = (laneGet s ln).hit))) ∧
    (∀ (l : Fin 96) (c : Caps), ln = .rx l → s.stage ln = 4 → (c.compatOnly = false ∨ s.compat l.val = true) →
      Does (.capsRx l c) s (fun t =>
        t.fld (statOf ln) 21 19 = min c.maxStep 7 ∧ (laneGet t ln).caps = some c ∧
        ((c.ack || (laneGet s ln).acked) = false → t.stage ln = 4) ∧
        ((c.ack || (laneGet s ln).acked) = true → (laneGet t ln).capsDone = true ∧ (t.stage ln = 5 ∨ t.stage ln = 6)))) ∧
    (∀ final : Bool, s.stage ln = 5 → (laneGet s ln).nextStep = none →
      Does (.rateRx ln (s.step ln + 1) ⟨true, final⟩) s (fun t => (laneGet t ln).nextStep = some (s.step ln + 1) ∧ t.stage ln = 5)) ∧
    (∀ (m : Fin 8) (step : Nat), ln = .mir m → 1 ≤ s.stage ln → s.stage ln ≤ 6 →
      Does (.rateRx ln step ⟨false, true⟩) s (fun t => (laneGet t ln).peerFinal = true ∧ t.out = s.out ∧ t.stage ln = s.stage ln) ∧
      Does (.rateRx ln step ⟨false, false⟩) s (fun t => t.stage ln = s.stage ln ∧
        ∃ rest, t.out = ctlBlock (48 + m.val) 0x55 (pack 14 [(0, 1, step), (1, 1, 1)]) :: rest)) ∧
    (∀ k : Nat, s.stage ln = 5 → (laneGet s ln).nextStep = some k →
      Does (.rateSwitch ln) s (fun t => t.stage ln = 1 ∧ t.step ln = k % 8 ∧ t.bit (statOf ln) 18 = false))

/-- A live lane. A stage that times out (1 to 5; never stage 3 of a lane aligned by hand, nor stage 5 once the rate was accepted), a declined rate (cause 2), and lock lost in
stages 3 to 5 (cause 3) are recorded in LN_STAT with the stage, the cause and a count up to 255: above step 0 the lane starts stage 1 at
the next lower step, which is its new ceiling; at step 0 it waits for its retry, or after its last retry is DOWN (7). Lock lost (3) or an
elastic overflow (4) in run is recorded as of stage 6 and repeats stage 1 at the same step. A retry starts stage 1 anew and counts.
RETRAIN of a lane in link mode starts stage 1 at step 0, its ceiling 4 if CLR_CEIL was written before. The model's readings: the same step
after a loss in run, and cause 3 in stages 3 to 5 (log entry 21); STAGE kept in the wait (log entry 22). -/
def Obligations.LaneFailures : Prop :=
  ∀ (s : State) (ln : Lane), s.laneLive ln = true →
    let recorded (t : State) (stage cause : Nat) : Prop :=
      t.fld (statOf ln) 15 12 = stage ∧ t.fld (statOf ln) 11 8 = cause ∧ t.fld (statOf ln) 7 0 = min (s.fld (statOf ln) 7 0 + 1) 255
    let failed (t : State) (stage cause : Nat) : Prop :=
      recorded t stage cause ∧ t.bit (statOf ln) 18 = false ∧
      (0 < s.step ln → t.stage ln = 1 ∧ t.step ln = s.step ln - 1 ∧ t.ceil ln = s.step ln - 1) ∧
      (s.step ln = 0 → s.laneRetries ln ≠ 0 → s.laneRetries ln ≤ (laneGet s ln).retries → t.stage ln = 7) ∧
      (s.step ln = 0 → (s.laneRetries ln = 0 ∨ (laneGet s ln).retries < s.laneRetries ln) →
        (laneGet t ln).waiting = true ∧ t.stage ln = s.stage ln)
    (1 ≤ s.stage ln → s.stage ln ≤ 5 → (laneGet s ln).waiting = false → (s.stage ln = 3 → s.manualAlign ln = false) →
      (s.stage ln = 5 → (laneGet s ln).nextStep = none) → Does (.stageTimeout ln) s (fun t => failed t (s.stage ln) 1)) ∧
    (∀ (l : Fin 96) (step : Nat) (final : Bool), ln = .rx l → s.stage ln = 5 → (laneGet s ln).waiting = false →
      (laneGet s ln).nextStep = none → Does (.rateRx ln step ⟨false, final⟩) s (fun t => failed t 5 2)) ∧
    (3 ≤ s.stage ln → s.stage ln ≤ 5 → s.bit (statOf ln) 18 = true → Does (.blockLockLost ln) s (fun t => failed t (s.stage ln) 3)) ∧
    (s.stage ln = 6 → s.bit (statOf ln) 18 = true →
      Does (.blockLockLost ln) s (fun t => recorded t 6 3 ∧ t.stage ln = 1 ∧ t.step ln = s.step ln ∧ t.ceil ln = s.ceil ln)) ∧
    (s.stage ln = 6 →
      Does (.elasticOverflow ln) s (fun t => recorded t 6 4 ∧ t.stage ln = 1 ∧ t.step ln = s.step ln ∧ t.ceil ln = s.ceil ln)) ∧
    ((laneGet s ln).waiting = true →
      Does (.stageRetry ln) s (fun t => t.stage ln = 1 ∧ (laneGet t ln).waiting = false ∧
        (laneGet t ln).retries = (laneGet s ln).retries + 1 ∧ t.step ln = s.step ln)) ∧
    (∀ l : Fin 96, ln = .rx l → s.laneMode l.val = 1 →
      Does (.retrain l) s (fun t => t.stage ln = 1 ∧ t.step ln = 0 ∧ (laneGet t ln).retries = 0 ∧
        t.ceil ln = if (laneGet s ln).clrCeil = true then 4 else s.ceil ln)) ∧
    (∀ l : Fin 96, ln = .rx l → s.present (aRx l.val oSTAT) = true →
      Does (.clrCeil l) s (fun t => (laneGet t ln).clrCeil = true ∧ t.ceil ln = s.ceil ln))

/-- A live lane. An invalid sync header of a receive lane, and a control block whose CRC-8 or type is wrong, add one to its saturating counter
LN_BLK. A FILL block is deleted exactly when the elastic buffer holds more than four blocks and the tile is not in compatibility mode. IDLE
leaves the counter and the fill it carries. 1,024 FILL or IDLE blocks freeze the equaliser of a lane in bring-up or in run, 64 data blocks
let it go on, while LNK or PAIR stops too. An offset that departs by more than 50 ppm from the one behind the last FILL_GAP sends CAPS anew
with the gap the offset asks for, behind a FILL where one is due, but on a member without Tongs, which sends only FILL and keeps that gap.
Each of these commands leaves the stage and the step of the lane. With the sequencer running and TRG RUNNING, on a device that drives its
front-ends (a holder or a device without a pair, whose frames a hand-over does not hold back), FRAME sends on each command lane in run one
block 0x66 with the frame's number, the number before the frame's effects, the lane's DELTA, which is four block times of the lane's step
and part of a fifth, and flags of a free value (log entry 9), unless a lane's slot begins less than 100 ns after this member took hold: then
no block leaves. The next frame's number is one more, modulo 2^32. A FILL on a command lane or a mirror lane in bring-up or in run sends one
block 0x1E, on a command lane while LNK is STARTING or RUNNING; the count of other blocks since the last FILL begins anew, and nothing else
changes. -/
def Obligations.LaneTraffic : Prop :=
  (∀ (s : State) (ln : Lane),
    let same (t : State) : Prop := t.stage ln = s.stage ln ∧ t.step ln = s.step ln
    (s.laneHears ln = true → Does (.eqResume ln) s (fun t => same t ∧ SameBut [.regs] s t ∧ t.bit (statOf ln) 16 = false)) ∧
    (s.laneLive ln = true →
    (∀ (l : Fin 96) (c : Instr), ln = .rx l → (c = .invalidSyncHeader ln ∨ ∃ bs, blockBad bs = true ∧ c = .discardedControlBlock ⟨ln, bs⟩) →
      s.present (aRx l.val oBLK) = true →
      Does c s (fun t => same t ∧ SameBut [.regs] s t ∧ t.reg (aRx l.val oBLK) = min (s.reg (aRx l.val oBLK) + 1) 0xFFFFFFFF)) ∧
    (∀ held : Nat, Does (.fillRx ln held) s (fun t => same t ∧ SameBut [.rx, .mirLanes] s t ∧
      (laneGet t ln).elastic = if 4 < held ∧ s.laneCompat ln = false then held - 1 else held)) ∧
    (∀ counter fill : Nat, counter < 2 ^ 32 → fill < 65536 → Does (.idleRx ln counter fill) s (fun t =>
      same t ∧ SameBut [.rx, .mirLanes] s t ∧ (laneGet t ln).idleCount = counter ∧ (laneGet t ln).idleFill = fill)) ∧
    (1 ≤ s.stage ln → s.stage ln ≤ 6 → Does (.eqFreeze ln) s (fun t => same t ∧ SameBut [.regs] s t ∧ t.bit (statOf ln) 16 = true)) ∧
    (∀ (l : Fin 96) (ppm10 : Int), ln = .rx l → s.stage ln = 6 → s.compat l.val = false →
      500 < (ppm10 - (laneGet s ln).gapBase).natAbs →
      Does (.fillGapResend l ppm10) s (fun t => same t ∧ t.fld (aRx l.val oPPM) 15 0 = ux 16 ppm10 ∧
        (s.nonHolder = true → t.out = s.out ∧ t.rx = s.rx ∧ t.fld (aRx l.val oPPM) 31 16 = s.fld (aRx l.val oPPM) 31 16) ∧
        (s.nonHolder = false → (laneGet t ln).gapBase = ppm10 ∧ t.fld (aRx l.val oPPM) 31 16 = fillGap false ppm10 ∧
          t.out = ctlBlock (tileOf l.val) 0x4B (pack 14 [(0, 1, s.maxStep ln), (1, 1, 0), (2, 1, tileOf l.val),
            (3, 2, fillGap false ppm10), (5, 1, 0)])
            :: ((if 2048 ≤ (s.cmdAt (tileOf l.val)).tx.since then [ctlBlock (tileOf l.val) 0x1E (zeros 14)] else []) ++ s.out)))))) ∧
  (∀ s : State,
    (∀ slots : List Nat, s.trig.seq.run = true → s.runs .trg = true → s.nonHolder = false → s.pair.from_ = none →
      let soon (f : Nat) : Prop := f < 4 * s.part.sectors ∧ s.txRun f = true ∧ s.slotTooSoon f ((slots[f]?).getD 0) = true
      Does (.frameCommand slots) s (fun t =>
        t.trig.seq.nextN = (s.trig.seq.nextN + 1) % 2 ^ 32 ∧
        ((∃ f, soon f) → ∀ f kind c, Out.block f kind c ∈ t.out → Out.block f kind c ∈ s.out) ∧
        ((∀ f, ¬soon f) → ∀ f, f < 4 * s.part.sectors → s.txRun f = true →
          let bt := 4 * blockTime16 (s.txStep f)
          ∃ delta, 4 * bt ≤ delta ∧ delta < 5 * bt ∧
            ctlBlock f 0x66 (pack 14 [(0, 4, s.trig.seq.nextN), (4, 2, delta), (6, 1, (Config.frameFlags s.freeUse).toNat)]) ∈ t.out))) ∧
    (∀ f : Fin 48, s.lnkLive = true → 1 ≤ s.txStage f.val → s.txStage f.val ≤ 6 →
      Does (.fillInsert (.cmd f)) s (fun t => SameBut [.out, .cmd] s t ∧ t.out = ctlBlock f.val 0x1E (zeros 14) :: s.out ∧
        t.cmdAt f.val = { s.cmdAt f.val with tx := { (s.cmdAt f.val).tx with since := 0 } } ∧
        ∀ g, g ≠ f.val → t.cmdAt g = s.cmdAt g)) ∧
    (∀ m : Fin 8, 1 ≤ s.stage (.mir m) → s.stage (.mir m) ≤ 6 →
      Does (.fillInsert (.mir m)) s (fun t => SameBut [.out, .mirLanes] s t ∧ t.out = ctlBlock (48 + m.val) 0x1E (zeros 14) :: s.out ∧
        laneGet t (.mir m) = { laneGet s (.mir m) with tx := { (laneGet s (.mir m)).tx with since := 0 } })))

/-- Tile f is present and the device is out of reset. No access of it being in progress, GO on a follower or an orphan completes with
NOT_HOLDER, and on a command lane that is not in run with BAD_ARG; otherwise BUSY is set, the tag becomes the one after the last (never
0xFF) and one block CFGW (0x78, with address and data) or CFGR (0x87, with the address) leaves, behind a FILL where one is due. While an
access is in progress, the answer with its tag, on a live lane of the tile, ends it with DONE or BAD_ARG and, after a read, leaves the data
in LN_FEDATA; an answer with another tag counts as late on its lane; no answer in time ends it with TIMEOUT. The model's readings, log entry
23: NOT_HOLDER before BAD_ARG, the tag one more modulo 255, LN_FEDATA taking the data of a refused read. A checking lane locks on its own
pattern in loopback, or on a seed and 64 bits that follow from it under the polynomial; of 1,024 bits a locked one adds the wrong ones to
its saturating count, and is unlocked by more than 512. A written number n of inverted bits (1 to 255) falls, as a free value says (log
entry 19), into the next strip of a receive lane in run whose generator is off, or damages at most four blocks outside strips, which count;
it leaves at once on a command lane whose generator runs. While LNK is STARTING, RUNNING or STOPPING, the loss of the lane PLL puts it into
FAULT with code 1, of a transmit group's PLL with code 2, and every present receive lane is then in stage 0 with its lock clear. -/
def Obligations.LaneFrontEnd : Prop :=
  (∀ (s : State) (f : Fin 48), s.present (aCmd f.val 0x18) = true → s.inReset = false →
    let st := aCmd f.val 0x18
    (s.bit st 31 = false → s.nonHolder = true → Does (.feAccessGo f) s (fun t => t.fld st 23 16 = 9 ∧ t.bit st 31 = false ∧ t.out = s.out)) ∧
    (s.bit st 31 = false → s.nonHolder = false → s.txRun f.val = false →
      Does (.feAccessGo f) s (fun t => t.fld st 23 16 = 2 ∧ t.bit st 31 = false ∧ t.out = s.out)) ∧
    (s.bit st 31 = false → s.nonHolder = false → s.txRun f.val = true →
      let tag := ((s.cmdAt f.val).tag + 1) % 255
      let addr := s.fld (aCmd f.val 0x0C) 15 0
      Does (.feAccessGo f) s (fun t =>
        t.bit st 31 = true ∧ t.fld st 7 0 = tag ∧ tag ≠ 0xFF ∧ (t.cmdAt f.val).tag = tag ∧
        t.out = (if s.bit (aCmd f.val 0x0C) 31 = true
          then ctlBlock f.val 0x78 (pack 14 [(0, 1, tag), (1, 2, addr), (3, 4, s.reg (aCmd f.val 0x10))])
          else ctlBlock f.val 0x87 (pack 14 [(0, 1, tag), (1, 2, addr)]))
          :: ((if 2048 ≤ (s.cmdAt f.val).tx.since then [ctlBlock f.val 0x1E (zeros 14)] else []) ++ s.out))) ∧
    (s.bit st 31 = true → Does (.feAccessTimeout f) s (fun t => t.bit st 31 = false ∧ t.fld st 23 16 = 8 ∧ t.fld st 7 0 = s.fld st 7 0)) ∧
    (∀ (l : Fin 96) (tag status : Nat) (data : Nat), tileOf l.val = f.val → s.laneLive (.rx l) = true → tag < 255 → data < 2 ^ 32 →
      (s.bit st 31 = true → s.fld st 7 0 = tag → Does (.cfgaRx l tag status data) s (fun t =>
        t.bit st 31 = false ∧ t.fld st 23 16 = (if status = 0 then 0 else 2) ∧
        t.reg (aCmd f.val 0x10) = if (s.cmdAt f.val).isWrite = true then s.reg (aCmd f.val 0x10) else data)) ∧
      (¬(s.bit st 31 = true ∧ s.fld st 7 0 = tag) → s.present (aRx l.val oLATE) = true → Does (.cfgaRx l tag status data) s (fun t =>
        t.reg (aRx l.val oLATE) = min (s.reg (aRx l.val oLATE) + 1) 0xFFFFFFFF ∧ t.reg st = s.reg st)))) ∧
  (∀ s : State,
    (∀ (p : PrbsLane) (bs : List Bool), s.checking p = true →
      (s.prbsLoop p = true ∨ ((prbsTaps (s.prbsPoly p)).1 + 64 ≤ bs.length ∧ prbsFollows (s.prbsPoly p) bs = true)) →
      Does (.prbsLock ⟨p, bs⟩) s (fun t => t.prbsLocked p = true)) ∧
    (∀ (p : PrbsLane) (errors : Nat), s.checking p = true → s.prbsLocked p = true → s.present (prbsBase p + 8) = true →
      Does (.prbsReseed p errors) s (fun t =>
        (512 < errors → t.prbsLocked p = false) ∧ (errors ≤ 512 → t.prbsLocked p = true) ∧ t.reg (prbsBase p + 8) = min (s.reg (prbsBase p + 8) + errors) 0xFFFFFFFF)) ∧
    (∀ (n : Nat) (l : Fin 96), 0 < n → n < 256 → s.present (prbsBase (.rx l)) = true → s.bit (prbsBase (.rx l)) 29 = false →
      s.laneHears (.rx l) = true → s.stage (.rx l) = 6 → Does (.prbsInject n (.rx l)) s (fun t => SameBut [.freeUse, .regs, .rx] s t ∧
        t.freeUse = s.freeUse + 1 ∧
        (Config.injectStrip s.freeUse = true → t.regs = s.regs ∧ (t.rxAt l.val).inject = (s.rxAt l.val).inject ++ [n]) ∧
        (Config.injectStrip s.freeUse = false → t.rx = s.rx ∧
          ∃ k, k < 5 ∧ t.reg (aRx l.val oBLK) = min (s.reg (aRx l.val oBLK) + k) 0xFFFFFFFF))) ∧
    (∀ (n : Nat) (f : Fin 48), 0 < n → n < 256 → s.present (prbsBase (.tx f)) = true → s.bit (prbsBase (.tx f)) 29 = true →
      s.txStage f.val = 8 → Does (.prbsInject n (.tx f)) s (fun t => t.out = .invert f.val n :: s.out)) ∧
    (∀ (c : Instr) (code : Nat), (c = .lanePllLoss ∧ code = 1 ∨ c = .txGroupPllLoss ∧ code = 2) →
      (s.fnState .lnk = .starting ∨ s.fnState .lnk = .running ∨ s.fnState .lnk = .stopping) →
      Does c s (fun t => t.fnState .lnk = .fault ∧ (t.fn .lnk).faultCode = code ∧
        ∀ l : Fin 96, s.present (aRx l.val oSTAT) = true → t.stage (.rx l) = 0 ∧ t.bit (statOf (.rx l)) 18 = false)))

/-- Out of reset, on a present receive lane in run with no inverted bits waiting: a strip cut short, too short, or not a multiple of 16 bytes
counts as a header error; then a wrong CRC-32C of all but its last four bytes as a CRC error; then a header that fails its checks as a
header error. A whole strip whose SEQ is behind the next expected one, or held in deskew already, counts as late. Any other counts as a
strip while ING is RUNNING and as discarded otherwise. Exactly that counter rises by one, saturating, of the six. Only the last kind changes
anything but registers and the count of the free values used (the equaliser adapts to every strip, to a setting the spec does not state: log
entry 9). That a copy of a held strip is late, and the strips no row of R56 names, are the model's readings (log entry 20). A strip that
passes every check, on a tile of one lane, whose SEQ is the next expected one, while ING is RUNNING. It carries its header, its trailer, its
payload, the corrected stamp of its arrival at 312.5 ps and the epoch and flags then in force. With room for it and for a pending slag word
the queue gains the slag word, if one is pending, and then the strip; without, nothing joins the queue and the pending slag word takes up
the loss, with cause FULL; a strip that a flush met as it arrived is a loss of the flush's cause (log entry 26). Either way the next
expected SEQ is one more, modulo 65,536 (set at release: log entry 20), and the strip is the last released. The only strip a tile of two
lanes holds in deskew waits longer than DESKEW_WIN: it is held no more, the next expected SEQ becomes the one after it, and the strips
between the one expected and it count as lost on the lane it came on. -/
def Obligations.Strips : Prop :=
  (∀ (s : State) (l : Fin 96) (bytes : List Byte) (arrival : Nat) (cut : Bool),
    l.val < 8 * s.part.sectors → s.inReset = false → s.stage (.rx l) = 6 → (s.rxAt l.val).inject = [] →
    let short : Prop := bytes.length < 32 ∨ bytes.length % 16 ≠ 0
    let h := bytes.take 16
    let tr := bytes.drop (bytes.length - 16)
    let crcOk : Prop := crc32c (bytes.take (bytes.length - 4)) = fieldLE tr 12 4
    let hdrOk : Prop := headerOk l.val h tr ((bytes.length - 32) / 16) = true
    let tile := s.tileAt (tileOf l.val)
    let stale : Prop := ∃ nxt, tile.next = some nxt ∧ (seqBehind (fieldLE h 14 2) nxt = true ∨ ∃ x ∈ tile.held, x.seq = fieldLE h 14 2)
    let counts (off : Nat) (t : State) : Prop := ∀ o ∈ [oSTRIP, oLOST, oCRC, oHDR, oLATE, oDISC], o ≠ oLOST →
      t.reg (aRx l.val o) = if o = off then min (s.reg (aRx l.val o) + 1) 0xFFFFFFFF else s.reg (aRx l.val o)
    (cut = true → Does (.stripRx l bytes arrival cut) s (fun t => SameBut [.regs, .freeUse] s t ∧ counts oHDR t)) ∧
    (cut = false → short → Does (.stripRx l bytes arrival cut) s (fun t => SameBut [.regs, .freeUse] s t ∧ counts oHDR t)) ∧
    (cut = false → ¬short → ¬crcOk → Does (.stripRx l bytes arrival cut) s (fun t => SameBut [.regs, .freeUse] s t ∧ counts oCRC t)) ∧
    (cut = false → ¬short → crcOk → ¬hdrOk → Does (.stripRx l bytes arrival cut) s (fun t => SameBut [.regs, .freeUse] s t ∧ counts oHDR t)) ∧
    (cut = false → ¬short → crcOk → hdrOk → stale →
      Does (.stripRx l bytes arrival cut) s (fun t => SameBut [.regs, .freeUse] s t ∧ counts oLATE t)) ∧
    (cut = false → ¬short → crcOk → hdrOk → ¬stale →
      Does (.stripRx l bytes arrival cut) s (fun t => counts (if s.runs .ing = true then oSTRIP else oDISC) t))) ∧
  (∀ (s : State) (l : Fin 96) (bytes : List Byte) (arrival : Nat),
    l.val < 8 * s.part.sectors → s.inReset = false → s.stage (.rx l) = 6 → (s.rxAt l.val).inject = [] → s.runs .ing = true → s.paired (tileOf l.val) = false →
    32 ≤ bytes.length → bytes.length % 16 = 0 →
    let h := bytes.take 16
    let tr := bytes.drop (bytes.length - 16)
    crc32c (bytes.take (bytes.length - 4)) = fieldLE tr 12 4 → headerOk l.val h tr ((bytes.length - 32) / 16) = true →
    (s.tileAt (tileOf l.val)).next = some (fieldLE h 14 2) → (s.tileAt (tileOf l.val)).held = [] →
    let item : StripItem :=
      { lane := l.val, header := h, trailer := tr.take 12, payload := (bytes.drop 16).take (fieldLE tr 0 2),
        stamp := s.stampOf arrival res312 (sx 32 (s.reg (aRx l.val oSKEWC))), rel := (s.tileAt (tileOf l.val)).released,
        mark := s.stampMark }
    let q := s.queueAt l.val
    let need := 1 + cdiv (fieldLE tr 0 2) 64 + (if q.pend = none then 0 else 1)
    let kept (t : State) : Prop :=
      (t.tileAt (tileOf l.val)).next = some ((fieldLE h 14 2 + 1) % 65536) ∧ (t.tileAt (tileOf l.val)).pred = some item.ident
    let lost (w : Slag) : Slag := match q.pend with | some p => p.merge w | none => w
    (∀ c, s.overtaken l.val arrival = some c → Does (.stripRx l bytes arrival false) s (fun t =>
      kept t ∧ (t.queueAt l.val).items = q.items ∧ (t.queueAt l.val).pend = some (lost { lossOf l.val c item.ident with nFlush := 1 }))) ∧
    (s.overtaken l.val arrival = none → q.fill + need ≤ 2048 → Does (.stripRx l bytes arrival false) s (fun t =>
      kept t ∧ (t.queueAt l.val).items = q.items ++ (match q.pend with | some p => [.slag p] | none => []) ++ [.strip item] ∧
      (t.queueAt l.val).pend = none)) ∧
    (s.overtaken l.val arrival = none → 2048 < q.fill + need → Does (.stripRx l bytes arrival false) s (fun t =>
      kept t ∧ (t.queueAt l.val).items = q.items ∧ (t.queueAt l.val).pend = some (lost { lossOf l.val 1 item.ident with nFull := 1 })))) ∧
  (∀ (s : State) (f : Fin 48) (x : Held) (nxt : Nat),
    (s.tileAt f.val).held = [x] → (s.tileAt f.val).next = some nxt → x.item.lane < 8 * s.part.sectors → x.disc = false →
    x.seq < 65536 → nxt < 65536 →
    Does (.deskewTimeout (.tile f) x.seq) s (fun t =>
      (t.tileAt f.val).held = [] ∧ (t.tileAt f.val).next = some ((x.seq + 1) % 65536) ∧ (t.tileAt f.val).pred = some x.item.ident ∧
      t.reg (aRx x.item.lane oLOST) = min (s.reg (aRx x.item.lane oLOST) + (x.seq + 65536 - nxt) % 65536) 0xFFFFFFFF))

/-- FLUSH of a present queue while its function is not OFF leaves at most one slag word in it and nothing pending; an empty queue with
nothing pending and no open word stays empty. CLR_PEAK makes PEAK the fill. A drain that times out in STOPPING leaves every lane
queue empty or holding one slag word with cause DRAIN, if it held items (one event for the timers of all queues: log entry 26). Out of
reset another driver's level, and FORCE, show on the wired pin at once; a pin that becomes asserted counts. -/
def Obligations.QueueControls : Prop :=
  ∀ s : State,
    (∀ q : Fin 97, s.present (aQ q.val 0) = true → s.fnState (if q.val < 96 then .ing else .aux) ≠ .off →
      s.fnState (if q.val < 96 then .ing else .aux) ≠ .absent →
      Does (.queueFlush q) s (fun t => (t.queueAt q.val).pend = none ∧ (t.queueAt q.val).openWord = [] ∧
        (((s.queueAt q.val).items = [] ∧ (s.queueAt q.val).pend = none ∧ (s.queueAt q.val).openWord = []) → (t.queueAt q.val).items = []) ∧
        (¬((s.queueAt q.val).items = [] ∧ (s.queueAt q.val).pend = none ∧ (s.queueAt q.val).openWord = []) →
          ∃ w, (t.queueAt q.val).items = [.slag w] ∧ bitOf w.cause 2 = true))) ∧
    (∀ q : Fin 97, Does (.clrPeak q) s (fun t => SameBut [.queues] s t ∧
      t.queueAt q.val = { s.queueAt q.val with peak := (s.queueAt q.val).fill } ∧ ∀ p, p ≠ q.val → t.queueAt p = s.queueAt p)) ∧
    (s.fnState .ing = .stopping → Does .ingDrainTimeout s (fun t => ∀ q, q < 96 →
      ((s.queueAt q).items = [] → t.queueAt q = s.queueAt q) ∧
      ((s.queueAt q).items ≠ [] → ∃ w, (t.queueAt q).items = [.slag w] ∧ bitOf w.cause 5 = true ∧ (t.queueAt q).pend = none))) ∧
    (∀ (k : Fin 12) (asserted : Bool), s.inReset = false → k.val < s.part.sectors →
      Does (.bellowsPinChange k asserted) s (fun t => (t.bellowsAt k.val).ext = asserted ∧
        (t.bellowsAt k.val).pin = (s.blwDrive k.val || asserted) ∧
        t.reg (aBlw k.val 4) = (if (s.blwDrive k.val || asserted) = true ∧ (s.bellowsAt k.val).pin = false
          then min (s.reg (aBlw k.val 4) + 1) 0xFFFFFFFF else s.reg (aBlw k.val 4)))) ∧
    (∀ (k : Fin 12) (on : Bool), s.inReset = false → k.val < s.part.sectors → s.fnState .ing ≠ .off → s.fnState .ing ≠ .absent →
      Does (.blwForce k on) s (fun t => t.bit (aBlw k.val 0) 29 = on ∧ (on = true → (t.bellowsAt k.val).pin = true)))

/-- With ING and ANV RUNNING, an engine that the run image targets and that is not faulted, stopped or off, with fewer than three tokens
posted, a queue that holds items, and the next buffer in turn free: the copy starts into that buffer and the queue keeps its items.
Taking the buffers in turn is the model's choice (log entry 97). When it completes without error the item has
left the queue, the buffer holds it as posted, a token for the buffer stands last, the next buffer is the one after it, the latest
FRAME posted takes in the item's, ING_QOUT counts one, and the engine's memory does not show it yet; a word that cannot be
corrected in a strip frees the buffer again and counts in ING_QUE instead, and the strip has left the queue. -/
def Obligations.Dispatching : Prop :=
  ∀ (s : State) (l : Fin 96) (it : QItem) (rest : List QItem),
    l.val < 8 * s.part.sectors → s.runs .ing = true → s.runs .anv = true → (s.queueAt l.val).items = it :: rest →
    let g := s.engineAt l.val
    (∀ b, s.engineOn l.val = true → g.run ≠ .faulted → g.run ≠ .stopped → g.run ≠ .off → (s.queueAt l.val).copying = false →
      (s.queueAt l.val).drained = false → g.posted.length < 3 → g.freeBuf = some b →
      Does (.itemCopyStart l) s (fun t => SameBut [.queues, .engines] s t ∧
        t.queueAt l.val = { s.queueAt l.val with copying := true } ∧
        t.engineAt l.val = { g with bufs := g.bufs.setIfInBounds b .filling })) ∧
    (∀ b, (s.queueAt l.val).copying = true → g.findBuf (fun x => x = .filling) = some b →
      Does (.tokenPost l {}) s (fun t =>
        (t.queueAt l.val).items = rest ∧ (t.queueAt l.val).copying = false ∧
        (t.engineAt l.val).bufs[b]? = some (.posted it) ∧ (t.engineAt l.val).nextBuf = (b + 1) % 4 ∧
        (t.engineAt l.val).lastFrame = it.laterThan g.lastFrame ∧
        (t.engineAt l.val).posted = g.posted ++ [b] ∧ (t.engineAt l.val).proc.mem = g.proc.mem ∧
        t.reg (aQ l.val oQOUT) = min (s.reg (aQ l.val oQOUT) + 1) 0xFFFFFFFF) ∧
      (∀ (i : StripItem) (k : Nat), it = .strip i → k < it.words → Does (.tokenPost l { badWords := [k] }) s (fun t =>
        (t.queueAt l.val).items = rest ∧ (t.engineAt l.val).bufs[b]? = some .free ∧ (t.engineAt l.val).posted = g.posted ∧
        t.reg (aQ l.val oQUE) = min (s.reg (aQ l.val oQUE) + 1) 0xFFFFFFFF)))

/-- A word of major opcode 0x1A, on either profile: with FN 0 it runs without fault, step beyond one, flag or other effect, and Gd
becomes IMM16 times 65,536; with FN 1 Gd becomes its upper half joined with IMM16; FN from 2 to 31 decode to no instruction. Gd is a
register but G0, which holds no value. The two in two bundles leave any 32-bit constant in Gd. IMM16 stands in bits [20:5], Gd in
[25:21]. -/
def Obligations.SimmBuildsConstants : Prop :=
  ∀ (p : Proc) (vec : Bool) (pc next : Nat) (tok strip : Bool) (w gd imm : Nat),
    bits w 30 26 = 0x1A → bits w 25 21 = gd → bits w 20 5 = imm → 0 < gd →
    let runs (q : Proc) (upTo : Proc → Prop) : Prop := ∃ i, kdecode vec w = some i ∧
      (kexec q vec pc next tok strip i).fault = none ∧ (kexec q vec pc next tok strip i).cost = 1 ∧
      (kexec q vec pc next tok strip i).flags = 0 ∧ (kexec q vec pc next tok strip i).eff = .none ∧
      (kexec q vec pc next tok strip i).next = none ∧ upTo ((kexec q vec pc next tok strip i).upd q)
    let only (q r : Proc) : Prop := { r with g := q.g } = q ∧ ∀ n, n ≠ gd → r.sc n = q.sc n
    (bits w 4 0 = 0 → runs p (fun r => only p r ∧ (r.sc gd).toNat = imm * 65536)) ∧
    (bits w 4 0 = 1 → runs p (fun r => only p r ∧ r.sc gd = ((p.sc gd &&& 0xFFFF0000#32) ||| BitVec.ofNat 32 imm))) ∧
    (2 ≤ bits w 4 0 → kdecode vec w = none) ∧
    (∀ c : Word,
      let r := (kexec p vec pc next tok strip (.lih gd (c.toNat / 65536))).upd p
      ((kexec r vec pc next tok strip (.lil gd (c.toNat % 65536))).upd r).sc gd = c)

/-- A bundle of one instruction. Of VALU with two vector operands every lane that the predicate enables takes its function of the two lanes,
written below in integers, wrapping or saturating as the function does, and every other lane stays; add.ss that clips a lane sets SAT. vmac
adds the signed product to each enabled lane of the accumulator modulo 2^40; a sum out of range sets the accumulator's OV, or, with OVTRAP,
faults with cause 6. The saturating narrowing shifts the accumulator right and clips. vcmp sets exactly the enabled lanes whose relation
holds; plt the lanes below G. Memory stays. -/
def Obligations.KamoxVectors : Prop :=
  ∀ (s : State) (e : Fin 96),
    (∀ (op : VOp) (vd va vb pn : Nat), op ≠ .sel → op ≠ .mov → Computes s e (.valu op vd va (.v vb) pn) none (fun p q => p.mem = q.mem ∧
      (∀ i, i < 64 → (p.pred pn).getLsbD i = false → lane (q.vec vd) i = lane (p.vec vd) i) ∧
      (∀ i, i < 64 → (p.pred pn).getLsbD i = true →
        let a := lane (p.vec va) i
        let b := lane (p.vec vb) i
        let r := lane (q.vec vd) i
        match op with
        | .add => r = a + b
        | .sub => r = a - b
        | .addSs => r.toInt = clampI (-32768) 32767 (a.toInt + b.toInt)
        | .subSs => r.toInt = clampI (-32768) 32767 (a.toInt - b.toInt)
        | .addUs => (r.toNat : Int) = clampI 0 65535 ((a.toNat : Int) + b.toNat)
        | .subUs => (r.toNat : Int) = clampI 0 65535 ((a.toNat : Int) - b.toNat)
        | .min => r.toInt = min a.toInt b.toInt
        | .max => r.toInt = max a.toInt b.toInt
        | .minU => r.toNat = min a.toNat b.toNat
        | .maxU => r.toNat = max a.toNat b.toNat
        | .abs => r.toInt = min 32767 (a.toInt.natAbs : Int)
        | .neg => r.toInt = min 32767 (-a.toInt)
        | .absd => r.toNat = (a.toInt - b.toInt).natAbs
        | .and => r = a &&& b
        | .or => r = a ||| b
        | .xor => r = a ^^^ b
        | .andn => r = a &&& ~~~b
        | .sll => r.toNat = a.toNat * 2 ^ (b.toNat % 32) % 65536
        | .srl => r.toNat = a.toNat / 2 ^ (b.toNat % 32)
        | .sra => r.toInt = a.toInt / (2 ^ (b.toNat % 32) : Int)
        | .sel => True
        | .mov => True) ∧
      (op = .addSs → (q.ksr.getLsbD 5 = true ↔ p.ksr.getLsbD 5 = true ∨ ∃ i, i < 64 ∧ (p.pred pn).getLsbD i = true ∧
        ((lane (p.vec va) i).toInt + (lane (p.vec vb) i).toInt < -32768 ∨ 32767 < (lane (p.vec va) i).toInt + (lane (p.vec vb) i).toInt))))) ∧
    (∀ qd va vb pn : Nat,
      let p := (s.engineAt e.val).proc
      let sum (i : Nat) : Int := (lane (acc p qd) i).toInt + (lane (p.vec va) i).toInt * (lane (p.vec vb) i).toInt
      let beyond : Prop := ∃ i, i < 64 ∧ (p.pred pn).getLsbD i = true ∧ (sum i < -(2 ^ 39) ∨ 2 ^ 39 ≤ sum i)
      (beyond → p.ksr.getLsbD 15 = true → FaultsWith s e (.vmac (.mac false) qd va vb pn) 6) ∧
      ((beyond → p.ksr.getLsbD 15 = false) → Computes s e (.vmac (.mac false) qd va vb pn) none (fun p q => p.mem = q.mem ∧
        (∀ i, i < 64 → lane (acc q qd) i = if (p.pred pn).getLsbD i = true then BitVec.ofInt 40 (sum i) else lane (acc p qd) i) ∧
        (q.ksr.getLsbD qd = true ↔ p.ksr.getLsbD qd = true ∨ beyond)))) ∧
    (∀ vd qa sh pn : Nat, Computes s e (.vnar .ss vd qa sh pn) none (fun p q => p.mem = q.mem ∧ ∀ i, i < 64 →
      (lane (q.vec vd) i).toInt = if (p.pred pn).getLsbD i = true then clampI (-32768) 32767 ((lane (acc p qa) i).toInt / (2 ^ sh : Int))
        else (lane (p.vec vd) i).toInt)) ∧
    (∀ (rel : Rel) (pd va vb pn : Nat), 0 < pd → Computes s e (.vcmp rel false pd va (.v vb) pn) none (fun p q => p.mem = q.mem ∧ ∀ i, i < 64 →
      (q.pred pd).getLsbD i = ((p.pred pn).getLsbD i && relHolds rel (lane (p.vec va) i).toInt (lane (p.vec vb) i).toInt))) ∧
    (∀ pd gn : Nat, 0 < pd → Computes s e (.plt pd gn) none (fun p q => ∀ i, i < 64 →
      (q.pred pd).getLsbD i = decide (i < (p.sc gn).toNat)))

/-- A bundle of one instruction. A word load within the readable store, aligned, puts the word into Gd; a word store within the writable store
leaves its four bytes and every other byte as it was; out of bounds either faults with cause 3, else unaligned with cause 4. A unit vector
load leaves in each enabled lane the two bytes at its address; a unit vector store without modulo leaves the enabled lanes there and every
other byte as it was. A post-increment moves An. A branch goes on at its target exactly if its condition holds; call pushes the next address
and goes to its target, with 16 entries pushed it faults with cause 8, as ret does with none; ret goes to the top entry; loop counts LC down
and goes to its target until LC is 0. A bundle of one instruction. emit.frag with a strip's token held sends the first n lanes, n from 1 to
64 of Gn, cut to the format's width, behind the strip's staged pixels, closed with LAST or FLUSH, and goes on, or without room stalls with
them. emit.score with a token held is judged while TRG is RUNNING or STOPPING, which its comparator remembers, and stalls otherwise (log
entry 99). emit.preview writes an entry of n values to the preview ring, or, while HST is not RUNNING or the ring off, counts it as dropped.
put.aux leaves its value and the token's stamp in the slot; an unsent one that it replaces counts. Without the token each needs, every one
of them faults with cause 9. -/
def Obligations.KamoxMemoryAndStreams : Prop :=
  (∀ (s : State) (e : Fin 96),
    let p := (s.engineAt e.val).proc
    (∀ (gd an : Nat) (off : Bool) (imm : Int), 0 < gd →
      let a := if off = true then (((p.ea an : Int) + imm) % (2 ^ 32 : Int)).toNat else p.ea an
      (0x10000 ≤ a → a + 3 ≤ 0x3FFFF → a % 4 = 0 → Computes s e (.ld gd an 2 false off imm) none (fun p q => q.mem = p.mem ∧
        (q.sc gd).toNat = Memory.readLE p.mem a 4 ∧
        q.a[an]? = if off = true ∨ imm = 0 then p.a[an]? else (p.a[an]?).map (fun _ => p.postInc an imm))) ∧
      (0x10000 ≤ a → a + 3 ≤ 0x3FFFF → a % 4 ≠ 0 → FaultsWith s e (.ld gd an 2 false off imm) 4) ∧
      (a < 0x10000 ∨ 0x3FFFF < a + 3 → FaultsWith s e (.ld gd an 2 false off imm) 3)) ∧
    (∀ (gs an : Nat) (off : Bool) (imm : Int),
      let a := if off = true then (((p.ea an : Int) + imm) % (2 ^ 32 : Int)).toNat else p.ea an
      (0x14000 ≤ a → a + 3 ≤ 0x3EFFF → a % 4 = 0 → Computes s e (.st gs an 2 off imm) none (fun p q =>
        Memory.readLE q.mem a 4 = (p.sc gs).toNat ∧ (∀ b, b < a ∨ a + 4 ≤ b → Memory.get q.mem b = Memory.get p.mem b) ∧
        q.a[an]? = if off = true ∨ imm = 0 then p.a[an]? else (p.a[an]?).map (fun _ => p.postInc an imm))) ∧
      (0x14000 ≤ a → a + 3 ≤ 0x3EFFF → a % 4 ≠ 0 → FaultsWith s e (.st gs an 2 off imm) 4) ∧
      (a < 0x14000 ∨ 0x3EFFF < a + 3 → FaultsWith s e (.st gs an 2 off imm) 3)) ∧
    (∀ (vr an pn : Nat),
      let on (i : Nat) : Prop := i < 64 ∧ (p.pred pn).getLsbD i = true
      let at_ (i : Nat) : Nat := p.addr an (2 * (i : Int))
      ((∀ i, on i → 0x10000 ≤ at_ i ∧ at_ i + 1 ≤ 0x3FFFF ∧ at_ i % 2 = 0) → Computes s e (.vld .unit vr an pn 0) none (fun p q =>
        q.mem = p.mem ∧ q.a = p.a ∧
        ∀ i, i < 64 → (on i → (lane (q.vec vr) i).toNat = Memory.readLE p.mem (at_ i) 2) ∧ (¬on i → lane (q.vec vr) i = lane (p.vec vr) i))) ∧
      ((∀ i, on i → 0x14000 ≤ at_ i ∧ at_ i + 1 ≤ 0x3EFFF ∧ at_ i % 2 = 0) → Computes s e (.vst .unit vr an pn 0) none (fun p q =>
        q.a = p.a ∧ (∀ b, (∀ i, on i → b < at_ i ∨ at_ i + 2 ≤ b) → Memory.get q.mem b = Memory.get p.mem b) ∧
        ((p.am[an]?).getD 0 = 0 → ∀ i, on i → Memory.readLE q.mem (at_ i) 2 = (lane (p.vec vr) i).toNat)))) ∧
    (∀ (c : Cond) (ga gb : Nat) (off : Int),
      Computes s e (.br c ga gb off) (if condHolds p c ga gb = true then some (((p.pc : Int) + 4 * off) % (2 ^ 32 : Int)).toNat else none)
        (fun p q => q.mem = p.mem ∧ q.g = p.g ∧ q.stack = p.stack)) ∧
    (∀ k : Nat, (p.stack.length < 16 → Computes s e (.call k) (some k) (fun p q => q.stack = (p.pc + 4) % 65536 :: p.stack)) ∧
      (16 ≤ p.stack.length → FaultsWith s e (.call k) 8)) ∧
    (∀ a rest, p.stack = a :: rest → Computes s e .ret (some a) (fun _ q => q.stack = rest)) ∧
    (p.stack = [] → FaultsWith s e .ret 8) ∧
    (∀ target k : Nat, Computes s e (.loop target k) (if p.lc = 0 ∨ p.lc = 1 then none else some target)
      (fun p q => q.lc = (if p.lc = 0 then 0 else p.lc - 1) ∧
        q.rot = if p.lc = 0 ∨ p.lc = 1 ∨ k = 0 then p.rot else p.rot - BitVec.ofNat 5 k))) ∧
  (∀ (s : State) (e : Fin 96),
    let g := s.engineAt e.val
    let run (i : KInstr) (P : State → Prop) : Prop := IssuesOne s e i → Does (.bundleIssue (.eng e) .clean) s (fun t =>
      (t.engineAt e.val).proc.pc = g.proc.pc + 4 ∧ (t.engineAt e.val).bufs = g.bufs ∧ P t)
    (∀ (va gn : Nat) (last flush : Bool),
      let n := ((g.proc.sc gn).toNat + 63) % 64 + 1
      let xs (i : StripItem) : List Nat := (upTo n).map (fun k => (lane (g.proc.vec va) k).toNat % 2 ^ bitsOf i.fmt)
      (∀ i, g.heldStrip = some i → s.stagingRoom e.val (packedLen i.fmt n) = true → run (.emitFrag va gn last flush) (fun t =>
        (t.engineAt e.val).run = .exec ∧ ∃ f, (t.stagingAt e.val).getLast? = some f ∧ f.rel = i.rel ∧ f.flush = flush ∧
          (last = true ∨ flush = true → f.closed = true) ∧ xs i <:+ f.pixels)) ∧
      (∀ i, g.heldStrip = some i → s.stagingRoom e.val (packedLen i.fmt n) = false → run (.emitFrag va gn last flush) (fun t =>
        (t.engineAt e.val).run = .stalled (.frag (xs i) last flush) ∧ t.staging = s.staging)) ∧
      (g.heldStrip = none → FaultsWith s e (.emitFrag va gn last flush) 9)) ∧
    (∀ gs n : Nat,
      (g.held.isSome = true → s.trgLive = true → run (.emitScore gs n) (fun t =>
        (t.engineAt e.val).run = .exec ∧ (n * 96 + e.val, (g.proc.sc gs).toInt) ∈ t.trig.prev)) ∧
      (g.held.isSome = true → s.trgLive = false → run (.emitScore gs n) (fun t =>
        (t.engineAt e.val).run = .stalled (.score n (g.proc.sc gs).toInt) ∧ t.trig = s.trig)) ∧
      (g.held.isSome = false → FaultsWith s e (.emitScore gs n) 9)) ∧
    (∀ va gn : Nat,
      let size := 2 ^ s.fld aPvCfg 20 16
      let tail := s.reg aPvTail
      (g.heldStrip.isSome = true → s.runs .hst = false ∨ s.bit aPvCfg 31 = false → run (.emitPreview va gn) (fun t =>
        t.out = s.out ∧ t.reg (aEng e.val 0x28) = min (s.reg (aEng e.val 0x28) + 1) 0xFFFFFFFF)) ∧
      (g.heldStrip.isSome = true → s.runs .hst = true → s.bit aPvCfg 31 = true → s.fld aPvCfg 9 0 = 0 →
        (tail + 2 ^ 32 - s.reg aPvHead) % 2 ^ 32 < size → run (.emitPreview va gn) (fun t =>
          t.reg aPvTail = (tail + 1) % 2 ^ 32 ∧ t.reg (aEng e.val 0x28) = s.reg (aEng e.val 0x28) ∧
          ∃ b, b.length = 144 ∧ Out.hostWrite (s.fld aPvCfg 30 30) (s.reg64 aPvBase + 144 * (tail % size)) b ∈ t.out)) ∧
      (g.heldStrip = none → FaultsWith s e (.emitPreview va gn) 9)) ∧
    (∀ gs m : Nat,
      (g.held.isSome = true → run (.putAux gs m) (fun t => t.slots[m]? = some (some (g.proc.sc gs, g.tokenStamp)) ∧
        (∀ k, k ≠ m → t.slots[k]? = s.slots[k]?) ∧
        t.reg (aEng e.val 0x2C) = if ((s.slots[m]?).getD none).isSome = true then min (s.reg (aEng e.val 0x2C) + 1) 0xFFFFFFFF
          else s.reg (aEng e.val 0x2C))) ∧
      (g.held.isSome = false → FaultsWith s e (.putAux gs m) 9)))

/-- An engine of a present sector executes while ANV lets engines run. A bundle that faults leaves the engine faulted, its buffers
and its tokens with their strips alone, which wait for the dispatcher (log entry 32), cause, slot and pc in ANV_EFAULT and its bit in the sector's fault mask. A bundle without effect outside the processor,
no item waiting in its queue, leaves the processor after it, its own address kept, and the engine executing, and adds the bundle's cost to the token's steps. A
bundle that executes wait.strip leaves the engine waiting with its step count clear and the held buffer free, or stopped where ANV
stops and no token waits. -/
def Obligations.EngineBundle : Prop :=
  ∀ (s : State) (e : Fin 96) (ecc : LsEcc),
    e.val < 8 * s.part.sectors → (s.engineAt e.val).run = .exec → s.anvLive = true →
    let g := s.engineAt e.val
    let cap := if g.held.isSome = true then some (s.stepCap e.val - g.steps) else none
    let out := runBundle g.proc true 0x10000 g.held.isSome g.heldStrip.isSome cap (ecc = .badFetch) (ecc = .badData)
    (∀ cause slot : Nat, out = .fault cause slot → Does (.bundleIssue (.eng e) ecc) s (fun t =>
      (t.engineAt e.val).run = .faulted ∧ (t.engineAt e.val).bufs = g.bufs.map Buf.strips ∧
      (t.engineAt e.val).posted = g.posted.filter (fun b => match g.bufItem b with | some (.strip _) => true | _ => false) ∧
      t.reg (aEng e.val 0x08) = (cause * 2 ^ 28 + slot * 2 ^ 26 + g.proc.pc % 65536) % 2 ^ 32 ∧
      t.reg (aEng e.val 0x0C) = g.faultFrame % 2 ^ 32 ∧ t.bit (secBase (e.val / 8) + 0x2400) (e.val % 8) = true)) ∧
    (∀ (p : Proc) (cost : Nat), out = .done p cost .none false → (s.queueAt e.val).items = [] →
      Does (.bundleIssue (.eng e) ecc) s (fun t =>
        t.engineAt e.val = { g with proc := p, bundle := g.proc.pc, steps := if g.held.isSome = true then g.steps + cost else g.steps } ∧
        SameBut [.engines, .regs] s t)) ∧
    (∀ (p : Proc) (cost gd : Nat), out = .done p cost (.waitStrip gd) false → Does (.bundleIssue (.eng e) ecc) s (fun t =>
      (t.engineAt e.val).proc = p ∧ (t.engineAt e.val).steps = 0 ∧
      (t.engineAt e.val).run = (if s.fnState .anv = .stopping ∧ g.posted = [] then .stopped else .waitStrip gd) ∧
      (t.engineAt e.val).bufs = match g.held with | some (b, _) => g.bufs.setIfInBounds b .free | none => g.bufs))

/-- A supervisor core that executes. A bundle without effect outside the core leaves the processor after it and the core executing. A wait.event
with a well-placed buffer makes it wait, with or without a limit as Gb says. A bundle that faults: of core 0, the whole device is reset; of
core 1, it stops and BGS, if it is STARTING, RUNNING or STOPPING, is in FAULT with code 1; of core 2 or 3, it stops, and nothing but the
core and the log changes. A fence ends, and nothing else changes. A keyed post that stalled proceeds once every engine it names has fewer
than 64 posts waiting: it stands last in the list of each named engine that is not faulted and has seen no frame yet, and the core executes.
The next log entry reaches a core that waits for it: its 32 bytes stand at the buffer and Gd reads DONE. A limit that expires leaves TIMEOUT
in Gd, and the entry for the next wait. A service that has been answered leaves the reply in place of the request and its status in Gd. Each
leaves the core executing. Gd is a register but G0. -/
def Obligations.CoresRun : Prop :=
  (∀ (s : State) (c : Fin 4) (ecc : LsEcc),
    (s.coreAt c.val).run = .exec →
    let g := s.coreAt c.val
    let out := runBundle g.proc false 0x40000 false false none (ecc = .badFetch) (ecc = .badData)
    (∀ (p : Proc) (cost : Nat), out = .done p cost .none false → Does (.bundleIssue (.core c) ecc) s (fun t =>
      t.coreAt c.val = { g with proc := p } ∧ SameBut [.cores] s t)) ∧
    (∀ (p : Proc) (cost gd ga gb : Nat), out = .done p cost (.waitEvent gd ga gb) false →
      coreBlock (g.proc.sc ga).toNat 32 = true → Does (.bundleIssue (.core c) ecc) s (fun t =>
        t.coreAt c.val = { g with proc := p, run := .waitEvent gd (g.proc.sc ga).toNat (decide ((g.proc.sc gb).toNat ≠ 0)) } ∧
        SameBut [.cores] s t)) ∧
    (∀ cause slot : Nat, out = .fault cause slot →
      (c.val = 0 → Does (.bundleIssue (.core c) ecc) s (fun t =>
        t.sys.boot = .held ∧ t.hearth.mem = [] ∧ t.nvs = s.nvs ∧ ∀ f, t.fnState f = if s.fnState f = .absent then .absent else .off)) ∧
      (c.val = 1 → Does (.bundleIssue (.core c) ecc) s (fun t => (t.coreAt 1).run = .stopped ∧ t.bgs.meas = [] ∧
        t.fn .bgs = if s.fnState .bgs = .starting ∨ s.fnState .bgs = .running ∨ s.fnState .bgs = .stopping
          then { s.fn .bgs with state := .fault, faultCode := 1 } else s.fn .bgs)) ∧
      (2 ≤ c.val → Does (.bundleIssue (.core c) ecc) s (fun t =>
        (t.coreAt c.val).run = .stopped ∧ (t.coreAt c.val).proc = g.proc ∧ SameBut [.cores, .tb] s t)))) ∧
  (∀ s : State,
    (∀ p : ProcId, s.procRun p = .fence → Does (.fenceComplete p) s (fun t => t.procRun p = .exec ∧ SameBut [.engines, .cores] s t)) ∧
    (∀ (c : Fin 4) (addr mask ls value key : Nat), (s.coreAt c.val).run = .postStall addr mask ls value key →
      (∀ e, e < 96 → bitOf mask e = true → (s.engineAt e).posts.length < 64) →
      Does (.postLsResume c) s (fun t => (t.coreAt c.val).run = .exec ∧
        ∀ e, e < 96 → bitOf mask e = true → (s.engineAt e).run ≠ .faulted → (s.engineAt e).lastFrame = none →
          (t.engineAt e).posts = (s.engineAt e).posts ++ [{ id := s.postSeq, key := key, addr := ls, value := value }])) ∧
    (∀ (c : Fin 4) (gd addr : Nat) (limited : Bool), 0 < gd → gd < 32 → (s.coreAt c.val).run = .waitEvent gd addr limited →
      (s.eventReady c.val = true → Does (.waitEventReturn c) s (fun t =>
        SameBut [.cores] s t ∧ (t.coreAt c.val).run = .exec ∧ (t.coreAt c.val).nextSeq = (s.eventFor c.val).2 ∧
        (t.coreAt c.val).proc.sc gd = 0 ∧
        (t.coreAt c.val).proc.mem = Memory.write (s.coreAt c.val).proc.mem addr (s.eventFor c.val).1)) ∧
      (limited = true → Does (.waitEventTimeout c) s (fun t =>
        SameBut [.cores] s t ∧ (t.coreAt c.val).run = .exec ∧ (t.coreAt c.val).nextSeq = (s.coreAt c.val).nextSeq ∧
        (t.coreAt c.val).proc.sc gd = 8 ∧ (t.coreAt c.val).proc.mem = (s.coreAt c.val).proc.mem))) ∧
    (∀ (c : Fin 4) (gd addr status : Nat) (b : List Byte), 0 < gd → gd < 32 → (s.coreAt c.val).run = .sys gd addr →
      (s.coreAt c.val).reply = some (b, status) → Does (.sysComplete c) s (fun t =>
        SameBut [.cores] s t ∧ (t.coreAt c.val).run = .exec ∧ (t.coreAt c.val).reply = none ∧
        (t.coreAt c.val).proc.sc gd = BitVec.ofNat 32 status ∧
        (t.coreAt c.val).proc.mem = Memory.write (s.coreAt c.val).proc.mem addr b)))

/-- With ANV RUNNING, an engine that waits takes the token posted first: its buffer is held, the token's address (plus one for a slag word)
stands in Gd, the item stands at that address, its steps start at 0 and it executes; strips and slag words count apart. An emission that
stalled for want of room enters the staging once there is room, behind the strip's pixels, and the engine executes. A STOPPING that takes
too long leaves no engine running. In any state of ANV, for a faulted engine the dispatcher passes on, whole and flagged, first the strips
in the engine's buffers, which it frees, then the front strip of its queue. ANV_STOP_TIMEOUT while ANV is STOPPING: every engine of the
present sectors is stopped, off or faulted, no queue's item is being copied, and no engine that was not stopped or off before holds a
buffer. Functions and registers stay. -/
def Obligations.EngineTokens : Prop :=
  (∀ (s : State) (e : Fin 96), e.val < 8 * s.part.sectors →
    let g := s.engineAt e.val
    (∀ (gd b : Nat) (rest : List Nat) (it : QItem), s.runs .anv = true → gd < 32 → g.run = .waitStrip gd → g.posted = b :: rest → g.bufItem b = some it →
      Does (.waitStripReturn e) s (fun t =>
        (t.engineAt e.val).bufs[b]? = some (.held it) ∧ (t.engineAt e.val).posted = rest ∧ (t.engineAt e.val).run = .exec ∧
        (t.engineAt e.val).steps = 0 ∧
        Memory.read (t.engineAt e.val).proc.mem (0x10000 + 0x1000 * b) it.image.length = it.image ∧
        (0 < gd → (t.engineAt e.val).proc.sc gd
          = BitVec.ofNat 32 (0x10000 + 0x1000 * b + (match it with | .strip _ => 0 | _ => 1))) ∧
        t.reg (aEng e.val 0x20) = (match it with
          | .strip _ => min (s.reg (aEng e.val 0x20) + 1) 0xFFFFFFFF | _ => s.reg (aEng e.val 0x20)) ∧
        t.reg (aEng e.val 0x24) = (match it with
          | .strip _ => s.reg (aEng e.val 0x24) | _ => min (s.reg (aEng e.val 0x24) + 1) 0xFFFFFFFF))) ∧
    (∀ (xs : List Nat) (last flush : Bool) (i : StripItem), g.run = .stalled (.frag xs last flush) → g.heldStrip = some i →
      s.stagingRoom e.val (packedLen i.fmt xs.length) = true →
      Does (.emitAccepted e) s (fun t => (t.engineAt e.val).run = .exec ∧
        ∃ f, (t.stagingAt e.val).getLast? = some f ∧ f.rel = i.rel ∧ f.flush = flush ∧
          (xs.map (· % 2 ^ bitsOf i.fmt)) <:+ f.pixels)) ∧
    (∀ (b : Nat) (i : StripItem), g.run = .faulted → g.leftStrip = some (b, i) → s.stagingRoom e.val i.payload.length = true →
      Does (.bypassDispatch e {}) s (fun t => SameBut [.engines, .staging] s t ∧ t.engineAt e.val = g.release b ∧
        ∃ f, t.stagingAt e.val = s.stagingAt e.val ++ [f] ∧ f.rel = i.rel ∧ f.efault = true ∧ f.closed = true ∧ f.final = true)) ∧
    (∀ (i : StripItem) (rest : List QItem), g.run = .faulted → g.leftStrip = none → s.runs .ing = true → (s.queueAt e.val).items = .strip i :: rest →
      (s.queueAt e.val).drained = false → s.stagingRoom e.val i.payload.length = true →
      Does (.bypassDispatch e {}) s (fun t => (t.queueAt e.val).items = rest ∧
        t.reg (aQ e.val oQOUT) = min (s.reg (aQ e.val oQOUT) + 1) 0xFFFFFFFF ∧
        ∃ f, t.stagingAt e.val = s.stagingAt e.val ++ [f] ∧ f.rel = i.rel ∧ f.efault = true ∧ f.closed = true ∧ f.final = true))) ∧
  (∀ s : State, s.fnState .anv = .stopping → Does .anvStopTimeout s (fun t =>
    SameBut [.tb, .order, .queues, .engines, .hearth, .mem, .staging] s t ∧
    (∀ l, l < 96 → (t.queueAt l).copying = false) ∧
    ∀ e, e < 8 * s.part.sectors →
      ((t.engineAt e).run = .stopped ∨ (t.engineAt e).run = .off ∨ (t.engineAt e).run = .faulted) ∧
      ((s.engineAt e).run ≠ .stopped → (s.engineAt e).run ≠ .off →
        (t.engineAt e).bufs = Vector.replicate 4 .free ∧ (t.engineAt e).posted = [])))

/-- Firmware serves the command. A follower answers NOT_HOLDER. An image that passes its checks waits until every woken sector has been
measured, and nothing changes until then. An image that fails a check is answered with that check's status, and the
image kept, the engines, the cores and the functions stay. An image that passes, and whose sectors are fast enough for its schedule, is
kept, each engine of the present sectors is enabled exactly if the image names it, cores 2 and 3 execute from their entry addresses or
are stopped where the image gives none, and the answer is DONE. -/
def Obligations.LoadRunImage : Prop :=
  ∀ (s : State) (src : Src) (meas : List (Nat × Nat)) (c : FwCmd), s.fwFront src 0x10 = some c →
    let addr := c.arg64 0
    let len := c.arg 2
    let img := if addr + len ≤ 0x04000000 ∧ addr + len ≤ s.capacity then s.hread addr len else []
    let slow : Prop := hasSection img 0x20 = true ∧ paceFail img (imgTargets img) (s.pCheckWith img meas) ≠ none
    (s.follower = true → Does (.loadRunImage src ⟨[], [], []⟩ meas) s (fun t => Replied s t c 9 ∧ SameBut [.host, .cores, .out] s t)) ∧
    (s.follower = false → s.loadStatus img addr len false ≠ 0 → Does (.loadRunImage src ⟨[], [], []⟩ meas) s (fun t =>
      Replied s t c (s.loadStatus img addr len false) ∧ SameBut [.host, .cores, .out] s t)) ∧
    (s.follower = false → s.loadStatus img addr len false = 0 → s.measured meas = false →
      Does (.loadRunImage src ⟨[], [], []⟩ meas) s (fun t => t = s)) ∧
    (s.follower = false → s.loadStatus img addr len false = 0 → s.measured meas = true → slow → Does (.loadRunImage src ⟨[], [], []⟩ meas) s (fun t =>
      Replied s t c 0x0A ∧ t.kept = s.kept ∧ t.engines = s.engines)) ∧
    (s.follower = false → s.loadStatus img addr len false = 0 → s.measured meas = true → ¬slow → Does (.loadRunImage src ⟨[], [], []⟩ meas) s (fun t =>
      Replied s t c 0 ∧ t.kept = some img ∧ t.keptBad = false ∧
      (∀ e, e < 8 * s.part.sectors → t.bit (aEng e 0) 31 = (imgTargets img).contains e) ∧
      ∀ k, k = 2 ∨ k = 3 →
        let entry := fieldLE img (8 + 4 * k) 4
        (entry = 0xFFFFFFFF → (t.coreAt k).run = .stopped) ∧
        (entry ≠ 0xFFFFFFFF → (t.coreAt k).run = .exec ∧ (t.coreAt k).proc.pc = entry)))

/-- CMP live. The next block of compressor k is coded when its reservation fits in 65,536 bytes (RAW in the compressor's fault, else as its
tile's coding says) and otherwise nothing changes. The oldest coded block is ready when it is RAW or verified without error; else it is
rebuilt RAW, marked so, the mismatch counts, and the compressor is in its fault once the limit is reached. The oldest ready block is
committed when Hearth takes its bytes, and else waits with HSTALL; a block that waits is offered again on resume. -/
def Obligations.CompressorBlocks : Prop :=
  ∀ (s : State) (k : Fin 12) (b : Block) (rest : List Block), s.cmpLive = true →
    let c := s.compAt k.val
    (c.waiting = b :: rest → c.inUse + b.reserve ≤ 65536 → Does (.blockCodingStart k) s (fun t =>
      SameBut [.regs, .comps] s t ∧ t.compAt k.val = { c with waiting := rest, coding := c.coding ++
        [if c.cfault = true then b.raw else b.code (s.tileCoding b.tile).1 (s.tileCoding b.tile).2.1 (s.tileCoding b.tile).2.2] })) ∧
    (c.waiting = b :: rest → 65536 < c.inUse + b.reserve → Changes [] (.blockCodingStart k) s) ∧
    (c.coding = b :: rest → (b.kind = 1 ∨ b.verify = true) → Does (.blockVerifyDone k false) s (fun t =>
      SameBut [.comps] s t ∧ t.compAt k.val = { c with coding := rest, ready := c.ready ++ [b] })) ∧
    (∀ bad : Bool, c.coding = b :: rest → b.kind ≠ 1 → (b.verify = false ∨ bad = true) → Does (.blockVerifyDone k bad) s (fun t =>
      let limit := s.fld (aCmp k.val 0x10) 15 0
      t.compAt k.val = { c with coding := rest, ready := c.ready ++ [{ b with vraw := true }.raw], mismatches := c.mismatches + 1,
                                cfault := c.cfault || (decide (limit ≠ 0) && decide (limit ≤ c.mismatches + 1)) })) ∧
    (∀ cmd : Instr, (cmd = .blockCommit k ∧ c.hstall = false ∨ cmd = .hearthWriteResume k ∧ c.hstall = true) → c.ready = b :: rest →
      (s.acceptBytes b.tile b.frame b.bytes ≠ none → Does cmd s (fun t =>
        (t.compAt k.val).ready = rest ∧ (t.compAt k.val).hstall = false)) ∧
      (s.acceptBytes b.tile b.frame b.bytes = none → Does cmd s (fun t =>
        SameBut [.comps] s t ∧ t.compAt k.val = { c with hstall := true })))

/-- CMP RUNNING, no ended block of tile f waiting, the fragment g at the head of engine e's staging next in the tile's order. It leaves the
staging, no other engine's changes, and if it is the last of its strip the strip leaves the release order. Late, it leaves the compressors
as they were. On time, without flush, on a tile with no open block, with fewer pixels than a block holds, it opens a block of its frame and
format that holds exactly its pixels. HRT RUNNING. A slot write that waited proceeds for the only open frame, all of whose used tile-frames
have closed, when it belongs to the armed ring and its slot is free: the frame leaves the open frames, joins the ring with that slot, and
the next frame takes the slot after it. The timer of a used tile's next tile-frame, one that never opened, makes it the last that closed on
the tile, while nothing holds the timer back (tileStalled is false). -/
def Obligations.FrameFormation : Prop :=
  (∀ (s : State) (f : Fin 48) (e : Nat) (g : Fragment),
    s.runs .cmp = true → (∀ b ∈ (s.compAt (f.val / 4)).waiting, b.tile ≠ f.val) → s.nextFragment f.val = some (e, g) → g.tile = f.val →
    Does (.fragmentEnterStream f) s (fun t =>
      t.stagingAt e = (s.stagingAt e).erase g ∧ (∀ d, d ≠ e → t.stagingAt d = s.stagingAt d) ∧
      t.order = (if g.final = true then (s.settle f.val g.rel).order else s.order) ∧
      (s.tfLate f.val g.frame = true → t.comps = s.comps) ∧
      (s.tfLate f.val g.frame = false → s.openBlockOf f.val = none → g.flush = false → 0 < g.pixels.length →
        g.pixels.length < pMax g.fmt →
        ∃ b, t.openBlockOf f.val = some b ∧ b.pixels = g.pixels ∧ b.tile = f.val ∧ b.frame = g.frame ∧ b.fmt = g.fmt))) ∧
  (∀ s : State, s.runs .hrt = true →
    (∀ (a : Active) (fr : Frame), s.hearth.slotWait = true → s.hearth.act = some a → a.post = none → s.hearth.opens = [fr] →
      s.allClosed fr = true → s.inRing a fr.n = true → fr.lost = false →
      let i := (s.segAt a.seg).mbase + a.slots % (max (s.segAt a.seg).mslots 1)
      (∀ x ∈ s.hearth.ring, x.slot ≠ i) →
      Does .slotWriteResume s (fun t =>
        t.hearth.slotWait = false ∧ t.hearth.opens = [] ∧ t.hearth.act = some { a with slots := a.slots + 1 } ∧
        ∃ x, t.hearth.ring = s.hearth.ring ++ [x] ∧ x.n = fr.n ∧ x.slot = i)) ∧
    (∀ (f : Fin 48) (n : Nat) (fr : Frame), n < 2 ^ 32 → s.usedTile f.val = true → s.tfTurn f.val n = true → s.openFrame? n = some fr →
      s.tileStalled f.val = false → (fr.tf f.val).opened = false → (fr.tf f.val).closed = false →
      Does (.tileFrameTimeout f n) s (fun t => sget 0x100000000 t.hearth.tileDone f.val = n)))

/-- RELEASE of a CLOSED segment through HRT_SEGCMD, on a device that is no follower, leaves it EMPTY without a record, and any other
segment, and a segment that is not CLOSED, as it was. The end of the writes after a QUENCH clears FLUSHING. With Temper running and no
post-trigger window open and no other service step in progress a scrub step records its progress, and in the middle of a pass it counts a
corrected word on the word's channel, an uncorrectable word of the kept image makes that copy unusable (log entry 88, as the place of
that image: the model's choice), a tile-frame that fails its CRC counts. -/
def Obligations.ReleaseQuenchScrub : Prop :=
  ∀ s : State,
    (s.follower = false → Does .segcmdRelease s (fun t =>
      let seg := s.fld (HRT + 0x10) 5 0
      SameBut [.out, .field, .hearth, .trig, .pair] s t ∧
      ∀ i, i < 64 → t.segAt i = if i = seg ∧ (s.segAt seg).phase = .closed
        then { s.segAt i with phase := .empty, record := none } else s.segAt i)) ∧
    (s.bit (HRT + 4) 31 = true → Does .quenchSlotWritesDone s (fun t => t.bit (HRT + 4) 31 = false)) ∧
    (∀ prog : Fin 65536, s.temper = true → s.inPost = false → s.svcBusy = false → s.bgs.scrubProg ≤ prog.val →
      Does (.scrubStep .clean prog) s (fun t => SameBut [.bgs] s t ∧ t.bgs.scrubProg = prog.val) ∧
      (∀ a : Nat, s.present (MEM + 0x200 + 4 * s.channelOf a) = true → Does (.scrubStep (.single a) prog) s (fun t =>
        SameBut [.bgs, .regs] s t ∧
        t.reg (MEM + 0x200 + 4 * s.channelOf a) = min (s.reg (MEM + 0x200 + 4 * s.channelOf a) + 1) 0xFFFFFFFF)) ∧
      (∀ a : Nat, 0x09001000 ≤ a → a < 0x10000000 → Does (.scrubStep (.uncorrectable a) prog) s (fun t => t.keptBad = true)) ∧
      (∀ slot tile : Nat, Does (.scrubStep (.crc slot tile) prog) s (fun t =>
        t.reg (HRT + 0x114) = min (s.reg (HRT + 0x114) + 1) 0xFFFFFFFF)))

/-- Firmware serves the command. On a follower ARM and DISARM answer NOT_HOLDER and arm nothing. Elsewhere an ARM first fails the trigger's
checks (BAD_ARG), or those of Hearth where a segment is active; then it waits until every woken sector has been measured (R448) and nothing
changes; then it fails the pace (PACE), the checks of Hearth, or those its partner answered if it is a holder: then no segment is armed.
Where all pass it answers DONE, the segment is ARMED, its first frame the oldest open one of this epoch that still takes data and else the
next, counted from 0 where an image was loaded (log entry 36), the sequencer runs, and a pending re-arm is dropped (log entry 52; both the
model's choice). DISARM answers DONE, stops the sequencer, cancels a pending re-arm, and a segment that was ARMED is EMPTY and none is
active. On a device that is no follower and has a re-arm pending: when the next segment passes the checks of trigger and of Hearth it is
ARMED with the first frame that closes from then on, and nothing is pending any more; when it fails one of them no segment is armed and
nothing is pending any more. -/
def Obligations.ArmDisarmRearm : Prop :=
  (∀ (s : State) (src : Src) (c : FwCmd),
    (∀ (meas : List (Nat × Nat)) (partner : ArmCheck), s.fwFront src 0x11 = some c →
      let seg := c.arg 0 % 64
      (s.follower = true → Does (.arm src meas partner) s (fun t => Replied s t c 9 ∧ t.hearth = s.hearth ∧ t.trig = s.trig)) ∧
      (s.follower = false → s.armCheckTrg seg = false → Does (.arm src meas partner) s (fun t =>
        Replied s t c 2 ∧ t.hearth = s.hearth ∧ t.trig = s.trig)) ∧
      (s.follower = false → s.armCheckTrg seg = true → s.segActive = true → Does (.arm src meas partner) s (fun t =>
        Replied s t c (s.armCheckHrt seg) ∧ t.hearth = s.hearth ∧ t.trig = s.trig)) ∧
      (s.follower = false → s.armCheckTrg seg = true → s.segActive = false → s.measured meas = false →
        Changes [] (.arm src meas partner) s) ∧
      (s.follower = false → s.armCheckTrg seg = true → s.segActive = false → s.measured meas = true →
        (s.paceRefusal meas ≠ none → Does (.arm src meas partner) s (fun t =>
          Replied s t c 0x0A ∧ t.hearth = s.hearth ∧ t.trig = s.trig)) ∧
        (s.paceRefusal meas = none → s.armCheckHrt seg ≠ 0 → Does (.arm src meas partner) s (fun t =>
          Replied s t c (s.armCheckHrt seg) ∧ t.hearth = s.hearth ∧ t.trig = s.trig)) ∧
        (s.paceRefusal meas = none → s.armCheckHrt seg = 0 → s.role = roHOLDER → partner.status ≠ 0 →
          Does (.arm src meas partner) s (fun t => Replied s t c partner.status ∧ t.hearth = s.hearth ∧ t.trig = s.trig)) ∧
        (s.paceRefusal meas = none → s.armCheckHrt seg = 0 → (s.role = roHOLDER → partner.status = 0) →
          Does (.arm src meas partner) s (fun t =>
            Replied s t c 0 ∧ (t.segAt seg).phase = .armed ∧ (t.segAt seg).record = none ∧ t.trig.rearm = none ∧
            (∃ a, t.hearth.act = some a ∧ a.seg = seg ∧ a.post = none ∧
              a.f0 = if s.trig.seq.run = false ∧ s.trig.seq.renumber = true then 0 else s.nextToClose) ∧
            t.hearth.ring = [] ∧ t.trig.seq.run = true)))) ∧
    (s.fwFront src 0x12 = some c →
      (s.follower = true → Does (.disarm src) s (fun t => Replied s t c 9 ∧ t.hearth = s.hearth ∧ t.trig = s.trig)) ∧
      (s.follower = false → Does (.disarm src) s (fun t =>
        Replied s t c 0 ∧ t.trig.seq.run = false ∧ t.trig.rearm = none ∧
        ∀ a, s.hearth.act = some a → a.post = none → t.hearth.act = none ∧ (a.seg < 64 → (t.segAt a.seg).phase = .empty))))) ∧
  (∀ (s : State) (closed next : Nat), s.trig.rearm = some (closed, next) → s.follower = false → next < 64 →
    (s.armCheckTrg next = true → s.armCheckHrt next = 0 → Does .rearm s (fun t => t.trig.rearm = none ∧ (t.segAt next).phase = .armed ∧
      ∃ a, t.hearth.act = some a ∧ a.seg = next ∧ a.post = none ∧ a.f0 = s.nextToClose)) ∧
    (¬(s.armCheckTrg next = true ∧ s.armCheckHrt next = 0) → Does .rearm s (fun t => t.trig.rearm = none ∧ t.hearth = s.hearth)))

/-- TRG RUNNING, source 50 enabled, the stamp not too late for the horizon (an earlier epoch's is): GO and TRIGGER give the decision an edge of
source 50, GO at the present stamp, TRIGGER at the stamp of its acceptance with FORCE from its argument, answering DONE. TIME_TRIGGER later
than the horizon from now is kept and answers DONE, an earlier one answers BAD_ARG and leaves what was pending. When its time comes it is
pending no more and, enabled, gives an edge of source 52 at its stamp. On a follower TRIGGER and TIME_TRIGGER answer the holder's status and
leave the trigger engine as it was. TRG RUNNING. The evaluation up to a stamp, with no event and no dual input waiting, moves the horizon to
it, never back. A reduction interval's end moves the channel to its next interval. Measurements that are due for a segment are taken, and
are due no more. MEASURE of a closed segment's channel that is in use answers DONE once its record is there and no measurement of the
segment is due, else TIMEOUT; of any other segment or channel BAD_ARG; it leaves every part but the mailbox. -/
def Obligations.TriggerTimes : Prop :=
  (∀ (s : State) (src : Src) (hs : Nat) (c : FwCmd),
    (s.fwFront src 0x13 = some c → s.follower = true → Does (.trigger src hs) s (fun t => Replied s t c hs ∧ t.trig = s.trig)) ∧
    (s.fwFront src 0x14 = some c → s.follower = true → Does (.timeTrigger src hs) s (fun t => Replied s t c hs ∧ t.trig = s.trig)) ∧
    (s.runs .trg = true → s.follower = false →
      (s.srcOn 50 = true → s.srcLate s.now s.tb.epochs = false → Does .hosttrigGo s (fun t =>
        SameBut [.trig] s t ∧ t.trig.items = s.trig.items ++ [(s.now, .edge 50 false)])) ∧
      (s.fwFront src 0x13 = some c → s.srcOn 50 = true → s.srcLate c.stamp c.mark.epoch = false → Does (.trigger src hs) s (fun t =>
        Replied s t c 0 ∧ t.trig.items = s.trig.items ++ [(c.stamp, .edge 50 (bitOf (c.arg 0) 0))])) ∧
      (s.fwFront src 0x14 = some c →
        (s.nowFine + s.horizon < c.arg64 0 * NS → Does (.timeTrigger src hs) s (fun t =>
          Replied s t c 0 ∧ t.trig.timeTrig = some (c.arg64 0))) ∧
        (c.arg64 0 * NS ≤ s.nowFine + s.horizon → Does (.timeTrigger src hs) s (fun t => Replied s t c 2 ∧ t.trig = s.trig))) ∧
      (∀ ns : Nat, s.trig.timeTrig = some ns → s.srcOn 52 = true → s.srcLate (ns * NS % 2 ^ 80) s.tb.epochs = false →
        Does .timeTriggerFire s (fun t =>
          t.trig.timeTrig = none ∧ t.trig.items = s.trig.items ++ [(ns * NS % 2 ^ 80, .edge 52 false)])))) ∧
  (∀ s : State, s.runs .trg = true →
    (∀ u : Stamp, s.trig.items = [] → s.trig.held = [] → s.pendingEdge = none → Does (.triggerEvaluation u) s (fun t =>
      t.trig.hp = some (match s.trig.hp with | some h => max h u | none => u) ∧ t.trig.items = [])) ∧
    (∀ ch : Fin 32, s.redKind ch.val ≠ 0 → Does (.reductionIntervalEnd ch) s (fun t =>
      t.trig.redNext.find? (fun r => r.1 = ch.val) = some (ch.val, s.redIndex ch.val + 1))) ∧
    (∀ (seg : Nat) (rest : List Nat), s.hearth.measDue = seg :: rest → Does .measurementReady s (fun t => t.hearth.measDue = rest)) ∧
    (∀ (src : Src) (c : FwCmd), s.fwFront src 0x17 = some c →
      let seg := c.arg 0 % 64
      let ch := bits (c.arg 0) 10 8
      let usable : Prop := (s.segAt seg).phase = .closed ∧ s.measKind ch ≠ 0
      let there : Prop := (∃ m ∈ s.trig.meas, m.1 = seg * 8 + ch) ∧ seg ∉ s.hearth.measDue
      (usable → there → Does (.measure src) s (fun t => Replied s t c 0 ∧ SameBut [.host, .cores, .out] s t)) ∧
      (usable → ¬there → Does (.measure src) s (fun t => Replied s t c 8 ∧ SameBut [.host, .cores, .out] s t)) ∧
      (¬usable → Does (.measure src) s (fun t => Replied s t c 2 ∧ SameBut [.host, .cores, .out] s t))))

/-- TRG RUNNING, TB not OFF, dual input i enabled and neither locked nor taken. The first channel's edge waits with its stamp, which the time
base gives it from the tick it falls in and how far into that. The other channel's within DISC of it is taken: the input waits no more, and
if its source is enabled the decision has an edge at the earlier stamp. At DISC or later the input is locked, as it is when DISC passes
without the second channel, with its fault bit set in TRG_DCSTAT; further edges then only count as repeated, as a second one of the waiting
channel does, in TRG_CNT_REPEAT. Idle channels clear the lock. TRG RUNNING. A FRAME-mode output is active from the grid point of 312.5 ps
at, or either side of, the scheduled instant of a frame plus its delay, the frame known or still to be issued (log entry 38), until its
width has passed, a pulse under way until the later end; with no such instant near nothing changes. The end of a pulse makes the output
inactive once that instant has come, and before it changes nothing. A test is due on an output that asks for it, on a device that drives its
outputs, at idle, while none is under way: it begins, or is deferred where an edge or a post-trigger window holds it. Its first readback is
kept as right or wrong, its end keeps that, and the readback after it passes the test only if both were right, and otherwise sets the
output's failure bit; one that finds the output driven active by a demand leaves the test without a result. No other output's pin changes. -/
def Obligations.InputsAndPulses : Prop :=
  (∀ (s : State) (i : Fin 2), s.runs .trg = true → s.fnState .tb ≠ .off → s.dualOn i.val = true →
    let edge (b : Bool) : Fin 4 := ⟨2 * i.val + (if b = true then 1 else 0), by cases b <;> simp <;> omega⟩
    let at_ (b : Bool) (c : Nat) (f : Fin 2500000) : Stamp := s.edgeStamp (16 + (edge b).val) c (fineCode f.val)
    let counted (t : State) : Prop := t.reg (TRG + 0x124) = min (s.reg (TRG + 0x124) + 1) 0xFFFFFFFF
    (∀ (b : Bool) (c : Nat) (f : Fin 2500000), (s.dualAt i.val).locked = false → (s.dualAt i.val).taken = false →
      (s.dualAt i.val).pend = none → Does (.trigEdge (edge b) c f) s (fun t =>
        t.dualAt i.val = { s.dualAt i.val with pend := some (b, at_ b c f) } ∧ t.trig.items = s.trig.items)) ∧
    (∀ (b : Bool) (c : Nat) (f : Fin 2500000) (t0 : Stamp), (s.dualAt i.val).locked = false → (s.dualAt i.val).taken = false →
      (s.dualAt i.val).pend = some (!b, t0) →
      let first := min (at_ b c f) t0
      let gap := max (at_ b c f) t0 - first
      (gap < s.disc i.val → Does (.trigEdge (edge b) c f) s (fun t =>
        t.dualAt i.val = { taken := true } ∧
        t.trig.items = s.trig.items ++ (if s.srcOn i.val = true then [(first, .edge i.val false)] else []))) ∧
      (s.disc i.val ≤ gap → Does (.trigEdge (edge b) c f) s (fun t =>
        t.dualAt i.val = { locked := true } ∧ t.bit aDcStat (3 + 8 * i.val) = true ∧ t.trig.items = s.trig.items))) ∧
    (∀ (b : Bool) (c : Nat) (f : Fin 2500000), ((s.dualAt i.val).locked = true ∨ (s.dualAt i.val).taken = true) →
      Does (.trigEdge (edge b) c f) s (fun t => t.dualAt i.val = s.dualAt i.val ∧ t.trig.items = s.trig.items ∧ counted t)) ∧
    (∀ (b : Bool) (c : Nat) (f : Fin 2500000) (t0 : Stamp), (s.dualAt i.val).locked = false → (s.dualAt i.val).taken = false →
      (s.dualAt i.val).pend = some (b, t0) →
      Does (.trigEdge (edge b) c f) s (fun t => t.dualAt i.val = s.dualAt i.val ∧ t.trig.items = s.trig.items ∧ counted t)) ∧
    (∀ (b : Bool) (t0 : Stamp), (s.dualAt i.val).pend = some (b, t0) → Does (.discrepancyTimeout i) s (fun t =>
      t.dualAt i.val = { locked := true } ∧ t.bit aDcStat (3 + 8 * i.val) = true)) ∧
    Does (.dualInputIdle i) s (fun t => SameBut [.trig] s t ∧ t.dualAt i.val = { s.dualAt i.val with locked := false, taken := false })) ∧
  (∀ (s : State) (o : Fin 9), s.runs .trg = true →
    let only (t : State) : Prop := ∀ p, p ≠ o.val → t.pinAt p = s.pinAt p
    (∀ (u : Stamp) (fr : FrameTime), s.outMode o.val = 1 → fr ∈ s.framesTo (u + res312 + 33000 * NS) →
      onGrid ((fr.sched : Int) + s.outDelay o.val) u = true →
      Does (.outputTimedPulse o u) s (fun t =>
        only t ∧ (t.pinAt o.val).active = true ∧
        (t.pinAt o.val).until_ = if (s.pinAt o.val).active = true then max (s.pinAt o.val).until_ (u + s.outWidth o.val)
          else u + s.outWidth o.val)) ∧
    (∀ u : Stamp, (∀ x ∈ s.outEdges o.val (u + res312), onGrid x u = false) → Changes [] (.outputTimedPulse o u) s) ∧
    ((s.pinAt o.val).until_ ≤ s.nowFine → Does (.outputPulseEnd o) s (fun t =>
      SameBut [.trig] s t ∧ only t ∧ t.pinAt o.val = { s.pinAt o.val with active := false })) ∧
    (s.nowFine < (s.pinAt o.val).until_ → Changes [] (.outputPulseEnd o) s) ∧
    (s.outTestOn o.val = true → s.nonHolder = false → s.outActive o.val = false → (s.pinAt o.val).test = .none →
      Does (.outputTestStart o) s (fun t => SameBut [.trig] s t ∧ only t ∧ t.pinAt o.val =
        if s.testHeld o.val = true then { s.pinAt o.val with deferred := true }
        else { s.pinAt o.val with test := .driving none, deferred := false })) ∧
    (∀ level : Bool, (s.pinAt o.val).test = .driving none → Does (.outputTestReadback o level) s (fun t =>
      only t ∧ (t.pinAt o.val).test = .driving (some (level != s.outIdle o.val)))) ∧
    (∀ r : Option Bool, (s.pinAt o.val).test = .driving r → Does (.outputTestEnd o) s (fun t =>
      only t ∧ (t.pinAt o.val).test = .ended r)) ∧
    (∀ (r : Option Bool) (level : Bool), (s.pinAt o.val).test = .ended r →
      (s.outActive o.val = false ∨ level = s.outIdle o.val → Does (.outputTestReadback o level) s (fun t =>
        only t ∧ (t.pinAt o.val).test = .none ∧
        t.bit aOutStat (16 + o.val) = if r = some true ∧ level = s.outIdle o.val then s.bit aOutStat (16 + o.val) else true)) ∧
      (s.outActive o.val = true → level ≠ s.outIdle o.val → Does (.outputTestReadback o level) s (fun t =>
        only t ∧ (t.pinAt o.val).test = .none ∧ t.bit aOutStat (16 + o.val) = s.bit aOutStat (16 + o.val) ∧
        t.reg (TRG + 0x130) = min (s.reg (TRG + 0x130) + 1) 0xFFFFFFFF))))

/-- TRG RUNNING on a device that is no follower, with one undecided edge, of source n at stamp v, no held edge and no dual input waiting. The
horizon passes v, the evaluated set k was false, and the edge makes it true. While nothing is armed, a segment is in POST or awaits its re-arm, or
TRG stops, the trigger only counts under UNARMED, BUSY, REARM, STOPPED; it counts under STOPPED too where nothing is armed and the stamp lies
past the end of the last frame. While a segment is armed, its first frame began no later, the stamp lies in a frame whose number is P or
more after the first one's, modulo 2^32, and every frame's strobe has been waited for, it is taken: the segment's record count is one
more. -/
def Obligations.TriggerDecision : Prop :=
  ∀ (s : State) (u v : Stamp) (n g k : Nat) (forced : Bool),
    s.runs .trg = true → s.follower = false → s.trig.items = [(v, .edge n forced)] → s.trig.held = [] → s.pendingEdge = none → v ≤ u →
    s.trig.evalSeg = some g → s.segSet g = some k → s.trig.out = false →
    (let h := s.putTrig { s.trig with items := [], held := [(n, v + s.srcHold n)] }
     h.setOut k (h.srcTrue v) = true) →
    (∀ (phase : TrigPhase) (reason : Nat), s.trig.phase = phase →
      (phase = .unarmed ∧ (s.placed v).2 = false ∧ reason = 4 ∨ phase = .unarmed ∧ (s.placed v).2 = true ∧ reason = 8 ∨ phase = .post g ∧ reason = 3 ∨ phase = .rearm ∧ reason = 2 ∨ phase = .stopped ∧ reason = 8) →
      Does (.triggerEvaluation u) s (fun t =>
        t.reg (TRG + 0x100 + 4 * reason) = min (s.reg (TRG + 0x100 + 4 * reason) + 1) 0xFFFFFFFF ∧ t.trig.phase = phase ∧
        t.trig.items = [])) ∧
    (∀ (a : Active) (frame : Nat) (t0 t1 : Stamp) (beyond : Bool), g < 64 → s.trig.phase = .armed g → s.hearth.act = some a → a.seg = g →
      a.post = none → (∀ fr ∈ s.trig.frames, fr.checked = true) → s.placed v = (some (frame, t0, t1), beyond) →
      (∃ z, s.frameZero a.f0 v = some z ∧ z ≤ v) → (s.segAt g).p ≤ frameDiff frame a.f0 →
      Does (.triggerEvaluation u) s (fun t => (t.segAt g).recCount = ((s.segAt g).recCount + 1) % 2 ^ 32))

/-- Out of reset GO queues the job the job registers describe, or sets REFUSED when sixteen wait. CMP RUNNING and no job running, the first job
waiting d leaves the queue when the command of its operation takes it. If it fails a check it has that status and Hearth stays. COMPRESS
codes its pixels block by block and, if each fits, has the blocks as its output; if one does not, it ends for want of space, with the number
of blocks that fitted; DECOMPRESS has the decoded pixels and counts bad block CRCs. Until the job ends the bytes of the output's place are
free values (log entry 64), all others stay. CHECK counts and stores nothing. Without hardware error the status is DONE, or CHECK_FAIL where
a block is cut or a CRC is wrong, or VERIFY_MISMATCH where a block had to be stored RAW. That the result is known when the job is taken, and
the number of blocks of one without space, is the model's reading (log entry 63). The running job ends: its output stands at the
destination, none runs, and CMP_JSTAT keeps its status and tag; ABORTED, with nothing stored, where a destination that had been accepted is
no longer host-writable, or a segment that it lies in has been armed meanwhile, as found at the end (log entry 63). ABORT leaves no job
running or waiting, and if there was one the status kept is ABORTED. When CMP has been STOPPING for too long nothing is staged, held back,
open or uncommitted any more. -/
def Obligations.Offload : Prop :=
  (∀ s : State,
    (s.inReset = false → s.jobs.queue.length < 16 → Does .jobSubmit s (fun t => SameBut [.jobs] s t ∧
      t.jobs.queue = s.jobs.queue ++ [(upTo 16).flatMap (fun i => leBytes 4 (s.reg (aJob (4 * i))))])) ∧
    (s.inReset = false → 16 ≤ s.jobs.queue.length → Does .jobSubmit s (fun t => SameBut [.regs] s t ∧ t.bit aJStat 30 = true)) ∧
    (∀ (d : List Byte) (rest : List (List Byte)), s.jobs.queue = d :: rest → s.jobs.run = none → s.runs .cmp = true →
      let src := s.hostRead (jdSrc d) (jdSrcLen d)
      let w1 := walk (jdOut d = 0) src
      let w := walk false src
      let bs := jobBlocks d (unpackPixels (bitsOf (jdFmt d)) (jdNpix d) src) []
      let noted (t : State) : Prop := t.hearth = { s.hearth with mem := t.hearth.mem, rawCheck := t.hearth.rawCheck }
      let untouched (n : Nat) (t : State) : Prop := ∀ b, b < jdDst d ∨ jdDst d + n ≤ b → t.hread b 1 = s.hread b 1
      let counts (n : Nat) (t : State) : Prop := t.reg (HRT + 0x114) = min (s.reg (HRT + 0x114) + n) 0xFFFFFFFF
      (∀ cmd : Instr, (jdOp d = 1 ∧ cmd = .compress [] ⟨[], [], []⟩ ∨ jdOp d = 2 ∧ cmd = .decompress ⟨[], [], []⟩ ∨
          jdOp d ≠ 1 ∧ jdOp d ≠ 2 ∧ cmd = .check ⟨[], [], []⟩) → s.jobCheck d ≠ 0 →
        Does cmd s (fun t => SameBut [.jobs] s t ∧ t.jobs.queue = rest ∧ t.jobs.run = some { desc := d, status := s.jobCheck d })) ∧
      (jdOp d = 1 → s.jobCheck d = 0 → jobFits (jdDstLen d) (bs.map (fun b => (b.reserve, b.bytes.length))) = true →
        let mis := (bs.filter (·.vraw)).length
        Does (.compress [] ⟨[], [], []⟩) s (fun t =>
          let out := bs.flatMap (·.bytes)
          SameBut [.freeUse, .jobs, .hearth, .mem] s t ∧ noted t ∧ t.jobs.queue = rest ∧ untouched out.length t ∧
          t.jobs.run = some { desc := d, status := if mis = 0 then 0 else 5, nblk := bs.length, nmis := mis,
                              outLen := out.length, out := out })) ∧
      (jdOp d = 1 → s.jobCheck d = 0 → jobFits (jdDstLen d) (bs.map (fun b => (b.reserve, b.bytes.length))) = false →
        let k := jobRoom (jdDstLen d) (bs.map (fun b => (b.reserve, b.bytes.length)))
        Does (.compress [] ⟨[], [], []⟩) s (fun t => SameBut [.freeUse, .jobs, .hearth, .mem] s t ∧ noted t ∧ untouched (jdDstLen d) t ∧
          t.jobs.run = some { desc := d, status := 4, nblk := k, nmis := ((bs.take k).filter (·.vraw)).length })) ∧
      (jdOp d = 2 → s.jobCheck d = 0 →
        jobFits (8 * jdDstLen d) ((w1.heads ++ w1.next.toList).map (decodedSize (jdOut d))) = true →
        Does (.decompress ⟨[], [], []⟩) s (fun t =>
          SameBut [.freeUse, .jobs, .hearth, .mem, .regs] s t ∧ noted t ∧ t.jobs.queue = rest ∧ counts w1.ncrc t ∧ untouched (decodedOut (jdOut d) w1).length t ∧
          ∃ r, t.jobs.run = some r ∧ r.out = decodedOut (jdOut d) w1 ∧ r.outLen = r.out.length ∧
            r.status = (if w1.cut = true ∨ w1.ncrc ≠ 0 then 6 else 0) ∧ r.nblk = w1.heads.length)) ∧
      (jdOp d = 3 → s.jobCheck d = 0 → Does (.check ⟨[], [], []⟩) s (fun t =>
        SameBut [.jobs, .regs] s t ∧ t.jobs.queue = rest ∧ counts w.ncrc t ∧
        ∃ r, t.jobs.run = some r ∧ r.out = [] ∧ r.status = (if w.cut = true ∨ w.ncrc ≠ 0 then 6 else 0) ∧ r.nblk = w.heads.length)))) ∧
  (∀ s : State,
    (∀ r : JobRun, s.jobs.run = some r → Does .jobDone s (fun t =>
      let gone : Prop := r.status ≠ 2 ∧ r.status ≠ 3 ∧ jdOp r.desc ≠ 3 ∧
        (r.cut = true ∨ s.hostWritable (jdDst r.desc) (jdDstLen r.desc) = false)
      t.jobs.run = none ∧ t.jobs.queue = s.jobs.queue ∧ t.jobs.lastTag = jdTag r.desc ∧
      (gone → t.jobs.lastStatus = 0x0C ∧ t.hearth.mem = s.hearth.mem) ∧
      (¬gone → t.jobs.lastStatus = r.status ∧ t.hearth.mem = Memory.write s.hearth.mem (jdDst r.desc) r.out))) ∧
    Does .jobAbort s (fun t => t.jobs.run = none ∧ t.jobs.queue = [] ∧
      ((s.jobs.run ≠ none ∨ s.jobs.queue ≠ []) → t.jobs.lastStatus = 0x0C)) ∧
    (s.fnState .cmp = .stopping → Does .cmpStopTimeout s (fun t => t.cmpEmpty = true ∧ t.fns = s.fns)))

/-- For every run of pixels of 10, 12 or 16 bits, either predictor, and a bound E of 1 to 7 for kind 3: decoding the coded body, asked for
as many pixels, gives exactly the history the coder kept, of the same length; for kind 2 that is the pixels themselves, and for kind 3
each value differs from its pixel by at most E and fits the pixel's bits. -/
def Obligations.CodecRoundTrip : Prop :=
  ∀ (kind e pred b : Nat) (xs : List Nat),
    (kind = 2 ∨ kind = 3) → 1 ≤ e → e ≤ 7 → pred ≤ 1 → (b = 10 ∨ b = 12 ∨ b = 16) → (∀ x ∈ xs, x < 2 ^ b) →
    decodeBody kind e pred b xs.length (encodeBody kind e pred b xs).1 = some (encodeBody kind e pred b xs).2 ∧
    (encodeBody kind e pred b xs).2.length = xs.length ∧
    (kind = 2 → (encodeBody kind e pred b xs).2 = xs) ∧
    (kind = 3 → ∀ c ∈ xs.zip (encodeBody kind e pred b xs).2, ((c.1 : Int) - c.2).natAbs ≤ e ∧ c.2 < 2 ^ b)

/-- Out of reset. While host software owns the time, TB_INC takes the value written, clamped to 0x7F5C_28F6–0x80A3_D70A; a clamp shows in TB_STAT, and the
counter stays. Otherwise
the write changes nothing. Reading TB_NOW_LO answers the low word of the nanoseconds and latches the rest. GO, with TB RUNNING, makes the
signed TB_STEP the pending step; CANCEL leaves none. A pending step is applied when no segment is active, TB is not OFF, the device is no
follower in time and TRG is at rest: the counter, the translation of a former follower taken into it (log entry 77: the model's
choice), moves by it, or to the value it names, a new epoch begins, the step counts, no measurement stays STARTED. While a segment is
active, one whose record a QUENCH left to be written among them, it stays pending and nothing changes. -/
def Obligations.TimebaseControl : Prop :=
  ∀ s : State,
    (∀ v : Word, s.hostTime = true → s.inReset = false → Does (.tbIncWrite v) s (fun t =>
      SameBut [.regs, .tb] s t ∧ t.tb.counter = s.tb.counter ∧ t.reg aTbInc = max 0x7F5C28F6 (min 0x80A3D70A v.toNat) ∧
      t.bit aTbStat 27 = (if 0x7F5C28F6 ≤ v.toNat ∧ v.toNat ≤ 0x80A3D70A then s.bit aTbStat 27 else true))) ∧
    (∀ v : Word, s.hostTime = false → Changes [] (.tbIncWrite v) s) ∧
    (s.inReset = false → Does .tbNowRead s (fun t => SameBut [.regs, .out] s t ∧
      t.out = .readData (TB + 0x20) (s.nowFine / 65536 % 2 ^ 32) :: s.out ∧
      t.reg (TB + 0x24) = s.nowFine / 65536 / 2 ^ 32 % 2 ^ 32 ∧ t.reg (TB + 0x28) = s.nowFine % 65536 ∧
      t.reg (TB + 0x30) = s.rawNow / 65536 % 2 ^ 32 ∧ t.reg (TB + 0x34) = s.rawNow / 65536 / 2 ^ 32 % 2 ^ 32)) ∧
    (s.hostTime = true → s.runs .tb = true → Does .stepGo s (fun t =>
      t.tb.pend = some (.by (sx 64 (s.reg64 (TB + 0x50)))) ∧ t.bit aTbStat 28 = true ∧ t.tb.counter = s.tb.counter)) ∧
    Does .stepCancel s (fun t => t.tb.pend = none ∧ t.bit aTbStat 28 = false ∧ t.tb.counter = s.tb.counter) ∧
    (∀ r : StepReq, s.tb.pend = some r → s.segActive = true → Changes [] .stepApply s) ∧
    (∀ r : StepReq, s.tb.pend = some r → s.segActive = false → s.fnState .tb ≠ .off → s.sync ≠ 4 → s.trgLive = false →
      Does .stepApply s (fun t =>
        t.tb.counter = (match r with
          | .by d => (((s.tb.counter : Int) + ((s.nowFine : Int) - s.rawNow + d) * 65536) % (2 ^ 96 : Int)).toNat
          | .to ns => ns * 2 ^ 32 % 2 ^ 96) ∧ t.tb.epochs = s.tb.epochs + 1 ∧
        t.tb.pend = none ∧ t.reg (TB + 0x104) = min (s.reg (TB + 0x104) + 1) 0xFFFFFFFF ∧
        t.fld aTbStat 23 16 = (s.tb.epochs + 1) % 256 ∧ ∀ u st, u < 8 → (t.unitAt u).phase ≠ .started st))

/-- TDC RUNNING and input n enabled. An edge within 50 ns of the last conversion counts as lost and leaves the timing unit as it was. Another
one within the channel's hold-off of the last accepted edge counts as held off and is not accepted. Any other is accepted: it counts, and
its corrected stamp is the last accepted. An edge on a gate input, TB not OFF, is taken when 500 ns have passed since the last one taken,
and otherwise leaves the timing unit. TDC RUNNING. A software arm of an enabled unit that selects it waits among the unit's inputs with the
present stamp. A unit whose measurement runs, with no input waiting, ends it at the window's end: it counts, counts as SHORT if it has fewer
intervals than NSTOP, and the unit is armed again at that instant if it is continuous, else idle. SCLR clears the statistics of its unit and
changes nothing else. With Temper running, TB not OFF, no post-trigger window open and no service step under way, a recalibration begins for
its input; with a window open or another step under way it stays due (R445). A histogram whose bins are all of legal width becomes the
spare's table and awaits the handover; any other ends the attempt, which is shown at the input and counted. The handover puts the spare in
service at the input from this tick on, with its measured offset, and the interpolator that served becomes the spare. -/
def Obligations.TimedInputs : Prop :=
  (∀ s : State,
    (∀ (n : Fin 16) (c : Nat) (f : Fin 2500000), s.runs .tdc = true → s.bit (aChCfg n.val) 31 = true →
      let raw := s.edgeRaw n.val c (fineCode f.val)
      let t := s.edgeStamp n.val c (fineCode f.val)
      let p := s.inputAt n.val
      let dead : Prop := ∃ l, p.lastConv = some l ∧ l ≤ raw ∧ raw < l + 50 * 65536
      let held : Prop := ∃ l, p.lastAcc = some l ∧ l ≤ t ∧ t < l + min 1000 (s.fld (aChCfg n.val) 9 0) * 10 * 65536
      let more (off : Nat) (u : State) : Prop :=
        u.reg (aChCfg n.val + off) = min (s.reg (aChCfg n.val + off) + 1) 0xFFFFFFFF
      (dead → Does (.tdcEdge n c f) s (fun u => more 0x10 u ∧ u.tdc = s.tdc)) ∧
      (¬dead → held → Does (.tdcEdge n c f) s (fun u => more 0x14 u ∧ u.inputAt n.val = { p with lastConv := some raw })) ∧
      (¬dead → ¬held → Does (.tdcEdge n c f) s (fun u =>
        more 0x0C u ∧ u.inputAt n.val = { p with lastConv := some raw, lastAcc := some t }))) ∧
    (∀ (i : Fin 2) (c : Nat) (f : Fin 2500000), s.fnState .tb ≠ .off →
      let t := s.edgeStamp (20 + i.val) c (fineCode f.val)
      let near : Prop := ∃ l, (s.inputAt (20 + i.val)).lastAcc = some l ∧ l ≤ t ∧ t < l + 500 * 65536
      (near → Does (.gateEdge i c f) s (fun u => u.tdc = s.tdc)) ∧
      (¬near → Does (.gateEdge i c f) s (fun u =>
        u.inputAt (20 + i.val) = { s.inputAt (20 + i.val) with lastAcc := some t })))) ∧
  (∀ (s : State) (u : Fin 8), s.runs .tdc = true →
    (s.unitOn u.val = true → s.unitArm u.val = 5 → res25 ≤ s.nowFine →
      Does (.tdcSoftwareArm u) s (fun t => (s.now, .arm 5) ∈ (t.unitAt u.val).inputs)) ∧
    (∀ st : Stamp, (s.unitAt u.val).phase = .started st → (s.unitAt u.val).inputs = [] → Does (.tdcWindowEnd u) s (fun t =>
      let x := s.unitAt u.val
      (t.unitAt u.val).phase = (if s.unitArm u.val = 1 then .armed (st + s.unitWindow u.val) else .idle) ∧
      (t.unitAt u.val).ended = x.ended + 1 ∧ (t.unitAt u.val).lastN = x.ivals.length ∧ (t.unitAt u.val).ivals = [] ∧
      t.reg (aUnit u.val 0x2C) = min (s.reg (aUnit u.val 0x2C) + 1) 0xFFFFFFFF ∧
      t.reg (aUnit u.val 0x38) = (if x.ivals.length < s.unitNstop u.val then min (s.reg (aUnit u.val 0x38) + 1) 0xFFFFFFFF
        else s.reg (aUnit u.val 0x38)))) ∧
    Does (.statisticsClear u) s (fun t => SameBut [.tdc] s t ∧
      t.unitAt u.val = { s.unitAt u.val with n := 0, sum := 0, sumSq := 0, min_ := 0, max_ := 0 } ∧
      ∀ v, v ≠ u.val → t.unitAt v = s.unitAt v)) ∧
  (∀ s : State,
    (∀ target : Fin 22, s.fnState .tb ≠ .off → s.runs .bgs = true → s.inPost = false → s.svcBusy = false →
      Does (.interpolatorRecalStart target) s (fun t =>
        SameBut [.regs, .bgs] s t ∧ t.bit aCal 31 = true ∧ t.fld aCal 20 16 = target.val ∧ t.fld aCal 28 24 = s.fld aCal 28 24)) ∧
    (∀ target : Fin 22, s.fnState .tb ≠ .off → s.runs .bgs = true → (s.inPost = true ∨ s.svcBusy = true) →
      (s.bit aCal 31 = true → s.fld aCal 20 16 ≠ target.val) → Does (.interpolatorRecalStart target) s (fun t =>
        SameBut [.bgs] s t ∧ 0x200 + target.val ∈ t.bgs.due)) ∧
    (∀ hist : List Nat, s.bit aCal 31 = true →
      let spare := s.fld aCal 28 24
      let target := s.fld aCal 20 16
      (tableOk s.increment hist = true → spare < 23 → Does (.codeDensityCollected hist) s (fun t =>
        SameBut [.tdc] s t ∧ t.ipolAt spare = { s.ipolAt spare with table := some hist } ∧ t.tdc.handover = some target)) ∧
      (tableOk s.increment hist = false → Does (.codeDensityCollected hist) s (fun t =>
        t.bit aCal 31 = false ∧ t.bit (aChStat target) 30 = true ∧ t.tdc.calFails = s.tdc.calFails + 1 ∧ t.tdc.ipols = s.tdc.ipols))) ∧
    (∀ (offs temp : Int) (target : Nat), s.tdc.handover = some target → target < 22 → s.fld aCal 28 24 < 23 →
      Does (.interpolatorHandover offs temp) s (fun t =>
        let spare := s.fld aCal 28 24
        t.fld (aChStat target) 15 8 = spare ∧ t.bit (aChStat target) 31 = true ∧ t.ipolAt spare = { s.ipolAt spare with offs := offs } ∧
        (t.inputAt target).since = s.tb.counter ∧ (t.inputAt target).oldIpol = s.fld (aChStat target) 15 8 ∧
        t.fld aCal 28 24 = s.fld (aChStat target) 15 8 % 32 ∧ t.bit aCal 31 = false ∧ t.tdc.handover = none)))

/-- Port p is live. Each of the eight messages: with a bad frame check sequence it adds one to the port's FCS counter; with another tag than the
port's, over another transport or to another group than the profile's, with an option that is not supported, of another version or domain,
or of the other delay mechanism, one to its discard counter; and it changes nothing else. Any other adds one to the port's receive counter
where the clock runs on the port, in a state other than DISABLED, and changes nothing elsewhere. Which options and fields a message has is
from IEEE 1588, no rule of the spec (log entry 69). Port p takes the message, which fits its tag, transport, profile and domain. A two-step
Sync of the master it follows, none held and no timeout before it, is held with its corrected arrival and correction. The Follow_Up of the
same sequence gives the downward difference: arrival less origin, less both corrections and the asymmetry. The Delay_Resp to its request
gives as path delay half the sum of that and the upward difference; the one-step Pdelay_Resp half of the round trip less correction and
asymmetry; the Pdelay_Resp_Follow_Up the same less the peer's turnaround. The computations are those of IEEE 1588 (log entry 69), and that a
timeout ends the waiting is the model's (log entry 71). -/
def Obligations.PtpReceives : Prop :=
  (∀ (s : State) (p : Fin 2) (h : PtpHead) (c : Instr) (mech : Option Bool),
    s.portLive p.val = true →
    ((∃ twoStep origin raw, c = .syncRx p h twoStep origin raw) ∧ mech = none ∨
      (∃ origin, c = .followUpRx p h origin) ∧ mech = none ∨
      (∃ d, c = .announceRx p h d) ∧ mech = none ∨
      (∃ raw, c = .delayReqRx p h raw) ∧ mech = some false ∨
      (∃ recv rc rp, c = .delayRespRx p h recv rc rp) ∧ mech = some false ∨
      (∃ raw, c = .pdelayReqRx p h raw) ∧ mech = some true ∨
      (∃ twoStep recv rc rp raw, c = .pdelayRespRx p h twoStep recv rc rp raw) ∧ mech = some true ∨
      (∃ origin rc rp, c = .pdelayRespFollowUpRx p h origin rc rp) ∧ mech = some true) →
    let wrong : Prop := s.tagOk p.val h.tag = false ∨ h.udp ≠ s.bit PTP 27 ∨ h.peer ≠ s.ptpP2P ∨ ptpSupported h = false ∨ h.version ≠ 2 ∨ h.domain ≠ s.fld PTP 7 0 ∨ mech = some (!s.ptpP2P)
    let more (off : Nat) (t : State) : Prop := t.reg (aPort p.val off) = min (s.reg (aPort p.val off) + 1) 0xFFFFFFFF
    (h.fcs = false → Does c s (fun t => SameBut [.regs] s t ∧ more 0x54 t ∧ ∀ a, a ≠ aPort p.val 0x54 → t.reg a = s.reg a)) ∧
    (h.fcs = true → wrong → Does c s (fun t => SameBut [.regs] s t ∧ more 0x48 t ∧ ∀ a, a ≠ aPort p.val 0x48 → t.reg a = s.reg a)) ∧
    (h.fcs = true → ¬wrong → s.clockPort p.val = true → s.portState p.val ≠ 3 → Does c s (more 0x40)) ∧
    (h.fcs = true → ¬wrong → (s.clockPort p.val = false ∨ s.portState p.val = 3) → Changes [] c s)) ∧
  (∀ (s : State) (p : Fin 2) (h : PtpHead),
    s.portLive p.val = true → s.clockPort p.val = true → s.portState p.val ≠ 3 → h.fcs = true →
    let fits (mech : Option Bool) : Prop := s.ptpFits p.val h mech = true
    let x := s.portAt p.val
    let y (t : State) := t.portAt p.val
    (∀ origin raw : Nat, fits none → s.fromParent p.val h = true → x.silent = none → x.heldSync = none →
      Does (.syncRx p h true origin raw) s (fun t =>
        (y t).heldSync = some (h.seq, s.rxStamp p.val raw, h.corr) ∧ (y t).parent = some (h.clock, h.port))) ∧
    (∀ (origin : Nat) (t2 : Stamp) (corr : Int), fits none → s.fromParent p.val h = true → x.heldSync = some (h.seq, t2, corr) →
      Does (.followUpRx p h origin) s (fun t => (y t).heldSync = none ∧
        (y t).down = some ((t2 : Int) - (origin * 65536 : Nat) - (corr + h.corr) - s.portAsym p.val))) ∧
    (∀ (recv : Nat) (t3 : Stamp) (d : Int), fits (some false) → s.fromParent p.val h = true → x.req = some (h.seq, t3) → x.down = some d →
      Does (.delayRespRx p h recv s.clockId (p.val + 1)) s (fun t => (y t).req = none ∧
        (y t).mpd = some ((d + ((recv * 65536 : Nat) - (t3 : Int) - h.corr)) / 2))) ∧
    (∀ (recv raw : Nat) (t1 : Stamp), fits (some true) → x.req = some (h.seq, t1) →
      Does (.pdelayRespRx p h false recv s.clockId (p.val + 1) raw) s (fun t => (y t).req = none ∧
        (y t).mpd = some (((s.rxStamp p.val raw : Int) - t1 - (h.corr + s.portAsym p.val)) / 2))) ∧
    (∀ (origin : Nat) (t1 t4 : Stamp) (t2 corr : Int), fits (some true) → x.req = some (h.seq, t1) →
      x.heldResp = some (h.seq, t4, t2, corr) →
      Does (.pdelayRespFollowUpRx p h origin s.clockId (p.val + 1)) s (fun t => (y t).req = none ∧ (y t).heldResp = none ∧
        (y t).mpd = some (((t4 : Int) - t1 - ((origin * 65536 : Nat) - t2) - corr - h.corr) / 2))))

/-- A live port on which the clock runs. A master port sends Sync with its departure in nanoseconds and fraction, and Announce, each with the
next sequence number; it answers Delay_Req with the arrival. A slave port under end-to-end delay sends Delay_Req; every port under peer
delay sends Pdelay_Req and answers one with its turnaround. A request keeps its sequence number and its departure. Each message sent carries
the head of its port, the domain and the port's identity, no twoStepFlag and the interval of its kind, and counts. Fields and port states
are those of IEEE 1588 (log entry 69, log entry 71). PTP RUNNING, port p enabled. Without a link, in fallback mode, 500 ms without lock
change the rate it tries; block lock gives it the link at that rate. The loss of lock takes its link and all it knew of its masters, delays
and requests. A live clock port: an Announce of another clock, fewer than 255 steps away, is kept first among those heard, with how often,
where roles are not fixed, and an announce timeout then forgets them all; and each timeout of a port that is neither master, about to be one
nor DISABLED counts. Which masters are kept and what loses one are the model's reading of IEEE 1588 (log entry 69, log entry 71). -/
def Obligations.PtpSendsAndLinks : Prop :=
  (∀ (s : State) (p : Fin 2), s.portLive p.val = true → s.clockPort p.val = true →
    let x := s.portAt p.val
    let sent (kind : Nat) (first : List Int) (t : State) : Prop :=
      (∃ more, t.out = .eth p.val (s.ptpHead p.val kind) kind
        (first ++ more ++ [(s.fld PTP 7 0 : Int), (s.clockId : Int), (p.val + 1 : Int), 0, s.ptpIntv p.val kind]) [] :: s.out) ∧
      t.reg (aPort p.val 0x44) = min (s.reg (aPort p.val 0x44) + 1) 0xFFFFFFFF
    (s.portState p.val = 6 →
      Does (.syncTx p) s (fun t => sent 0 [(x.syncSeq : Int), (s.txStamp p.val / 65536 : Nat), (s.txStamp p.val % 65536 : Nat)] t ∧
        (t.portAt p.val).syncSeq = (x.syncSeq + 1) % 65536) ∧
      Does (.announceTx p) s (fun t => sent 11 [(x.annSeq : Int)] t ∧ (t.portAt p.val).annSeq = (x.annSeq + 1) % 65536)) ∧
    (s.slavePort p.val = true → s.ptpP2P = false → Does (.delayReqTx p) s (fun t =>
      sent 1 [(x.reqSeq : Int), 0, -s.portAsym p.val] t ∧ (t.portAt p.val).req = some (x.reqSeq, s.txStamp p.val) ∧
      (t.portAt p.val).reqSeq = (x.reqSeq + 1) % 65536)) ∧
    (s.portState p.val ≠ 3 → s.ptpP2P = true → Does (.pdelayReqTx p) s (fun t =>
      sent 2 [(x.reqSeq : Int), 0, -s.portAsym p.val] t ∧ (t.portAt p.val).req = some (x.reqSeq, s.txStamp p.val) ∧
      (t.portAt p.val).reqSeq = (x.reqSeq + 1) % 65536)) ∧
    (∀ (h : PtpHead) (raw : Nat), h.fcs = true →
      (s.portState p.val = 6 → s.ptpFits p.val h (some false) = true → Does (.delayReqRx p h raw) s
        (sent 9 [(h.seq : Int), (s.rxStamp p.val raw / 65536 : Nat), h.corr - (s.rxStamp p.val raw % 65536 : Nat)])) ∧
      (s.portState p.val ≠ 3 → s.ptpFits p.val h (some true) = true → Does (.pdelayReqRx p h raw) s
        (sent 3 [(h.seq : Int), 0, h.corr + ((s.txStamp p.val : Int) - s.rxStamp p.val raw)])))) ∧
  (∀ (s : State) (p : Fin 2), s.runs .ptp = true → s.portOn p.val = true →
    let x := s.portAt p.val
    (s.portLink p.val = false → s.portRate p.val = 0 →
      Does (.ethRateFallback p) s (fun t => SameBut [.ptp] s t ∧ t.portAt p.val = { x with try25 := !x.try25 })) ∧
    (s.portLink p.val = false → Does (.ethBlockLock p) s (fun t =>
      t.portLink p.val = true ∧ t.bit (aPort p.val 0x0C) 30 = x.try25)) ∧
    (s.portLink p.val = true → Does (.ethLockLoss p) s (fun t =>
      t.portLink p.val = false ∧ (t.portAt p.val).foreign = [] ∧ (t.portAt p.val).parent = none ∧ (t.portAt p.val).mpd = none ∧
      (t.portAt p.val).req = none ∧ (t.portAt p.val).heldSync = none)) ∧
    (∀ (h : PtpHead) (d : PtpData), s.portLink p.val = true → s.clockPort p.val = true → s.portState p.val ≠ 3 → s.ptpFixed = false →
      h.fcs = true → s.ptpFits p.val h none = true → h.clock ≠ s.clockId → d.steps < 255 →
      Does (.announceRx p h d) s (fun t => ∃ f, (t.portAt p.val).foreign.head? = some f ∧ f.clock = h.clock ∧ f.port = h.port ∧ f.data = d ∧
        f.heard = 1 + (match x.foreign.find? (fun g => g.clock = h.clock && g.port = h.port) with | some g => g.heard | none => 0))) ∧
    (∀ announce : Bool, s.portLink p.val = true → s.clockPort p.val = true → s.portState p.val ≠ 3 → s.portState p.val ≠ 5 → s.portState p.val ≠ 6 →
      Does (.masterTimeout p announce) s (fun t =>
        t.reg (aPort p.val 0x50) = min (s.reg (aPort p.val 0x50) + 1) 0xFFFFFFFF ∧
        (t.portAt p.val).foreign = if announce = true ∧ s.ptpFixed = false then [] else x.foreign)))

/-- A message as it is sent, padded, is read back with its hops, origin, sequence number and body. On a live port of a head that is no follower
a frame with a bad check sequence counts as such, and one that is no TRIGGER message of eight bytes as discarded. A TRIGGER message whose
origin is held with a sequence number not older changes nothing. Any other is held first, is sent on through the other live port with one
hop less while hops are left and the role is not 0, and becomes the pending time trigger exactly if it is later than the horizon from now
and TRG runs. RIG_TRIGGER takes the next sequence number, holds it under the own clock, and answers with the own engine's status. That role
0 passes nothing on and that the head counts its own messages are the model's choices (log entry ?, log entry 72). On a live port, the
clock's role not 0, a frame that carries a rig message of the type, between neighbours and of the length its type has. A piece is
acknowledged, under the next sequence number of acknowledgements: one that has been handled with the status of that and no effect, DONE
where it is already there or of the image that last came whole from that port; without CHAIN_EN with BAD_ARG and no effect; the first bytes
of a header, with no update open, begin one whose target follows from KIND; any other with the status of its handling, before the image that
it makes whole is committed. An acknowledgement of nothing that waits, or that came before the piece was sent again, counts as late; a
nonzero status, or the last piece, ends the transfer, otherwise pieces leave until eight wait or none is left. A piece not acknowledged is
sent again and counted, and the transfer ends after eight repeats. A frame with a bad check sequence counts as such, and one that carries no
such message as discarded. Role 0 without messages (log entry 70), the own numbers (log entry 72), and which pieces and acknowledgements are
duplicates or late (log entry 83) are the model's choices. -/
def Obligations.RigMessages : Prop :=
  ((∀ (type hops origin seq : Nat) (body pad : List Byte), type < 256 → hops < 16 → origin < 2 ^ 64 → seq < 65536 → body.length ≤ 1040 →
    rigParse type (rigMessage type hops origin seq body ++ pad) = some { hops := hops, origin := origin, seq := seq, body := body }) ∧
  ∀ s : State, s.follower = false →
    (∀ (p : Fin 2) (frame : List Byte) (hs : Nat), s.portLive p.val = true →
      (Does (.rigTriggerRx p false frame hs) s (fun t => SameBut [.regs] s t ∧
        t.reg (aPort p.val 0x54) = min (s.reg (aPort p.val 0x54) + 1) 0xFFFFFFFF)) ∧
      ((∀ m, s.rigMsg p.val 1 frame = some m → m.body.length ≠ 8) → Does (.rigTriggerRx p true frame hs) s (fun t =>
        SameBut [.regs] s t ∧ t.reg (aPort p.val 0x48) = min (s.reg (aPort p.val 0x48) + 1) 0xFFFFFFFF)) ∧
      (∀ m : RigMsg, s.rigMsg p.val 1 frame = some m → m.body.length = 8 →
        let time := fromLE m.body
        let held := s.ptp.origins.find? (fun c => c.1 = m.origin)
        let fresh : Prop := ∀ q, held = some (m.origin, q) → seqNewer m.seq q = true
        let taken : Prop := s.runs .trg = true ∧ s.nowFine + s.horizon < time * 65536
        (¬fresh → Changes [] (.rigTriggerRx p true frame hs) s) ∧
        (fresh → Does (.rigTriggerRx p true frame hs) s (fun t =>
          t.ptp.origins.head? = some (m.origin, m.seq) ∧
          (taken → t.trig.timeTrig = some time) ∧ (¬taken → t.trig = s.trig) ∧
          (0 < m.hops → s.portLive (1 - p.val) = true → s.ptpRole ≠ 0 →
            .eth (1 - p.val) (s.rigHead (1 - p.val)) 0x88B5 [] (rigMessage 1 (m.hops - 1) m.origin m.seq m.body) ∈ t.out))))) ∧
    (∀ (src : Src) (hs : Nat) (c : FwCmd), s.fwFront src 0x15 = some c → Does (.rigTrigger src hs) s (fun t =>
      Replied s t c (s.setTimeTrigger (c.arg64 0)).2 ∧ t.ptp.rigSeq = (s.ptp.rigSeq + 1) % 65536 ∧
      t.ptp.origins.head? = some (s.clockId, (s.ptp.rigSeq + 1) % 65536)))) ∧
  (∀ (s : State) (p : Fin 2), s.portLive p.val = true → s.ptpRole ≠ 0 →
    let ack (off st : Nat) : Out := .eth p.val (s.rigHead p.val) 0x88B5 []
      (rigMessage 3 0 s.clockId s.ptp.ackSeq (leBytes 4 off ++ leBytes 4 st))
    let acked (v t : State) : Prop := SameBut [.out, .ptp] v t ∧ t.ptp = { v.ptp with ackSeq := (v.ptp.ackSeq + 1) % 65536 }
    let sending (t : State) := (t.portAt p.val).send
    let counts (o : Nat) (t : State) : Prop := SameBut [.regs] s t ∧ t.reg (aPort p.val o) = min (s.reg (aPort p.val o) + 1) 0xFFFFFFFF
    (∀ (addrs kind body : List Byte) (fail : Bool) (raw : Nat),
      let frame := addrs ++ kind ++ body
      Does (.imgBlockRx p false addrs kind body fail) s (counts 0x54) ∧ Does (.imgAckRx p false frame raw) s (counts 0x54) ∧
      ((∀ m, s.rigMsg p.val 2 frame = some m → m.near 8 1032 = false) → Does (.imgBlockRx p true addrs kind body fail) s (counts 0x48)) ∧
      ((∀ m, s.rigMsg p.val 3 frame = some m → m.near 8 8 = false) → Does (.imgAckRx p true frame raw) s (counts 0x48))) ∧
    (∀ (addrs kind body : List Byte) (m : RigMsg) (fail : Bool), s.rigMsg p.val 2 (addrs ++ kind ++ body) = some m → m.hops = 0 → 8 ≤ m.body.length → m.body.length ≤ 1032 →
      let off := fieldLE m.body 0 4
      let len := fieldLE m.body 4 4
      let bs := m.body.drop 8
      let img := (s.portAt p.val).taken
      let again : Prop :=
        (∃ u, s.sys.upd = some u ∧ u.src = 2 + p.val ∧ covered u.got off (off + bs.length) = true ∧ Memory.read u.data off bs.length = bs) ∨
        s.sys.upd = none ∧ bs ≠ [] ∧ off + bs.length ≤ img.length ∧ (img.drop off).take bs.length = bs ∧
          ¬(off = 0 ∧ (s.portAt p.val).redo = true)
      let new : Prop := s.handledPiece p.val off bs = none
      (again → Does (.imgBlockRx p true addrs kind body fail) s (fun t => acked s t ∧ t.out = ack off 0 :: s.out)) ∧
      (∀ st, s.handledPiece p.val off bs = some st → Does (.imgBlockRx p true addrs kind body fail) s (fun t =>
        acked s t ∧ t.out = ack off st :: s.out)) ∧
      (new → s.bit 0x900104 31 = false → Does (.imgBlockRx p true addrs kind body fail) s (fun t => acked s t ∧ t.out = ack off 2 :: s.out)) ∧
      (new → Does (.imgBlockRx p true addrs kind body fail) s (fun t => ∃ v st w, (v, st) = s.chainPiece p.val off bs ∧ acked v w ∧
        w.out = ack off st :: v.out ∧ t = if st = 0 then w.chainCommit p.val len fail else w)) ∧
      (new → s.bit 0x900104 31 = true → s.sys.upd = none → off = 0 → 8 ≤ bs.length → bs.length < 512 →
        let k := byteAt bs 6
        1 ≤ k → k ≤ 3 → ¬(k = 1 ∧ (s.slotAt s.runSlot).state = 3) → Does (.imgBlockRx p true addrs kind body fail) s (fun t =>
          t.out = ack 0 0 :: s.out ∧ ∃ u, t.sys.upd = some u ∧ u.src = 2 + p.val ∧ u.target = k - 1 ∧ u.header = false ∧
            Memory.read u.data 0 bs.length = bs ∧ (k = 1 → t.slotAt (1 - s.runSlot) = { s.slotAt (1 - s.runSlot) with state := 4, attempted := false })))) ∧
    (∀ (frame : List Byte) (m : RigMsg) (raw : Nat), s.rigMsg p.val 3 frame = some m → m.hops = 0 → m.body.length = 8 →
      let off := fieldLE m.body 0 4
      let st := fieldLE m.body 4 4
      let late : Prop := ∀ (x : Transfer) (w : Nat × Nat × Stamp), sending s = some x → x.wait.find? (fun w => w.1 = off) = some w →
        1 < w.2.1 ∧ raw ≤ w.2.2
      (late → Does (.imgAckRx p true frame raw) s (counts 0x4C)) ∧
      ∀ x, sending s = some x → ¬late →
        (st ≠ 0 → Does (.imgAckRx p true frame raw) s (fun t => SameBut [.tb, .ptp] s t ∧ sending t = none)) ∧
        (st = 0 → (∀ w ∈ x.wait, w.1 = off) → x.image.length ≤ x.next → Does (.imgAckRx p true frame raw) s (fun t =>
          SameBut [.ptp] s t ∧ sending t = none)) ∧
        (st = 0 → x.next < x.image.length → Does (.imgAckRx p true frame raw) s (fun t => SameBut [.out, .ptp] s t ∧
          ∃ y, sending t = some y ∧ y.image = x.image ∧ (8 ≤ y.wait.length ∨ y.image.length ≤ y.next)))) ∧
    (∀ (off : Nat) (x : Transfer) (w : Nat × Nat × Stamp), sending s = some x → x.wait.find? (fun w => w.1 = off) = some w →
      (9 ≤ w.2.1 → Does (.imgResendTimeout p off) s (fun t => SameBut [.tb, .ptp] s t ∧ sending t = none)) ∧
      (w.2.1 < 9 → Does (.imgResendTimeout p off) s (fun t => SameBut [.out, .ptp] s t ∧
        (∃ b, t.out = .eth p.val (s.rigHead p.val) 0x88B5 [] b :: s.out) ∧
        sending t = some { x with wait := x.wait.map (fun v => if v.1 = off then (off, v.2.1 + 1, s.rawNow) else v) }))))

/-- AUX RUNNING, the field die present. A periodic trigger or RSCAN of the converter's RTRIG starts its regular sequence at the first entry, or
counts as missed while one runs; ISCAN starts the injected one, which interrupts the regular entry and a calibration, or counts as missed.
The sampling instant keeps channel, corrected stamp and its epoch, flags, the coefficients then in force, and whether a charge amplifier was
held, whose output reads zero. The end of a conversion clears it and puts the corrected, clipped code into the data register, with RANGE
where it was clipped and OVR where the last result was not read; the sequence goes to its next entry, or ends. With no entry and no
calibration the converter powers down. The start of a frame is kept with it and starts the sequences whose RTRIG names it. AUX RUNNING, the
field die present. The forwarder takes a new result, of two the earlier first (one of an earlier epoch is), ADC_A on a tie: it is marked
read, counted and gets the next sequence number; one outside the plausibility pair joins the open word with its code, channel, converter,
flags and corrected stamp. The packer's timeout closes the word. The router takes the queue's first word, counts its samples, and writes
each to the ring at the next index, unless a record's range protects the slot: then it counts there and joins a gap. When due, a record's
range gets as last index the last held one within the record. -/
def Obligations.Converters : Prop :=
  (∀ (s : State) (x : Fin 2), s.part.field = true → s.runs .aux = true →
    let a := s.adcAt x.val
    let y (t : State) := t.adcAt x.val
    let more (r : Nat) (t : State) : Prop := SameBut [.regs] s t ∧ t.reg r = min (s.reg r + 1) 0xFFFFFFFF
    (∀ c : Instr, (c = .adcPeriodicTrigger x ∧ s.rTrig x.val = 2 ∨ c = .rscan x ∧ s.rTrig x.val = 4) → 0 < s.rLen x.val →
      (a.scan = false → Does c s (fun t => SameBut [.field] s t ∧ y t = { a with scan := true, pos := 0, down := false })) ∧
      (a.scan = true → Does c s (more 0x700108))) ∧
    (s.iTrig x.val = 21 → 0 < s.iLen x.val →
      (a.inj = none → Does (.iscan x) s (fun t => SameBut [.field] s t ∧
        y t = { a with inj := some 0, smp := none, cal := false, calWait := a.calWait || a.cal, down := false })) ∧
      (a.inj.isSome = true → Does (.iscan x) s (more 0x70010C))) ∧
    (∀ (t0 : Stamp) (ch : Nat) (inj : Bool), a.smp = none → s.adcEntry x.val = some (ch, inj) →
      Does (.adcSamplingInstant x t0) s (fun t => SameBut [.field] s t ∧
        y t = { a with smp := some { ch := ch, inj := inj, t := s.adcStamp ch t0, flags := s.instantFlags ch t0,
                                     ofs := sx 16 (s.fld (aAdcCal x.val) 15 0), gain := s.fld (aAdcCal x.val) 31 16, zero := s.chargeHeld ch, mark := s.stampMark } })) ∧
    (∀ (raw : Int) (m : AdcSample), a.smp = some m → voltOf m.ch = none →
      let z := ((if m.zero = true then m.ofs else raw) - m.ofs) * m.gain / 32768
      let code := max (-32768) (min 32767 z)
      let clip : Nat := if code = z then 0 else 2
      Does (.adcConversionDone x raw) s (fun t => (y t).smp = none ∧
        (y t).res = { isNew := true, inj := m.inj, ch := m.ch, flags := m.flags ||| clip ||| b2n a.res.isNew, code := code, t := m.t, mark := m.mark } ∧
        (m.inj = false → (y t).pos = (if a.pos + 1 < s.rLen x.val then a.pos + 1 else 0) ∧
          (a.scan = true → (y t).scan = (decide (a.pos + 1 < s.rLen x.val) || decide (s.rTrig x.val = 1)))) ∧
        ∀ i, m.inj = true → a.inj = some i → (y t).inj = if i + 1 < s.iLen x.val then some (i + 1) else none)) ∧
    (s.adcEntry x.val = none → a.cal = false → Does (.adcPowerDown x) s (fun t =>
      SameBut [.field] s t ∧ y t = { a with down := true })) ∧
    (∀ fr : FrameTime, s.trig.frames.find? (fun fr => !fr.started) = some fr → Does .frameStart s (fun t =>
      (∀ g ∈ t.trig.frames, g.n = fr.n → g.started = true) ∧ (s.rTrig x.val = 3 → 0 < s.rLen x.val → a.scan = false →
        y t = { a with scan := true, pos := 0, down := false })))) ∧
  (∀ s : State, s.part.field = true → s.runs .aux = true →
    let more (r n : Nat) (t : State) : Prop := t.reg r = min (s.reg r + n) 0xFFFFFFFF
    (∀ x : Fin 2,
      let a := (s.adcAt x.val).res
      let b := (s.adcAt (1 - x.val)).res
      let before (p q : AdcResult) : Prop := p.mark.epoch < q.mark.epoch ∨ p.mark.epoch = q.mark.epoch ∧ p.t < q.t
      let same : Prop := a.mark.epoch = b.mark.epoch ∧ a.t = b.t
      a.isNew = true →
      (b.isNew = false ∨ before a b ∨ same ∧ x = 0 → Does (.sampleForward x) s (fun t =>
        (t.adcAt x.val).res.isNew = false ∧ t.field.sseq = (s.field.sseq + 1) % 2 ^ 32 ∧ more 0x700100 1 t ∧
        (s.plCh ≠ some a.ch → (s.queueAt 96).openWord.length < 4 → a.ch < 32 → (t.queueAt 96).openWord = (s.queueAt 96).openWord ++
          [pack 12 [(0, 2, ux 16 a.code),
                    (2, 1, a.ch + 32 * x.val + 64 * b2n a.inj + 128 * b2n (a.t % 65536 ≠ 0)),
                    (3, 1, a.flags), (4, 4, s.field.sseq), (8, 4, a.t / 65536)]]))) ∧
      (b.isNew = true → before b a ∨ same ∧ x = 1 → Does (.sampleForward x) s (fun t =>
        (t.adcAt 0).res.isNew = false ∧ (t.adcAt 1).res.isNew = false ∧ t.field.sseq = (s.field.sseq + 2) % 2 ^ 32 ∧ more 0x700100 2 t))) ∧
    Does .auxPackerTimeout s (fun t => (t.queueAt 96).openWord = [] ∧ SameBut [.regs, .tb, .order, .queues, .bellows, .bgs] s t) ∧
    (∀ (xs : List (List Byte)) (rest : List QItem), (s.queueAt 96).items = .samples xs :: rest →
      Does (.sampleRoute {}) s (fun t => (t.queueAt 96).items = rest ∧ more (aQ 96 oQOUT) xs.length t ∧
        ∀ b : List Byte, xs = [b] → s.ringLen ≠ 0 → s.field.ringGap = none →
          let at_ := s.sampleStamp b
          (s.ringProtected = false → t.field = { s.field with ringNext := s.field.ringNext + 1 } ∧
            t.hread (s.ringAddr s.field.ringNext) 16 = pack 16 [(0, 8, at_ / 65536), (8, 2, fieldLE b 0 2), (10, 1, byteAt b 2),
              (11, 1, byteAt b 3), (12, 4, fieldLE b 4 4)]) ∧
          (s.ringProtected = true → t.field.ringNext = s.field.ringNext ∧ t.field.ringGap = some (at_, 1, 2) ∧ more 0x700118 1 t))) ∧
    (∀ (seg : Fin 64) (r : RingRange) (rec_ : Record), s.hearth.rangeDue.contains seg.val = true →
      s.field.ranges.find? (fun r => r.seg = seg.val) = some r → (s.segAt seg.val).record = some rec_ →
      Does (.ringRangeLast seg) s (fun t => t.hearth.rangeDue.contains seg.val = false ∧
        ∃ r', t.field.ranges.find? (fun r => r.seg = seg.val) = some r' ∧ r'.first = r.first ∧
          r'.last = some ((s.ringHeld.filter (fun i => decide (r.first ≤ i) && decide (s.ringStamp i ≤ rec_.upto))).foldl max (r.first - 1)))))

/-- The field die is up. RESET closes the switches of its mask and no other; the end of a reset opens one and keeps when. A write of an
exciter's register sets enable, amplitude and frequency; disabled, nothing waits; enabled or changed, it waits; SETTLING stands, of a
disabled one too (log entry 73: the model's choice). At the zero crossing the register's frequency and amplitude, within their limits, come
into force and the exciter settles; 20 periods later it has settled. AUX RUNNING, the field die present. A calibration begins at once, or
waits for the injected sequence; one that is due likewise, started by Temper, and stays due in a post-trigger window, beside another service
step, or while the host calibrates the converter. At its end coefficients within the limits are taken, others are counted as failed. A
window comparator that trips makes the conversion of its input in progress INVALID and, unless BREAK stands, waits for the next; releasing
it is kept. An LVDT sum's trip sets BREAK of both channels, its release clears both. The test of a charge input begins while no segment is
active and no other step runs, else stays due, and ends with the input opened and BREAK set where its capacitance is below 50 pF. -/
def Obligations.FieldInputs : Prop :=
  (∀ s : State, s.fieldUp = true →
    (∀ mask : BitVec 8, Does (.chargeAmpReset mask) s (fun t => SameBut [.field] s t ∧
      ∀ n : Fin 8, (t.ampAt n.val).closed = (bitOf mask.toNat n.val || (s.ampAt n.val).closed))) ∧
    (∀ n : Fin 8, (s.ampAt n.val).closed = true → Does (.chargeResetEnd n) s (fun t => SameBut [.field] s t ∧
      t.ampAt n.val = { closed := false, test := false, openAt := some s.rawNow } ∧ ∀ m, m ≠ n.val → t.ampAt m = s.ampAt m)) ∧
    (∀ (n : Fin 2) (v : Word),
      let a := aExc n.val
      let en := bitOf v.toNat 31
      Does (.excWrite n v) s (fun t => SameBut [.regs, .field] s t ∧
        t.bit a 31 = en ∧ t.bit a 30 = s.bit a 30 ∧ t.fld a 26 0 = v.toNat % 2 ^ 27 ∧
        (t.excAt n.val).freq = (s.excAt n.val).freq ∧ (t.excAt n.val).amp = (s.excAt n.val).amp ∧
        (en = false → (t.excAt n.val).pend = false) ∧
        (en = true → s.bit a 31 = false ∨ v.toNat % 2 ^ 27 ≠ s.fld a 26 0 → (t.excAt n.val).pend = true))) ∧
    (∀ n : Fin 2, s.bit (aExc n.val) 31 = true → (s.excAt n.val).pend = true → Does (.excitationApply n) s (fun t =>
      SameBut [.regs, .tb, .field] s t ∧ t.bit (aExc n.val) 30 = true ∧
      t.excAt n.val = { freq := max 10000 (min 200000 (s.fld (aExc n.val) 17 0)), amp := max 50 (min 350 (s.fld (aExc n.val) 26 18)),
                        pend := false })) ∧
    (∀ n : Fin 2, s.bit (aExc n.val) 30 = true → Does (.excitationSettled n) s (fun t =>
      SameBut [.regs, .tb] s t ∧ t.bit (aExc n.val) 30 = false ∧ t.fld (aExc n.val) 29 0 = s.fld (aExc n.val) 29 0))) ∧
  (∀ s : State, s.part.field = true → s.runs .aux = true →
    (∀ x : Fin 2,
      let a := s.adcAt x.val
      let begun : Adc := if a.inj.isSome = true then { a with calWait := true } else
        { a with cal := true, calWait := false, smp := none, down := false }
      (a.cal = false → Does (.adcCalibration x) s (fun t => SameBut [.field] s t ∧ t.adcAt x.val = begun)) ∧
      (a.cal = false → s.runs .bgs = true → s.inPost = false → s.svcBusy = false → Does (.adcCalibrationDue x) s (fun t =>
        SameBut [.field, .bgs] s t ∧ t.adcAt x.val = { begun with calTemper := true })) ∧
      (s.runs .bgs = true → a.calTemper = false → (s.inPost = true ∨ s.svcBusy = true ∨ a.cal = true) →
        Does (.adcCalibrationDue x) s (fun t => SameBut [.bgs] s t ∧ 0x300 + x.val ∈ t.bgs.due)) ∧
      (∀ (ofs : Int) (gain : Nat), a.cal = true →
        let ok : Prop := ofs.natAbs ≤ 200 ∧ ((gain : Int) - 32768).natAbs * 50 ≤ 32768
        Does (.adcCalibrationDone x ofs gain) s (fun t =>
          SameBut [.regs, .tb, .field] s t ∧ t.adcAt x.val = { a with cal := false, calTemper := false } ∧
          (ok → t.fld (aAdcCal x.val) 31 16 = gain ∧ sx 16 (t.fld (aAdcCal x.val) 15 0) = ofs) ∧
          (¬ok → t.reg (aAdcCal x.val) = s.reg (aAdcCal x.val) ∧ t.reg 0x70011C = min (s.reg 0x70011C + 1) 0xFFFFFFFF)))) ∧
    (∀ v : Fin 4,
      Does (.voltageBreakTrip v) s (fun t => SameBut [.field] s t ∧ t.voltAt v.val = { tripped := true, next := !s.broken (12 + v.val) } ∧
        ∀ (x : Fin 2) (m : AdcSample), (s.adcAt x.val).smp = some m → m.ch = 12 + v.val →
          (t.adcAt x.val).smp = some { m with flags := m.flags ||| 4 }) ∧
      Does (.voltageBreakRelease v) s (fun t => SameBut [.field] s t ∧ t.voltAt v.val = { s.voltAt v.val with tripped := false })) ∧
    (∀ k : Fin 2,
      let both (b : Bool) (t : State) : Prop := SameBut [.regs, .tb] s t ∧ t.broken (8 + 2 * k.val) = b ∧ t.broken (9 + 2 * k.val) = b ∧
        ∀ c, c ≠ 8 + 2 * k.val → c ≠ 9 + 2 * k.val → t.broken c = s.broken c
      (s.bit (aExc k.val) 31 = true → s.bit (aExc k.val) 30 = false → Does (.lvdtSumTrip k) s (both true)) ∧
      Does (.lvdtSumRelease k) s (both false)) ∧
    (∀ n : Fin 8, s.runs .bgs = true → s.inputOn n.val = true → s.segActive = false → s.svcBusy = false →
      Does (.chargeInputTest n) s (fun t => SameBut [.field, .bgs] s t ∧ t.field = { s.field with testing := some n.val })) ∧
    (∀ n : Fin 8, s.runs .bgs = true → s.inputOn n.val = true → s.field.testing ≠ some n.val → (s.segActive = true ∨ s.svcBusy = true) →
      Does (.chargeInputTest n) s (fun t => SameBut [.bgs] s t ∧ 0x700 + n.val ∈ t.bgs.due)) ∧
    (∀ (n : Fin 8) (cap : Nat), s.field.testing = some n.val → Does (.chargeInputTestDone cap) s (fun t =>
      SameBut [.regs, .tb, .field] s t ∧ t.field.testing = none ∧ t.ampAt n.val = { openAt := some s.rawNow } ∧
      t.broken n.val = decide (cap < 50))))

/-- AOU RUNNING, the field die present. An update gives every output that is not under test its register's value, or its slot's times GAIN
plus offset, within its range, clears STALE, and takes the values of the slots. A stale output goes to its SAFE code, off where that is 0.
Readbacks are kept; a loop error sets LERR and counts unless it stands, the output is off or the chip lacks Tongs, and its end clears it. A loop test
steps the code by TSTEP, downwards if it would pass 21 mA, compares the readback's change, restores the code, and ends, with TFAIL and a
count where it failed. A new code cancels it before the restoration, and after it only takes the last comparison out; that, and that a
stale output drops its test, are the model's choices (log entry 73). -/
def Obligations.OutputCodes : Prop :=
  ∀ s : State, s.part.field = true → s.runs .aou = true →
    let code (k : Nat) (t : State) : Nat := t.fld (aOut k 4) 15 0
    let range (k : Nat) (z : Int) : Nat := (if k < 6 then max 9831 (min 57344 z) else max 0 (min 65535 z)).toNat
    (s.field.aplan ≠ [] → Does .aouUpdate s (fun t => SameBut [.regs, .tb, .slots, .field] s t ∧ ∀ k : Fin 8, s.loopTest k.val = none →
      (s.aoSrc k.val ≠ 1 → code k.val t = range k.val (s.fld (aOut k.val 0) 15 0)) ∧
      ∀ m : Fin 8, s.aoSrc k.val = 1 → s.aoSlot k.val = m.val → t.slots[m] = none ∧
        ∀ (v : Word) (t0 : Stamp), s.slots[m] = some (v, t0) →
          code k.val t = range k.val (s.aoOfs k.val + v.toInt * s.aoGain k.val / 65536) ∧ t.bit (aOut k.val 4) 30 = false)) ∧
    (s.field.aplan ≠ [] → Does .aouUpdate s (fun t => ∀ (k : Fin 8) (x : LoopTest), s.loopTest k.val = some x → s.aoSrc k.val ≠ 1 →
      let v := range k.val (s.fld (aOut k.val 0) 15 0)
      v ≠ (if x.restored = true then code k.val s else x.base) →
        code k.val t = v ∧ t.loopTest k.val = if x.restored = true then some { x with demanded := true } else none)) ∧
    (∀ o : Fin 8, s.aoSrc o.val = 1 → s.aoStaleTmo o.val ≠ 0 → s.bit (aOut o.val 4) 30 = false → Does (.aouStaleTimeout o) s (fun t =>
      SameBut [.regs, .tb, .field] s t ∧ t.loopTest o.val = none ∧ t.bit (aOut o.val 4) 30 = true ∧
      (s.aoSafe o.val = 0 → code o.val t = 0 ∧ t.bit (aOut o.val 4) 28 = true) ∧
      (s.aoSafe o.val ≠ 0 → code o.val t = range o.val (s.aoSafe o.val) ∧ t.bit (aOut o.val 4) 28 = false))) ∧
    (∀ (o : Fin 6) (rb : BitVec 16),
      let k := o.val
      let read (t : State) : Prop := t.fld (aOut k 8) 15 0 = rb.toNat
      Does (.aouLoopError o rb) s (fun t => SameBut [.regs, .tb] s t ∧ read t ∧
        (s.bit (aOut k 4) 31 = false → s.bit (aOut k 4) 28 = false → s.nonHolder = false →
          t.bit (aOut k 4) 31 = true ∧ t.reg (aOut k 0x14) = min (s.reg (aOut k 0x14) + 1) 0xFFFFFFFF) ∧
        (s.bit (aOut k 4) 31 = true ∨ s.bit (aOut k 4) 28 = true ∨ s.nonHolder = true →
          t.reg (aOut k 4) = s.reg (aOut k 4) ∧ t.reg (aOut k 0x14) = s.reg (aOut k 0x14))) ∧
      Does (.aouLoopErrorClear o rb) s (fun t => SameBut [.regs, .tb] s t ∧ read t ∧ t.bit (aOut k 4) 31 = false) ∧
      (s.aoTestInt k ≠ 0 → s.inPost = false → s.loopTest k = none → s.bit (aOut k 4) 28 = false → s.nonHolder = false →
        let d : Int := (s.aoTstep k * 4 * 65536 / 24000 : Nat)
        let step : Int := if 57344 < code k s + d then -d else d
        Does (.aouLoopTestStart o rb) s (fun t => SameBut [.regs, .field] s t ∧ read t ∧
          t.loopTest k = some { base := code k s, delta := step, before := rb.toNat } ∧ (code k t : Int) = code k s + step ∧
          t.bit (aOut k 4) 29 = true)) ∧
      (∀ x : LoopTest, s.loopTest k = some x →
        let want : Int := (if x.delta < 0 then -1 else 1) * (s.aoTstep k * 4 * 65536 : Nat)
        let got : Int := ((rb.toNat : Int) - x.before) * 24000
        let fail : Bool := x.failed || (!x.demanded && decide (8 * 65536 < got.natAbs))
        Does (.aouTestCompare o rb) s (fun t => SameBut [.regs, .field] s t ∧ read t ∧
          t.loopTest k = some { x with failed := x.failed || decide (max 8 (s.aoTstep k) * 65536 < (got - want).natAbs) }) ∧
        (x.base < 65536 → x.restored = false → Does (.aouTestRestore o) s (fun t => SameBut [.regs, .field] s t ∧ code k t = x.base ∧
          t.loopTest k = some { x with restored := true })) ∧
        (x.restored = true → Changes [] (.aouTestRestore o) s) ∧
        Does (.aouTestResult o rb) s (fun t => SameBut [.regs, .tb, .field] s t ∧ read t ∧ t.loopTest k = none ∧ t.bit (aOut k 4) 29 = false ∧
          (fail = true → t.bit (aOut k 4) 27 = true ∧ t.reg (aOut k 0xC) = min (s.reg (aOut k 0xC) + 1) 0xFFFFFFFF) ∧
          (fail = false → t.bit (aOut k 4) 27 = s.bit (aOut k 4) 27 ∧ t.reg (aOut k 0xC) = s.reg (aOut k 0xC)))))

/-- PAIR RUNNING on a part with a mirror port. A heartbeat leaves on every lane that carries messages, a block of 32 bytes with the role, and a
request for a resynchronisation with it. One received in its turn on a lane in run: late, it only counts; equal HOME straps or unequal parts fault PAIR; the holder is HOLDER while its partner follows or joins, else
ALONE; a member without Tongs joins a holder. Without heartbeats the holder is ALONE, a joining member WAITING, a follower ORPHAN while
TONGS_IN is asserted. TONGS_IN is followed; with HOME 0 a tie within 500 ns is yielded. Its release is answered by taking hold, HOLDER or
ALONE, and the own decisions then serve. A silent heartbeat releases Tongs. No lane in run faults PAIR. A join ends in FOLLOWER, on
translated time. The bodies' layout (log entry 74), lateness by the raw counter and the kept translation (log entry 77), and what
taking hold asks for (log entry 76) are the model's choices. -/
def Obligations.RolesAndTongs : Prop :=
  ∀ s : State, s.part.mirror = true → s.runs .pair = true →
    let more (a : Nat) (t : State) : Prop := t.reg a = min (s.reg a + 1) 0xFFFFFFFF
    let lanes := (upTo 8).filter (fun m => decide (4 ≤ s.mlStage m) && decide (s.mlStage m ≤ 6))
    (lanes ≠ [] → Does .heartbeatTx s (fun t => t.out.length = s.out.length + lanes.length ∧
      t.pair.seq = (s.pair.seq + lanes.length) % 2 ^ 32 ∧ t.pair.resync = false ∧
      ∃ b, t.out.head? = some (.mirror 1 b) ∧ b.length = 32 ∧ byteAt b 0 = 1 ∧ byteAt b 1 = s.role ∧ byteAt b 16 = s.role)) ∧
    (∀ (m : Fin 8) (h : Heartbeat), s.stage (.mir m) ≠ 4 →
      let late : Prop := ∃ t0, s.pair.lost = some t0 ∧ s.rawNow ≤ t0
      let good : Prop := ¬late ∧ h.home ≠ s.home ∧ h.part = s.part.number
      let joins : Prop := h.tongs = true ∧ (h.role = 4 ∨ h.role = 5) ∧ s.role ≠ 3 ∧ s.role ≠ 2
      (late → InTurn (fun q => .heartbeatRx m ⟨q, h⟩) s (fun t => SameBut [.regs] s t ∧ more 0x780110 t)) ∧
      (¬late → h.home = s.home → InTurn (fun q => .heartbeatRx m ⟨q, h⟩) s (fun t => t.fnState .pair = .fault ∧ (t.fn .pair).faultCode = 1)) ∧
      (¬late → h.home ≠ s.home → h.part ≠ s.part.number → InTurn (fun q => .heartbeatRx m ⟨q, h⟩) s (fun t =>
        t.fnState .pair = .fault ∧ (t.fn .pair).faultCode = 2)) ∧
      (good → s.holds = true → InTurn (fun q => .heartbeatRx m ⟨q, h⟩) s (fun t => SameBut [.out, .regs, .pair] s t ∧
        t.pair.partner = some h ∧ t.pair.lost = none ∧ t.role = if h.role = 3 ∨ h.role = 2 then 4 else 5)) ∧
      (good → s.holds = false → joins → InTurn (fun q => .heartbeatRx m ⟨q, h⟩) s (fun t => t.role = 2 ∧ t.pair.partner = some h ∧ t.pair.own = [])) ∧
      (good → s.holds = false → ¬joins → InTurn (fun q => .heartbeatRx m ⟨q, h⟩) s (fun t =>
        SameBut [.pair] s t ∧ t.pair = { s.pair with partner := some h, lost := none }))) ∧
    (s.pair.partner.isSome = true →
      (¬(s.role = 3 ∧ s.tongsIn = true) → Does .heartbeatTimeout s (fun t => SameBut [.regs, .tb, .pair] s t ∧
        t.role = (if s.holds = true then 5 else if s.role = 2 then 1 else s.role) ∧ more 0x78010C t ∧
        t.pair = { s.pair with partner := none, lost := some s.rawNow, rxNext := none, held := [] })) ∧
      (s.holds = false → s.role = 3 → s.tongsIn = true → Does .heartbeatTimeout s (fun t => ∃ u, t = u.ownServe ∧
        u.role = 6 ∧ u.sync ≠ 4 ∧ more 0x78010C u ∧ u.pair = { s.pair with partner := none, lost := some u.rawNow, rxNext := none, held := [] }))) ∧
    (∀ asserted : Bool,
      let tie : Prop := asserted = true ∧ s.holds = true ∧ s.pairPresent = true ∧ s.home = false ∧
        ∃ t0, s.pair.tookAt = some t0 ∧ s.rawNow ≤ t0 + 500 * 65536
      Does (.tongsInChange asserted) s (fun t => SameBut [.regs, .tb, .pair] s t ∧ t.tongsIn = asserted ∧
        (tie → t.holds = false ∧ t.role = 1) ∧ (¬tie → t.holds = s.holds ∧ t.role = s.role ∧ t.pair = s.pair))) ∧
    (s.pairPresent = true → s.holds = false → s.tongsIn = false → (∀ f ∈ captureFns, s.fnState f ≠ .fault) →
      Does .tongsTakeHold s (fun t => ∃ u l, t = u.ownServe.logDev .pair 1 0 l ∧ u.holds = true ∧ u.sync ≠ 4 ∧ more 0x780118 u ∧
        u.role = (if s.pair.partner.isSome = true then 4 else 5) ∧ u.pair.tookAt = some u.rawNow ∧ u.pair.handover = none)) ∧
    (s.pairPresent = true → s.holds = true → Does .heartbeatSilent s (fun t => SameBut [.regs, .tb, .pair] s t ∧
      t.holds = false ∧ t.role = 1 ∧ t.pair = { s.pair with handover := none })) ∧
    (s.mirrorUp = false → Does .mirrorLaneFault s (fun t => t.fnState .pair = .fault ∧ (t.fn .pair).faultCode = 3 ∧
      t.role = if s.holds = true then 5 else 0)) ∧
    (s.role = 2 → Does .joinComplete s (fun t => t.role = 3 ∧ t.sync = 4 ∧ t.pair.joinedAt = some s.nextFrame ∧
      ((∀ i, i < 64 → (s.segAt i).phase ≠ .armed) → t.hearth = s.hearth ∧ t.trig = s.trig) ∧
      ∀ i, (upTo 64).find? (fun i => (s.segAt i).phase = .armed) = some i → s.hearth.opens = [] →
        (t.segAt i).phase = .armed ∧ t.hearth.act = some { seg := i, f0 := s.nextFrame }))

/-- PAIR RUNNING on a part with a mirror port, this member FOLLOWER, each message in its turn. STATE carries the pieces of an image,
loaded when complete and its CRC is right, a mirrored register, a function's command with its stamp, the pending time trigger, a step of
time. SCHED appends a frame with its number and time and sets the next one's number, or refines the frame it holds. A decision takes the
place of the own one of the same stamps, or waits for it, and is applied; K drops the own decisions it passes. RECORD arms where the checks
of this member pass too, that of the pace at an ARM alone, whose result it answers; it disarms, numbers the open record, closes, releases.
While joining, STATE and RECORD only set the segment's state; records in POST are not joined. How a member joins (log entry 75), how
SCHED re-aligns and decisions pair (log entry 78) are the model's readings. -/
def Obligations.MirrorCopies : Prop :=
  ∀ s : State, s.part.mirror = true → s.runs .pair = true →
    let img (body : List Byte) (u : State) : Prop := SameBut [.pair] s u ∧ u.pair = { s.pair with img := body }
    (s.role = 3 →
      (∀ (total : Nat) (body : List Byte),
        (body.length < total → InTurn (fun q => .stateRx ⟨q, .image total 0 body⟩) s (img body)) ∧
        (body.length = total → imgCrcOk body = true → InTurn (fun q => .stateRx ⟨q, .image total 0 body⟩) s (fun t => ∃ u, img [] u ∧ t = u.loadImage body)) ∧
        (body.length = total → imgCrcOk body = false → InTurn (fun q => .stateRx ⟨q, .image total 0 body⟩) s (img []))) ∧
      (∀ a seg tile v : Nat, mirroredReg a = true → s.present a = true →
        (isSegReg a = true → InTurn (fun q => .stateRx ⟨q, .reg a seg tile v⟩) s (fun t => SameBut [.hearth] s t ∧
          t.segAt (seg % 64) = (s.segAt (seg % 64)).written tile (a - HRT) v)) ∧
        (isSegReg a = false → InTurn (fun q => .stateRx ⟨q, .reg a seg tile v⟩) s (fun t => SameBut [.regs] s t ∧
          t.reg a = merged (specOf a) (s.reg a) v false % 2 ^ 32 ∧ ∀ b, b ≠ a → t.reg b = s.reg b))) ∧
      (∀ (f : Fn) (k at_ : Nat), f ∈ captureFns → InTurn (fun q => .stateRx ⟨q, .fnCmd f k at_⟩) s (fun t => ∃ u v, SameBut [.pair] s u ∧
        u.pair = { s.pair with cmdAt := some at_ } ∧ v = (u.fnCommand f k).1 ∧ SameBut [.pair] v t ∧ t.pair = { v.pair with cmdAt := none })) ∧
      (∀ ns : Nat, InTurn (fun q => .stateRx ⟨q, .timeTrig ns⟩) s (fun t => SameBut [.trig] s t ∧
        t.trig = { s.trig with timeTrig := some ns, timeStamp := some (ns * 65536) })) ∧
      (∀ d : Int, InTurn (fun q => .stateRx ⟨q, .step d⟩) s (fun t => t.tb = { s.tb with pend := some (.by d) } ∧ t.bit aTbStat 28 = true)) ∧
      (∀ n T : Nat,
        (s.trig.frames.find? (fun fr => fr.n = n) = none → InTurn (fun q => .schedRx ⟨q, n⟩ T) s (fun t => SameBut [.tb, .hearth, .trig] s t ∧
          t.trig.frames = s.trig.frames ++ [{ n := n, sched := T, t := T, copied := true }] ∧ t.trig.seq.nextN = (n + 1) % 2 ^ 32)) ∧
        ∀ fr : FrameTime, s.trig.frames.find? (fun fr => fr.n = n) = some fr → InTurn (fun q => .schedRx ⟨q, n⟩ T) s (fun t =>
          SameBut [.tb, .hearth, .trig] s t ∧
          ∃ g, t.trig.frames.find? (fun fr => fr.n = n) = some g ∧ g.t = T ∧ g.copied = true ∧ g.refined = fr.copied)) ∧
      (∀ d e : Decision, s.counterpart d s.pair.ownDecs = some e → s.agree d e = true → InTurn (fun q => .decisionRx ⟨q, some d⟩ none) s
        (fun t => ∃ u, SameBut [.pair] s u ∧ u.pair = { s.pair with ownDecs := s.pair.ownDecs.erase e } ∧ t = u.applyDecision d)) ∧
      (∀ d : Decision, s.counterpart d s.pair.ownDecs = none → InTurn (fun q => .decisionRx ⟨q, some d⟩ none) s
        (fun t => ∃ u, SameBut [.pair] s u ∧ u.pair = { s.pair with theirDecs := s.pair.theirDecs ++ [d] } ∧ t = u.applyDecision d)) ∧
      (∀ k : Nat, InTurn (fun q => .decisionRx ⟨q, none⟩ (some k)) s (fun t => SameBut [.regs, .tb, .trig, .pair] s t ∧
        t.pair = { s.pair with lastK := some k, ownDecs := s.pair.ownDecs.filter (fun e => !frameLe e.frame k) })) ∧
      (∀ (seg f0 : Nat) (again : Bool) (meas : List (Nat × Nat)),
        let passes : Prop := s.armCheckTrg (seg % 64) = true ∧ s.armCheckHrt (seg % 64) = 0 ∧ (again = true ∨ s.paceRefusal meas = none)
        let answers (t : State) : Prop := again = false → s.mirrorUp = true → ∃ b, t.out.head? = some (.mirror 11 b)
        (passes → InTurn (fun q => .recordRx ⟨q, .arm seg f0 again, meas⟩) s (fun t =>
          (t.segAt (seg % 64)).phase = .armed ∧ (∃ a, t.hearth.act = some a ∧ a.seg = seg % 64 ∧ a.f0 = f0) ∧ t.synced = true ∧ answers t)) ∧
        (¬passes → InTurn (fun q => .recordRx ⟨q, .arm seg f0 again, meas⟩) s (fun t =>
          t.hearth = s.hearth ∧ t.trig = s.trig ∧ answers t))) ∧
      InTurn (fun q => .recordRx ⟨q, .disarm, []⟩) s (fun t => t.trig.seq.run = false ∧
        ∀ a, s.hearth.act = some a → a.post = none → t.hearth.act = none ∧ (a.seg < 64 → (t.segAt a.seg).phase = .empty)) ∧
      (∀ (a : Active) (p : PostInfo) (recno : Nat), s.hearth.act = some a → a.post = some p → a.seg < 64 →
        InTurn (fun q => .recordRx ⟨q, .post a.seg recno, []⟩) s (fun t => SameBut [.hearth] s t ∧
          (t.segAt a.seg).recCount = (recno + 1) % 2 ^ 32 ∧ t.hearth.act = some { a with post := some { p with recno := recno } })) ∧
      (∀ (a : Active) (p : PostInfo) (qact flags cstamp : Nat), s.hearth.act = some a → a.post = some p → a.seg < 64 →
        InTurn (fun q => .recordRx ⟨q, .close a.seg qact flags cstamp, []⟩) s (fun t => ∃ u, t = u.settleFrames ∧ SameBut [.hearth, .pair] s u ∧
          u.hearth.act = some { a with endAfter := some (frameAdd p.t ((qact : Int) - 1)) } ∧
          u.pair.closes = s.pair.closes ++ [(a.seg, qact, flags, cstamp)])) ∧
      (∀ seg : Nat, (s.segAt (seg % 64)).phase = .closed → InTurn (fun q => .recordRx ⟨q, .release seg, []⟩) s (fun t =>
        (t.segAt (seg % 64)).phase = .empty ∧ (t.segAt (seg % 64)).record = none))) ∧
    (s.role = 2 →
      (∀ (i phase n f0 : Nat), i < 64 → InTurn (fun q => .stateRx ⟨q, .segment i phase n f0⟩) s (fun t => SameBut [.hearth, .pair, .jobs] s t ∧
        (t.segAt i).phase = (if phase = 2 then .armed else if phase = 4 then .closed else .empty) ∧ (t.segAt i).recCount = n ∧
        (phase = 2 → t.pair.joinF0 = some f0))) ∧
      (∀ (seg f0 : Nat) (again : Bool), InTurn (fun q => .recordRx ⟨q, .arm seg f0 again, []⟩) s (fun t => SameBut [.hearth, .pair, .jobs] s t ∧
        (t.segAt (seg % 64)).phase = .armed ∧ t.pair.joinF0 = some f0)) ∧
      (∀ seg n f c : Nat, InTurn (fun q => .recordRx ⟨q, .close seg n f c, []⟩) s (fun t => SameBut [.hearth, .jobs] s t ∧
        (t.segAt (seg % 64)).phase = .closed ∧ (t.segAt (seg % 64)).record = none)))

/-- PAIR RUNNING on a part with a mirror port, this member FOLLOWER or HOLDER, each message in its turn. A partner's digest waits until this
member's own is there; equal fragment digests are dropped; one of a frame that has been given up only counts (R23). When none comes for the
oldest frame that waits, the frame is given up: it counts as uncompared, or as DIVERGENT if a global QUENCH caught it (R387). SPACE
truncates the open record to a lower frame, or one that has just closed. QUENCH stops the five functions that carry capture data. The holder
takes a forwarded trigger as source 51, releases a segment, takes a time trigger, plans a hand-over. A bad message counts, and makes a
follower that lost a STATE, DECISION or RECORD join anew and ask for everything. PAIR RUNNING on a part with a mirror port. A message, on a
lane in run, ahead of its turn waits, once; one whose turn has been passed is discarded and counted. When the missing one comes it takes its
effect, and then the one that waited. One that has waited too long takes its effect with the missing ones declared lost; a follower then
joins anew and asks for everything. What orders the messages is SEQ (R375); that one passed is discarded, and that a loss by the timer asks
for everything, is the model's choice (log entry 96). -/
def Obligations.MirrorTraffic : Prop :=
  (∀ s : State, s.part.mirror = true → s.runs .pair = true → s.role = 3 ∨ s.role = 4 →
    (∀ (c : Nat → Instr) (d : DigestNote), ((∃ tile : Fin 48, c = (fun q => .fdigestRx ⟨q, tile⟩ d.frame d.value) ∧ d.tile = tile.val) ∨
        c = (fun q => .digestRx ⟨q, d.frame⟩ d.value) ∧ d.tile = 0xFF) →
      let own := s.pair.own.find? (fun e => e.tile = d.tile && e.frame = d.frame)
      (s.pair.gaveUp.contains d.frame = true → InTurn c s (fun t => SameBut [.regs] s t ∧
        t.reg 0x780114 = min (s.reg 0x780114 + 1) 0xFFFFFFFF)) ∧
      (s.pair.gaveUp.contains d.frame = false → own = none → InTurn c s (fun t => SameBut [.pair] s t ∧ t.pair = { s.pair with theirs := s.pair.theirs ++ [d] })) ∧
      ∀ e, s.pair.gaveUp.contains d.frame = false → own = some e → e.value = d.value → InTurn c s (fun t => t.pair.own = s.pair.own.erase e ∧ t.hearth = s.hearth ∧
        t.reg 0x780100 = s.reg 0x780100 ∧ (d.tile ≠ 0xFF → SameBut [.pair] s t))) ∧
    (∀ (d : DigestNote) (rest : List DigestNote), s.pair.own = d :: rest → d.frame < 2 ^ 32 →
      let gone : PairState :=
        { s.pair with
          own := s.pair.own.filter (fun e => e.frame ≠ d.frame), theirs := s.pair.theirs.filter (fun e => e.frame ≠ d.frame),
          gaveUp := s.pair.gaveUp ++ [d.frame], quenched := s.pair.quenched.erase d.frame,
          fragDiff := s.pair.fragDiff.filter (fun c => c.1 ≠ d.frame) }
      let alone := s.pair.quenched.contains d.frame
      (alone = false → Does .digestTimeout s (fun t =>
        SameBut [.regs, .tb, .pair] s t ∧ t.reg 0x780104 = min (s.reg 0x780104 + 1) 0xFFFFFFFF ∧ t.pair = gone)) ∧
      (alone = true → Does .digestTimeout s (fun t => t.pair = gone ∧ t.reg 0x780104 = s.reg 0x780104 ∧
        (s.markable d.frame = true → s.frameHas d.frame fDIVERGENT = false →
          t.reg 0x780100 = min (s.reg 0x780100 + 1) 0xFFFFFFFF)))) ∧
    (∀ (a : Active) (n : Nat), s.hearth.act = some a → s.inOpenRecord n = true → (∀ t0, a.trunc = some t0 → frameLt n t0 = true) →
      InTurn (fun q => .spaceRx ⟨q, n⟩) s (fun t => t.out = s.out ∧ t.hearth.act = some { a with trunc := some n } ∧
        t.hearth.ring = s.hearth.ring.filter (fun fr => frameLt fr.n n))) ∧
    (∀ (n i : Nat) (r : Record), s.inOpenRecord n = false → s.closedWith n = some (i, r) →
      InTurn (fun q => .spaceRx ⟨q, n⟩) s (fun t => ∃ x, (t.segAt i).record = some x ∧ x.tframe = r.tframe ∧
        x.qact = frameDiff n r.tframe ∧ x.rflags % 2 = 1)) ∧
    (∀ T : Nat, InTurn (fun q => .quenchRx ⟨q, T⟩) s (fun t => ∀ f : Fn, t.fnState f =
      if f ∈ captureFns ∧ (s.fnState f = .starting ∨ s.fnState f = .running ∨ s.fnState f = .stopping ∨ s.fnState f = .fault)
      then .stopped else s.fnState f)) ∧
    (s.role = 4 →
      (∀ (stamp : Stamp) (force : Bool), s.runs .trg = true → s.srcOn 51 = true → s.srcLate stamp s.tb.epochs = false →
        InTurn (fun q => .forwardRx ⟨q, .trigger stamp force⟩) s (fun t => t.trig.items = s.trig.items ++ [(stamp, .edge 51 force)])) ∧
      (∀ seg : Nat, (s.segAt (seg % 64)).phase = .closed → InTurn (fun q => .forwardRx ⟨q, .release seg⟩) s (fun t =>
        (t.segAt (seg % 64)).phase = .empty)) ∧
      (∀ ns : Nat, s.runs .trg = true → s.nowFine + s.horizon < ns * 65536 → InTurn (fun q => .forwardRx ⟨q, .timeTrigger ns⟩) s (fun t =>
        t.trig.timeTrig = some ns)) ∧
      (∀ h n : Nat, s.canHandOver = true → InTurn (fun q => .forwardRx ⟨q, .handover h n⟩) s (fun t => t.pair.handover = some (s.handoverAt h)))) ∧
    (∀ type : Nat,
      let again : Prop := s.role = 3 ∧ (type = 2 ∨ type = 4 ∨ type = 5)
      (¬again → InTurn (fun q => .mirrorMessageBad ⟨q, type⟩) s (fun t => SameBut [.regs] s t ∧ t.reg 0x780114 = min (s.reg 0x780114 + 1) 0xFFFFFFFF)) ∧
      (again → InTurn (fun q => .mirrorMessageBad ⟨q, type⟩) s (fun t =>
        t.role = 2 ∧ t.pair.partner = s.pair.partner ∧ t.pair.own = [] ∧ t.pair.resync = true)))) ∧
  (∀ s : State, s.part.mirror = true → s.runs .pair = true → (∀ m : Fin 8, s.stage (.mir m) ≠ 4) →
    (∀ (c : Nat → Instr) (m : MirMsg) (q : Nat), Carries c m s.rawNow →
      (0 < s.seqAhead q → s.seqAhead q < 2 ^ 31 → (∀ e ∈ s.pair.held, e.1 ≠ q) → Does (c q) s (fun t =>
        SameBut [.pair] s t ∧ t.pair = { s.pair with held := s.pair.held ++ [(q, m)] })) ∧
      (0 < s.seqAhead q → s.seqAhead q < 2 ^ 31 → (∃ e ∈ s.pair.held, e.1 = q) → Changes [] (c q) s) ∧
      (2 ^ 31 ≤ s.seqAhead q → Does (c q) s (fun t => SameBut [.regs] s t ∧
        t.reg 0x780114 = min (s.reg 0x780114 + 1) 0xFFFFFFFF))) ∧
    (∀ (q n : Nat) (m : MirMsg), q < 2 ^ 32 → s.pair.rxNext = some q → s.pair.held = [((q + 1) % 2 ^ 32, m)] →
      Does (.spaceRx ⟨q, n⟩) s (fun t => ∃ u v, SameBut [.pair] s u ∧ u.pair = { s.pair with rxNext := some ((q + 1) % 2 ^ 32) } ∧
        SameBut [.pair] (u.takeSpace n) v ∧ v.pair = { (u.takeSpace n).pair with rxNext := some ((q + 2) % 2 ^ 32), held := [] } ∧
        t = v.mirApply m)) ∧
    (∀ (q : Nat) (m : MirMsg), q < 2 ^ 32 → s.pair.held = [(q, m)] → Does (.deskewTimeout .mirror q) s (fun t => ∃ u,
      t = u.mirApply m ∧ u.pair.rxNext = some ((q + 1) % 2 ^ 32) ∧ u.pair.held = [] ∧
      (s.role ≠ 2 → s.role ≠ 3 → SameBut [.pair] s u) ∧ (s.role = 3 → u.role = 2 ∧ u.pair.resync = true))))

/-- PAIR RUNNING on a part with a mirror port. TIME leaves on every lane in run and its departure is kept; every member stamps a TIME's
arrival, and on a follower it completes an exchange, whose mean path delay is shown. The update of the translation writes OFS, RATE and
TREF and no other register. Where in the bound of R379 RATE brings H is a free value (log entry 9). A holder whose partner follows and with no
segment in POST plans a hand-over for SWAP_ROLE, PAIR_CMD.SWAP, a due swap or the end of its test: the instant, its choice within what R393
allows, and the schedule's first frame are kept and told (log entry 76, as that a home primary takes back by a FORWARD message: the
model's choices). On a follower the command answers NOT_HOLDER, else BAD_ARG. The follower keeps what HANDOVER says; at the instant, not
before, the holder releases Tongs. -/
def Obligations.HandOversAndTime : Prop :=
  ∀ s : State, s.part.mirror = true → s.runs .pair = true →
    let planned (h : Nat) (t : State) : Prop := t.pair.handover = some (s.handoverAt h) ∧
      (s.mirrorUp = true → ∃ b, t.out.head? = some (.mirror 12 b))
    let run := (upTo 8).filter (fun m => s.mlStage m = 6)
    let arrived : Stamp := stampInt ((s.mirrorRaw : Int) - sx 32 (s.reg 0x780020))
    Does .timeTx s (fun t => SameBut [.out, .pair] s t ∧ t.pair.sent = some s.mirrorRaw ∧ t.out.length = s.out.length + run.length) ∧
    (∀ (dep back : Nat) (t3 : Stamp), s.role = 3 ∨ s.role = 2 → s.pair.sent = some t3 →
      InTurn (fun q => .timeRx ⟨q, dep⟩ back) s (fun t => SameBut [.regs, .pair] s t ∧
        ∃ x : TimeXchg, t.pair = { s.pair with timeAt := some arrived, xchg := some x, xprev := s.pair.xchg } ∧
          x.t1 = dep ∧ x.t3 = t3 ∧ x.t4 = back ∧ x.t2 = stampInt ((arrived : Int) - sx 32 (s.reg 0x780024)) ∧
          t.reg 0x780018 = ux 32 ((((x.t2 : Int) - x.t1) + ((x.t4 : Int) - x.t3)) / 2) ∧
          ∀ a, a ≠ 0x780014 → a ≠ 0x780018 → t.reg a = s.reg a)) ∧
    (∀ dep back : Nat, s.copies = false → InTurn (fun q => .timeRx ⟨q, dep⟩ back) s (fun t => SameBut [.pair] s t ∧
      t.pair = { s.pair with timeAt := some arrived })) ∧
    (∀ x : TimeXchg, s.sync = 4 → s.pair.xchg = some x → Does .pairTimeUpdate s (fun t => SameBut [.freeUse, .regs] s t ∧
      t.freeUse = s.freeUse + 1 ∧ t.reg 0x200068 = s.newRate x s.rawNow ((s.translate s.rawNow : Int) - s.rawNow) ∧
      t.reg 0x20006C = s.rawNow / 65536 % 2 ^ 32 ∧ t.reg 0x200070 = s.rawNow / 65536 / 2 ^ 32 % 2 ^ 32 ∧
      ∀ a, a < 0x200060 ∨ 0x200070 < a → t.reg a = s.reg a)) ∧
    (∀ h n : Nat, s.canHandOver = true →
      (s.pair.testing = true → Does (.roleSwapDue h n) s (fun t => planned h t ∧ t.pair.testing = false)) ∧
      (s.pair.testing = false → s.bit aPairCfg 31 = true → s.synced = true → s.segActive = false → Does (.roleSwapDue h n) s (planned h))) ∧
    (∀ (src : Src) (c : FwCmd) (h n : Nat), s.fwFront src 0x19 = some c →
      (s.role = 3 → Does (.swapRole src h n) s (fun t => Replied s t c 9 ∧ t.pair = s.pair)) ∧
      (s.canHandOver = true → Does (.swapRole src h n) s (fun t => Replied s t c 0 ∧ t.pair.handover = some (s.handoverAt h))) ∧
      (s.role ≠ 3 → s.canHandOver = false → Does (.swapRole src h n) s (fun t => Replied s t c 2 ∧ t.pair = s.pair))) ∧
    (∀ h n : Nat, s.inReset = false →
      (s.role = 3 → Does (.pairSwap h n) s (fun t => SameBut [.fns] s t ∧ (t.fn .pair).lastStatus = 9)) ∧
      (s.canHandOver = true → Does (.pairSwap h n) s (fun t => planned h t ∧ (t.fn .pair).lastStatus = 0)) ∧
      (s.role ≠ 3 → s.canHandOver = false → Does (.pairSwap h n) s (fun t => SameBut [.fns] s t ∧ (t.fn .pair).lastStatus = 2))) ∧
    (∀ (h n : Nat) (test : Bool), s.role = 3 → InTurn (fun q => .handoverRx ⟨q, h⟩ n test) s (fun t => SameBut [.pair] s t ∧
      t.pair = { s.pair with handover := some (h, n), testing := test })) ∧
    (∀ h n : Nat, s.pair.handover = some (h, n) → s.nowFine < h → Changes [] .handoverRelease s) ∧
    (∀ h n : Nat, s.pair.handover = some (h, n) → h ≤ s.nowFine → s.holds = true → s.pairPresent = true → Does .handoverRelease s (fun t =>
      SameBut [.regs, .tb, .pair] s t ∧ t.holds = false ∧ t.role = 1 ∧ t.pair = { s.pair with handover := none })) ∧
    (s.role = 3 → s.home = true → s.bit aPairCfg 30 = true → s.synced = true → s.inPost = false → s.mirrorUp = true →
      Does .takebackDue s (fun t => SameBut [.out, .pair] s t ∧ ∃ b, t.out = .mirror 11 b :: s.out))

/-- On a device that is ready. Through a port with a tunnel and BAR2 open, a read of what the host may read delivers it with the bytes that
memory errors read wrong, and any other read all ones; a write stores where the host may write, and nowhere else; a refused access
counts. A link that comes up shows its generation and its queues go on; one that goes down clears both and stops every queue of its
port, abandoning its descriptor; memory stays unless a WRITE had not all its bytes. A function-level reset stops them too, ends an abortable mailbox command with ABORTED, and clears the
port's MSI-X table. -/
def Obligations.ApertureAndLinks : Prop :=
  ∀ (s : State) (p : Fin 2), s.ready = true →
    let stops (t : State) : Prop := ∀ q, q < 16 → s.dmaPort q = p.val →
      (t.dma q).stopped = true ∧ (t.dma q).op = none ∧ t.bit (aDma q 0x20) 30 = true
    let stored (t : State) : Prop := t.hearth = { s.hearth with mem := t.hearth.mem, rawCheck := t.hearth.rawCheck }
    (s.sys.bar2 = true → s.portUp p.val = true →
      (∀ (o n : Nat) (e : MemErrs),
        let a := s.fld 0x800010 9 0 * 2 ^ 30 + o
        (s.hostReadable a n = true → Does (.apertureRead p o n e) s (fun t =>
          t.out.head? = some (.apData p.val (readWith e a (s.hostRead a n))) ∧ (e.ce = [] → e.ue = [] → SameBut [.out] s t))) ∧
        (s.hostReadable a n = false → Does (.apertureRead p o n e) s (fun t => SameBut [.out, .regs] s t ∧
          t.out = .apData p.val (List.replicate n 0xFF) :: s.out ∧ t.reg 0x800100 = min (s.reg 0x800100 + 1) 0xFFFFFFFF))) ∧
      (∀ (o : Nat) (data : List Byte),
        let a := s.fld 0x800010 9 0 * 2 ^ 30 + o
        (s.hostWritable a data.length = true → Does (.apertureWrite p o data) s (fun t => SameBut [.hearth, .mem] s t ∧ stored t ∧
          t.hread a data.length = data ∧ ∀ b, b < a ∨ a + data.length ≤ b → t.hread b 1 = s.hread b 1)) ∧
        (s.hostWritable a data.length = false → Does (.apertureWrite p o data) s (fun t => SameBut [.regs] s t ∧
          t.reg 0x800100 = min (s.reg 0x800100 + 1) 0xFFFFFFFF)))) ∧
    (∀ gen : Nat, p.val < s.part.usbPorts → 2 ≤ gen → gen ≤ 4 → bitOf s.part.cap0 19 = true ∨ gen < 4 →
      Does (.usb4LinkUp p gen) s (fun t => SameBut [.regs, .host] s t ∧ t.portUp p.val = true ∧
        t.fld 0x800000 (26 + 3 * p.val) (24 + 3 * p.val) = gen ∧ t.portUp (1 - p.val) = s.portUp (1 - p.val) ∧
        ∀ q, q < 16 → s.dmaPort q = p.val → (t.dma q).stopped = false)) ∧
    (s.portUp p.val = true → Does (.usb4LinkDown p) s (fun t => SameBut [.freeUse, .regs, .host, .hearth, .mem] s t ∧ t.portUp p.val = false ∧
      ((∀ q, q < 16 → s.dmaPort q = p.val → ∀ o, (s.dma q).op = some o → o.want = 0) → SameBut [.regs, .host] s t) ∧
      t.fld 0x800000 (26 + 3 * p.val) (24 + 3 * p.val) = 0 ∧ stops t)) ∧
    (p.val < s.part.usbPorts → Does (.functionLevelReset p) s (fun t => stops t ∧ t.host.msix[p] = [] ∧ t.host.pba[p] = [] ∧
      ∀ c, s.fwOf (.port p) = some c → abortable c.code = true → Replied s t c 0x0C))

/-- A write of a queue's tail is kept; HST RUNNING, it is the doorbell that lets a stopped queue go on. A ready queue takes the descriptor at its head, which moves on: one
that its checks refuse finishes with BAD_ARG; READ_RANGE delivers its bytes to HADDR and finishes DONE, or CHECK_FAIL where memory was
uncorrectable; READ_FRAME and READ_DECODED deliver whole frames within HLEN and finish with their number, NO_SPACE where it is short;
WRITE_RANGE asks for its bytes and stores what has come, and a wait that ends without them finishes with TIMEOUT. A finished descriptor is
written to its completion slot once one is free, which a write of the head may do. STOP of HST ends a descriptor in progress ABORTED. That
data moves in the step that takes the descriptor, and that a doorbell lets a queue go on, is the model's reading (log entry 80). -/
def Obligations.DmaQueues : Prop :=
  ∀ (s : State) (q : Fin 16),
    let op (t : State) : Option DmaOp := (t.dma q.val).op
    (∀ v : Word, s.ready = true → s.present (aDma q.val 0x14) = true → Does (.sqDoorbell q v) s (fun t =>
      SameBut [.regs, .host] s t ∧ t.reg (aDma q.val 0x14) = v.toNat % 4096 ∧ t.dma q.val =
        if s.runs .hst = true then { s.dma q.val with stopped := false, tail := v.toNat % 4096 } else s.dma q.val)) ∧
    (∀ (d : List Byte) (e : MemErrs) (data : List Byte), s.dmaReady q.val = true → d.length = 32 →
      let n := dsCount d
      let head (t : State) : Prop := t.reg (aDma q.val 0x18) = (s.reg (aDma q.val 0x18) + 1) % s.dmaSize q.val
      let refused (t : State) : Prop := SameBut [.regs, .host] s t ∧ head t ∧ op t = some { desc := d, status := 2, finished := true }
      (dsOp d = 1 →
        (dsRangeOk d = false ∨ s.hostReadable (dsSrc d) n = false → Does (.readRange q d e) s refused) ∧
        (dsRangeOk d = true → s.hostReadable (dsSrc d) n = true → Does (.readRange q d e) s (fun t => head t ∧
          t.out.head? = some (.hostWrite (s.dmaPort q.val) (dsHaddr d) (readWith e (dsSrc d) (s.hostRead (dsSrc d) n))) ∧
          op t = some { desc := d, status := if badIn e (dsSrc d) n = true then 6 else 0, bytes := n, finished := true }))) ∧
      (∀ c : Instr, c = .readFrame q d e ∧ dsOp d = 2 ∨ c = .readDecoded q d e ∧ dsOp d = 3 →
        (s.dsFrameOk d = false → Does c s refused) ∧
        (s.dsFrameOk d = true → Does c s (fun t => head t ∧ ∃ (o : DmaOp) (bs : List Byte), op t = some o ∧ o.desc = d ∧
          o.finished = true ∧ o.frames ≤ n ∧ o.bytes = bs.length ∧ o.bytes ≤ dsHlen d ∧
          t.out.head? = some (.hostWrite (s.dmaPort q.val) (dsHaddr d) bs) ∧
          (o.frames < n → o.status = 4) ∧ (o.frames = n → o.status = 0 ∨ o.status = 6)))) ∧
      (dsOp d = 4 →
        (dsRangeOk d = false ∨ s.hostWritable (dsSrc d) n = false → Does (.writeRange q d data) s refused) ∧
        (dsRangeOk d = true → s.hostWritable (dsSrc d) n = true → Does (.writeRange q d data) s (fun t =>
          SameBut [.out, .regs, .host, .hearth, .mem] s t ∧ head t ∧
          t.hearth = { s.hearth with mem := t.hearth.mem, rawCheck := t.hearth.rawCheck } ∧ t.out = .hostRead (s.dmaPort q.val) (dsHaddr d) n :: s.out ∧
          t.hread (dsSrc d) (min n data.length) = data.take n ∧
          (∀ b, b < dsSrc d ∨ dsSrc d + min n data.length ≤ b → t.hread b 1 = s.hread b 1) ∧
          op t = some { desc := d, bytes := min n data.length, want := n - data.length, finished := decide (n ≤ data.length) })))) ∧
    (∀ o : DmaOp, op s = some o →
      let size := s.dmaSize q.val
      let k := (s.dma q.val).cpl
      let entry : Out := .hostWrite (s.dmaPort q.val) (s.reg64 (aDma q.val 8) + 16 * (k % size))
        (pack 16 [(0, 2, fieldLE o.desc 2 2), (2, 1, o.status), (3, 1, ringPhase k size), (4, 4, o.frames), (8, 8, o.bytes)])
      let done (t : State) : Prop := SameBut [.out, .regs, .host] s t ∧ t.dma q.val = { s.dma q.val with cpl := k + 1, op := none } ∧
        entry ∈ t.out
      (s.ready = true → s.runs .hst = true → s.cqWait q.val = false → Does (.stop .hst) s (fun t =>
        (s.cplFree q.val = false → op t = some { o with status := 0x0C, want := 0, finished := true }) ∧
        (s.cplFree q.val = true → op t = none ∧ .hostWrite (s.dmaPort q.val) (s.reg64 (aDma q.val 8) + 16 * (k % size))
          (pack 16 [(0, 2, fieldLE o.desc 2 2), (2, 1, 0x0C), (3, 1, ringPhase k size), (4, 4, o.frames), (8, 8, o.bytes)]) ∈ t.out))) ∧
      (∀ late : Nat, o.want ≠ 0 → Does (.writeRangeTimeout q late) s (fun t => SameBut [.regs, .host] s t ∧
        op t = some { o with status := 8, want := 0, finished := true } ∧ t.reg 0x800104 = min (s.reg 0x800104 + late) 0xFFFFFFFF)) ∧
      (o.finished = true → s.runs .hst = true → s.portUp (s.dmaPort q.val) = true →
        (s.cplFree q.val = true → Does (.dmaDescriptorDone q) s done) ∧
        (s.cplFree q.val = false → Changes [] (.dmaDescriptorDone q) s)) ∧
      (∀ v : Word, s.ready = true → s.present (aDma q.val 0x1C) = true → o.finished = true → s.cplFree q.val = false →
        (k + 2 ^ 32 - v.toNat) % 2 ^ 32 < size → Does (.cqHeadWrite q v) s (fun t => done t ∧ t.reg (aDma q.val 0x1C) = v.toNat))) ∧
    (∀ v : Word, s.ready = true → s.present (aDma q.val 0x1C) = true → s.cqWait q.val = false → Does (.cqHeadWrite q v) s (fun t =>
      SameBut [.regs] s t ∧ t.reg (aDma q.val 0x1C) = v.toNat))

/-- On a device that is ready. The host's write of a ring's head is kept; when the event queue has room again, what could not be posted is
reported first. GO copies the request of a port that is not busy and sets BUSY; a known command waits behind those before it, an unknown
code is answered BAD_ARG at once; on a busy port GO does nothing. ABORT and the LIMIT end the port's command with ABORTED or TIMEOUT, unless
it is DISARM, QUENCH, STORE or UPDATE_COMMIT, or for the LIMIT none is set. FNCMD and REG_WRITE do what the same write to GLB_FNCMD, or to
the register, does, and answer its status; REG_READ answers the value read and leaves behind what a read does; an address that is not
aligned or beyond the register space answers BAD_ARG and does nothing (the model's choice, log entry 79). RELEASE frees a closed segment and
answers DONE, BAD_ARG for another; on a follower it answers the holder's status and frees nothing. QUENCH, wherever it stands among the
waiting commands, stops the five functions and answers DONE. -/
def Obligations.Mailbox : Prop :=
  (∀ s : State, s.ready = true →
    (∀ v : Word, Does (.pvHeadWrite v) s (fun t => SameBut [.regs] s t ∧ t.reg 0x800050 = v.toNat)) ∧
    (∀ v : Word, s.runs .hst = false ∨ s.host.eqLost = 0 → Does (.eqHeadWrite v) s (fun t =>
      SameBut [.regs] s t ∧ t.reg 0x800030 = v.toNat)) ∧
    (∀ v : Word, s.runs .hst = true → s.host.eqLost ≠ 0 → (s.reg 0x80002C + 2 ^ 32 - v.toNat) % 2 ^ 32 < s.eqSize →
      Does (.eqHeadWrite v) s (fun t => SameBut [.out, .regs, .host] s t ∧ t.reg 0x800030 = v.toNat ∧ t.host.eqLost = 0 ∧
        t.host.eqSeq = (s.host.eqSeq + 1) % 2 ^ 32 ∧ t.reg 0x80002C = (s.reg 0x80002C + 1) % 2 ^ 32)) ∧
    (∀ p : Fin 2, p.val < s.part.usbPorts →
      let c : FwCmd := { src := .port p, req := bytesOf (s.mboxAt p.val).req, stamp := s.now, mark := s.stampMark }
      ((s.mboxAt p.val).busy = true → Changes [] (.mboxGo p) s) ∧
      ((s.mboxAt p.val).busy = false → c.code ∈ knownCodes → Does (.mboxGo p) s (fun t => SameBut [.host] s t ∧
        t.host.fw = s.host.fw ++ [c] ∧ (t.mboxAt p.val).busy = true)) ∧
      ((s.mboxAt p.val).busy = false → c.code ∉ knownCodes → Does (.mboxGo p) s (fun t => SameBut [.out, .cores, .host] s t ∧
        (t.mboxAt p.val).busy = false ∧ (t.mboxAt p.val).done = true ∧ (t.mboxAt p.val).rep = wordsOf (replyBlock c.code 2 [])))) ∧
    (∀ (src : Src) (c : FwCmd), s.fwOf src = some c →
      let keeps : Prop := c.code = 0x12 ∨ c.code = 0x18 ∨ c.code = 0x20 ∨ c.code = 0x2A
      (∀ p : Fin 2, src = .port p → (keeps → Changes [] (.mboxAbort p) s) ∧ (¬keeps → Does (.mboxAbort p) s (fun t =>
        SameBut [.out, .cores, .host] s t ∧ Replied s t c 0x0C))) ∧
      (keeps ∨ fieldLE c.req 2 2 = 0 → Changes [] (.mboxLimitExpiry src) s) ∧
      (¬keeps → fieldLE c.req 2 2 ≠ 0 → Does (.mboxLimitExpiry src) s (fun t =>
        SameBut [.out, .cores, .host] s t ∧ Replied s t c 8)))) ∧
  (∀ (s : State) (src : Src) (c : FwCmd),
    let port : Option (Fin 2) := match src with | .port p => some p | .core _ => none
    (s.fwFront src 1 = some c → Does (.fncmd src) s (fun t => ∃ u st, (u, st) = s.fnCmdWrite (c.arg 0) ∧
      SameBut [.out, .cores, .host] u t ∧ Replied u t c st)) ∧
    (∀ ho : Nat × Nat, s.fwFront src 2 = some c →
      (busAddr (c.arg 0) = true → Does (.regWrite src ho) s (fun t => ∃ u st, (u, st) = s.busWrite port (c.arg 0) (c.arg 1) ho ∧
        SameBut [.out, .cores, .host] u t ∧ Replied u t c st)) ∧
      (busAddr (c.arg 0) = false → Does (.regWrite src ho) s (fun t => SameBut [.out, .cores, .host] s t ∧ Replied s t c 2))) ∧
    (∀ ce : Bool, s.fwFront src 3 = some c →
      (busAddr (c.arg 0) = true → Does (.regRead ⟨src, ce⟩) s (fun t => ∃ u, u = s.afterRead (c.arg 0) ce ∧
        SameBut [.out, .cores, .host] u t ∧ Replied u t c 0 ∧ ∀ p : Fin 2, src = .port p →
          (t.mboxAt p.val).rep = wordsOf (replyBlock c.code 0 (leBytes 4 (s.busRead port (c.arg 0)))))) ∧
      (busAddr (c.arg 0) = false → Does (.regRead ⟨src, ce⟩) s (fun t => SameBut [.out, .cores, .host] s t ∧ Replied s t c 2))) ∧
    (∀ hs : Nat, s.fwFront src 0x16 = some c →
      let seg := c.arg 0 % 64
      (s.follower = true → Does (.release src hs) s (fun t => Replied s t c hs ∧ t.hearth = s.hearth)) ∧
      (s.follower = false → (s.segAt seg).phase = .closed → Does (.release src hs) s (fun t => Replied s t c 0 ∧
        (t.segAt seg).phase = .empty ∧ (t.segAt seg).record = none)) ∧
      (s.follower = false → (s.segAt seg).phase ≠ .closed → Does (.release src hs) s (fun t => Replied s t c 2 ∧ t.hearth = s.hearth))) ∧
    (s.host.fw.find? (fun c => c.src = src && c.code = 0x18) = some c → Does (.mboxQuench src) s (fun t =>
      Replied s.quenchGlobal t c 0 ∧ ∀ f : Fn, t.fnState f =
        if f ∈ captureFns ∧ (s.fnState f = .starting ∨ s.fnState f = .running ∨ s.fnState f = .stopping ∨ s.fnState f = .fault)
        then .stopped else s.fnState f)))

/-- Firmware serves STORE: with an argument it does not know BAD_ARG; else it begins, which leaves the store as it was, and executed again it
ends: without pages enough WEAR, and the store stays; otherwise DONE, the newest generation is the snapshot, in which every stored register
has its value, and its number is one more than any. RECALL of the user or factory set: BAD_ARG where there is none, on a follower NOT_HOLDER
for what is mirrored, REFUSED while a function of a group runs (an absent one is in no way); otherwise DONE: every register of the groups
has its stored value, or its reset value where the set has none, and a segment's geometry follows unless it holds a closed record. A page
move gives a page's content the target and counts its cycle. RECOVER is kept for the next boot. The page model (log entry 81), and
NOT_HOLDER and absent functions at RECALL (log entry 85), are the model's choices. Firmware serves the command. BEGIN opens an update from
the source for the other slot, which is RECEIVING for firmware; an unknown target, an open update or a running TRIAL is BAD_ARG. BLOCK needs
a host update, a length within its limit, the run-image area and the memory in service (BAD_ARG for the latter is the model's choice, log
entry 82): its bytes are staged and checked, or CHECK_FAIL where memory is uncorrectable. COMMIT of an incomplete image is BAD_ARG; of a
whole one it begins, and executed again it ends: CHECK_FAIL where it cannot be programmed or read back, which spoils the slot; a good
firmware image makes the slot TRIAL; with mode 2 the device then resets, unless a function runs or a record is closed. CONFIRM, or its
timeout, makes the running TRIAL slot ACTIVE and the other STANDBY. CANCEL drops the update unless its commit runs. -/
def Obligations.StoredSettingsAndImages : Prop :=
  (∀ s : State,
    (∀ (src : Src) (c : FwCmd), s.fwFront src 0x20 = some c →
      (c.arg 0 / 2 ≠ 0 → Does (.store src) s (fun t => Replied s t c 2 ∧ t.nvs = s.nvs)) ∧
      (c.arg 0 / 2 = 0 → s.sys.storing ≠ some src → Does (.store src) s (fun t => SameBut [.sys] s t ∧
        t.sys = { s.sys with storing := some src })) ∧
      (c.arg 0 / 2 = 0 → s.sys.storing = some src →
        let id : Settings := if bitOf (c.arg 0) 0 = true then
            { mac := c.arg 1 + 2 ^ 32 * bits (c.arg 2) 15 0, subsys := bits (c.arg 2) 31 16, bar2 := bitOf (c.arg 3) 0 } else s.stored
        let x := s.snapshot id
        let pages := s.nvs.storePages x ((s.changedFields s.nvs.user x).map (fun k => (Config.pageOf k).val)).eraseDups
        (pages = none → Does (.store src) s (fun t => Replied s t c 0x0B ∧ t.nvs = s.nvs)) ∧
        ∀ n, pages = some n → Does (.store src) s (fun t => Replied s t c 0 ∧
          t.nvs = n ∧ (∃ u, n.sets.head? = some u ∧ u.set = x ∧ u.gen = s.nvs.nextGen) ∧
          ∀ a ∈ s.storedRegs, (sget (s.rst a) x.regs a).toNat = s.reg a))) ∧
    (∀ (src : Src) (c : FwCmd), s.fwFront src 0x21 = some c →
      let set := c.arg 0
      let named (g : Nat) : Prop := 1 ≤ g ∧ g ≤ 10 ∧ bitOf (c.arg 1) g = true
      let bad : Prop := 2 ≤ set ∨ set = 0 ∧ s.nvs.user = none
      let mirrored : Prop := s.follower = true ∧ (named 2 ∨ named 3 ∨ named 4)
      let free : Prop := ∀ g, named g → ∀ f ∈ groupFns g, s.idle f = true ∨ s.fnState f = .absent
      let x := if set = 1 then s.nvs.factory else s.stored
      let refused (st : Nat) : Prop := Does (.recallSet src) s (fun t => SameBut [.out, .cores, .host] s t ∧ Replied s t c st)
      (bad → refused 2) ∧ (¬bad → mirrored → refused 9) ∧ (¬bad → ¬mirrored → ¬free → refused 1) ∧
      (¬bad → ¬mirrored → free → Does (.recallSet src) s (fun t => Replied s t c 0 ∧
        (∀ g a, named g → a ∈ groupRegs g → s.present a = true → t.reg a =
          match x.regs.find? (fun c => c.1 = a) with | some v => v.2.toNat | none => (s.rst a).toNat) ∧
        ∀ i, named 3 → i < 64 →
          let n : Segment := ((x.segs.find? (fun c => c.1 = i)).map (·.2)).getD {}
          let g := s.segAt i
          (g.phase = .closed → (t.segAt i).base = g.base ∧ (t.segAt i).length = g.length ∧ (t.segAt i).next = n.next) ∧
          (g.phase ≠ .closed → (t.segAt i).base = n.base ∧ (t.segAt i).length = n.length ∧ (t.segAt i).p = n.p ∧ (t.segAt i).q = n.q ∧
            (t.segAt i).phase = g.phase)))) ∧
    (∀ page target : Nat, s.runs .bgs = true → s.inPost = false → s.svcBusy = false → target ∈ s.nvs.free → (∃ l, (l, page) ∈ s.nvs.pages) →
      sget 0 s.bgs.runs 0x600 = 0 → Does (.wearPageMove page target) s (fun t => SameBut [.nvs, .bgs] s t ∧
        t.nvs.pages = s.nvs.pages.map (fun c => if c.2 = page then (c.1, target) else c) ∧
        t.nvs.erased target = s.nvs.erased target + 1 ∧ ∀ p, p ≠ target → t.nvs.erased p = s.nvs.erased p)) ∧
    (s.ready = true → Does .recover s (fun t => SameBut [.nvs] s t ∧ t.nvs = { s.nvs with recover := true }))) ∧
  (∀ (s : State) (src : Src) (c : FwCmd),
    let confirmed (t : State) : Prop := t.slotAt s.runSlot = { s.slotAt s.runSlot with state := 1, attempted := false } ∧
      t.slotAt (1 - s.runSlot) = { s.slotAt (1 - s.runSlot) with state := if (s.slotAt (1 - s.runSlot)).state = 1 then 2 else
        (s.slotAt (1 - s.runSlot)).state }
    let refused (i : Instr) (st : Nat) : Prop := Does i s (fun t => SameBut [.out, .cores, .host] s t ∧ Replied s t c st)
    (s.fwFront src 0x28 = some c →
      let bad : Prop := 3 ≤ c.arg 0 ∨ s.sys.upd.isSome = true ∨ c.arg 0 = 0 ∧ (s.slotAt s.runSlot).state = 3
      (bad → refused (.updateBegin src) 2) ∧
      (¬bad → Does (.updateBegin src) s (fun t => Replied s t c 0 ∧
        t.sys.upd = some { src := srcIdx src, target := c.arg 0, slot := 1 - s.runSlot } ∧
        (c.arg 0 = 0 → t.slotAt (1 - s.runSlot) = { s.slotAt (1 - s.runSlot) with state := 4, attempted := false } ∧ t.slotAt s.runSlot = s.slotAt s.runSlot) ∧
        (c.arg 0 ≠ 0 → t.nvs = s.nvs)))) ∧
    (s.fwFront src 0x29 = some c →
      let n := c.arg 3
      let a := c.arg64 0
      let inside : Prop := 1 ≤ n ∧ n ≤ 65536 ∧ a + n ≤ 0x04000000 ∧ a + n ≤ s.capacity
      (∀ e, s.hostUpd = none ∨ ¬inside → refused (.updateBlock src e) 2) ∧
      (∀ (u : ImgIn) (e : MemErrs), s.hostUpd = some u → inside → badIn e a n = true → Does (.updateBlock src e) s (fun t =>
        Replied s t c 6 ∧ t.sys = s.sys)) ∧
      (∀ (u : ImgIn) (e : MemErrs), s.hostUpd = some u → inside → badIn e a n = false → Does (.updateBlock src e) s (fun t =>
        ∃ v st, (v, st) = (s.noteErrs e a n).updPiece u (c.arg 2) (s.hread a n) ∧
        SameBut [.out, .cores, .host] v t ∧ Replied v t c st))) ∧
    (s.fwFront src 0x2A = some c →
      let v := c.arg 0
      let clean : Prop := bits v 7 2 = 0 ∧ bits v 31 9 = 0
      let stops : Prop := ∃ f ∈ captureFns, s.idle f = false
      let closed : Prop := ∃ i, i < 64 ∧ (s.segAt i).phase = .closed
      let begun (u : ImgIn) (t : State) : Prop := SameBut [.sys] s t ∧ t.sys = { s.sys with upd := some { u with committing := true } }
      let whole (u : ImgIn) : Prop := u.header = true ∧ u.blocks.length = imgBlocks u.head
      let good (u : ImgIn) : Prop := whole u ∧ (∀ p ∈ s.imgPages u, s.nvs.retired p = false) ∧ payloadOk u.image = true ∧
        s.signedOk (u.image.take 512) = true
      (∀ fail, ¬clean ∨ bits v 1 0 = 3 → refused (.updateCommit src fail) 2) ∧
      (clean → bits v 1 0 = 0 → ∀ fail,
        (s.hostUpd = none → refused (.updateCommit src fail) 2) ∧
        ∀ u, s.hostUpd = some u →
          (¬whole u → u.committing = false → refused (.updateCommit src fail) 2) ∧
          (whole u → u.committing = false → Does (.updateCommit src fail) s (begun u)) ∧
          (whole u → u.committing = true → u.target = 0 → (∃ p ∈ s.imgPages u, s.nvs.retired p = true) → Does (.updateCommit src fail) s (fun t =>
            Replied s t c 0x0B ∧ t.nvs = s.nvs ∧ t.sys.upd = none)) ∧
          (good u → u.committing = true → u.target = 0 → u.slot < 2 → fail = true → Does (.updateCommit src fail) s (fun t =>
            Replied s t c 6 ∧ t.slotAt u.slot = { state := 4 } ∧ t.slotAt (1 - u.slot) = s.slotAt (1 - u.slot) ∧ t.sys.upd = none)) ∧
          (good u → u.committing = true → u.target = 0 → u.slot < 2 → fail = false → Does (.updateCommit src fail) s (fun t =>
            Replied s t c 0 ∧ t.slotAt u.slot = { state := 3, image := u.image } ∧ t.sys.upd = none))) ∧
      (clean → bits v 1 0 = 1 →
        ((s.slotAt s.runSlot).state = 3 → Does (.updateConfirm src) s (fun t => Replied s t c 0 ∧ confirmed t)) ∧
        ((s.slotAt s.runSlot).state ≠ 3 → refused (.updateConfirm src) 2)) ∧
      (clean → bits v 1 0 = 2 → ∀ fail,
        (stops → refused (.updateCommitReset src fail) 1) ∧
        (¬stops → closed ∨ s.hostUpd = none → refused (.updateCommitReset src fail) 2) ∧
        ∀ u, s.hostUpd = some u → ¬stops → ¬closed →
          (¬whole u → u.committing = false → refused (.updateCommitReset src fail) 2) ∧
          (whole u → u.committing = false → Does (.updateCommitReset src fail) s (begun u)) ∧
          (good u → u.committing = true → u.target = 0 → u.slot < 2 → fail = false → Does (.updateCommitReset src fail) s (fun t =>
            t.sys.boot = .held ∧ t.slotAt u.slot = { state := 3, image := u.image } ∧ ∀ f ∈ captureFns, t.fnState f = .off ∨ t.fnState f = .absent)))) ∧
    (s.ready = true → (s.slotAt s.runSlot).state = 3 → Does .trialConfirmTimeout s (fun t => SameBut [.tb, .nvs] s t ∧ confirmed t)) ∧
    (s.ready = true → (∀ u, s.sys.upd = some u → u.committing = false) → Does .updateCancel s (fun t =>
      SameBut [.tb, .sys] s t ∧ t.sys = { s.sys with upd := none })) ∧
    (∀ u, s.sys.upd = some u → u.committing = true → Changes [] .updateCancel s))

/-- FERELOAD on a device that is ready, not a pair member without Tongs, ING STOPPED or OFF, none under way, clears the marks, marks the
declared tiles without an image, and begins if one has an image; while ING is not idle it is refused, and without Tongs or beside another
reload it changes nothing. After 300 ms the tiles that have not answered are loaded once more, then marked as failed; the last round ends
the reload, and a device that boots is ready. In recovery: BEGIN opens an update, BLOCK takes its next bytes and programs what they make
whole, COMMIT commits it, each answered with its status; STATUS answers DONE; RESET holds the device in reset and keeps the store. Families
by declaration, and what a second reload does, are the model's readings (log entry 84, as of the commands of recovery log entry 82). RESET_N
and PWR_OK are high. A device not in reset, or held by the test access port, only notes that. Otherwise, with RECOVER kept, it is in
recovery. A slot is good if it is ACTIVE, STANDBY, or TRIAL not yet attempted, and its image passes; first is the TRIAL slot not yet
attempted, else the ACTIVE one, else slot 0. The first runs if it is good, else the other if it is good, else recovery. The running slot
keeps TRIAL, attempted from now on if it was first, and is ACTIVE otherwise; the other is REJECTED if its TRIAL was spent, INVALID if it was
tried and failed, STANDBY if it was ACTIVE. The device is ready, or loads its front-ends first. After a reset LNK, TB and BGS run, PAIR
where the strap is set and no tile is in compatibility mode, and the others stand STOPPED. What the maker's image needs to pass and where
the payload goes (log entry 86), and what boot takes from outside (log entry 87), are the model's choices. -/
def Obligations.Boot : Prop :=
  (∀ s : State,
    let answered (st : Nat) (t : State) : Prop := ∃ b rest, t.out = .recovery st b :: rest
    (s.ready = true → s.idle .ing = false → Does .fereload s (fun t => SameBut [.regs] s t ∧ t.bit aGlbErr 31 = true)) ∧
    (s.ready = true → s.idle .ing = true → (s.nonHolder = true ∨ s.sys.reload.isSome = true) → Changes [] .fereload s) ∧
    (s.ready = false → Changes [] .fereload s) ∧
    (s.ready = true → s.idle .ing = true → s.nonHolder = false → s.sys.reload = none → Does .fereload s (fun t =>
      SameBut [.out, .regs, .tb, .cmd, .sys] s t ∧ t.reg 0x900120 = 0 ∧ t.reg 0x900124 = 0 ∧
      (∀ f g, (f, g) ∈ s.declared → s.feImage g = none → t.bit (if f < 32 then 0x900128 else 0x90012C) (f % 32) = true) ∧
      ((∃ f g, (f, g) ∈ s.declared ∧ s.feImage g ≠ none) ↔ t.sys.reload.isSome = true))) ∧
    (∀ r : FeReload, s.sys.reload = some r → r.bad ++ r.wait ≠ [] →
      (r.again = false → Does .feReloadTimeout s (fun t =>
        t.sys = { s.sys with reload := some { r with wait := r.bad ++ r.wait, bad := [], again := true } })) ∧
      (r.again = true → r.todo = [] → Does .feReloadTimeout s (fun t =>
        t.sys = { s.sys with reload := none, boot := if s.sys.boot = .loading then .ready else s.sys.boot } ∧
        ∀ f ∈ r.bad ++ r.wait, f < 64 → t.bit (if f < 32 then 0x900120 else 0x900124) (f % 32) = true))) ∧
    (s.sys.boot = .recovery →
      (∀ target : Nat,
        (4 ≤ target ∨ s.sys.upd.isSome = true → Does (.recoveryBegin target) s (fun t => SameBut [.out] s t ∧ answered 2 t)) ∧
        (target < 4 → s.sys.upd = none → Does (.recoveryBegin target) s (fun t => SameBut [.out, .nvs, .sys] s t ∧ answered 0 t ∧
          t.sys.upd = some { src := 4, target := target - 1, slot := target % 2 } ∧ (target < 2 → t.slotAt target = { s.slotAt target with state := 4, attempted := false })))) ∧
      (∀ (off : Nat) (bs : List Byte) (u : ImgIn), s.sys.upd = some u →
        (bs.length = 0 ∨ 65536 < bs.length ∨ off ≠ u.fill → Does (.recoveryBlock off bs) s (fun t => SameBut [.out] s t ∧ answered 2 t)) ∧
        (1 ≤ bs.length → bs.length ≤ 65536 → off = u.fill → Does (.recoveryBlock off bs) s (fun t =>
          ∃ v st, (v, st) = s.recPiece u off bs ∧ SameBut [.out] v t ∧ answered st t))) ∧
      (∀ (fail : Bool) (u : ImgIn), s.sys.upd = some u → Does (.recoveryCommit fail) s (fun t =>
        ∃ v st, (v, st) = s.commit u fail ∧ SameBut [.out] v t ∧ answered st t)) ∧
      (∀ fail, s.sys.upd = none → Does (.recoveryCommit fail) s (fun t => SameBut [.out] s t ∧ answered 2 t)) ∧
      Does .recoveryStatus s (fun t => SameBut [.out] s t ∧ answered 0 t) ∧
      Does .recoveryReset s (fun t => t.sys.boot = .held ∧ t.nvs = s.nvs ∧ t.tap = s.tap ∧ ∃ b, .recovery 0 b ∈ t.out))) ∧
  (∀ (s : State) (x : BootFacts),
    let st (i : Nat) : Nat := (s.slotAt i).state
    let spent (i : Nat) : Bool := st i = 3 && (s.slotAt i).attempted
    let trial (i : Nat) : Bool := st i = 3 && !(s.slotAt i).attempted
    let tried (i : Nat) : Bool := decide (1 ≤ st i) && decide (st i ≤ 3) && !spent i
    let first : Nat := if trial 0 = true then 0 else if trial 1 = true then 1 else if st 0 = 1 then 0 else if st 1 = 1 then 1 else 0
    let good (i : Nat) : Prop := tried i = true ∧ s.slotPasses i = true
    let runs (i : Nat) : Prop := i < 2 ∧ good i ∧ (i ≠ first → ¬good first)
    (s.tap.hold = true ∨ s.sys.boot ≠ .held → Does (.resetRelease x) s (fun t => SameBut [.tap] s t ∧
      t.tap = { s.tap with resetN := true, pwrOk := true })) ∧
    (s.tap.hold = false → s.sys.boot = .held →
      (s.nvs.recover = true → Does (.resetRelease x) s (fun t => t.sys.boot = .recovery ∧ t.nvs.recover = false ∧
        t.tap = { s.tap with resetN := true, pwrOk := true })) ∧
      (s.nvs.recover = false → (∀ i, i < 2 → ¬good i) → Does (.resetRelease x) s (fun t => t.sys.boot = .recovery)) ∧
      (∀ i, s.nvs.recover = false → runs i → Does (.resetRelease x) s (fun t =>
        (t.sys.boot = .ready ∨ t.sys.boot = .loading) ∧ t.runSlot = i ∧
        t.slotAt i = { s.slotAt i with state := if st i = 3 then 3 else 1, attempted := (s.slotAt i).attempted || trial i && decide (i = first) } ∧
        (t.slotAt (1 - i)).state = (if spent (1 - i) = true then 5 else if first = 1 - i ∧ tried (1 - i) = true then 6
          else if st (1 - i) = 1 ∧ st i ≠ 3 then 2 else st (1 - i)) ∧
        ∀ u : State, s = u.deviceReset → (∀ f, (u.fn f).state = .absent → u.part.lacks f = true) →
          (∀ f, f ≠ .pair → t.fnState f = if s.part.lacks f = true then .absent
            else if f = .lnk ∨ f = .tb ∨ f = .bgs then .running else .stopped) ∧
          (s.part.mirror = true → x.pair = false → t.fnState .pair = .stopped) ∧
          (s.part.mirror = true → x.pair = true → (∀ l, t.compat l = false) → t.fnState .pair = .running)))))

/-- Domain n serves a unit that is present, and what may hold it or put it to rest is told outside reset. ACTIVE, enabled for retention, its
condition met, not kept awake and not asked for, it enters RETENTION, or switches off where OFF is enabled and its condition met. A request
in RETENTION is kept until the domain has woken, which makes it ACTIVE and counts an exit; one that is wanted again comes up out of OFF. A
port's domain, OFF enabled and no tunnel there, switches off when its sideband has been idle, and activity asks for it. Lane monitoring,
with BGS RUNNING, compares the lowest eye in run with its limit. Pace measurement and telemetry go on in every state of BGS but OFF and
FAULT (R455): a measurement is added with its time; after either the alarms in force stand in TEL_ALARM, and those that began are latched. A
telemetry record is written at its place in the ring with its number and its CRC, nothing else of memory changes, the number goes on, and
the highest queue fills start again from those that stand. -/
def Obligations.PowerAndTelemetry : Prop :=
  (∀ s : State,
    let up (n : Nat) (t : State) : Prop := SameBut [.regs, .bgs] s t ∧ t.domState n = 0 ∧
      t.bgs.waking = s.bgs.waking.filter (· ≠ n) ∧ t.reg (0xA00200 + 4 * n) = min (s.reg (0xA00200 + 4 * n) + 1) 0xFFFFFFFF
    (∀ n : Fin 51, s.domHere n.val = true →
      (s.inReset = false → s.domState n.val = 0 → s.bit (aDomain n.val) 31 = true → s.retCond n.val = true → ¬(s.hold = true ∧ s.held n.val = true) →
        n.val ∉ s.bgs.waking → Does (.domainRetentionEntry n) s (fun t =>
          (s.bit (aDomain n.val) 30 = false ∨ 44 ≤ n.val ∧ n.val < 46 → t.domState n.val = 1) ∧
          (s.bit (aDomain n.val) 30 = true → s.offCond n.val = true → t.domState n.val = 2))) ∧
      (s.domState n.val = 1 → n.val ∉ s.bgs.waking → Does (.domainWake n) s (fun t => SameBut [.bgs] s t ∧
        t.bgs = { s.bgs with waking := n.val :: s.bgs.waking })) ∧
      (s.domState n.val = 1 → n.val ∈ s.bgs.waking → Does (.domainWakeDone n) s (up n.val)) ∧
      (s.domState n.val = 2 → s.wanted n.val = true → Does (.domainPowerUp n) s (up n.val))) ∧
    (∀ p : Fin 2,
      let n := 44 + p.val
      s.domHere n = true → s.inReset = false →
      (s.bit (aDomain n) 30 = true → s.domState n ≠ 2 → s.portUp p.val = false → Does (.sidebandIdleTimeout p) s (fun t =>
        SameBut [.regs, .bgs] s t ∧ t.domState n = 2 ∧ t.bgs = { s.bgs with waking := s.bgs.waking.filter (· ≠ n) })) ∧
      (s.domState n ≠ 0 → n ∉ s.bgs.waking → Does (.sidebandActivity p) s (fun t =>
        SameBut [.bgs] s t ∧ t.bgs = { s.bgs with waking := n :: s.bgs.waking })))) ∧
  (∀ s : State,
    let alarms (t : State) : Prop := t.reg 0xA00044 = t.alarmBits ∧
      ∀ i, i < 8 → t.bit 0xA00044 i = true → s.bit 0xA00044 i = false → t.bit 0xA00048 i = true
    (s.runs .bgs = true → Does .laneAdaptMonitor s (fun t => SameBut [.regs, .tb, .bgs] s t ∧ alarms t ∧
      t.bgs.eyeLow = match s.lowEye (upTo (8 * s.part.sectors)) with | some e => decide (e < s.fld 0xA00000 31 24) | none => false)) ∧
    (s.temperBasic = true → ∀ (island : Fin 12) (ps : Nat), island.val < s.part.sectors → Does (.paceMeasurement island ps) s (fun t =>
      SameBut [.regs, .tb, .bgs] s t ∧ alarms t ∧ (s.tb.ticks, island.val, ps) ∈ t.bgs.meas ∧
      (s.domState (12 + island.val) = 0 → ps ≤ t.pLive))) ∧
    (s.temperBasic = true → ∀ x : Sensors,
      let n := s.reg 0xA00040
      let at_ := 0x08000000 + 256 * (n % 65536)
      Does (.telemetryRecord x) s (fun t => SameBut [.regs, .tb, .bgs, .mem] s t ∧ t.reg 0xA00040 = (n + 1) % 2 ^ 32 ∧
        t.bgs.slow = [] ∧ t.bgs.qpeak = s.qFills ∧ t.reg 0xA00080 = x.pCore % 2 ^ 32 ∧
        (∀ a, a < at_ ∨ at_ + 256 ≤ a → t.hread a 1 = s.hread a 1) ∧
        let b := t.hread at_ 256
        fieldLE b 12 4 = n ∧ fieldLE b 252 4 = crc32c (b.take 252))))

/-- IDCODE shifts out one word after what Capture-IR loaded: [31:28] the stepping, [27:12] the part, 0x7196, 0x7148 or 0x7124, [11:1] 0x2B7, [0] 1; an HNQ-7196 of stepping
1 gives 0x1719656F. GLB_ID reads the same stepping in [31:28], the same part in [27:12], and 0 in [11:0]; GLB_CAP2 reads in [7:0] the
engines present, 96, 48 or 24, and 0 in [31:8]. Both are read only: no write of the host changes what they read. -/
def Obligations.IdentityWords : Prop :=
  ∀ s : State, s.stepping < 16 →
    let number : Nat := match s.part with | .p7196 => 0x7196 | .p7148 => 0x7148 | .p7124 => 0x7124
    let engines : Nat := match s.part with | .p7196 => 96 | .p7148 => 48 | .p7124 => 24
    (∃ w : Nat, Does .idcode s (fun t => ∃ c : Byte, t.out = .tdo (leBytes 4 w) :: .tdo [c] :: s.out) ∧ w < 2 ^ 32 ∧
      bits w 31 28 = s.stepping ∧ bits w 27 12 = number ∧ bits w 11 1 = 0x2B7 ∧ bits w 0 0 = 1 ∧
      (s.part = .p7196 → s.stepping = 1 → w = 0x1719656F)) ∧
    (s.ready = true → ∀ p : Fin 2, p.val < s.part.usbPorts →
      (∃ w : Nat, Does (.rcCounterRead p ⟨0, false⟩) s (fun t => t.out = .readData 0 w :: s.out) ∧ w < 2 ^ 32 ∧
        bits w 31 28 = s.stepping ∧ bits w 27 12 = number ∧ bits w 11 0 = 0) ∧
      (∃ w : Nat, Does (.rcCounterRead p ⟨0x018, false⟩) s (fun t => t.out = .readData 0x018 w :: s.out) ∧ w < 2 ^ 32 ∧
        bits w 31 8 = 0 ∧ bits w 7 0 = engines) ∧
      ∀ (a : Nat) (be : BitVec 4) (v : Word) (ho : Nat × Nat), a = 0 ∨ a = 0x018 →
        Does (.registerWrite p a be v ho) s (fun t => t.busRead (some p) a = s.busRead (some p) a))

/-- Each instruction first shifts out what Capture-IR loaded, 1 or, on an unlocked port, 5. BYPASS shifts out 0; an opcode that is not listed is BYPASS.
SAMPLE/PRELOAD shifts out what the chain captured and then what runs through it, keeps what the chain then holds, and no more. EXTEST, its pulse and train
forms, CLAMP and HIGHZ also hold the device in reset, with its settings store kept and the lanes that drove at electrical idle. TRST_N and Test-Logic-Reset select IDCODE and
release a held device, which boots if both its pins are high. DBG_CHALLENGE gives noise, GLB_ID and zeros; a good response unlocks
the port until reset, another counts, and the third locks it. Unlocked, DBG_ACCESS shifts out the word of the access before and writes or
reads one register; locked, it and IMG_LOAD are BYPASS. IMG_LOAD gives four bytes to an open recovery update, those beyond the
image's end dropped. That a scan moves the data register once, that a challenge and the words of DBG_ACCESS go lowest byte first, and how
IMG_LOAD finds its offset are the model's choices (log entry 18, log entry 94, log entry 95). -/
def Obligations.TestAccessPort : Prop :=
  ∀ s : State,
    let tap (x : Tap) (t : State) : Prop := SameBut [.out, .tap] s t ∧ t.tap = x
    let awake : Prop := s.sys.boot ≠ .held
    let locked : Prop := s.bit 0xB00000 31 = false
    let ir : Out := .tdo [if s.bit 0xB00000 31 = true then 5 else 1]
    let captured (t : State) : Prop := t.out = ir :: s.out
    let shifts (b : List Byte) (t : State) : Prop := t.out = .tdo b :: ir :: s.out
    let holds (i : Nat) (t : State) : Prop := t.sys.boot = .held ∧ t.nvs = s.nvs ∧ t.tap.ir = i ∧ t.tap.hold = true
    let idles (b : List Byte) (t : State) : Prop := t.out = .tdo b :: (s.idleDrives ++ ir :: s.out)
    Does .bypass s (fun t => tap { s.tap with ir := 0xFF } t ∧ shifts [0] t) ∧
    Does .idcode s (fun t => tap { s.tap with ir := 0x01 } t ∧ shifts (leBytes 4 s.idcodeWord) t) ∧
    (∀ cells pins : List Byte,
      let run := s.captured pins ++ bitString cells
      let out := bytesOfBits (run.take (8 * cells.length))
      let chain := run.drop (8 * cells.length)
      Does (.samplePreload cells pins) s (fun t => tap { s.tap with ir := 0x02, boundary := chain } t ∧ shifts out t) ∧
      ∀ (c : Instr) (i : Nat), c = .extest cells pins ∧ i = 3 ∨ c = .extestPulse cells pins ∧ i = 4 ∨ c = .extestTrain cells pins ∧ i = 5 →
        Does c s (fun t => holds i t ∧ t.tap.boundary = chain ∧ idles out t)) ∧
    (∀ (c : Instr) (i : Nat), c = .clamp ∧ i = 6 ∨ c = .highz ∧ i = 7 → Does c s (fun t => holds i t ∧ t.tap.boundary = s.tap.boundary ∧ idles [0] t)) ∧
    (∀ (u : Bool) (op : Nat), op = 0 ∨ 8 ≤ op ∧ op < 0x40 ∨ 0x44 ≤ op → tapInstr u op = .bypass) ∧
    (∀ (c : Instr) (x : BootFacts), c = .tapReset x ∨ c = .testLogicResetEntry x →
      let leaves : Prop := s.sys.boot = .held ∧ s.tap.resetN = true ∧ s.tap.pwrOk = true
      (¬leaves → Does c s (fun t => SameBut [.tap] s t ∧ t.tap = { s.tap with ir := 0x01, hold := false })) ∧
      (leaves → Does c s (fun t => t.sys.boot ≠ .held ∧ t.tap = { s.tap with ir := 0x01, hold := false }))) ∧
    (∀ noise : List Byte, noise.length = 16 →
      let c := noise ++ leBytes 4 (s.glbRead 0) ++ zeros 12
      awake → Does (.dbgChallenge noise) s (fun t => shifts c t ∧ t.sys = { s.sys with challenge := some c } ∧
        SameBut [.out, .sys, .tap] s t)) ∧
    (∀ (slot : BitVec 8) (sig : List Byte), awake →
      let fails := s.fld 0xB00000 1 0
      (s.bit 0xB00000 30 = true → Does (.dbgResponse slot sig) s (fun t => tap { s.tap with ir := 0x41 } t ∧ captured t)) ∧
      (s.bit 0xB00000 30 = false → s.responseOk slot.toNat sig = true → Does (.dbgResponse slot sig) s (fun t =>
        SameBut [.out, .regs, .tap] s t ∧ captured t ∧ t.unlocked = true ∧ t.fld 0xB00000 3 2 = slot.toNat ∧ t.fld 0xB00000 1 0 = fails)) ∧
      (s.bit 0xB00000 30 = false → s.responseOk slot.toNat sig = false → fails < 3 → Does (.dbgResponse slot sig) s (fun t =>
        SameBut [.out, .regs, .tap] s t ∧ captured t ∧ t.fld 0xB00000 1 0 = fails + 1 ∧
        (fails < 2 → t.unlocked = s.unlocked ∧ t.bit 0xB00000 30 = false) ∧
        (fails = 2 → t.unlocked = false ∧ t.bit 0xB00000 30 = true)))) ∧
    (∀ (w : BitVec 64) (ho : Nat × Nat) (ce : Bool),
      let a := 4 * bits w.toNat 55 32
      let v := bits w.toNat 31 0
      (locked ∨ ¬awake → Does (.dbgAccess ⟨w, ce⟩ ho) s (fun t => tap { s.tap with ir := 0x42 } t ∧ shifts [0] t)) ∧
      (awake → ¬locked → Does (.dbgAccess ⟨w, ce⟩ ho) s (fun t => ∃ u, tap { s.tap with ir := 0x42 } u ∧ shifts (leBytes 8 s.tap.access) u ∧
        (bitOf w.toNat 63 = true → t.tap.access = v ∧ SameBut [.tap] (if busAddr a = true then (u.busWrite none a v ho).1 else u) t) ∧
        (bitOf w.toNat 63 = false → t.tap.access = (if busAddr a = true then u.busRead none a else 0) ∧
          SameBut [.tap] (if busAddr a = true then u.afterRead a ce else u) t)))) ∧
    (∀ w : Word,
      (locked → Does (.imgLoad w) s (fun t => tap { s.tap with ir := 0x43 } t ∧ shifts [0] t)) ∧
      (∀ u : ImgIn, ¬locked → s.sys.boot = .recovery → s.sys.upd = some u → Does (.imgLoad w) s (fun t =>
        let room := if u.header = true then 512 + imgLength u.head - u.fill else 4
        ∃ v, tap { s.tap with ir := 0x43 } v ∧ captured v ∧ t = (v.recPiece u u.fill ((leBytes 4 w.toNat).take room)).1)))

/-- After PWR_OK goes low or RESET_N is asserted the device is held; every function but the absent ones is OFF, and Tongs is released; every
register but PAIR_STAT has its reset value, and TONGS_IN stays; Hearth holds nothing; the settings store, the part and the rest of the test
access port stay, and the command lanes that drove go to electrical idle. After reset the device is held, every function is OFF, every
register has its reset value, the capture memory holds nothing and is in its canonical form, no command waits and nothing has left the
device. The part, an HNQ-7196 of stepping 0, is the model's choice (log entry 6). -/
def Obligations.Reset : Prop :=
  (∀ (s : State) (c : Instr) (x : Tap),
    c = .pwrOkDeassert ∧ x = { s.tap with pwrOk := false } ∨ c = .resetNAssert ∧ x = { s.tap with resetN := false } →
    Does c s (fun t =>
      t.sys.boot = .held ∧ t.tap = x ∧ t.nvs = s.nvs ∧ t.part = s.part ∧ t.out = s.idleDrives ++ s.out ∧ t.pending = s.pending ∧
      (∀ f : Fn, t.fnState f = if s.fnState f = .absent then .absent else .off) ∧ t.holds = false ∧ t.role = 0 ∧
      t.tongsIn = s.tongsIn ∧ (∀ a, a ≠ aPairStat → t.reg a = (s.rst a).toNat) ∧ t.hearth.mem = [])) ∧
  (State.reset.sys.boot = .held ∧ (∀ f : Fn, State.reset.fnState f = .off) ∧ (∀ a, State.reset.reg a = (State.reset.rst a).toNat) ∧
  State.reset.hearth.mem = [] ∧ State.memOk State.reset ∧ State.reset.pending = [] ∧ State.reset.out = [] ∧ State.reset.part = .p7196 ∧ State.reset.stepping = 0)

/-- For every state and every operand each command named here answers a next state, and the parts of the state that it may change are
those listed beside it, by the names of State's fields (Comp; mem is the content of memory, hearth the rest of that field). Every other
part is as it was, among them the queue of waiting commands, the part and its stepping. Function commands, lanes, queues, engines and cores. -/
def Obligations.FramesOfLinkAndIngest : Prop :=
  ∀ s : State,
    (∀ (port : Fin 2) (addr : Nat) (be : BitVec 4) (val : Word) (ho : Nat × Nat), Changes [.out, .freeUse, .fns, .regs, .tb, .rx, .tiles, .cmd,
      .mirLanes, .order, .queues, .bellows, .engines, .cores, .tdc, .bgs, .field, .hearth, .mem, .trig, .staging, .comps, .jobs, .pair, .host,
        .ptp, .nvs, .sys] (.registerWrite port addr be val ho) s) ∧
    (∀ (port : Fin 2) (addr : Checked Nat), Changes [.out, .regs] (.rcCounterRead port addr) s) ∧
    (∀ (f : Fn), Changes [.out, .freeUse, .fns, .regs, .tb, .rx, .tiles, .mirLanes, .order, .queues, .bellows, .engines, .cores, .tdc, .bgs,
      .field, .hearth, .mem, .trig, .staging, .comps, .jobs, .pair, .host, .ptp] (.start f) s) ∧
    (∀ (f : Fn), Changes [.out, .freeUse, .fns, .regs, .tb, .rx, .tiles, .mirLanes, .order, .queues, .bellows, .engines, .cores, .tdc, .bgs,
      .field, .hearth, .mem, .trig, .staging, .comps, .jobs, .pair, .host, .ptp] (.stop f) s) ∧
    (∀ (f : Fn), Changes [.out, .freeUse, .fns, .regs, .tb, .rx, .tiles, .mirLanes, .order, .queues, .bellows, .engines, .cores, .tdc, .bgs,
      .field, .hearth, .mem, .trig, .staging, .comps, .jobs, .pair, .host, .ptp] (.quench f) s) ∧
    Changes [.out, .freeUse, .fns, .regs, .tb, .rx, .tiles, .mirLanes, .order, .queues, .bellows, .engines, .tdc, .bgs, .field, .hearth, .mem,
      .trig, .staging, .comps, .jobs, .pair, .host, .ptp] .globalQuench s ∧
    (∀ (f : Fn), Changes [.out, .fns, .regs, .tb, .rx, .tiles, .cmd, .mirLanes, .queues, .bellows, .engines, .tdc, .bgs, .field, .hearth,
      .trig, .comps, .pair, .host, .ptp] (.startingComplete f) s) ∧
    (∀ (f : Fn), Changes [.out, .fns, .regs, .tb, .rx, .mirLanes, .order, .queues, .bellows, .engines, .tdc, .bgs, .field, .hearth, .mem,
      .trig, .comps, .pair, .host] (.stoppingComplete f) s) ∧
    Changes [.fns, .regs, .tb, .queues, .bellows, .engines, .bgs, .field, .comps] .fieldDieResetAssert s ∧
    Changes [.regs] .fieldDieResetRelease s ∧
    Changes [.regs] .d2dLinkUp s ∧
    Changes [.fns, .regs, .tb, .queues, .bellows, .engines, .bgs, .field, .comps] .d2dLinkDown s ∧
    Changes [.fns, .regs, .bgs, .field] .fieldDieReinitDone s ∧
    (∀ (temp : Int), Changes [.regs, .tb] (.dieTempThreshold temp) s) ∧
    (∀ (e k : Nat), Changes [.out, .regs, .tb, .mem, .host] (.logWindowClose e k) s) ∧
    (∀ (l : Fin 96) (bytes : List Byte) (t : Nat) (cut : Bool), Changes [.freeUse, .regs, .tb, .rx, .tiles, .order, .queues, .bellows,
      .engines, .bgs] (.stripRx l bytes t cut) s) ∧
    (∀ (d : DeskewAt) (seq : Nat), Changes [.out, .freeUse, .fns, .regs, .tb, .rx, .tiles, .mirLanes, .order, .queues, .bellows, .engines,
      .cores, .tdc, .bgs, .field, .hearth, .mem, .trig, .staging, .comps, .jobs, .pair, .host, .ptp, .kept, .keptBad] (.deskewTimeout d seq) s) ∧
    (∀ (ln : Lane), Changes [.regs] (.invalidSyncHeader ln) s) ∧
    (∀ (ln : Lane), Changes [.regs] (.blockLockGained ln) s) ∧
    (∀ (ln : Lane), Changes [.regs, .rx, .mirLanes] (.blockLockLost ln) s) ∧
    (∀ (ln : Lane) (held : Nat), Changes [.rx, .mirLanes] (.fillRx ln held) s) ∧
    (∀ (ln : Lane) (counter fill : Nat), Changes [.rx, .mirLanes] (.idleRx ln counter fill) s) ∧
    (∀ (ln : Lane) (align : Bool) (pos : Nat) (lock0 lock1 : Bool) (counter : Nat), Changes [.out, .regs, .rx, .cmd, .mirLanes] (.trainRx ln
      align pos lock0 lock1 counter) s) ∧
    (∀ (l : Fin 96) (c : Caps), Changes [.out, .regs, .rx, .cmd, .mirLanes] (.capsRx l c) s) ∧
    (∀ (ln : Lane) (step : Nat) (bits : RateBits), Changes [.out, .regs, .rx, .cmd, .mirLanes] (.rateRx ln step bits) s) ∧
    (∀ (ln : Lane), Changes [.regs, .rx, .mirLanes] (.rateSwitch ln) s) ∧
    (∀ (l : Fin 96) (tag status data : Nat), Changes [.out, .regs, .tb, .rx, .cmd, .mirLanes, .sys] (.cfgaRx l tag status data) s) ∧
    (∀ (ln : Lane), Changes [.regs, .rx, .mirLanes] (.elasticOverflow ln) s) ∧
    (∀ (l : Fin 96) (ppm10 : Int), Changes [.out, .regs, .rx, .cmd, .mirLanes] (.fillGapResend l ppm10) s) ∧
    (∀ (ln : Lane) (ppm10 : Int) (eq : EqSettings), Changes [.regs] (.trainingComplete ln ppm10 eq) s) ∧
    (∀ (ln : Lane), Changes [.regs, .rx, .mirLanes] (.stageTimeout ln) s) ∧
    (∀ (ln : Lane), Changes [.regs, .rx, .mirLanes] (.stageRetry ln) s) ∧
    (∀ (l : Fin 96), Changes [.rx, .mirLanes] (.slip l) s) ∧
    (∀ (l : Fin 96), Changes [.regs, .rx, .mirLanes] (.retrain l) s) ∧
    (∀ (l : Fin 96), Changes [.rx] (.clrCeil l) s) ∧
    (∀ (l : Fin 96), Changes [.out, .regs, .rx, .cmd, .mirLanes] (.alignDone l) s) ∧
    (∀ (ln : Lane), Changes [.regs] (.eqFreeze ln) s) ∧
    (∀ (ln : Lane), Changes [.regs] (.eqResume ln) s) ∧
    (∀ (slots : List Nat), Changes [.out, .freeUse, .tb, .rx, .cmd, .mirLanes, .hearth, .trig, .pair] (.frameCommand slots) s) ∧
    (∀ (t : TxLane), Changes [.out, .rx, .cmd, .mirLanes] (.fillInsert t) s) ∧
    (∀ (f : Fin 48), Changes [.out, .regs, .rx, .cmd, .mirLanes] (.feAccessGo f) s) ∧
    (∀ (f : Fin 48), Changes [.regs] (.feAccessTimeout f) s) ∧
    (∀ (p : PrbsRun), Changes [.regs, .cmd] (.prbsLock p) s) ∧
    (∀ (p : PrbsLane) (errors : Nat), Changes [.regs, .cmd] (.prbsReseed p errors) s) ∧
    (∀ (n : Nat) (p : PrbsLane), Changes [.out, .freeUse, .regs, .rx] (.prbsInject n p) s) ∧
    Changes [.out, .fns, .regs, .rx, .mirLanes] .lanePllLoss s ∧
    Changes [.out, .fns, .regs, .rx, .mirLanes] .txGroupPllLoss s ∧
    Changes [.regs, .tb, .order, .queues, .bellows, .bgs] .auxPackerTimeout s ∧
    (∀ (q : Fin 97), Changes [.regs, .tb, .order, .queues, .bellows, .engines, .bgs] (.queueFlush q) s) ∧
    (∀ (q : Fin 97), Changes [.queues] (.clrPeak q) s) ∧
    (∀ (k : Fin 12) (asserted : Bool), Changes [.regs, .bellows, .bgs] (.bellowsPinChange k asserted) s) ∧
    (∀ (k : Fin 12) (on : Bool), Changes [.regs, .bellows, .bgs] (.blwForce k on) s) ∧
    (∀ (l : Fin 96), Changes [.queues, .engines] (.itemCopyStart l) s) ∧
    (∀ (l : Fin 96) (ecc : QueueEcc), Changes [.regs, .tb, .order, .queues, .bellows, .engines, .bgs, .hearth, .mem] (.tokenPost l ecc) s) ∧
    (∀ (l : Fin 96) (ecc : QueueEcc), Changes [.regs, .tb, .order, .queues, .bellows, .engines, .bgs, .hearth, .mem, .staging] (.bypassDispatch
      l ecc) s) ∧
    Changes [.regs, .tb, .order, .queues, .bellows, .engines, .bgs] .ingDrainTimeout s ∧
    (∀ (p : ProcId) (ecc : LsEcc), Changes [.out, .freeUse, .fns, .regs, .tb, .rx, .tiles, .cmd, .mirLanes, .order, .queues, .bellows,
      .engines, .cores, .postRecs, .postSeq, .slots, .tdc, .bgs, .field, .hearth, .mem, .trig, .staging, .comps, .jobs, .pair, .host, .ptp, .sys,
        .kept, .keptBad] (.bundleIssue p ecc) s) ∧
    (∀ (p : ProcId), Changes [.engines, .cores] (.fenceComplete p) s) ∧
    (∀ (e : Fin 96), Changes [.regs, .engines, .cores, .postRecs] (.waitStripReturn e) s) ∧
    (∀ (e : Fin 96), Changes [.freeUse, .regs, .tb, .engines, .trig, .staging] (.emitAccepted e) s) ∧
    (∀ (c : Fin 4), Changes [.regs, .engines, .cores, .postRecs, .postSeq] (.postLsResume c) s) ∧
    (∀ (c : Fin 4), Changes [.cores] (.waitEventReturn c) s) ∧
    (∀ (c : Fin 4), Changes [.cores] (.waitEventTimeout c) s) ∧
    (∀ (c : Fin 4), Changes [.cores] (.sysComplete c) s) ∧
    Changes [.tb, .order, .queues, .engines, .hearth, .mem, .staging] .anvStopTimeout s ∧
    (∀ (src : Src) (e : MemErrs) (meas : List (Nat × Nat)), Changes [.out, .regs, .tb, .queues, .bellows, .engines, .cores, .bgs, .hearth,
      .mem, .trig, .comps, .pair, .host, .kept, .keptBad] (.loadRunImage src e meas) s)

/-- For every state and every operand each command named here answers a next state, and the parts of the state that it may change are
those listed beside it, by the names of State's fields (Comp; mem is the content of memory, hearth the rest of that field). Every other
part is as it was, among them the queue of waiting commands, the part and its stepping. Compression, Hearth, triggers, jobs, time and rig synchronisation. -/
def Obligations.FramesOfCaptureAndTime : Prop :=
  ∀ s : State,
    (∀ (f : Fin 48), Changes [.out, .freeUse, .regs, .tb, .order, .hearth, .mem, .trig, .staging, .comps, .pair, .host] (.fragmentEnterStream f) s) ∧
    (∀ (k : Fin 12), Changes [.regs, .comps] (.blockCodingStart k) s) ∧
    (∀ (k : Fin 12) (bad : Bool), Changes [.regs, .tb, .hearth, .mem, .comps] (.blockVerifyDone k bad) s) ∧
    (∀ (k : Fin 12), Changes [.out, .regs, .tb, .hearth, .mem, .trig, .comps, .pair, .host] (.blockCommit k) s) ∧
    (∀ (k : Fin 12), Changes [.out, .regs, .tb, .hearth, .mem, .trig, .comps, .pair, .host] (.hearthWriteResume k) s) ∧
    Changes [.out, .regs, .tb, .hearth, .mem, .trig, .pair, .host] .slotWriteResume s ∧
    (∀ (f : Fin 48) (n : Nat), Changes [.out, .regs, .tb, .hearth, .mem, .trig, .comps, .pair, .host] (.tileFrameTimeout f n) s) ∧
    Changes [.out, .field, .hearth, .trig, .pair] .segcmdRelease s ∧
    (∀ (finding : ScrubFinding) (prog : Fin 65536), Changes [.regs, .tb, .bgs, .hearth, .mem, .keptBad] (.scrubStep finding prog) s) ∧
    Changes [.out, .regs, .tb, .hearth, .mem, .trig, .pair, .host] .quenchSlotWritesDone s ∧
    (∀ (ch : Fin 4) (c : Nat) (e : Fin 2500000), Changes [.out, .regs, .tb, .field, .trig] (.trigEdge ch c e) s) ∧
    (∀ (i : Fin 2), Changes [.regs, .tb, .trig] (.discrepancyTimeout i) s) ∧
    (∀ (i : Fin 2), Changes [.trig] (.dualInputIdle i) s) ∧
    Changes [.regs, .tb, .tdc, .field, .trig] .frameStart s ∧
    (∀ (t : Stamp), Changes [.out, .regs, .tb, .tdc, .field, .hearth, .mem, .trig, .pair, .host] (.triggerEvaluation t) s) ∧
    (∀ (src : Src) (meas : List (Nat × Nat)) (partner : ArmCheck), Changes [.out, .regs, .tb, .cores, .bgs, .field, .hearth, .mem, .trig,
      .comps, .jobs, .pair, .host] (.arm src meas partner) s) ∧
    (∀ (src : Src), Changes [.out, .regs, .tb, .cores, .hearth, .mem, .trig, .pair, .host] (.disarm src) s) ∧
    Changes [.out, .regs, .tb, .field, .hearth, .mem, .trig, .jobs, .pair] .rearm s ∧
    Changes [.regs, .tb, .trig] .hosttrigGo s ∧
    (∀ (src : Src) (hs : Nat), Changes [.out, .regs, .tb, .cores, .trig, .pair, .host] (.trigger src hs) s) ∧
    (∀ (src : Src) (hs : Nat), Changes [.out, .tb, .cores, .trig, .pair, .host] (.timeTrigger src hs) s) ∧
    Changes [.regs, .tb, .trig] .timeTriggerFire s ∧
    (∀ (ch : Fin 32), Changes [.out, .regs, .trig, .host] (.reductionIntervalEnd ch) s) ∧
    Changes [.out, .freeUse, .regs, .hearth, .trig, .host] .measurementReady s ∧
    (∀ (src : Src), Changes [.out, .cores, .host] (.measure src) s) ∧
    (∀ (o : Fin 9) (t : Stamp), Changes [.out, .regs, .tb, .trig] (.outputTimedPulse o t) s) ∧
    (∀ (o : Fin 9), Changes [.trig] (.outputPulseEnd o) s) ∧
    (∀ (o : Fin 9), Changes [.trig] (.outputTestStart o) s) ∧
    (∀ (o : Fin 9) (level : Bool), Changes [.regs, .tb, .trig] (.outputTestReadback o level) s) ∧
    (∀ (o : Fin 9), Changes [.trig] (.outputTestEnd o) s) ∧
    Changes [.regs, .jobs] .jobSubmit s ∧
    (∀ (bad : List Nat) (e : MemErrs), Changes [.freeUse, .regs, .hearth, .mem, .jobs] (.compress bad e) s) ∧
    (∀ (e : MemErrs), Changes [.freeUse, .regs, .hearth, .mem, .jobs] (.decompress e) s) ∧
    (∀ (e : MemErrs), Changes [.regs, .hearth, .mem, .jobs] (.check e) s) ∧
    Changes [.out, .regs, .hearth, .mem, .jobs, .host] .jobDone s ∧
    Changes [.out, .freeUse, .regs, .hearth, .mem, .jobs, .host] .jobAbort s ∧
    Changes [.out, .regs, .tb, .order, .hearth, .mem, .trig, .staging, .comps, .pair, .host] .cmpStopTimeout s ∧
    (∀ (v : Word), Changes [.regs, .tb] (.tbIncWrite v) s) ∧
    Changes [.out, .regs] .tbNowRead s ∧
    Changes [.regs, .tb] .stepGo s ∧
    Changes [.regs, .tb] .stepCancel s ∧
    Changes [.out, .regs, .tb, .queues, .tdc, .field, .hearth, .mem, .trig, .pair, .host, .ptp] .stepApply s ∧
    (∀ (n : Fin 16) (c : Nat) (e : Fin 2500000), Changes [.out, .regs, .tb, .tdc, .field, .hearth, .trig, .pair] (.tdcEdge n c e) s) ∧
    (∀ (i : Fin 2) (c : Nat) (e : Fin 2500000), Changes [.regs, .tb, .tdc, .field] (.gateEdge i c e) s) ∧
    (∀ (u : Fin 8), Changes [.regs, .tb, .tdc] (.tdcSoftwareArm u) s) ∧
    (∀ (u : Fin 8), Changes [.tdc] (.statisticsClear u) s) ∧
    (∀ (u : Fin 8), Changes [.regs, .tb, .tdc] (.tdcWindowEnd u) s) ∧
    (∀ (target : Fin 22), Changes [.regs, .bgs] (.interpolatorRecalStart target) s) ∧
    (∀ (hist : List Nat), Changes [.regs, .tb, .tdc] (.codeDensityCollected hist) s) ∧
    (∀ (offs temp : Int), Changes [.regs, .tdc] (.interpolatorHandover offs temp) s) ∧
    (∀ (p : Fin 2), Changes [.ptp] (.ethRateFallback p) s) ∧
    (∀ (p : Fin 2), Changes [.regs, .tb, .ptp] (.ethBlockLock p) s) ∧
    (∀ (p : Fin 2), Changes [.regs, .tb, .ptp] (.ethLockLoss p) s) ∧
    (∀ (p : Fin 2) (h : PtpHead) (twoStep : Bool) (origin raw : Nat), Changes [.freeUse, .regs, .tb, .ptp] (.syncRx p h twoStep origin raw) s) ∧
    (∀ (p : Fin 2) (h : PtpHead) (origin : Nat), Changes [.freeUse, .regs, .tb, .ptp] (.followUpRx p h origin) s) ∧
    (∀ (p : Fin 2) (h : PtpHead) (raw : Nat), Changes [.out, .regs] (.delayReqRx p h raw) s) ∧
    (∀ (p : Fin 2) (h : PtpHead) (recv reqClock reqPort : Nat), Changes [.freeUse, .regs, .tb, .ptp] (.delayRespRx p h recv reqClock reqPort) s) ∧
    (∀ (p : Fin 2) (h : PtpHead) (raw : Nat), Changes [.out, .regs] (.pdelayReqRx p h raw) s) ∧
    (∀ (p : Fin 2) (h : PtpHead) (twoStep : Bool) (recv reqClock reqPort raw : Nat), Changes [.freeUse, .regs, .tb, .ptp] (.pdelayRespRx p h
      twoStep recv reqClock reqPort raw) s) ∧
    (∀ (p : Fin 2) (h : PtpHead) (origin reqClock reqPort : Nat), Changes [.freeUse, .regs, .tb, .ptp] (.pdelayRespFollowUpRx p h origin
      reqClock reqPort) s) ∧
    (∀ (p : Fin 2) (h : PtpHead) (d : PtpData), Changes [.regs, .tb, .ptp] (.announceRx p h d) s) ∧
    (∀ (p : Fin 2), Changes [.out, .regs, .ptp] (.syncTx p) s) ∧
    (∀ (p : Fin 2), Changes [.out, .regs, .ptp] (.announceTx p) s) ∧
    (∀ (p : Fin 2), Changes [.out, .regs, .ptp] (.delayReqTx p) s) ∧
    (∀ (p : Fin 2), Changes [.out, .regs, .ptp] (.pdelayReqTx p) s) ∧
    (∀ (p : Fin 2) (announce : Bool), Changes [.regs, .tb, .ptp] (.masterTimeout p announce) s) ∧
    (∀ (p : Fin 2) (fcs : Bool) (frame : List Byte) (hs : Nat), Changes [.out, .regs, .tb, .trig, .pair, .ptp] (.rigTriggerRx p fcs frame hs) s) ∧
    (∀ (p : Fin 2) (fcs : Bool) (addrs kind body : List Byte) (fail : Bool), Changes [.out, .regs, .tb, .ptp, .nvs, .sys] (.imgBlockRx p fcs
      addrs kind body fail) s) ∧
    (∀ (p : Fin 2) (fcs : Bool) (frame : List Byte) (raw : Nat), Changes [.out, .regs, .tb, .ptp] (.imgAckRx p fcs frame raw) s) ∧
    (∀ (p : Fin 2) (off : Nat), Changes [.out, .tb, .ptp] (.imgResendTimeout p off) s) ∧
    (∀ (src : Src) (hs : Nat), Changes [.out, .tb, .cores, .trig, .pair, .host, .ptp] (.rigTrigger src hs) s)

/-- For every state and every operand each command named here answers a next state, and the parts of the state that it may change are
those listed beside it, by the names of State's fields (Comp; mem is the content of memory, hearth the rest of that field). Every other
part is as it was, among them the queue of waiting commands, the part and its stepping. The field die, the pair, the host, the settings store, power, package. -/
def Obligations.FramesOfFieldAndHost : Prop :=
  ∀ s : State,
    (∀ (mask : BitVec 8), Changes [.field] (.chargeAmpReset mask) s) ∧
    (∀ (n : Fin 8), Changes [.field] (.chargeResetEnd n) s) ∧
    (∀ (n : Fin 2) (v : Word), Changes [.regs, .field] (.excWrite n v) s) ∧
    (∀ (n : Fin 2), Changes [.regs, .tb, .field] (.excitationApply n) s) ∧
    (∀ (n : Fin 2), Changes [.regs, .tb] (.excitationSettled n) s) ∧
    (∀ (x : Fin 2), Changes [.regs, .field] (.adcPeriodicTrigger x) s) ∧
    (∀ (x : Fin 2), Changes [.regs, .field] (.rscan x) s) ∧
    (∀ (x : Fin 2), Changes [.regs, .field] (.iscan x) s) ∧
    (∀ (x : Fin 2) (t : Stamp), Changes [.field] (.adcSamplingInstant x t) s) ∧
    (∀ (x : Fin 2) (raw : Int), Changes [.regs, .tb, .field] (.adcConversionDone x raw) s) ∧
    (∀ (x : Fin 2), Changes [.field] (.adcPowerDown x) s) ∧
    (∀ (x : Fin 2), Changes [.regs, .tb, .order, .queues, .bellows, .bgs, .field, .trig] (.sampleForward x) s) ∧
    (∀ (ecc : QueueEcc), Changes [.regs, .tb, .queues, .bellows, .bgs, .field, .mem, .trig] (.sampleRoute ecc) s) ∧
    (∀ (seg : Fin 64), Changes [.tb, .field, .hearth] (.ringRangeLast seg) s) ∧
    (∀ (x : Fin 2), Changes [.field] (.adcCalibration x) s) ∧
    (∀ (x : Fin 2), Changes [.bgs, .field] (.adcCalibrationDue x) s) ∧
    (∀ (x : Fin 2) (ofs : Int) (gain : Nat), Changes [.regs, .tb, .field] (.adcCalibrationDone x ofs gain) s) ∧
    (∀ (v : Fin 4), Changes [.field] (.voltageBreakTrip v) s) ∧
    (∀ (v : Fin 4), Changes [.field] (.voltageBreakRelease v) s) ∧
    (∀ (k : Fin 2), Changes [.regs, .tb] (.lvdtSumTrip k) s) ∧
    (∀ (k : Fin 2), Changes [.regs, .tb] (.lvdtSumRelease k) s) ∧
    (∀ (n : Fin 8), Changes [.bgs, .field] (.chargeInputTest n) s) ∧
    (∀ (cap : Nat), Changes [.regs, .tb, .field] (.chargeInputTestDone cap) s) ∧
    Changes [.regs, .tb, .slots, .field] .aouUpdate s ∧
    (∀ (o : Fin 8), Changes [.regs, .tb, .field] (.aouStaleTimeout o) s) ∧
    (∀ (o : Fin 6) (readback : BitVec 16), Changes [.regs, .tb] (.aouLoopError o readback) s) ∧
    (∀ (o : Fin 6) (readback : BitVec 16), Changes [.regs, .tb] (.aouLoopErrorClear o readback) s) ∧
    (∀ (o : Fin 6) (readback : BitVec 16), Changes [.regs, .field] (.aouLoopTestStart o readback) s) ∧
    (∀ (o : Fin 6) (readback : BitVec 16), Changes [.regs, .field] (.aouTestCompare o readback) s) ∧
    (∀ (o : Fin 6), Changes [.regs, .field] (.aouTestRestore o) s) ∧
    (∀ (o : Fin 6) (readback : BitVec 16), Changes [.regs, .tb, .field] (.aouTestResult o readback) s) ∧
    Changes [.out, .regs, .pair] .heartbeatTx s ∧
    (∀ (m : Fin 8) (h : Seqd Heartbeat), Changes [.out, .freeUse, .fns, .regs, .tb, .rx, .tiles, .cmd, .mirLanes, .order, .queues, .bellows,
      .engines, .cores, .tdc, .bgs, .field, .hearth, .mem, .trig, .staging, .comps, .jobs, .pair, .host, .ptp, .kept, .keptBad] (.heartbeatRx m
        h) s) ∧
    Changes [.out, .regs, .tb, .tdc, .field, .hearth, .mem, .trig, .pair, .host] .heartbeatTimeout s ∧
    (∀ (m : Seqd StateMsg), Changes [.out, .freeUse, .fns, .regs, .tb, .rx, .tiles, .mirLanes, .order, .queues, .bellows, .engines, .cores,
      .tdc, .bgs, .field, .hearth, .mem, .trig, .staging, .comps, .jobs, .pair, .host, .ptp, .kept, .keptBad] (.stateRx m) s) ∧
    (∀ (n : Seqd Nat) (t : Nat), Changes [.out, .freeUse, .fns, .regs, .tb, .rx, .tiles, .mirLanes, .order, .queues, .bellows, .engines,
      .cores, .tdc, .bgs, .field, .hearth, .mem, .trig, .staging, .comps, .jobs, .pair, .host, .ptp, .kept, .keptBad] (.schedRx n t) s) ∧
    (∀ (d : Seqd (Option Decision)) (k : Option Nat), Changes [.out, .freeUse, .fns, .regs, .tb, .rx, .tiles, .mirLanes, .order, .queues,
      .bellows, .engines, .cores, .tdc, .bgs, .field, .hearth, .mem, .trig, .staging, .comps, .jobs, .pair, .host, .ptp, .kept, .keptBad]
        (.decisionRx d k) s) ∧
    (∀ (m : Seqd (RecordMsg × List (Nat × Nat))), Changes [.out, .freeUse, .fns, .regs, .tb, .rx, .tiles, .mirLanes, .order, .queues, .bellows,
      .engines, .cores, .tdc, .bgs, .field, .hearth, .mem, .trig, .staging, .comps, .jobs, .pair, .host, .ptp, .kept, .keptBad] (.recordRx m) s) ∧
    Changes [.out, .pair] .timeTx s ∧
    (∀ (dep : Seqd Nat) (back : Nat), Changes [.out, .freeUse, .fns, .regs, .tb, .rx, .tiles, .mirLanes, .order, .queues, .bellows, .engines,
      .cores, .tdc, .bgs, .field, .hearth, .mem, .trig, .staging, .comps, .jobs, .pair, .host, .ptp, .kept, .keptBad] (.timeRx dep back) s) ∧
    Changes [.freeUse, .regs] .pairTimeUpdate s ∧
    (∀ (tile : Seqd (Fin 48)) (frame value : Nat), Changes [.out, .freeUse, .fns, .regs, .tb, .rx, .tiles, .mirLanes, .order, .queues,
      .bellows, .engines, .cores, .tdc, .bgs, .field, .hearth, .mem, .trig, .staging, .comps, .jobs, .pair, .host, .ptp, .kept, .keptBad]
        (.fdigestRx tile frame value) s) ∧
    (∀ (frame : Seqd Nat) (value : Nat), Changes [.out, .freeUse, .fns, .regs, .tb, .rx, .tiles, .mirLanes, .order, .queues, .bellows,
      .engines, .cores, .tdc, .bgs, .field, .hearth, .mem, .trig, .staging, .comps, .jobs, .pair, .host, .ptp, .kept, .keptBad] (.digestRx frame
        value) s) ∧
    Changes [.regs, .tb, .hearth, .mem, .pair] .digestTimeout s ∧
    (∀ (n : Seqd Nat), Changes [.out, .freeUse, .fns, .regs, .tb, .rx, .tiles, .mirLanes, .order, .queues, .bellows, .engines, .cores, .tdc,
      .bgs, .field, .hearth, .mem, .trig, .staging, .comps, .jobs, .pair, .host, .ptp, .kept, .keptBad] (.spaceRx n) s) ∧
    (∀ (t : Seqd Nat), Changes [.out, .freeUse, .fns, .regs, .tb, .rx, .tiles, .mirLanes, .order, .queues, .bellows, .engines, .cores, .tdc,
      .bgs, .field, .hearth, .mem, .trig, .staging, .comps, .jobs, .pair, .host, .ptp, .kept, .keptBad] (.quenchRx t) s) ∧
    (∀ (c : Seqd ForwardCmd), Changes [.out, .freeUse, .fns, .regs, .tb, .rx, .tiles, .mirLanes, .order, .queues, .bellows, .engines, .cores,
      .tdc, .bgs, .field, .hearth, .mem, .trig, .staging, .comps, .jobs, .pair, .host, .ptp, .kept, .keptBad] (.forwardRx c) s) ∧
    (∀ (h : Seqd Nat) (n : Nat) (test : Bool), Changes [.out, .freeUse, .fns, .regs, .tb, .rx, .tiles, .mirLanes, .order, .queues, .bellows,
      .engines, .cores, .tdc, .bgs, .field, .hearth, .mem, .trig, .staging, .comps, .jobs, .pair, .host, .ptp, .kept, .keptBad] (.handoverRx h n
        test) s) ∧
    (∀ (type : Seqd Nat), Changes [.out, .freeUse, .fns, .regs, .tb, .rx, .tiles, .mirLanes, .order, .queues, .bellows, .engines, .cores, .tdc,
      .bgs, .field, .hearth, .mem, .trig, .staging, .comps, .jobs, .pair, .host, .ptp, .kept, .keptBad] (.mirrorMessageBad type) s) ∧
    (∀ (asserted : Bool), Changes [.regs, .tb, .pair] (.tongsInChange asserted) s) ∧
    Changes [.out, .regs, .tb, .tdc, .field, .hearth, .mem, .trig, .pair, .host] .tongsTakeHold s ∧
    Changes [.freeUse, .regs, .tb, .field, .hearth, .mem, .trig, .jobs, .pair] .joinComplete s ∧
    (∀ (h _n : Nat), Changes [.out, .pair] (.roleSwapDue h _n) s) ∧
    (∀ (src : Src) (h _n : Nat), Changes [.out, .cores, .pair, .host] (.swapRole src h _n) s) ∧
    (∀ (h _n : Nat), Changes [.out, .fns, .pair] (.pairSwap h _n) s) ∧
    Changes [.regs, .tb, .pair] .handoverRelease s ∧
    Changes [.out, .pair] .takebackDue s ∧
    Changes [.fns, .regs, .tb, .rx, .mirLanes, .pair] .mirrorLaneFault s ∧
    (∀ (p : Fin 2) (gen : Nat), Changes [.regs, .host] (.usb4LinkUp p gen) s) ∧
    (∀ (p : Fin 2), Changes [.freeUse, .regs, .hearth, .mem, .host] (.usb4LinkDown p) s) ∧
    (∀ (p : Fin 2), Changes [.out, .freeUse, .regs, .cores, .hearth, .mem, .host] (.functionLevelReset p) s) ∧
    (∀ (p : Fin 2) (o n : Nat) (e : MemErrs), Changes [.out, .regs, .hearth, .mem] (.apertureRead p o n e) s) ∧
    (∀ (p : Fin 2) (o : Nat) (data : List Byte), Changes [.regs, .hearth, .mem] (.apertureWrite p o data) s) ∧
    (∀ (q : Fin 16) (v : Word), Changes [.regs, .host] (.sqDoorbell q v) s) ∧
    (∀ (q : Fin 16) (v : Word), Changes [.out, .regs, .host] (.cqHeadWrite q v) s) ∧
    (∀ (v : Word), Changes [.out, .regs, .host] (.eqHeadWrite v) s) ∧
    (∀ (v : Word), Changes [.regs] (.pvHeadWrite v) s) ∧
    (∀ (q : Fin 16) (desc : List Byte) (e : MemErrs), Changes [.out, .regs, .hearth, .mem, .host] (.readRange q desc e) s) ∧
    (∀ (q : Fin 16) (desc : List Byte) (e : MemErrs), Changes [.out, .regs, .hearth, .mem, .host] (.readFrame q desc e) s) ∧
    (∀ (q : Fin 16) (desc : List Byte) (e : MemErrs), Changes [.out, .regs, .hearth, .mem, .host] (.readDecoded q desc e) s) ∧
    (∀ (q : Fin 16) (desc data : List Byte), Changes [.out, .regs, .hearth, .mem, .host] (.writeRange q desc data) s) ∧
    (∀ (q : Fin 16), Changes [.out, .host] (.dmaDescriptorDone q) s) ∧
    (∀ (q : Fin 16) (late : Nat), Changes [.regs, .host] (.writeRangeTimeout q late) s) ∧
    (∀ (p : Fin 2), Changes [.out, .cores, .host] (.mboxGo p) s) ∧
    (∀ (p : Fin 2), Changes [.out, .cores, .host] (.mboxAbort p) s) ∧
    (∀ (src : Src), Changes [.out, .cores, .host] (.mboxLimitExpiry src) s) ∧
    (∀ (src : Src), Changes [.out, .freeUse, .fns, .regs, .tb, .rx, .tiles, .mirLanes, .order, .queues, .bellows, .engines, .cores, .tdc, .bgs,
      .field, .hearth, .mem, .trig, .staging, .comps, .jobs, .pair, .host, .ptp] (.fncmd src) s) ∧
    (∀ (src : Src) (ho : Nat × Nat), Changes [.out, .freeUse, .fns, .regs, .tb, .rx, .tiles, .cmd, .mirLanes, .order, .queues, .bellows,
      .engines, .cores, .tdc, .bgs, .field, .hearth, .mem, .trig, .staging, .comps, .jobs, .pair, .host, .ptp, .nvs, .sys] (.regWrite src ho) s) ∧
    (∀ (src : Checked Src), Changes [.out, .regs, .cores, .host] (.regRead src) s) ∧
    (∀ (src : Src) (hs : Nat), Changes [.out, .cores, .field, .hearth, .trig, .pair, .host] (.release src hs) s) ∧
    (∀ (src : Src), Changes [.out, .freeUse, .fns, .regs, .tb, .rx, .tiles, .mirLanes, .order, .queues, .bellows, .engines, .cores, .tdc, .bgs,
      .field, .hearth, .mem, .trig, .staging, .comps, .jobs, .pair, .host, .ptp] (.mboxQuench src) s) ∧
    (∀ (src : Src), Changes [.out, .tb, .cores, .host, .nvs, .sys] (.store src) s) ∧
    (∀ (src : Src), Changes [.out, .regs, .cores, .tdc, .hearth, .pair, .host] (.recallSet src) s) ∧
    (∀ (src : Src), Changes [.out, .cores, .host, .ptp, .nvs, .sys] (.updateBegin src) s) ∧
    (∀ (src : Src) (e : MemErrs), Changes [.out, .regs, .tb, .cores, .hearth, .mem, .host, .sys] (.updateBlock src e) s) ∧
    (∀ (src : Src) (fail : Bool), Changes [.out, .tb, .cores, .host, .ptp, .nvs, .sys] (.updateCommit src fail) s) ∧
    (∀ (src : Src), Changes [.out, .tb, .cores, .host, .nvs] (.updateConfirm src) s) ∧
    (∀ (src : Src) (fail : Bool), Changes [.out, .fns, .regs, .tb, .rx, .tiles, .cmd, .mirLanes, .order, .queues, .bellows, .engines, .cores,
      .postRecs, .postSeq, .slots, .tdc, .bgs, .field, .hearth, .mem, .trig, .staging, .comps, .jobs, .pair, .host, .ptp, .nvs, .sys, .kept,
        .keptBad] (.updateCommitReset src fail) s) ∧
    Changes [.tb, .sys] .updateCancel s ∧
    Changes [.tb, .nvs] .trialConfirmTimeout s ∧
    Changes [.out, .regs, .tb, .rx, .cmd, .mirLanes, .sys] .fereload s ∧
    Changes [.out, .regs, .tb, .rx, .cmd, .mirLanes, .sys] .feReloadTimeout s ∧
    Changes [.nvs] .recover s ∧
    (∀ (target : Nat), Changes [.out, .nvs, .sys] (.recoveryBegin target) s) ∧
    (∀ (off : Nat) (bytes : List Byte), Changes [.out, .tb, .nvs, .sys] (.recoveryBlock off bytes) s) ∧
    (∀ (fail : Bool), Changes [.out, .tb, .nvs, .sys] (.recoveryCommit fail) s) ∧
    Changes [.out] .recoveryStatus s ∧
    Changes [.out, .fns, .regs, .tb, .rx, .tiles, .cmd, .mirLanes, .order, .queues, .bellows, .engines, .cores, .postRecs, .postSeq, .slots,
      .tdc, .bgs, .field, .hearth, .mem, .trig, .staging, .comps, .jobs, .pair, .host, .ptp, .sys, .kept, .keptBad] .recoveryReset s ∧
    (∀ (page target : Nat), Changes [.bgs, .nvs] (.wearPageMove page target) s) ∧
    Changes [.out, .fns, .regs, .tb, .rx, .tiles, .cmd, .mirLanes, .order, .queues, .bellows, .engines, .cores, .postRecs, .postSeq, .slots,
      .tdc, .bgs, .field, .hearth, .mem, .trig, .staging, .comps, .jobs, .pair, .host, .ptp, .sys, .tap, .kept, .keptBad] .pwrOkDeassert s ∧
    Changes [.out, .fns, .regs, .tb, .rx, .tiles, .cmd, .mirLanes, .order, .queues, .bellows, .engines, .cores, .postRecs, .postSeq, .slots,
      .tdc, .bgs, .field, .hearth, .mem, .trig, .staging, .comps, .jobs, .pair, .host, .ptp, .sys, .tap, .kept, .keptBad] .resetNAssert s ∧
    (∀ (x : BootFacts), Changes [.out, .fns, .regs, .tb, .rx, .tiles, .cmd, .mirLanes, .queues, .bellows, .engines, .cores, .tdc, .bgs, .field,
      .hearth, .mem, .trig, .staging, .comps, .pair, .host, .ptp, .nvs, .sys, .tap] (.resetRelease x) s) ∧
    (∀ (x : BootFacts), Changes [.out, .fns, .regs, .tb, .rx, .tiles, .cmd, .mirLanes, .queues, .bellows, .engines, .cores, .tdc, .bgs, .field,
      .hearth, .mem, .trig, .staging, .comps, .pair, .host, .ptp, .nvs, .sys, .tap] (.tapReset x) s) ∧
    Changes [.out, .tap] .bypass s ∧
    Changes [.out, .tap] .idcode s ∧
    (∀ (cells pins : List Byte), Changes [.out, .tap] (.samplePreload cells pins) s) ∧
    (∀ (cells pins : List Byte), Changes [.out, .fns, .regs, .tb, .rx, .tiles, .cmd, .mirLanes, .order, .queues, .bellows, .engines, .cores,
      .postRecs, .postSeq, .slots, .tdc, .bgs, .field, .hearth, .mem, .trig, .staging, .comps, .jobs, .pair, .host, .ptp, .sys, .tap, .kept,
        .keptBad] (.extest cells pins) s) ∧
    (∀ (cells pins : List Byte), Changes [.out, .fns, .regs, .tb, .rx, .tiles, .cmd, .mirLanes, .order, .queues, .bellows, .engines, .cores,
      .postRecs, .postSeq, .slots, .tdc, .bgs, .field, .hearth, .mem, .trig, .staging, .comps, .jobs, .pair, .host, .ptp, .sys, .tap, .kept,
        .keptBad] (.extestPulse cells pins) s) ∧
    (∀ (cells pins : List Byte), Changes [.out, .fns, .regs, .tb, .rx, .tiles, .cmd, .mirLanes, .order, .queues, .bellows, .engines, .cores,
      .postRecs, .postSeq, .slots, .tdc, .bgs, .field, .hearth, .mem, .trig, .staging, .comps, .jobs, .pair, .host, .ptp, .sys, .tap, .kept,
        .keptBad] (.extestTrain cells pins) s) ∧
    Changes [.out, .fns, .regs, .tb, .rx, .tiles, .cmd, .mirLanes, .order, .queues, .bellows, .engines, .cores, .postRecs, .postSeq, .slots,
      .tdc, .bgs, .field, .hearth, .mem, .trig, .staging, .comps, .jobs, .pair, .host, .ptp, .sys, .tap, .kept, .keptBad] .clamp s ∧
    Changes [.out, .fns, .regs, .tb, .rx, .tiles, .cmd, .mirLanes, .order, .queues, .bellows, .engines, .cores, .postRecs, .postSeq, .slots,
      .tdc, .bgs, .field, .hearth, .mem, .trig, .staging, .comps, .jobs, .pair, .host, .ptp, .sys, .tap, .kept, .keptBad] .highz s ∧
    (∀ (noise : List Byte), Changes [.out, .sys, .tap] (.dbgChallenge noise) s) ∧
    (∀ (slot : BitVec 8) (sig : List Byte), Changes [.out, .regs, .tap] (.dbgResponse slot sig) s) ∧
    (∀ (w : Checked (BitVec 64)) (ho : Nat × Nat), Changes [.out, .freeUse, .fns, .regs, .tb, .rx, .tiles, .cmd, .mirLanes, .order, .queues,
      .bellows, .engines, .cores, .tdc, .bgs, .field, .hearth, .mem, .trig, .staging, .comps, .jobs, .pair, .host, .ptp, .nvs, .sys, .tap]
        (.dbgAccess w ho) s) ∧
    (∀ (w : Word), Changes [.out, .tb, .nvs, .sys, .tap] (.imgLoad w) s) ∧
    Changes [.regs, .tb, .bgs] .laneAdaptMonitor s ∧
    (∀ (island : Fin 12) (ps : Nat), Changes [.regs, .tb, .bgs] (.paceMeasurement island ps) s) ∧
    (∀ (x : Sensors), Changes [.regs, .tb, .bgs, .mem] (.telemetryRecord x) s) ∧
    (∀ (n : Fin 51), Changes [.regs, .tb, .queues, .bellows, .engines, .bgs, .comps] (.domainRetentionEntry n) s) ∧
    (∀ (n : Fin 51), Changes [.bgs] (.domainWake n) s) ∧
    (∀ (n : Fin 51), Changes [.regs, .bgs] (.domainWakeDone n) s) ∧
    (∀ (n : Fin 51), Changes [.regs, .bgs] (.domainPowerUp n) s) ∧
    (∀ (ln : CtlRx), Changes [.regs] (.discardedControlBlock ln) s) ∧
    Changes [.regs, .tb, .pair] .heartbeatSilent s ∧
    (∀ (p : Fin 2), Changes [.regs, .tb, .queues, .bellows, .engines, .bgs, .comps] (.sidebandIdleTimeout p) s) ∧
    (∀ (p : Fin 2), Changes [.bgs] (.sidebandActivity p) s) ∧
    (∀ (x : BootFacts), Changes [.out, .fns, .regs, .tb, .rx, .tiles, .cmd, .mirLanes, .queues, .bellows, .engines, .cores, .tdc, .bgs, .field,
      .hearth, .mem, .trig, .staging, .comps, .pair, .host, .ptp, .nvs, .sys, .tap] (.testLogicResetEntry x) s)

/-- With a command c at the front of the queue, the step of a state is exec of c on that state with the rest of the queue waiting. -/
def Obligations.StepTakesFront : Prop :=
  ∀ (s : State) (c : Instr) (rest : List Instr), s.pending = c :: rest → step s = exec c { s with pending := rest }

/-- From every state a step goes on: no command faults or is refused. It leaves the rest of the queue waiting, and the part number and its
stepping as they were. That a step on an empty queue is a tick is the model's choice (log entry 2). While TB is OFF or ABSENT nothing
changes. Otherwise the counter grows by the increment, modulo 2^96, a tick is counted, and of the rest only registers, times, what waits for
a time, a service step that is due and the block clocks of downstream lanes change: no function's state, no memory, no queue; only the
control blocks that these clocks send leave the device. -/
def Obligations.StepsGo : Prop :=
  (∀ s : State, ∃ t, step s = .next t ∧ t.pending = s.pending.tail ∧ t.part = s.part ∧ t.stepping = s.stepping) ∧
  (∀ s : State, s.pending = [] →
    (s.fnState .tb = .off ∨ s.fnState .tb = .absent → step s = .next s) ∧
    (s.fnState .tb ≠ .off → s.fnState .tb ≠ .absent → ∃ t, step s = .next t ∧
      SameBut [.out, .regs, .tb, .rx, .cmd, .mirLanes, .bellows, .engines, .tdc, .bgs, .field, .hearth, .trig, .comps] s t ∧
      (∀ o ∈ t.out, o ∈ s.out ∨ ∃ lane kind content, o = .block lane kind content ∧ (kind = 0x1E ∨ kind = 0x2D ∨ kind = 0x33)) ∧
      t.tb.counter = (s.tb.counter + s.increment) % 2 ^ 96 ∧ t.tb.ticks = s.tb.ticks + 1))

/-- From every state whose capture memory lists addresses that rise strictly and no byte that an unlisted address reads as, every step
answers a state whose capture memory does too. The form is the model's (log entry 10). -/
def Obligations.MemoryStaysCanonical : Prop :=
  ∀ s t : State, State.memOk s → step s = .next t → State.memOk t

/-- A function that a part does not have is ABSENT, and no command, no reset and no tick of the timebase brings it into another
state. -/
def Obligations.AbsentStaysAbsent : Prop :=
  ∀ (s : State) (f : Fn), (s.part.lacks f = true → s.fnState f = .absent) ∧ ∀ t, s.fnState f = .absent → step s = .next t → t.fnState f = .absent

/-- A command that changes the settings store is a STORE, a command of an image's update or recovery, a wear move, RECOVER, a write that can
give it, or the release of a reset, with which boot marks slots. A command that changes the test access port is one of that port's or one
that drives a reset pin. -/
def Obligations.StoreChangesOnlyByItsCommands : Prop :=
  ∀ (c : Instr) (s t : State), exec c s = .next t →
    (t.nvs ≠ s.nvs → match c with
      | .registerWrite .. | .imgBlockRx .. | .regWrite .. | .store .. | .updateBegin .. | .updateCommit .. | .updateConfirm ..
      | .updateCommitReset .. | .trialConfirmTimeout | .recover | .recoveryBegin .. | .recoveryBlock .. | .imgLoad .. | .recoveryCommit .. | .wearPageMove ..
      | .resetRelease .. | .tapReset .. | .dbgAccess .. | .testLogicResetEntry .. => True
      | _ => False) ∧
    (t.tap ≠ s.tap → match c with
      | .pwrOkDeassert | .resetNAssert | .resetRelease .. | .tapReset .. | .bypass | .idcode | .samplePreload .. | .extest ..
      | .extestPulse .. | .extestTrain .. | .clamp | .highz | .dbgChallenge .. | .dbgResponse .. | .dbgAccess .. | .imgLoad ..
      | .testLogicResetEntry .. => True
      | _ => False)

/-- The bytes that the commands of frames, records, jobs and the log store, with the model's own expressions for their addresses; every other
byte of the capture memory reads as before. Window by window the log's entries, whose 12 data bytes are whole, go to the ring's places
from the count on. A block that Hearth accepts takes its bytes of its tile's stream; with that, and wherever else frames or records close
or a trigger is placed, slots are written that are in the ring or belong to the active segment, or to that whose slots a QUENCH left due, and
that segment's directory entry. An ARM and a re-arm put bytes that wait into streams of the segment that they arm. A job that ends stores
its output at its destination. -/
def Obligations.MemoryFrames : Prop :=
  ∀ s : State,
    let kept (stored : Nat → Prop) (t : State) : Prop := ∀ a, ¬stored a → Memory.get t.hearth.mem a = Memory.get s.hearth.mem a
    let active (x : Active) : Prop := s.hearth.act = some x ∨ ∃ o, s.hearth.flush = some (x, o)
    let slot (i : Nat) : Prop := (∃ fr ∈ s.hearth.ring, fr.slot = i) ∨
      ∃ x, active x ∧ (s.segAt x.seg).mbase ≤ i ∧ i < (s.segAt x.seg).mbase + max (s.segAt x.seg).mslots 1
    let frames (a : Nat) : Prop := (∃ i, slot i ∧ slotAddr i ≤ a ∧ a < slotAddr i + 512) ∨
      ∃ x, active x ∧ dirArea + 64 * x.seg ≤ a ∧ a < dirArea + 64 * x.seg + 64
    let stream (k : Nat) (a : Nat) : Prop := ∃ x b rest, s.hearth.act = some x ∧ (s.compAt k).ready = b :: rest ∧
      ∃ i, i < b.bytes.length ∧ a = (s.segAt x.seg).streamAddr b.tile (sget 0 x.wpos b.tile + i)
    (∀ e k : Nat, (∀ x ∈ s.tb.log, x.data.length = 12) → Does (.logWindowClose e k) s (fun t => s.tb.logCount ≤ t.tb.logCount ∧
      kept (fun a => ∃ n, s.tb.logCount ≤ n ∧ n < t.tb.logCount ∧ logArea + 32 * (n % logSlots) ≤ a ∧
        a < logArea + 32 * (n % logSlots) + 32) t)) ∧
    (∀ (k : Fin 12) (c : Instr), c = .blockCommit k ∨ c = .hearthWriteResume k → Does c s (kept (fun a => stream k.val a ∨ frames a))) ∧
    (∀ c : Instr, c = .slotWriteResume ∨ c = .quenchSlotWritesDone ∨ (∃ f n, c = .tileFrameTimeout f n) ∨ (∃ u, c = .triggerEvaluation u) →
      Does c s (kept frames)) ∧
    (∀ c : Instr, c = .rearm ∨ (∃ src meas x, c = .arm src meas x) → Does c s (fun t => kept (fun a => ∃ x f, t.hearth.act = some x ∧
      (t.segAt x.seg).streamBase f ≤ a ∧ a < (t.segAt x.seg).streamBase f + (t.segAt x.seg).streamLen f) t)) ∧
    (∀ r : JobRun, s.jobs.run = some r → Does .jobDone s (kept (fun a => jdDst r.desc ≤ a ∧ a < jdDst r.desc + r.out.length)))
end

