-- ==== Sys2Proof/Laws/Mem.lean ====
section
/-!
SUPPORT. The sparse map: reading back what was written, and every operation keeps the canonical form.
-/

namespace Sys2Proof.Machine

variable {β : Type} [DecidableEq β] {d : β}

theorem swfFrom_mono {m : List (Nat × β)} {b c : Nat} (h : swfFrom d b m = true) (hbc : c ≤ b) : swfFrom d c m = true := by
  cases m with
  | nil => rfl
  | cons e m =>
    simp only [swfFrom, Bool.and_eq_true, decide_eq_true_eq] at h ⊢
    exact ⟨⟨by omega, h.1.2⟩, h.2⟩

theorem swfFrom_filter {p : Nat × β → Bool} {m : List (Nat × β)} {b : Nat} (h : swfFrom d b m = true) :
    swfFrom d b (m.filter p) = true := by
  induction m generalizing b with
  | nil => rfl
  | cons c m ih =>
    obtain ⟨k, v⟩ := c
    simp only [swfFrom, Bool.and_eq_true, decide_eq_true_eq] at h
    obtain ⟨⟨h1, h2⟩, h3⟩ := h
    by_cases hp : p (k, v)
    · simp only [List.filter_cons, hp, ite_true, swfFrom, Bool.and_eq_true, decide_eq_true_eq]
      exact ⟨⟨h1, h2⟩, ih h3⟩
    · simp only [List.filter_cons, hp]
      exact swfFrom_mono (ih h3) (by omega)

/-- Listing a key that is not listed keeps the canonical form, above any bound that the key respects. -/
theorem sins_swfFrom {m : List (Nat × β)} {b k : Nat} {v : β} (h : swfFrom d b m = true) (hk : b ≤ k)
    (hn : ∀ c ∈ m, c.1 ≠ k) : swfFrom d b (sins d m k v) = true := by
  induction m generalizing b with
  | nil => by_cases hv : v = d <;> simp [sins, hv, swfFrom, hk]
  | cons c m ih =>
    obtain ⟨k', v'⟩ := c
    simp only [swfFrom, Bool.and_eq_true, decide_eq_true_eq] at h
    obtain ⟨⟨h1, h2⟩, h3⟩ := h
    have hne : k' ≠ k := hn (k', v') (List.mem_cons_self ..)
    simp only [sins]
    split
    · split
      · simp [swfFrom, h1, h2, h3]
      · simp only [swfFrom, Bool.and_eq_true, decide_eq_true_eq]
        exact ⟨⟨hk, ‹_›⟩, ⟨by omega, h2⟩, h3⟩
    · simp only [swfFrom, Bool.and_eq_true, decide_eq_true_eq]
      exact ⟨⟨h1, h2⟩, ih h3 (by omega) (fun c hc => hn c (List.mem_cons_of_mem _ hc))⟩

/-- A write keeps the canonical form. -/
theorem sput_swf {m : List (Nat × β)} {k : Nat} {v : β} (h : swf d m = true) : swf d (sput d m k v) = true :=
  sins_swfFrom (swfFrom_filter h) (Nat.zero_le k) (by
    intro c hc
    simpa using (List.mem_filter.mp hc).2)

omit [DecidableEq β] in
/-- A key that is not listed reads as the default. -/
theorem sget_of_not_mem {m : List (Nat × β)} {k : Nat} (hn : ∀ c ∈ m, c.1 ≠ k) : sget d m k = d := by
  induction m with
  | nil => rfl
  | cons c m ih =>
    simp only [sget]
    rw [if_neg (fun h => hn c (List.mem_cons_self ..) h.symm)]
    exact ih (fun c hc => hn c (List.mem_cons_of_mem _ hc))

theorem sget_sins {m : List (Nat × β)} {k j : Nat} {v : β} (hn : ∀ c ∈ m, c.1 ≠ k) :
    sget d (sins d m k v) j = if j = k then v else sget d m j := by
  induction m with
  | nil => by_cases hv : v = d <;> by_cases hj : j = k <;> simp [sins, hv, hj, sget]
  | cons c m ih =>
    obtain ⟨k', v'⟩ := c
    have hne : k' ≠ k := hn (k', v') (List.mem_cons_self ..)
    simp only [sins]
    split
    · by_cases hv : v = d
      · by_cases hj : j = k
        · subst hj; subst hv
          rw [if_pos rfl, if_pos rfl]
          exact sget_of_not_mem hn
        · simp [hv, hj]
      · simp [hv, sget]
    · simp only [sget]
      by_cases hjk : j = k'
      · subst hjk
        rw [if_pos rfl, if_neg hne, if_pos rfl]
      · rw [if_neg hjk, if_neg hjk, ih (fun c hc => hn c (List.mem_cons_of_mem _ hc))]

omit [DecidableEq β] in
theorem sget_filter {m : List (Nat × β)} {k j : Nat} (h : j ≠ k) : sget d (m.filter (fun c => !(c.1 == k))) j = sget d m j := by
  induction m with
  | nil => rfl
  | cons c m ih =>
    obtain ⟨k', v'⟩ := c
    by_cases hk : k' = k
    · subst hk
      simp only [List.filter_cons, beq_self_eq_true, Bool.not_true, Bool.false_eq_true, if_false, ih, sget]
      rw [if_neg h]
    · have : (!(k' == k)) = true := by simp [hk]
      simp only [List.filter_cons, this, if_true, sget, ih]

/-- A read after a write: the key written reads the value, every other key what it read before. -/
theorem sget_sput {m : List (Nat × β)} {k j : Nat} {v : β} :
    sget d (sput d m k v) j = if j = k then v else sget d m j := by
  rw [sput, sget_sins (by intro c hc; simpa using (List.mem_filter.mp hc).2)]
  by_cases h : j = k
  · simp [h]
  · rw [if_neg h, if_neg h, sget_filter h]

/-- A write to one key leaves what another reads, whatever the defaults. -/
theorem sget_sput_ne {e : β} {m : List (Nat × β)} {k j : Nat} {v : β} (h : j ≠ k) : sget e (sput d m k v) j = sget e m j := by
  have hs : ∀ l : List (Nat × β), sget e (sins d l k v) j = sget e l j := by
    intro l
    induction l with
    | nil => by_cases hv : v = d <;> simp [sins, hv, sget, h]
    | cons c l ih =>
      obtain ⟨k', v'⟩ := c
      simp only [sins]
      split
      · by_cases hv : v = d <;> simp [hv, sget, h]
      · simp only [sget, ih]
  rw [sput, hs, sget_filter h]

/-! ### Memories -/

theorem Memory.set_wf {m : Memory} {a : Nat} {v : Byte} (h : m.wf = true) : (m.set a v).wf = true := sput_swf h

theorem Memory.get_set {m : Memory} {a b : Nat} {v : Byte} : (m.set a v).get b = if b = a then v else m.get b := sget_sput

theorem Memory.write_wf {m : Memory} {a : Nat} {bs : List Byte} (h : m.wf = true) : (Memory.write m a bs).wf = true := by
  induction bs generalizing m a with
  | nil => exact h
  | cons b bs ih => exact ih (Memory.set_wf h)

theorem Memory.writeLE_wf {m : Memory} {a k v : Nat} (h : m.wf = true) : (m.writeLE a k v).wf = true := Memory.write_wf h

/-- A byte outside the bytes written reads as before. -/
theorem Memory.get_write_of_outside {m : Memory} {a b : Nat} {bs : List Byte} (hb : b < a ∨ a + bs.length ≤ b) :
    (Memory.write m a bs).get b = m.get b := by
  induction bs generalizing m a with
  | nil => rfl
  | cons x bs ih =>
    simp only [List.length_cons] at hb
    rw [Memory.write, ih (by omega), Memory.get_set, if_neg (by omega)]

/-- The bytes written read back. -/
theorem Memory.get_write_of_inside {m : Memory} {a i : Nat} {bs : List Byte} (hi : i < bs.length) :
    (Memory.write m a bs).get (a + i) = bs[i] := by
  induction bs generalizing m a i with
  | nil => simp at hi
  | cons x bs ih =>
    cases i with
    | zero =>
      rw [Memory.write, Memory.get_write_of_outside (by omega)]
      simp [Memory.get_set]
    | succ i =>
      have := ih (m := m.set a x) (a := a + 1) (i := i) (by simpa using hi)
      simpa [Memory.write, Nat.add_assoc, Nat.add_comm 1 i] using this

theorem Memory.clear_wf {m : Memory} {a n : Nat} (h : m.wf = true) : (m.clear a n).wf = true := swfFrom_filter h

end Sys2Proof.Machine
end

