-- ==== Sys2Proof/Laws/Blank.lean ====
section
/-!
SUPPORT. The blanked state (Safety.lean): how it passes through one replaced part, through choices and through folds; and the
frame that two states with equal blanked forms stand in.
-/

namespace Sys2Proof

open Sys2Proof.Machine

theorem Machine.State.putOut_blank {m : Comp → Bool} (h : m .out = true) (s : Machine.State) (x) : State.blank m (s.putOut x) = State.blank m s := by
  simp [State.blank, Machine.State.putOut, h]

theorem Machine.State.putFreeUse_blank {m : Comp → Bool} (h : m .freeUse = true) (s : Machine.State) (x) : State.blank m (s.putFreeUse x) = State.blank m s := by
  simp [State.blank, Machine.State.putFreeUse, h]

theorem Machine.State.putFns_blank {m : Comp → Bool} (h : m .fns = true) (s : Machine.State) (x) : State.blank m (s.putFns x) = State.blank m s := by
  simp [State.blank, Machine.State.putFns, h]

theorem Machine.State.putRegs_blank {m : Comp → Bool} (h : m .regs = true) (s : Machine.State) (x) : State.blank m (s.putRegs x) = State.blank m s := by
  simp [State.blank, Machine.State.putRegs, h]

theorem Machine.State.putTb_blank {m : Comp → Bool} (h : m .tb = true) (s : Machine.State) (x) : State.blank m (s.putTb x) = State.blank m s := by
  simp [State.blank, Machine.State.putTb, h]

theorem Machine.State.putRx_blank {m : Comp → Bool} (h : m .rx = true) (s : Machine.State) (x) : State.blank m (s.putRx x) = State.blank m s := by
  simp [State.blank, Machine.State.putRx, h]

theorem Machine.State.putTiles_blank {m : Comp → Bool} (h : m .tiles = true) (s : Machine.State) (x) : State.blank m (s.putTiles x) = State.blank m s := by
  simp [State.blank, Machine.State.putTiles, h]

theorem Machine.State.putCmd_blank {m : Comp → Bool} (h : m .cmd = true) (s : Machine.State) (x) : State.blank m (s.putCmd x) = State.blank m s := by
  simp [State.blank, Machine.State.putCmd, h]

theorem Machine.State.putMirLanes_blank {m : Comp → Bool} (h : m .mirLanes = true) (s : Machine.State) (x) : State.blank m (s.putMirLanes x) = State.blank m s := by
  simp [State.blank, Machine.State.putMirLanes, h]

theorem Machine.State.putOrder_blank {m : Comp → Bool} (h : m .order = true) (s : Machine.State) (x) : State.blank m (s.putOrder x) = State.blank m s := by
  simp [State.blank, Machine.State.putOrder, h]

theorem Machine.State.putQueues_blank {m : Comp → Bool} (h : m .queues = true) (s : Machine.State) (x) : State.blank m (s.putQueues x) = State.blank m s := by
  simp [State.blank, Machine.State.putQueues, h]

theorem Machine.State.putBellows_blank {m : Comp → Bool} (h : m .bellows = true) (s : Machine.State) (x) : State.blank m (s.putBellows x) = State.blank m s := by
  simp [State.blank, Machine.State.putBellows, h]

theorem Machine.State.putEngines_blank {m : Comp → Bool} (h : m .engines = true) (s : Machine.State) (x) : State.blank m (s.putEngines x) = State.blank m s := by
  simp [State.blank, Machine.State.putEngines, h]

theorem Machine.State.putCores_blank {m : Comp → Bool} (h : m .cores = true) (s : Machine.State) (x) : State.blank m (s.putCores x) = State.blank m s := by
  simp [State.blank, Machine.State.putCores, h]

theorem Machine.State.putPostRecs_blank {m : Comp → Bool} (h : m .postRecs = true) (s : Machine.State) (x) : State.blank m (s.putPostRecs x) = State.blank m s := by
  simp [State.blank, Machine.State.putPostRecs, h]

theorem Machine.State.putPostSeq_blank {m : Comp → Bool} (h : m .postSeq = true) (s : Machine.State) (x) : State.blank m (s.putPostSeq x) = State.blank m s := by
  simp [State.blank, Machine.State.putPostSeq, h]

theorem Machine.State.putSlots_blank {m : Comp → Bool} (h : m .slots = true) (s : Machine.State) (x) : State.blank m (s.putSlots x) = State.blank m s := by
  simp [State.blank, Machine.State.putSlots, h]

theorem Machine.State.putTdc_blank {m : Comp → Bool} (h : m .tdc = true) (s : Machine.State) (x) : State.blank m (s.putTdc x) = State.blank m s := by
  simp [State.blank, Machine.State.putTdc, h]

theorem Machine.State.putBgs_blank {m : Comp → Bool} (h : m .bgs = true) (s : Machine.State) (x) : State.blank m (s.putBgs x) = State.blank m s := by
  simp [State.blank, Machine.State.putBgs, h]

theorem Machine.State.putField_blank {m : Comp → Bool} (h : m .field = true) (s : Machine.State) (x) : State.blank m (s.putField x) = State.blank m s := by
  simp [State.blank, Machine.State.putField, h]

theorem Machine.State.putMem_blank {m : Comp → Bool} (h : m .mem = true) (s : Machine.State) (x) :
    State.blank m (s.putMem x) = State.blank m s := by
  cases hh : m .hearth <;> simp [State.blank, Machine.State.putMem, h, hh]

theorem Machine.State.putTrig_blank {m : Comp → Bool} (h : m .trig = true) (s : Machine.State) (x) : State.blank m (s.putTrig x) = State.blank m s := by
  simp [State.blank, Machine.State.putTrig, h]

theorem Machine.State.putStaging_blank {m : Comp → Bool} (h : m .staging = true) (s : Machine.State) (x) : State.blank m (s.putStaging x) = State.blank m s := by
  simp [State.blank, Machine.State.putStaging, h]

theorem Machine.State.putComps_blank {m : Comp → Bool} (h : m .comps = true) (s : Machine.State) (x) : State.blank m (s.putComps x) = State.blank m s := by
  simp [State.blank, Machine.State.putComps, h]

theorem Machine.State.putJobs_blank {m : Comp → Bool} (h : m .jobs = true) (s : Machine.State) (x) : State.blank m (s.putJobs x) = State.blank m s := by
  simp [State.blank, Machine.State.putJobs, h]

theorem Machine.State.putPair_blank {m : Comp → Bool} (h : m .pair = true) (s : Machine.State) (x) : State.blank m (s.putPair x) = State.blank m s := by
  simp [State.blank, Machine.State.putPair, h]

theorem Machine.State.putHost_blank {m : Comp → Bool} (h : m .host = true) (s : Machine.State) (x) : State.blank m (s.putHost x) = State.blank m s := by
  simp [State.blank, Machine.State.putHost, h]

theorem Machine.State.putPtp_blank {m : Comp → Bool} (h : m .ptp = true) (s : Machine.State) (x) : State.blank m (s.putPtp x) = State.blank m s := by
  simp [State.blank, Machine.State.putPtp, h]

theorem Machine.State.putNvs_blank {m : Comp → Bool} (h : m .nvs = true) (s : Machine.State) (x) : State.blank m (s.putNvs x) = State.blank m s := by
  simp [State.blank, Machine.State.putNvs, h]

theorem Machine.State.putSys_blank {m : Comp → Bool} (h : m .sys = true) (s : Machine.State) (x) : State.blank m (s.putSys x) = State.blank m s := by
  simp [State.blank, Machine.State.putSys, h]

theorem Machine.State.putTap_blank {m : Comp → Bool} (h : m .tap = true) (s : Machine.State) (x) : State.blank m (s.putTap x) = State.blank m s := by
  simp [State.blank, Machine.State.putTap, h]

theorem Machine.State.putKept_blank {m : Comp → Bool} (h : m .kept = true) (s : Machine.State) (x) : State.blank m (s.putKept x) = State.blank m s := by
  simp [State.blank, Machine.State.putKept, h]

theorem Machine.State.putKeptBad_blank {m : Comp → Bool} (h : m .keptBad = true) (s : Machine.State) (x) : State.blank m (s.putKeptBad x) = State.blank m s := by
  simp [State.blank, Machine.State.putKeptBad, h]

theorem Machine.State.onH_blank {m : Comp → Bool} (h : m .hearth = true) (s : Machine.State) (g : Hearth → Hearth)
    (hg : (g s.hearth).mem = s.hearth.mem) : State.blank m (s.onH g) = State.blank m s := by
  simp [State.blank, Machine.State.onH, Machine.State.putHearth, h, hg]

namespace Machine

variable {m : Comp → Bool}

theorem blank_ite {c : Prop} [Decidable c] (a b : State) :
    State.blank m (if c then a else b) = if c then State.blank m a else State.blank m b := by split <;> rfl

theorem fst_ite {α : Type} {c : Prop} [Decidable c] (a b : State × α) :
    State.blank m (if c then a else b).1 = if c then State.blank m a.1 else State.blank m b.1 := by split <;> rfl

theorem of_ite {α : Type} {c : Prop} [Decidable c] {a b g : α} {p : Prop} (h : (if c then a else b) = g) (ha : a = g → p)
    (hb : b = g → p) : p := by 
  split at h
  · exact ha h
  · exact hb h

theorem of_dite {α : Type} {c : Prop} [Decidable c] {a : c → α} {b : ¬c → α} {g : α} {p : Prop}
    (h : (if x : c then a x else b x) = g) (ha : ∀ x, a x = g → p) (hb : ∀ x, b x = g → p) : p := by
  split at h
  · exact ha _ h
  · exact hb _ h

theorem State.each_blank {α : Type} (s : State) (xs : List α) (g : State → α → State)
    (hg : ∀ t x, State.blank m (g t x) = State.blank m t) : State.blank m (s.each xs g) = State.blank m s := by
  unfold State.each
  induction xs generalizing s with
  | nil => rfl
  | cons x xs ih => exact (ih (g s x)).trans (hg s x)

theorem State.serve_blank (s : State) (src : Src) (code : Nat) (g : FwCmd → State → State)
    (hg : ∀ c, State.blank m (g c s) = State.blank m s) : State.blank m (s.serve src code g) = State.blank m s := by
  unfold State.serve
  split
  · exact hg _
  · rfl

end Machine

end Sys2Proof
end

