-- ==== Sys2Proof/Laws/BlankOps.lean ====
section
/-!
SUPPORT. What each operation leaves alone: the parts of the state that it can change are emptied on both sides, and the rest agrees.
The files of Machine/: Ops, Role, HostRings, HearthMem.
-/

namespace Sys2Proof.Machine

set_option linter.unusedSimpArgs false

variable {bl : Comp → Bool}

theorem State.logMarked_blank (h0 : bl .tb = true) (s : State) (t : Stamp) (m : StampMark) (cls : Nat) (idx : Nat) (code : Nat) (fields : List (Nat × Nat × Nat)) : State.blank bl (State.logMarked s t m cls idx code fields) = State.blank bl s := by
  unfold State.logMarked
  repeat' first
    | with_reducible rfl
    | (simp only [h0, ↓State.putTb_blank, ↓blank_ite, ↓fst_ite, ite_self, implies_true]; done)
    | split
    | simp only [h0, ↓State.putTb_blank, ↓blank_ite, ↓fst_ite, ite_self, implies_true]

theorem State.log_blank (h0 : bl .tb = true) (s : State) (t : Stamp) (cls : Nat) (idx : Nat) (code : Nat) (fields : List (Nat × Nat × Nat)) : State.blank bl (State.log s t cls idx code fields) = State.blank bl s := by
  unfold State.log
  repeat' first
    | with_reducible rfl
    | (simp only [h0, ↓State.logMarked_blank, ↓blank_ite, ↓fst_ite, ite_self, implies_true]; done)
    | split
    | simp only [h0, ↓State.logMarked_blank, ↓blank_ite, ↓fst_ite, ite_self, implies_true]

theorem State.setReg_blank (h0 : bl .regs = true) (s : State) (a : Nat) (v : Nat) : State.blank bl (State.setReg s a v) = State.blank bl s := by
  unfold State.setReg
  repeat' first
    | with_reducible rfl
    | (simp only [h0, ↓State.putRegs_blank, ↓blank_ite, ↓fst_ite, ite_self, implies_true]; done)
    | split
    | simp only [h0, ↓State.putRegs_blank, ↓blank_ite, ↓fst_ite, ite_self, implies_true]

theorem State.count_blank (h0 : bl .regs = true) (s : State) (a : Nat) (n : optParam Nat 1) : State.blank bl (State.count s a n) = State.blank bl s := by
  unfold State.count
  repeat' first
    | with_reducible rfl
    | (simp only [h0, ↓State.setReg_blank, ↓blank_ite, ↓fst_ite, ite_self, implies_true]; done)
    | split
    | simp only [h0, ↓State.setReg_blank, ↓blank_ite, ↓fst_ite, ite_self, implies_true]

theorem State.onQueue_blank (h0 : bl .queues = true) (s : State) (q : Nat) (g : Queue → Queue) : State.blank bl (State.onQueue s q g) = State.blank bl s := by
  unfold State.onQueue
  repeat' first
    | with_reducible rfl
    | (simp only [h0, ↓State.putQueues_blank, ↓blank_ite, ↓fst_ite, ite_self, implies_true]; done)
    | split
    | simp only [h0, ↓State.putQueues_blank, ↓blank_ite, ↓fst_ite, ite_self, implies_true]

theorem State.onEngine_blank (h0 : bl .engines = true) (s : State) (e : Nat) (g : Engine → Engine) : State.blank bl (State.onEngine s e g) = State.blank bl s := by
  unfold State.onEngine
  repeat' first
    | with_reducible rfl
    | (simp only [h0, ↓State.putEngines_blank, ↓blank_ite, ↓fst_ite, ite_self, implies_true]; done)
    | split
    | simp only [h0, ↓State.putEngines_blank, ↓blank_ite, ↓fst_ite, ite_self, implies_true]

theorem State.useFree_blank (h0 : bl .freeUse = true) (s : State) : State.blank bl (State.useFree s) = State.blank bl s := by
  unfold State.useFree
  repeat' first
    | with_reducible rfl
    | (simp only [h0, ↓State.putFreeUse_blank, ↓blank_ite, ↓fst_ite, ite_self, implies_true]; done)
    | split
    | simp only [h0, ↓State.putFreeUse_blank, ↓blank_ite, ↓fst_ite, ite_self, implies_true]

theorem State.hwrite_blank (h0 : bl .mem = true) (s : State) (a : Nat) (bs : List Byte) : State.blank bl (State.hwrite s a bs) = State.blank bl s := by
  unfold State.hwrite
  repeat' first
    | with_reducible rfl
    | (simp only [h0, ↓State.putMem_blank, ↓blank_ite, ↓fst_ite, ite_self, implies_true]; done)
    | split
    | simp only [h0, ↓State.putMem_blank, ↓blank_ite, ↓fst_ite, ite_self, implies_true]

theorem State.emit_blank (h0 : bl .out = true) (s : State) (o : Out) : State.blank bl (State.emit s o) = State.blank bl s := by
  unfold State.emit
  repeat' first
    | with_reducible rfl
    | (simp only [h0, ↓State.putOut_blank, ↓blank_ite, ↓fst_ite, ite_self, implies_true]; done)
    | split
    | simp only [h0, ↓State.putOut_blank, ↓blank_ite, ↓fst_ite, ite_self, implies_true]

theorem State.signal_blank (h0 : bl .out = true) (h1 : bl .host = true) (s : State) (port : Nat) (v : Nat) : State.blank bl (State.signal s port v) = State.blank bl s := by
  unfold State.signal
  repeat' first
    | with_reducible rfl
    | (simp only [h0, h1, ↓State.putHost_blank, ↓State.emit_blank, ↓blank_ite, ↓fst_ite, ite_self, implies_true]; done)
    | split
    | simp only [h0, h1, ↓State.putHost_blank, ↓State.emit_blank, ↓blank_ite, ↓fst_ite, ite_self, implies_true]

theorem State.eqWrite_blank (h0 : bl .out = true) (h1 : bl .regs = true) (h2 : bl .host = true) (s : State) (type : Nat) (seg : Nat) (recno : Nat) (payload : List Byte) : State.blank bl (State.eqWrite s type seg recno payload) = State.blank bl s := by
  unfold State.eqWrite
  repeat' first
    | with_reducible rfl
    | (simp only [h0, h1, h2, ↓State.putHost_blank, ↓State.setReg_blank, ↓State.emit_blank, ↓State.signal_blank, ↓blank_ite, ↓fst_ite, ite_self, implies_true]; done)
    | split
    | simp only [h0, h1, h2, ↓State.putHost_blank, ↓State.setReg_blank, ↓State.emit_blank, ↓State.signal_blank, ↓blank_ite, ↓fst_ite, ite_self, implies_true]

theorem State.eqReportLost_blank (h0 : bl .out = true) (h1 : bl .regs = true) (h2 : bl .host = true) (s : State) : State.blank bl (State.eqReportLost s) = State.blank bl s := by
  unfold State.eqReportLost
  repeat' first
    | with_reducible rfl
    | (simp only [h0, h1, h2, ↓State.putHost_blank, ↓State.eqWrite_blank, ↓blank_ite, ↓fst_ite, ite_self, implies_true]; done)
    | split
    | simp only [h0, h1, h2, ↓State.putHost_blank, ↓State.eqWrite_blank, ↓blank_ite, ↓fst_ite, ite_self, implies_true]

theorem State.eqPost_blank (h0 : bl .out = true) (h1 : bl .regs = true) (h2 : bl .host = true) (s : State) (type : Nat) (seg : Nat) (recno : Nat) (payload : List Byte) : State.blank bl (State.eqPost s type seg recno payload) = State.blank bl s := by
  unfold State.eqPost
  repeat' first
    | with_reducible rfl
    | (simp only [h0, h1, h2, ↓State.eqReportLost_blank, ↓State.eqWrite_blank, ↓State.putHost_blank, ↓State.count_blank, ↓blank_ite, ↓fst_ite, ite_self, implies_true]; done)
    | split
    | simp only [h0, h1, h2, ↓State.eqReportLost_blank, ↓State.eqWrite_blank, ↓State.putHost_blank, ↓State.count_blank, ↓blank_ite, ↓fst_ite, ite_self, implies_true]

theorem State.slotPatch_blank (h0 : bl .mem = true) (s : State) (i : Nat) (g : List Byte → List Byte) : State.blank bl (State.slotPatch s i g) = State.blank bl s := by
  unfold State.slotPatch
  repeat' first
    | with_reducible rfl
    | (simp only [h0, ↓State.hwrite_blank, ↓blank_ite, ↓fst_ite, ite_self, implies_true]; done)
    | split
    | simp only [h0, ↓State.hwrite_blank, ↓blank_ite, ↓fst_ite, ite_self, implies_true]

theorem State.slotMark_blank (h0 : bl .mem = true) (s : State) (i : Nat) (m : MaskKind) (f : Nat) (flags : Nat) : State.blank bl (State.slotMark s i m f flags) = State.blank bl s := by
  unfold State.slotMark
  repeat' first
    | with_reducible rfl
    | (simp only [h0, ↓State.slotPatch_blank, ↓blank_ite, ↓fst_ite, ite_self, implies_true]; done)
    | split
    | simp only [h0, ↓State.slotPatch_blank, ↓blank_ite, ↓fst_ite, ite_self, implies_true]

theorem State.markFrame_blank (h0 : bl .hearth = true) (h1 : bl .mem = true) (s : State) (n : Nat) (m : MaskKind) (f : Nat) (flags : Nat) : State.blank bl (State.markFrame s n m f flags) = State.blank bl s := by
  unfold State.markFrame
  repeat' first
    | with_reducible rfl
    | (simp only [h0, h1, ↓State.slotMark_blank, State.onH_blank, ↓blank_ite, ↓fst_ite, ite_self, implies_true]; done)
    | split
    | simp only [h0, h1, ↓State.slotMark_blank, State.onH_blank, ↓blank_ite, ↓fst_ite, ite_self, implies_true]
    | (refine (State.onH_blank h0 _ _ rfl).trans ?_)

theorem State.gapRange_blank (h0 : bl .hearth = true) (h1 : bl .mem = true) (s : State) (tile : Nat) (x : Nat) (y : Nat) (quench : Bool) : State.blank bl (State.gapRange s tile x y quench) = State.blank bl s := by
  unfold State.gapRange
  repeat' first
    | with_reducible rfl
    | (simp only [h0, h1, State.each_blank, ↓State.markFrame_blank, State.onH_blank, ↓blank_ite, ↓fst_ite, ite_self, implies_true]; done)
    | split
    | simp only [h0, h1, State.each_blank, ↓State.markFrame_blank, State.onH_blank, ↓blank_ite, ↓fst_ite, ite_self, implies_true]
    | (refine (State.onH_blank h0 _ _ rfl).trans ?_)
    | refine (State.each_blank _ _ _ ?_).trans ?_
    | intro _

theorem State.gapNoid_blank (h0 : bl .hearth = true) (h1 : bl .mem = true) (s : State) (tile : Nat) (quench : Bool) : State.blank bl (State.gapNoid s tile quench) = State.blank bl s := by
  unfold State.gapNoid
  repeat' first
    | with_reducible rfl
    | (simp only [h0, h1, ↓State.markFrame_blank, State.onH_blank, ↓blank_ite, ↓fst_ite, ite_self, implies_true]; done)
    | split
    | simp only [h0, h1, ↓State.markFrame_blank, State.onH_blank, ↓blank_ite, ↓fst_ite, ite_self, implies_true]
    | (refine (State.onH_blank h0 _ _ rfl).trans ?_)

theorem State.gapMarks_blank (h0 : bl .hearth = true) (h1 : bl .mem = true) (s : State) (tile : Nat) (range : Option (Nat × Nat)) (noid : Bool) (quench : Bool) : State.blank bl (State.gapMarks s tile range noid quench) = State.blank bl s := by
  unfold State.gapMarks
  repeat' first
    | with_reducible rfl
    | (simp only [h0, h1, ↓State.gapRange_blank, ↓State.gapNoid_blank, ↓blank_ite, ↓fst_ite, ite_self, implies_true]; done)
    | split
    | simp only [h0, h1, ↓State.gapRange_blank, ↓State.gapNoid_blank, ↓blank_ite, ↓fst_ite, ite_self, implies_true]

theorem State.gapReport_blank (h0 : bl .tb = true) (h1 : bl .hearth = true) (h2 : bl .mem = true) (s : State) (lane : Nat) (tile : Nat) (frame : Nat) (cause : Nat) (t : Option (Stamp × StampMark)) : State.blank bl (State.gapReport s lane tile frame cause t) = State.blank bl s := by
  unfold State.gapReport
  repeat' first
    | with_reducible rfl
    | (simp only [h0, h1, h2, ↓State.gapMarks_blank, ↓State.logMarked_blank, ↓blank_ite, ↓fst_ite, ite_self, implies_true]; done)
    | split
    | simp only [h0, h1, h2, ↓State.gapMarks_blank, ↓State.logMarked_blank, ↓blank_ite, ↓fst_ite, ite_self, implies_true]

theorem State.mirrorSend_blank (h0 : bl .out = true) (h1 : bl .pair = true) (s : State) (type : Nat) (body : List Byte) : State.blank bl (State.mirrorSend s type body) = State.blank bl s := by
  unfold State.mirrorSend
  repeat' first
    | with_reducible rfl
    | (simp only [h0, h1, ↓State.putPair_blank, ↓State.emit_blank, ↓blank_ite, ↓fst_ite, ite_self, implies_true]; done)
    | split
    | simp only [h0, h1, ↓State.putPair_blank, ↓State.emit_blank, ↓blank_ite, ↓fst_ite, ite_self, implies_true]

theorem State.diverge_blank (h0 : bl .regs = true) (h1 : bl .hearth = true) (h2 : bl .mem = true) (s : State) (n : Nat) : State.blank bl (State.diverge s n) = State.blank bl s := by
  unfold State.diverge
  repeat' first
    | with_reducible rfl
    | (simp only [h0, h1, h2, ↓State.count_blank, ↓State.markFrame_blank, ↓blank_ite, ↓fst_ite, ite_self, implies_true]; done)
    | split
    | simp only [h0, h1, h2, ↓State.count_blank, ↓State.markFrame_blank, ↓blank_ite, ↓fst_ite, ite_self, implies_true]

theorem State.logDev_blank (h0 : bl .tb = true) (s : State) (f : Fn) (kind : Nat) (status : Nat) (fields : List (Nat × Nat × Nat)) : State.blank bl (State.logDev s f kind status fields) = State.blank bl s := by
  unfold State.logDev
  repeat' first
    | with_reducible rfl
    | (simp only [h0, ↓State.log_blank, ↓blank_ite, ↓fst_ite, ite_self, implies_true]; done)
    | split
    | simp only [h0, ↓State.log_blank, ↓blank_ite, ↓fst_ite, ite_self, implies_true]

theorem State.logDivergent_blank (h0 : bl .tb = true) (h1 : bl .pair = true) (s : State) (n : Nat) (frameDiffers : Bool) : State.blank bl (State.logDivergent s n frameDiffers) = State.blank bl s := by
  unfold State.logDivergent
  repeat' first
    | with_reducible rfl
    | (simp only [h0, h1, ↓State.putPair_blank, State.each_blank, ↓State.logDev_blank, ↓blank_ite, ↓fst_ite, ite_self, implies_true]; done)
    | split
    | simp only [h0, h1, ↓State.putPair_blank, State.each_blank, ↓State.logDev_blank, ↓blank_ite, ↓fst_ite, ite_self, implies_true]
    | refine (State.each_blank _ _ _ ?_).trans ?_
    | intro _

theorem State.compareDigest_blank (h0 : bl .regs = true) (h1 : bl .tb = true) (h2 : bl .hearth = true) (h3 : bl .mem = true) (h4 : bl .pair = true) (s : State) (a : DigestNote) (b : DigestNote) : State.blank bl (State.compareDigest s a b) = State.blank bl s := by
  unfold State.compareDigest
  repeat' first
    | with_reducible rfl
    | (simp only [h0, h1, h2, h3, h4, ↓State.diverge_blank, ↓State.logDivergent_blank, ↓State.putPair_blank, ↓blank_ite, ↓fst_ite, ite_self, implies_true]; done)
    | split
    | simp only [h0, h1, h2, h3, h4, ↓State.diverge_blank, ↓State.logDivergent_blank, ↓State.putPair_blank, ↓blank_ite, ↓fst_ite, ite_self, implies_true]

theorem State.ownDigest_blank (h0 : bl .out = true) (h1 : bl .regs = true) (h2 : bl .tb = true) (h3 : bl .hearth = true) (h4 : bl .mem = true) (h5 : bl .pair = true) (s : State) (d : DigestNote) : State.blank bl (State.ownDigest s d) = State.blank bl s := by
  unfold State.ownDigest
  repeat' first
    | with_reducible rfl
    | (simp only [h0, h1, h2, h3, h4, h5, ↓State.mirrorSend_blank, ↓State.compareDigest_blank, ↓State.putPair_blank, ↓blank_ite, ↓fst_ite, ite_self, implies_true]; done)
    | split
    | simp only [h0, h1, h2, h3, h4, h5, ↓State.mirrorSend_blank, ↓State.compareDigest_blank, ↓State.putPair_blank, ↓blank_ite, ↓fst_ite, ite_self, implies_true]

theorem State.onSeg_blank (h0 : bl .hearth = true) (s : State) (i : Nat) (g : Segment → Segment) : State.blank bl (State.onSeg s i g) = State.blank bl s := by
  unfold State.onSeg
  repeat' first
    | with_reducible rfl
    | (simp only [h0, State.onH_blank, ↓blank_ite, ↓fst_ite, ite_self, implies_true]; done)
    | split
    | simp only [h0, State.onH_blank, ↓blank_ite, ↓fst_ite, ite_self, implies_true]
    | (refine (State.onH_blank h0 _ _ rfl).trans ?_)

theorem State.tellRecord_blank (h0 : bl .out = true) (h1 : bl .pair = true) (s : State) (what : Nat) (seg : Nat) (a : Nat) (b : Nat) (c : Nat) : State.blank bl (State.tellRecord s what seg a b c) = State.blank bl s := by
  unfold State.tellRecord
  repeat' first
    | with_reducible rfl
    | (simp only [h0, h1, ↓State.mirrorSend_blank, ↓blank_ite, ↓fst_ite, ite_self, implies_true]; done)
    | split
    | simp only [h0, h1, ↓State.mirrorSend_blank, ↓blank_ite, ↓fst_ite, ite_self, implies_true]

theorem State.setFld_blank (h0 : bl .regs = true) (s : State) (a : Nat) (hi : Nat) (lo : Nat) (v : Nat) : State.blank bl (State.setFld s a hi lo v) = State.blank bl s := by
  unfold State.setFld
  repeat' first
    | with_reducible rfl
    | (simp only [h0, ↓State.setReg_blank, ↓blank_ite, ↓fst_ite, ite_self, implies_true]; done)
    | split
    | simp only [h0, ↓State.setReg_blank, ↓blank_ite, ↓fst_ite, ite_self, implies_true]

theorem State.setBit_blank (h0 : bl .regs = true) (s : State) (a : Nat) (i : Nat) (b : Bool) : State.blank bl (State.setBit s a i b) = State.blank bl s := by
  unfold State.setBit
  repeat' first
    | with_reducible rfl
    | (simp only [h0, ↓State.setFld_blank, ↓blank_ite, ↓fst_ite, ite_self, implies_true]; done)
    | split
    | simp only [h0, ↓State.setFld_blank, ↓blank_ite, ↓fst_ite, ite_self, implies_true]

theorem State.eqLog_blank (h0 : bl .out = true) (h1 : bl .regs = true) (h2 : bl .host = true) (s : State) (cls : Nat) (idx : Nat) (entry : List Byte) : State.blank bl (State.eqLog s cls idx entry) = State.blank bl s := by
  unfold State.eqLog
  repeat' first
    | with_reducible rfl
    | (simp only [h0, h1, h2, ↓State.eqPost_blank, ↓blank_ite, ↓fst_ite, ite_self, implies_true]; done)
    | split
    | simp only [h0, h1, h2, ↓State.eqPost_blank, ↓blank_ite, ↓fst_ite, ite_self, implies_true]

theorem State.streamWrite_blank (h0 : bl .mem = true) (s : State) (g : Segment) (f : Nat) (pos : Nat) (bs : List Byte) : State.blank bl (State.streamWrite s g f pos bs) = State.blank bl s := by
  unfold State.streamWrite
  repeat' first
    | with_reducible rfl
    | (simp only [h0, ↓State.hwrite_blank, ↓blank_ite, ↓fst_ite, ite_self, implies_true]; done)
    | split
    | simp only [h0, ↓State.hwrite_blank, ↓blank_ite, ↓fst_ite, ite_self, implies_true]

theorem State.onTile_blank (h0 : bl .tiles = true) (s : State) (f : Nat) (g : TileRx → TileRx) : State.blank bl (State.onTile s f g) = State.blank bl s := by
  unfold State.onTile
  repeat' first
    | with_reducible rfl
    | (simp only [h0, ↓State.putTiles_blank, ↓blank_ite, ↓fst_ite, ite_self, implies_true]; done)
    | split
    | simp only [h0, ↓State.putTiles_blank, ↓blank_ite, ↓fst_ite, ite_self, implies_true]

theorem State.onBellows_blank (h0 : bl .bellows = true) (s : State) (i : Nat) (g : Bellows → Bellows) : State.blank bl (State.onBellows s i g) = State.blank bl s := by
  unfold State.onBellows
  repeat' first
    | with_reducible rfl
    | (simp only [h0, ↓State.putBellows_blank, ↓blank_ite, ↓fst_ite, ite_self, implies_true]; done)
    | split
    | simp only [h0, ↓State.putBellows_blank, ↓blank_ite, ↓fst_ite, ite_self, implies_true]

theorem State.onFn_blank (h0 : bl .fns = true) (s : State) (f : Fn) (g : FnInfo → FnInfo) : State.blank bl (State.onFn s f g) = State.blank bl s := by
  unfold State.onFn
  repeat' first
    | with_reducible rfl
    | (simp only [h0, ↓State.putFns_blank, ↓blank_ite, ↓fst_ite, ite_self, implies_true]; done)
    | split
    | simp only [h0, ↓State.putFns_blank, ↓blank_ite, ↓fst_ite, ite_self, implies_true]

theorem State.faultFn_blank (h0 : bl .fns = true) (s : State) (f : Fn) (code : Nat) : State.blank bl (State.faultFn s f code) = State.blank bl s := by
  unfold State.faultFn
  repeat' first
    | with_reducible rfl
    | (simp only [h0, ↓State.onFn_blank, ↓blank_ite, ↓fst_ite, ite_self, implies_true]; done)
    | split
    | simp only [h0, ↓State.onFn_blank, ↓blank_ite, ↓fst_ite, ite_self, implies_true]

theorem State.onRx_blank (h0 : bl .rx = true) (s : State) (l : Nat) (g : RxLane → RxLane) : State.blank bl (State.onRx s l g) = State.blank bl s := by
  unfold State.onRx
  repeat' first
    | with_reducible rfl
    | (simp only [h0, ↓State.putRx_blank, ↓blank_ite, ↓fst_ite, ite_self, implies_true]; done)
    | split
    | simp only [h0, ↓State.putRx_blank, ↓blank_ite, ↓fst_ite, ite_self, implies_true]

theorem State.setFn_blank (h0 : bl .fns = true) (s : State) (f : Fn) (x : FnState) : State.blank bl (State.setFn s f x) = State.blank bl s := by
  unfold State.setFn
  repeat' first
    | with_reducible rfl
    | (simp only [h0, ↓State.onFn_blank, ↓blank_ite, ↓fst_ite, ite_self, implies_true]; done)
    | split
    | simp only [h0, ↓State.onFn_blank, ↓blank_ite, ↓fst_ite, ite_self, implies_true]

theorem State.onCore_blank (h0 : bl .cores = true) (s : State) (c : Nat) (g : Core → Core) : State.blank bl (State.onCore s c g) = State.blank bl s := by
  unfold State.onCore
  repeat' first
    | with_reducible rfl
    | (simp only [h0, ↓State.putCores_blank, ↓blank_ite, ↓fst_ite, ite_self, implies_true]; done)
    | split
    | simp only [h0, ↓State.putCores_blank, ↓blank_ite, ↓fst_ite, ite_self, implies_true]

theorem State.badCmd_blank (h0 : bl .regs = true) (s : State) (n : Nat) : State.blank bl (State.badCmd s n) = State.blank bl s := by
  unfold State.badCmd
  repeat' first
    | with_reducible rfl
    | (simp only [h0, ↓State.setFld_blank, ↓State.setBit_blank, ↓blank_ite, ↓fst_ite, ite_self, implies_true]; done)
    | split
    | simp only [h0, ↓State.setFld_blank, ↓State.setBit_blank, ↓blank_ite, ↓fst_ite, ite_self, implies_true]

theorem State.refuseSt_blank (h0 : bl .regs = true) (s : State) (n : Nat) : State.blank bl (State.refuseSt s n) = State.blank bl s := by
  unfold State.refuseSt
  repeat' first
    | with_reducible rfl
    | (simp only [h0, ↓State.setFld_blank, ↓State.setBit_blank, ↓blank_ite, ↓fst_ite, ite_self, implies_true]; done)
    | split
    | simp only [h0, ↓State.setFld_blank, ↓State.setBit_blank, ↓blank_ite, ↓fst_ite, ite_self, implies_true]

theorem State.onCmd_blank (h0 : bl .cmd = true) (s : State) (f : Nat) (g : CmdLane → CmdLane) : State.blank bl (State.onCmd s f g) = State.blank bl s := by
  unfold State.onCmd
  repeat' first
    | with_reducible rfl
    | (simp only [h0, ↓State.putCmd_blank, ↓blank_ite, ↓fst_ite, ite_self, implies_true]; done)
    | split
    | simp only [h0, ↓State.putCmd_blank, ↓blank_ite, ↓fst_ite, ite_self, implies_true]

theorem State.slagReport_blank (h0 : bl .tb = true) (h1 : bl .hearth = true) (h2 : bl .mem = true) (s : State) (q : Nat) (cause : Nat) (noid : Bool) (first : Option Ident) (last : Option Ident) : State.blank bl (State.slagReport s q cause noid first last) = State.blank bl s := by
  unfold State.slagReport
  repeat' first
    | with_reducible rfl
    | (simp only [h0, h1, h2, ↓State.gapMarks_blank, ↓State.logMarked_blank, ↓blank_ite, ↓fst_ite, ite_self, implies_true]; done)
    | split
    | simp only [h0, h1, h2, ↓State.gapMarks_blank, ↓State.logMarked_blank, ↓blank_ite, ↓fst_ite, ite_self, implies_true]

theorem State.countCE_blank (h0 : bl .regs = true) (s : State) (a : Nat) : State.blank bl (State.countCE s a) = State.blank bl s := by
  unfold State.countCE
  repeat' first
    | with_reducible rfl
    | (simp only [h0, ↓State.count_blank, ↓blank_ite, ↓fst_ite, ite_self, implies_true]; done)
    | split
    | simp only [h0, ↓State.count_blank, ↓blank_ite, ↓fst_ite, ite_self, implies_true]

theorem State.countUE_blank (h0 : bl .regs = true) (s : State) (a : Nat) : State.blank bl (State.countUE s a) = State.blank bl s := by
  unfold State.countUE
  repeat' first
    | with_reducible rfl
    | (simp only [h0, ↓State.count_blank, ↓blank_ite, ↓fst_ite, ite_self, implies_true]; done)
    | split
    | simp only [h0, ↓State.count_blank, ↓blank_ite, ↓fst_ite, ite_self, implies_true]

theorem State.ranAt_blank (h0 : bl .bgs = true) (s : State) (key : Nat) (period : Nat) : State.blank bl (State.ranAt s key period) = State.blank bl s := by
  unfold State.ranAt
  repeat' first
    | with_reducible rfl
    | (simp only [h0, ↓State.putBgs_blank, ↓blank_ite, ↓fst_ite, ite_self, implies_true]; done)
    | split
    | simp only [h0, ↓State.putBgs_blank, ↓blank_ite, ↓fst_ite, ite_self, implies_true]

theorem State.pvPost_blank (h0 : bl .out = true) (h1 : bl .regs = true) (h2 : bl .host = true) (s : State) (header : List Byte) (payload : List Byte) : State.blank bl (State.pvPost s header payload).1 = State.blank bl s := by
  unfold State.pvPost
  repeat' first
    | with_reducible rfl
    | (simp only [h0, h1, h2, ↓State.putHost_blank, ↓State.setReg_blank, ↓State.emit_blank, ↓State.signal_blank, ↓blank_ite, ↓fst_ite, ite_self, implies_true]; done)
    | split
    | simp only [h0, h1, h2, ↓State.putHost_blank, ↓State.setReg_blank, ↓State.emit_blank, ↓State.signal_blank, ↓blank_ite, ↓fst_ite, ite_self, implies_true]

end Sys2Proof.Machine
end

