-- ==== Sys2Proof/Laws/BlankHearth.lean ====
section
/-!
SUPPORT. What each operation leaves alone: the parts of the state that it can change are emptied on both sides, and the rest agrees.
The files of Machine/: Hearth, TrigCfg, Lanes, Alarms, Queues, Timebase, Tdc.
-/

namespace Sys2Proof.Machine

set_option linter.unusedSimpArgs false

variable {bl : Comp → Bool}

theorem State.dropFilling_blank (h0 : bl .engines = true) (s : State) (e : Nat) : State.blank bl (State.dropFilling s e) = State.blank bl s := by
  unfold State.dropFilling
  repeat' first
    | with_reducible rfl
    | (simp only [h0, ↓State.onEngine_blank, ↓blank_ite, ↓fst_ite, ite_self, implies_true]; done)
    | split
    | simp only [h0, ↓State.onEngine_blank, ↓blank_ite, ↓fst_ite, ite_self, implies_true]

theorem State.onComp_blank (h0 : bl .comps = true) (s : State) (k : Nat) (g : Compressor → Compressor) : State.blank bl (State.onComp s k g) = State.blank bl s := by
  unfold State.onComp
  repeat' first
    | with_reducible rfl
    | (simp only [h0, ↓State.putComps_blank, ↓blank_ite, ↓fst_ite, ite_self, implies_true]; done)
    | split
    | simp only [h0, ↓State.putComps_blank, ↓blank_ite, ↓fst_ite, ite_self, implies_true]

theorem State.newFrame_blank (h0 : bl .hearth = true) (s : State) (n : Nat) (stamp : Stamp) : State.blank bl (State.newFrame s n stamp) = State.blank bl s := by
  unfold State.newFrame
  repeat' first
    | with_reducible rfl
    | (simp only [h0, State.onH_blank, ↓blank_ite, ↓fst_ite, ite_self, implies_true]; done)
    | split
    | simp only [h0, State.onH_blank, ↓blank_ite, ↓fst_ite, ite_self, implies_true]
    | (refine (State.onH_blank h0 _ _ rfl).trans ?_)

theorem State.learnFrame_blank (h0 : bl .freeUse = true) (h1 : bl .hearth = true) (s : State) (n : Nat) : State.blank bl (State.learnFrame s n) = State.blank bl s := by
  unfold State.learnFrame
  repeat' first
    | with_reducible rfl
    | (simp only [h0, h1, ↓State.newFrame_blank, ↓State.useFree_blank, ↓blank_ite, ↓fst_ite, ite_self, implies_true]; done)
    | split
    | simp only [h0, h1, ↓State.newFrame_blank, ↓State.useFree_blank, ↓blank_ite, ↓fst_ite, ite_self, implies_true]

theorem State.onOpen_blank (h0 : bl .hearth = true) (s : State) (n : Nat) (g : Frame → Frame) : State.blank bl (State.onOpen s n g) = State.blank bl s := by
  unfold State.onOpen
  repeat' first
    | with_reducible rfl
    | (simp only [h0, State.onH_blank, ↓blank_ite, ↓fst_ite, ite_self, implies_true]; done)
    | split
    | simp only [h0, State.onH_blank, ↓blank_ite, ↓fst_ite, ite_self, implies_true]
    | (refine (State.onH_blank h0 _ _ rfl).trans ?_)

theorem State.tfClose_blank (h0 : bl .out = true) (h1 : bl .regs = true) (h2 : bl .tb = true) (h3 : bl .hearth = true) (h4 : bl .mem = true) (h5 : bl .pair = true) (s : State) (f : Nat) (n : Nat) : State.blank bl (State.tfClose s f n) = State.blank bl s := by
  unfold State.tfClose
  repeat' first
    | with_reducible rfl
    | (simp only [h0, h1, h2, h3, h4, h5, ↓State.onOpen_blank, ↓State.markFrame_blank, State.onH_blank, ↓State.ownDigest_blank, ↓blank_ite, ↓fst_ite, ite_self, implies_true]; done)
    | split
    | simp only [h0, h1, h2, h3, h4, h5, ↓State.onOpen_blank, ↓State.markFrame_blank, State.onH_blank, ↓State.ownDigest_blank, ↓blank_ite, ↓fst_ite, ite_self, implies_true]
    | (refine (State.onH_blank h3 _ _ rfl).trans ?_)

theorem State.takeNoid_blank (h0 : bl .hearth = true) (h1 : bl .mem = true) (s : State) (f : Nat) (n : Nat) : State.blank bl (State.takeNoid s f n) = State.blank bl s := by
  unfold State.takeNoid
  repeat' first
    | with_reducible rfl
    | (simp only [h0, h1, State.onH_blank, ↓State.markFrame_blank, ↓blank_ite, ↓fst_ite, ite_self, implies_true]; done)
    | split
    | simp only [h0, h1, State.onH_blank, ↓State.markFrame_blank, ↓blank_ite, ↓fst_ite, ite_self, implies_true]
    | (refine (State.onH_blank h0 _ _ rfl).trans ?_)

theorem State.unplaceOpens_blank (h0 : bl .hearth = true) (s : State) (a : Active) (which : Frame → Bool) : State.blank bl (State.unplaceOpens s a which) = State.blank bl s := by
  unfold State.unplaceOpens
  repeat' first
    | with_reducible rfl
    | (simp only [h0, State.onH_blank, ↓blank_ite, ↓fst_ite, ite_self, implies_true]; done)
    | split
    | simp only [h0, State.onH_blank, ↓blank_ite, ↓fst_ite, ite_self, implies_true]
    | (refine (State.onH_blank h0 _ _ rfl).trans ?_)

theorem State.writeDir_blank (h0 : bl .mem = true) (s : State) (seg : Nat) (r : Record) : State.blank bl (State.writeDir s seg r) = State.blank bl s := by
  unfold State.writeDir
  repeat' first
    | with_reducible rfl
    | (simp only [h0, ↓State.hwrite_blank, ↓blank_ite, ↓fst_ite, ite_self, implies_true]; done)
    | split
    | simp only [h0, ↓State.hwrite_blank, ↓blank_ite, ↓fst_ite, ite_self, implies_true]

theorem State.trigItem_blank (h0 : bl .trig = true) (s : State) (t : Stamp) (i : TrigItem) : State.blank bl (State.trigItem s t i) = State.blank bl s := by
  unfold State.trigItem
  repeat' first
    | with_reducible rfl
    | (simp only [h0, ↓State.putTrig_blank, ↓blank_ite, ↓fst_ite, ite_self, implies_true]; done)
    | split
    | simp only [h0, ↓State.putTrig_blank, ↓blank_ite, ↓fst_ite, ite_self, implies_true]

theorem State.closeRecord_blank (h0 : bl .out = true) (h1 : bl .regs = true) (h2 : bl .hearth = true) (h3 : bl .mem = true) (h4 : bl .trig = true) (h5 : bl .pair = true) (h6 : bl .host = true) (s : State) (a : Active) (p : PostInfo) (aborted : Bool) (quench : Bool) : State.blank bl (State.closeRecord s a p aborted quench) = State.blank bl s := by
  unfold State.closeRecord
  repeat' first
    | with_reducible rfl
    | (simp only [h0, h1, h2, h3, h4, h5, h6, ↓State.slotPatch_blank, ↓State.putPair_blank, ↓State.unplaceOpens_blank, ↓State.onSeg_blank, ↓State.writeDir_blank, State.onH_blank, ↓State.count_blank, ↓State.eqPost_blank, ↓State.tellRecord_blank, ↓State.trigItem_blank, ↓State.putTrig_blank, ↓blank_ite, ↓fst_ite, ite_self, implies_true]; done)
    | split
    | simp only [h0, h1, h2, h3, h4, h5, h6, ↓State.slotPatch_blank, ↓State.putPair_blank, ↓State.unplaceOpens_blank, ↓State.onSeg_blank, ↓State.writeDir_blank, State.onH_blank, ↓State.count_blank, ↓State.eqPost_blank, ↓State.tellRecord_blank, ↓State.trigItem_blank, ↓State.putTrig_blank, ↓blank_ite, ↓fst_ite, ite_self, implies_true]
    | (refine (State.onH_blank h2 _ _ rfl).trans ?_)

theorem State.maybeClose_blank (h0 : bl .out = true) (h1 : bl .regs = true) (h2 : bl .hearth = true) (h3 : bl .mem = true) (h4 : bl .trig = true) (h5 : bl .pair = true) (h6 : bl .host = true) (s : State) : State.blank bl (State.maybeClose s) = State.blank bl s := by
  unfold State.maybeClose
  repeat' first
    | with_reducible rfl
    | (simp only [h0, h1, h2, h3, h4, h5, h6, ↓State.closeRecord_blank, ↓blank_ite, ↓fst_ite, ite_self, implies_true]; done)
    | split
    | simp only [h0, h1, h2, h3, h4, h5, h6, ↓State.closeRecord_blank, ↓blank_ite, ↓fst_ite, ite_self, implies_true]

theorem State.evictOne_blank (h0 : bl .hearth = true) (h1 : bl .mem = true) (s : State) : State.blank bl (State.evictOne s) = State.blank bl s := by
  unfold State.evictOne
  repeat' first
    | with_reducible rfl
    | (simp only [h0, h1, State.onH_blank, ↓State.slotPatch_blank, ↓blank_ite, ↓fst_ite, ite_self, implies_true]; done)
    | split
    | simp only [h0, h1, State.onH_blank, ↓State.slotPatch_blank, ↓blank_ite, ↓fst_ite, ite_self, implies_true]
    | (refine (State.onH_blank h0 _ _ rfl).trans ?_)

theorem State.takeSlot_blank (h0 : bl .hearth = true) (h1 : bl .mem = true) (s : State) (a : Active) (ending : Bool) (a3 : Nat) (t : State) (hx : (State.takeSlot s a ending a3) = some t) :
    State.blank bl t = State.blank bl s := by
  induction a3 generalizing s with
  | zero => simp only [State.takeSlot, Option.some.injEq] at hx; rw [hx]
  | succ k ih =>
    unfold State.takeSlot at hx
    dsimp only at hx
    split at hx
    · split at hx
      · split at hx
        · exact (ih _ hx).trans (State.evictOne_blank h0 h1 _)
        · exact absurd hx (by simp)
      · injection hx with hx; rw [hx]
    · injection hx with hx; rw [hx]

theorem State.storeFrame_blank (h0 : bl .out = true) (h1 : bl .regs = true) (h2 : bl .tb = true) (h3 : bl .hearth = true) (h4 : bl .mem = true) (h5 : bl .pair = true) (s : State) (a : Active) (fr : Frame) : State.blank bl (State.storeFrame s a fr) = State.blank bl s := by
  unfold State.storeFrame
  repeat' first
    | with_reducible rfl
    | (simp only [h0, h1, h2, h3, h4, h5, ↓State.hwrite_blank, State.onH_blank, ↓State.count_blank, ↓State.ownDigest_blank, ↓blank_ite, ↓fst_ite, ite_self, implies_true]; done)
    | split
    | simp only [h0, h1, h2, h3, h4, h5, ↓State.hwrite_blank, State.onH_blank, ↓State.count_blank, ↓State.ownDigest_blank, ↓blank_ite, ↓fst_ite, ite_self, implies_true]
    | (refine (State.onH_blank h3 _ _ rfl).trans ?_)

theorem State.closeFrames_blank (h0 : bl .out = true) (h1 : bl .regs = true) (h2 : bl .tb = true) (h3 : bl .hearth = true) (h4 : bl .mem = true) (h5 : bl .trig = true) (h6 : bl .pair = true) (h7 : bl .host = true) (s : State) (ending : Bool) (a2 : Nat) : State.blank bl (State.closeFrames s ending a2) = State.blank bl s := by
  induction a2 generalizing s with
  | zero => unfold State.closeFrames; first | rfl | (split <;> rfl)
  | succ k ih =>
    unfold State.closeFrames
    repeat' first
      | with_reducible rfl
      | (simp only [h0, h1, h2, h3, h4, h5, h6, h7, ↓State.logDivergent_blank, ↓State.count_blank, State.onH_blank, ↓State.storeFrame_blank, ↓State.maybeClose_blank, ↓blank_ite, ↓fst_ite, ite_self, implies_true, ↓ih]; done)
      | split
      | simp only [h0, h1, h2, h3, h4, h5, h6, h7, ↓State.logDivergent_blank, ↓State.count_blank, State.onH_blank, ↓State.storeFrame_blank, ↓State.maybeClose_blank, ↓blank_ite, ↓fst_ite, ite_self, implies_true, ↓ih]
      | refine (State.takeSlot_blank (by assumption) (by assumption) _ _ _ _ _ (by assumption)).trans ?_
      | (refine (State.onH_blank h3 _ _ rfl).trans ?_)

theorem State.settleFrames_blank (h0 : bl .out = true) (h1 : bl .regs = true) (h2 : bl .tb = true) (h3 : bl .hearth = true) (h4 : bl .mem = true) (h5 : bl .trig = true) (h6 : bl .pair = true) (h7 : bl .host = true) (s : State) : State.blank bl (State.settleFrames s) = State.blank bl s := by
  unfold State.settleFrames
  repeat' first
    | with_reducible rfl
    | (simp only [h0, h1, h2, h3, h4, h5, h6, h7, ↓State.maybeClose_blank, ↓State.closeFrames_blank, ↓blank_ite, ↓fst_ite, ite_self, implies_true]; done)
    | split
    | simp only [h0, h1, h2, h3, h4, h5, h6, h7, ↓State.maybeClose_blank, ↓State.closeFrames_blank, ↓blank_ite, ↓fst_ite, ite_self, implies_true]

theorem State.settleTile_blank (h0 : bl .out = true) (h1 : bl .regs = true) (h2 : bl .tb = true) (h3 : bl .hearth = true) (h4 : bl .mem = true) (h5 : bl .trig = true) (h6 : bl .pair = true) (h7 : bl .host = true) (s : State) (f : Nat) : State.blank bl (State.settleTile s f) = State.blank bl s := by
  unfold State.settleTile
  repeat' first
    | with_reducible rfl
    | (simp only [h0, h1, h2, h3, h4, h5, h6, h7, ↓State.settleFrames_blank, State.each_blank, ↓State.tfClose_blank, ↓blank_ite, ↓fst_ite, ite_self, implies_true]; done)
    | split
    | simp only [h0, h1, h2, h3, h4, h5, h6, h7, ↓State.settleFrames_blank, State.each_blank, ↓State.tfClose_blank, ↓blank_ite, ↓fst_ite, ite_self, implies_true]
    | refine (State.each_blank _ _ _ ?_).trans ?_
    | intro _

theorem State.tfOpen_blank (h0 : bl .out = true) (h1 : bl .freeUse = true) (h2 : bl .regs = true) (h3 : bl .tb = true) (h4 : bl .hearth = true) (h5 : bl .mem = true) (h6 : bl .trig = true) (h7 : bl .pair = true) (h8 : bl .host = true) (s : State) (f : Nat) (n : Nat) : State.blank bl (State.tfOpen s f n) = State.blank bl s := by
  unfold State.tfOpen
  repeat' first
    | with_reducible rfl
    | (simp only [h0, h1, h2, h3, h4, h5, h6, h7, h8, ↓State.learnFrame_blank, State.each_blank, ↓State.onOpen_blank, ↓State.tfClose_blank, ↓State.takeNoid_blank, ↓State.settleTile_blank, ↓blank_ite, ↓fst_ite, ite_self, implies_true]; done)
    | split
    | simp only [h0, h1, h2, h3, h4, h5, h6, h7, h8, ↓State.learnFrame_blank, State.each_blank, ↓State.onOpen_blank, ↓State.tfClose_blank, ↓State.takeNoid_blank, ↓State.settleTile_blank, ↓blank_ite, ↓fst_ite, ite_self, implies_true]
    | refine (State.each_blank _ _ _ ?_).trans ?_
    | intro _

theorem State.tfFlushed_blank (h0 : bl .out = true) (h1 : bl .regs = true) (h2 : bl .tb = true) (h3 : bl .hearth = true) (h4 : bl .mem = true) (h5 : bl .trig = true) (h6 : bl .pair = true) (h7 : bl .host = true) (s : State) (f : Nat) (n : Nat) : State.blank bl (State.tfFlushed s f n) = State.blank bl s := by
  unfold State.tfFlushed
  repeat' first
    | with_reducible rfl
    | (simp only [h0, h1, h2, h3, h4, h5, h6, h7, ↓State.settleTile_blank, ↓State.onOpen_blank, ↓blank_ite, ↓fst_ite, ite_self, implies_true]; done)
    | split
    | simp only [h0, h1, h2, h3, h4, h5, h6, h7, ↓State.settleTile_blank, ↓State.onOpen_blank, ↓blank_ite, ↓fst_ite, ite_self, implies_true]

theorem State.settle_blank (h0 : bl .order = true) (s : State) (f : Nat) (rel : Nat) : State.blank bl (State.settle s f rel) = State.blank bl s := by
  unfold State.settle
  repeat' first
    | with_reducible rfl
    | (simp only [h0, ↓State.putOrder_blank, ↓blank_ite, ↓fst_ite, ite_self, implies_true]; done)
    | split
    | simp only [h0, ↓State.putOrder_blank, ↓blank_ite, ↓fst_ite, ite_self, implies_true]

theorem State.putInc_blank (h0 : bl .regs = true) (h1 : bl .tb = true) (s : State) (v : Nat) : State.blank bl (State.putInc s v) = State.blank bl s := by
  unfold State.putInc
  repeat' first
    | with_reducible rfl
    | (simp only [h0, h1, ↓State.setReg_blank, ↓State.putTb_blank, ↓blank_ite, ↓fst_ite, ite_self, implies_true]; done)
    | split
    | simp only [h0, h1, ↓State.setReg_blank, ↓State.putTb_blank, ↓blank_ite, ↓fst_ite, ite_self, implies_true]

theorem State.setSync_blank (h0 : bl .regs = true) (h1 : bl .tb = true) (s : State) (n : Nat) : State.blank bl (State.setSync s n) = State.blank bl s := by
  unfold State.setSync
  repeat' first
    | with_reducible rfl
    | (simp only [h0, h1, ↓State.setFld_blank, ↓State.putTb_blank, ↓State.putInc_blank, ↓State.log_blank, ↓blank_ite, ↓fst_ite, ite_self, implies_true]; done)
    | split
    | simp only [h0, h1, ↓State.setFld_blank, ↓State.putTb_blank, ↓State.putInc_blank, ↓State.log_blank, ↓blank_ite, ↓fst_ite, ite_self, implies_true]

theorem State.tbStop_blank (h0 : bl .regs = true) (h1 : bl .tb = true) (s : State) : State.blank bl (State.tbStop s) = State.blank bl s := by
  unfold State.tbStop
  repeat' first
    | with_reducible rfl
    | (simp only [h0, h1, ↓State.setSync_blank, ↓blank_ite, ↓fst_ite, ite_self, implies_true]; done)
    | split
    | simp only [h0, h1, ↓State.setSync_blank, ↓blank_ite, ↓fst_ite, ite_self, implies_true]

theorem State.onTdc_blank (h0 : bl .tdc = true) (s : State) (g : TdcState → TdcState) : State.blank bl (State.onTdc s g) = State.blank bl s := by
  unfold State.onTdc
  repeat' first
    | with_reducible rfl
    | (simp only [h0, ↓State.putTdc_blank, ↓blank_ite, ↓fst_ite, ite_self, implies_true]; done)
    | split
    | simp only [h0, ↓State.putTdc_blank, ↓blank_ite, ↓fst_ite, ite_self, implies_true]

theorem State.onUnit_blank (h0 : bl .tdc = true) (s : State) (u : Nat) (g : TdcUnit → TdcUnit) : State.blank bl (State.onUnit s u g) = State.blank bl s := by
  unfold State.onUnit
  repeat' first
    | with_reducible rfl
    | (simp only [h0, ↓State.onTdc_blank, ↓blank_ite, ↓fst_ite, ite_self, implies_true]; done)
    | split
    | simp only [h0, ↓State.onTdc_blank, ↓blank_ite, ↓fst_ite, ite_self, implies_true]

theorem State.measEnd_blank (h0 : bl .regs = true) (h1 : bl .tb = true) (h2 : bl .tdc = true) (s : State) (u : Nat) (t : Stamp) (stepped : Bool) : State.blank bl (State.measEnd s u t stepped) = State.blank bl s := by
  unfold State.measEnd
  repeat' first
    | with_reducible rfl
    | (simp only [h0, h1, h2, ↓State.count_blank, ↓State.log_blank, ↓State.onUnit_blank, ↓blank_ite, ↓fst_ite, ite_self, implies_true]; done)
    | split
    | simp only [h0, h1, h2, ↓State.count_blank, ↓State.log_blank, ↓State.onUnit_blank, ↓blank_ite, ↓fst_ite, ite_self, implies_true]

theorem State.dropEarly_blank (h0 : bl .regs = true) (h1 : bl .tdc = true) (s : State) (u : Nat) (t : Stamp) : State.blank bl (State.dropEarly s u t) = State.blank bl s := by
  unfold State.dropEarly
  repeat' first
    | with_reducible rfl
    | (simp only [h0, h1, ↓State.onUnit_blank, ↓State.count_blank, ↓blank_ite, ↓fst_ite, ite_self, implies_true]; done)
    | split
    | simp only [h0, h1, ↓State.onUnit_blank, ↓State.count_blank, ↓blank_ite, ↓fst_ite, ite_self, implies_true]

theorem State.measStop_blank (h0 : bl .regs = true) (h1 : bl .tb = true) (h2 : bl .tdc = true) (s : State) (u : Nat) (st : Stamp) (t : Stamp) : State.blank bl (State.measStop s u st t) = State.blank bl s := by
  unfold State.measStop
  repeat' first
    | with_reducible rfl
    | (simp only [h0, h1, h2, ↓State.count_blank, ↓State.onUnit_blank, ↓State.measEnd_blank, ↓blank_ite, ↓fst_ite, ite_self, implies_true]; done)
    | split
    | simp only [h0, h1, h2, ↓State.count_blank, ↓State.onUnit_blank, ↓State.measEnd_blank, ↓blank_ite, ↓fst_ite, ite_self, implies_true]

theorem State.unitTake_blank (h0 : bl .regs = true) (h1 : bl .tb = true) (h2 : bl .tdc = true) (s : State) (u : Nat) (t : Stamp) (i : UnitItem) : State.blank bl (State.unitTake s u t i) = State.blank bl s := by
  unfold State.unitTake
  repeat' first
    | with_reducible rfl
    | (simp only [h0, h1, h2, ↓State.measEnd_blank, ↓State.dropEarly_blank, ↓State.onUnit_blank, State.each_blank, ↓State.measStop_blank, ↓blank_ite, ↓fst_ite, ite_self, implies_true]; done)
    | split
    | simp only [h0, h1, h2, ↓State.measEnd_blank, ↓State.dropEarly_blank, ↓State.onUnit_blank, State.each_blank, ↓State.measStop_blank, ↓blank_ite, ↓fst_ite, ite_self, implies_true]
    | refine (State.each_blank _ _ _ ?_).trans ?_
    | intro _

theorem State.unitSettle_blank (h0 : bl .regs = true) (h1 : bl .tb = true) (h2 : bl .tdc = true) (s : State) (u : Nat) (limit : Stamp) : State.blank bl (State.unitSettle s u limit) = State.blank bl s := by
  unfold State.unitSettle
  repeat' first
    | with_reducible rfl
    | (simp only [h0, h1, h2, ↓State.onUnit_blank, State.each_blank, ↓State.unitTake_blank, ↓State.dropEarly_blank, ↓blank_ite, ↓fst_ite, ite_self, implies_true]; done)
    | split
    | simp only [h0, h1, h2, ↓State.onUnit_blank, State.each_blank, ↓State.unitTake_blank, ↓State.dropEarly_blank, ↓blank_ite, ↓fst_ite, ite_self, implies_true]
    | refine (State.each_blank _ _ _ ?_).trans ?_
    | intro _

theorem State.tdcStop_blank (h0 : bl .regs = true) (h1 : bl .tb = true) (h2 : bl .tdc = true) (s : State) : State.blank bl (State.tdcStop s) = State.blank bl s := by
  unfold State.tdcStop
  repeat' first
    | with_reducible rfl
    | (simp only [h0, h1, h2, State.each_blank, ↓State.unitSettle_blank, ↓State.measEnd_blank, ↓State.onUnit_blank, ↓blank_ite, ↓fst_ite, ite_self, implies_true]; done)
    | split
    | simp only [h0, h1, h2, State.each_blank, ↓State.unitSettle_blank, ↓State.measEnd_blank, ↓State.onUnit_blank, ↓blank_ite, ↓fst_ite, ite_self, implies_true]
    | refine (State.each_blank _ _ _ ?_).trans ?_
    | intro _

theorem State.clearStep_blank (h0 : bl .regs = true) (h1 : bl .tb = true) (s : State) : State.blank bl (State.clearStep s) = State.blank bl s := by
  unfold State.clearStep
  repeat' first
    | with_reducible rfl
    | (simp only [h0, h1, ↓State.setBit_blank, ↓State.putTb_blank, ↓blank_ite, ↓fst_ite, ite_self, implies_true]; done)
    | split
    | simp only [h0, h1, ↓State.setBit_blank, ↓State.putTb_blank, ↓blank_ite, ↓fst_ite, ite_self, implies_true]

theorem State.publish_blank (h0 : bl .out = true) (h1 : bl .regs = true) (h2 : bl .tb = true) (h3 : bl .mem = true) (h4 : bl .host = true) (s : State) (e : LogPend) : State.blank bl (State.publish s e) = State.blank bl s := by
  unfold State.publish
  repeat' first
    | with_reducible rfl
    | (simp only [h0, h1, h2, h3, h4, ↓State.hwrite_blank, ↓State.putTb_blank, ↓State.setReg_blank, ↓State.count_blank, ↓State.eqLog_blank, ↓blank_ite, ↓fst_ite, ite_self, implies_true]; done)
    | split
    | simp only [h0, h1, h2, h3, h4, ↓State.hwrite_blank, ↓State.putTb_blank, ↓State.setReg_blank, ↓State.count_blank, ↓State.eqLog_blank, ↓blank_ite, ↓fst_ite, ite_self, implies_true]

theorem State.publishWindow_blank (h0 : bl .out = true) (h1 : bl .regs = true) (h2 : bl .tb = true) (h3 : bl .mem = true) (h4 : bl .host = true) (s : State) (es : List LogPend) : State.blank bl (State.publishWindow s es) = State.blank bl s := by
  unfold State.publishWindow
  repeat' first
    | with_reducible rfl
    | (simp only [h0, h1, h2, h3, h4, State.each_blank, ↓State.publish_blank, ↓State.count_blank, ↓blank_ite, ↓fst_ite, ite_self, implies_true]; done)
    | split
    | simp only [h0, h1, h2, h3, h4, State.each_blank, ↓State.publish_blank, ↓State.count_blank, ↓blank_ite, ↓fst_ite, ite_self, implies_true]
    | refine (State.each_blank _ _ _ ?_).trans ?_
    | intro _

theorem State.closeWindow_blank (h0 : bl .out = true) (h1 : bl .regs = true) (h2 : bl .tb = true) (h3 : bl .mem = true) (h4 : bl .host = true) (s : State) (e : Nat) (k : Nat) : State.blank bl (State.closeWindow s e k) = State.blank bl s := by
  unfold State.closeWindow
  repeat' first
    | with_reducible rfl
    | (simp only [h0, h1, h2, h3, h4, ↓State.putTb_blank, ↓State.publishWindow_blank, ↓blank_ite, ↓fst_ite, ite_self, implies_true]; done)
    | split
    | simp only [h0, h1, h2, h3, h4, ↓State.putTb_blank, ↓State.publishWindow_blank, ↓blank_ite, ↓fst_ite, ite_self, implies_true]

theorem State.closeWindows_blank (h0 : bl .out = true) (h1 : bl .regs = true) (h2 : bl .tb = true) (h3 : bl .mem = true) (h4 : bl .host = true) (s : State) (e : Nat) (k : Nat) (a3 : Nat) : State.blank bl (State.closeWindows s e k a3) = State.blank bl s := by
  induction a3 generalizing s with
  | zero => unfold State.closeWindows; first | rfl | (split <;> rfl)
  | succ k ih =>
    unfold State.closeWindows
    repeat' first
      | with_reducible rfl
      | (simp only [h0, h1, h2, h3, h4, ↓State.closeWindow_blank, ↓blank_ite, ↓fst_ite, ite_self, implies_true, ↓ih]; done)
      | split
      | simp only [h0, h1, h2, h3, h4, ↓State.closeWindow_blank, ↓blank_ite, ↓fst_ite, ite_self, implies_true, ↓ih]

theorem State.cutJob_blank (h0 : bl .hearth = true) (h1 : bl .jobs = true) (s : State) (g : Segment) : State.blank bl (State.cutJob s g) = State.blank bl s := by
  unfold State.cutJob
  repeat' first
    | with_reducible rfl
    | (simp only [h0, h1, State.onH_blank, ↓State.putJobs_blank, ↓blank_ite, ↓fst_ite, ite_self, implies_true]; done)
    | split
    | simp only [h0, h1, State.onH_blank, ↓State.putJobs_blank, ↓blank_ite, ↓fst_ite, ite_self, implies_true]
    | (refine (State.onH_blank h0 _ _ rfl).trans ?_)

theorem State.placeBytes_blank (h0 : bl .hearth = true) (h1 : bl .mem = true) (s : State) (a : Active) (f : Nat) (n : Nat) (bs : List Byte) : State.blank bl (State.placeBytes s a f n bs) = State.blank bl s := by
  unfold State.placeBytes
  repeat' first
    | with_reducible rfl
    | (simp only [h0, h1, ↓State.streamWrite_blank, ↓State.onOpen_blank, State.onH_blank, ↓blank_ite, ↓fst_ite, ite_self, implies_true]; done)
    | split
    | simp only [h0, h1, ↓State.streamWrite_blank, ↓State.onOpen_blank, State.onH_blank, ↓blank_ite, ↓fst_ite, ite_self, implies_true]
    | (refine (State.onH_blank h0 _ _ rfl).trans ?_)

theorem State.armSegment_blank (h0 : bl .hearth = true) (h1 : bl .mem = true) (h2 : bl .jobs = true) (s : State) (seg : Nat) (f0 : Nat) : State.blank bl (State.armSegment s seg f0) = State.blank bl s := by
  unfold State.armSegment
  repeat' first
    | with_reducible rfl
    | (simp only [h0, h1, h2, ↓State.cutJob_blank, State.onH_blank, ↓State.onSeg_blank, State.each_blank, ↓State.placeBytes_blank, ↓State.onOpen_blank, ↓blank_ite, ↓fst_ite, ite_self, implies_true]; done)
    | split
    | simp only [h0, h1, h2, ↓State.cutJob_blank, State.onH_blank, ↓State.onSeg_blank, State.each_blank, ↓State.placeBytes_blank, ↓State.onOpen_blank, ↓blank_ite, ↓fst_ite, ite_self, implies_true]
    | (refine (State.onH_blank h0 _ _ rfl).trans ?_)
    | refine (State.each_blank _ _ _ ?_).trans ?_
    | intro _

theorem State.pendLoss_blank (h0 : bl .queues = true) (s : State) (q : Nat) (w : Slag) : State.blank bl (State.pendLoss s q w) = State.blank bl s := by
  unfold State.pendLoss
  repeat' first
    | with_reducible rfl
    | (simp only [h0, ↓State.onQueue_blank, ↓blank_ite, ↓fst_ite, ite_self, implies_true]; done)
    | split
    | simp only [h0, ↓State.onQueue_blank, ↓blank_ite, ↓fst_ite, ite_self, implies_true]

theorem State.partialLost_blank (h0 : bl .regs = true) (h1 : bl .queues = true) (s : State) (i : StripItem) (cause : Nat) : State.blank bl (State.partialLost s i cause) = State.blank bl s := by
  unfold State.partialLost
  repeat' first
    | with_reducible rfl
    | (simp only [h0, h1, ↓State.count_blank, ↓State.pendLoss_blank, ↓blank_ite, ↓fst_ite, ite_self, implies_true]; done)
    | split
    | simp only [h0, h1, ↓State.count_blank, ↓State.pendLoss_blank, ↓blank_ite, ↓fst_ite, ite_self, implies_true]

theorem State.paceCheck_blank (h0 : bl .engines = true) (s : State) (e : Nat) : State.blank bl (State.paceCheck s e) = State.blank bl s := by
  unfold State.paceCheck
  repeat' first
    | with_reducible rfl
    | (simp only [h0, ↓State.onEngine_blank, ↓blank_ite, ↓fst_ite, ite_self, implies_true]; done)
    | split
    | simp only [h0, ↓State.onEngine_blank, ↓blank_ite, ↓fst_ite, ite_self, implies_true]

theorem State.blwUpdate_blank (h0 : bl .regs = true) (h1 : bl .bellows = true) (h2 : bl .bgs = true) (s : State) (k : Nat) : State.blank bl (State.blwUpdate s k) = State.blank bl s := by
  unfold State.blwUpdate
  repeat' first
    | with_reducible rfl
    | (simp only [h0, h1, h2, ↓State.count_blank, ↓State.putBgs_blank, ↓State.onBellows_blank, ↓blank_ite, ↓fst_ite, ite_self, implies_true]; done)
    | split
    | simp only [h0, h1, h2, ↓State.count_blank, ↓State.putBgs_blank, ↓State.onBellows_blank, ↓blank_ite, ↓fst_ite, ite_self, implies_true]

theorem State.seePeak_blank (h0 : bl .bgs = true) (s : State) (k : Nat) (fill : Nat) : State.blank bl (State.seePeak s k fill) = State.blank bl s := by
  unfold State.seePeak
  repeat' first
    | with_reducible rfl
    | (simp only [h0, ↓State.putBgs_blank, ↓blank_ite, ↓fst_ite, ite_self, implies_true]; done)
    | split
    | simp only [h0, ↓State.putBgs_blank, ↓blank_ite, ↓fst_ite, ite_self, implies_true]

theorem State.updateAlarms_blank (h0 : bl .regs = true) (h1 : bl .tb = true) (s : State) : State.blank bl (State.updateAlarms s) = State.blank bl s := by
  unfold State.updateAlarms
  repeat' first
    | with_reducible rfl
    | (simp only [h0, h1, ↓State.setReg_blank, State.each_blank, ↓State.logDev_blank, ↓blank_ite, ↓fst_ite, ite_self, implies_true]; done)
    | split
    | simp only [h0, h1, ↓State.setReg_blank, State.each_blank, ↓State.logDev_blank, ↓blank_ite, ↓fst_ite, ite_self, implies_true]
    | refine (State.each_blank _ _ _ ?_).trans ?_
    | intro _

theorem State.queueUpdate_blank (h0 : bl .regs = true) (h1 : bl .tb = true) (h2 : bl .queues = true) (h3 : bl .bellows = true) (h4 : bl .bgs = true) (s : State) (q : Nat) : State.blank bl (State.queueUpdate s q) = State.blank bl s := by
  unfold State.queueUpdate
  repeat' first
    | with_reducible rfl
    | (simp only [h0, h1, h2, h3, h4, ↓State.onQueue_blank, ↓State.blwUpdate_blank, ↓State.seePeak_blank, ↓State.updateAlarms_blank, ↓blank_ite, ↓fst_ite, ite_self, implies_true]; done)
    | split
    | simp only [h0, h1, h2, h3, h4, ↓State.onQueue_blank, ↓State.blwUpdate_blank, ↓State.seePeak_blank, ↓State.updateAlarms_blank, ↓blank_ite, ↓fst_ite, ite_self, implies_true]

theorem State.takeIn_blank (h0 : bl .regs = true) (h1 : bl .tb = true) (h2 : bl .order = true) (h3 : bl .queues = true) (h4 : bl .bellows = true) (h5 : bl .bgs = true) (s : State) (q : Nat) (it : QItem) (n : Nat) (lost : Slag) : State.blank bl (State.takeIn s q it n lost) = State.blank bl s := by
  unfold State.takeIn
  repeat' first
    | with_reducible rfl
    | (simp only [h0, h1, h2, h3, h4, h5, ↓State.onQueue_blank, ↓State.count_blank, ↓State.queueUpdate_blank, ↓State.pendLoss_blank, ↓State.settle_blank, ↓blank_ite, ↓fst_ite, ite_self, implies_true]; done)
    | split
    | simp only [h0, h1, h2, h3, h4, h5, ↓State.onQueue_blank, ↓State.count_blank, ↓State.queueUpdate_blank, ↓State.pendLoss_blank, ↓State.settle_blank, ↓blank_ite, ↓fst_ite, ite_self, implies_true]

theorem State.admitStrip_blank (h0 : bl .regs = true) (h1 : bl .tb = true) (h2 : bl .order = true) (h3 : bl .queues = true) (h4 : bl .bellows = true) (h5 : bl .engines = true) (h6 : bl .bgs = true) (s : State) (i : StripItem) : State.blank bl (State.admitStrip s i) = State.blank bl s := by
  unfold State.admitStrip
  repeat' first
    | with_reducible rfl
    | (simp only [h0, h1, h2, h3, h4, h5, h6, ↓State.paceCheck_blank, ↓State.takeIn_blank, ↓State.pendLoss_blank, ↓State.settle_blank, ↓State.count_blank, ↓blank_ite, ↓fst_ite, ite_self, implies_true]; done)
    | split
    | simp only [h0, h1, h2, h3, h4, h5, h6, ↓State.paceCheck_blank, ↓State.takeIn_blank, ↓State.pendLoss_blank, ↓State.settle_blank, ↓State.count_blank, ↓blank_ite, ↓fst_ite, ite_self, implies_true]

theorem State.trgLogAt_blank (h0 : bl .regs = true) (h1 : bl .tb = true) (s : State) (kind : Nat) (t : Stamp) (m : StampMark) (src : Nat) (tfrac : Nat) (frame : Nat) : State.blank bl (State.trgLogAt s kind t m src tfrac frame) = State.blank bl s := by
  unfold State.trgLogAt
  repeat' first
    | with_reducible rfl
    | (simp only [h0, h1, ↓State.logMarked_blank, ↓State.count_blank, ↓blank_ite, ↓fst_ite, ite_self, implies_true]; done)
    | split
    | simp only [h0, h1, ↓State.logMarked_blank, ↓State.count_blank, ↓blank_ite, ↓fst_ite, ite_self, implies_true]

theorem State.srcEventAt_blank (h0 : bl .regs = true) (h1 : bl .tb = true) (h2 : bl .trig = true) (s : State) (t : Stamp) (m : StampMark) (src : Nat) (item : TrigItem) : State.blank bl (State.srcEventAt s t m src item) = State.blank bl s := by
  unfold State.srcEventAt
  repeat' first
    | with_reducible rfl
    | (simp only [h0, h1, h2, ↓State.trgLogAt_blank, ↓State.trigItem_blank, ↓blank_ite, ↓fst_ite, ite_self, implies_true]; done)
    | split
    | simp only [h0, h1, h2, ↓State.trgLogAt_blank, ↓State.trigItem_blank, ↓blank_ite, ↓fst_ite, ite_self, implies_true]

theorem State.srcEvent_blank (h0 : bl .regs = true) (h1 : bl .tb = true) (h2 : bl .trig = true) (s : State) (t : Stamp) (src : Nat) (item : TrigItem) : State.blank bl (State.srcEvent s t src item) = State.blank bl s := by
  unfold State.srcEvent
  repeat' first
    | with_reducible rfl
    | (simp only [h0, h1, h2, ↓State.srcEventAt_blank, ↓blank_ite, ↓fst_ite, ite_self, implies_true]; done)
    | split
    | simp only [h0, h1, h2, ↓State.srcEventAt_blank, ↓blank_ite, ↓fst_ite, ite_self, implies_true]

theorem State.srcEdge_blank (h0 : bl .regs = true) (h1 : bl .tb = true) (h2 : bl .trig = true) (s : State) (t : Stamp) (src : Nat) : State.blank bl (State.srcEdge s t src) = State.blank bl s := by
  unfold State.srcEdge
  repeat' first
    | with_reducible rfl
    | (simp only [h0, h1, h2, ↓State.srcEvent_blank, ↓blank_ite, ↓fst_ite, ite_self, implies_true]; done)
    | split
    | simp only [h0, h1, h2, ↓State.srcEvent_blank, ↓blank_ite, ↓fst_ite, ite_self, implies_true]

theorem State.setLock_blank (h0 : bl .regs = true) (s : State) (ln : Lane) (b : Bool) : State.blank bl (State.setLock s ln b) = State.blank bl s := by
  unfold State.setLock
  repeat' first
    | with_reducible rfl
    | (simp only [h0, ↓State.setBit_blank, ↓blank_ite, ↓fst_ite, ite_self, implies_true]; done)
    | split
    | simp only [h0, ↓State.setBit_blank, ↓blank_ite, ↓fst_ite, ite_self, implies_true]

theorem State.setStep_blank (h0 : bl .regs = true) (s : State) (ln : Lane) (n : Nat) : State.blank bl (State.setStep s ln n) = State.blank bl s := by
  unfold State.setStep
  repeat' first
    | with_reducible rfl
    | (simp only [h0, ↓State.setFld_blank, ↓blank_ite, ↓fst_ite, ite_self, implies_true]; done)
    | split
    | simp only [h0, ↓State.setFld_blank, ↓blank_ite, ↓fst_ite, ite_self, implies_true]

theorem State.setStage_blank (h0 : bl .regs = true) (s : State) (ln : Lane) (n : Nat) : State.blank bl (State.setStage s ln n) = State.blank bl s := by
  unfold State.setStage
  repeat' first
    | with_reducible rfl
    | (simp only [h0, ↓State.setFld_blank, ↓blank_ite, ↓fst_ite, ite_self, implies_true]; done)
    | split
    | simp only [h0, ↓State.setFld_blank, ↓blank_ite, ↓fst_ite, ite_self, implies_true]

theorem laneOn_blank (h0 : bl .rx = true) (h1 : bl .mirLanes = true) (s : State) (g : RxLane → RxLane) (a2 : Lane) : State.blank bl (laneOn s g a2) = State.blank bl s := by
  unfold laneOn
  repeat' first
    | with_reducible rfl
    | (simp only [h0, h1, ↓State.onRx_blank, ↓State.putMirLanes_blank, ↓blank_ite, ↓fst_ite, ite_self, implies_true]; done)
    | split
    | simp only [h0, h1, ↓State.onRx_blank, ↓State.putMirLanes_blank, ↓blank_ite, ↓fst_ite, ite_self, implies_true]

theorem State.laneOff_blank (h0 : bl .regs = true) (h1 : bl .rx = true) (h2 : bl .mirLanes = true) (s : State) (ln : Lane) : State.blank bl (State.laneOff s ln) = State.blank bl s := by
  unfold State.laneOff
  repeat' first
    | with_reducible rfl
    | (simp only [h0, h1, h2, ↓State.setLock_blank, ↓State.setStep_blank, ↓State.setStage_blank, ↓State.setBit_blank, ↓laneOn_blank, ↓blank_ite, ↓fst_ite, ite_self, implies_true]; done)
    | split
    | simp only [h0, h1, h2, ↓State.setLock_blank, ↓State.setStep_blank, ↓State.setStage_blank, ↓State.setBit_blank, ↓laneOn_blank, ↓blank_ite, ↓fst_ite, ite_self, implies_true]

theorem State.lnkOff_blank (h0 : bl .out = true) (h1 : bl .regs = true) (h2 : bl .rx = true) (h3 : bl .mirLanes = true) (s : State) : State.blank bl (State.lnkOff s) = State.blank bl s := by
  unfold State.lnkOff
  repeat' first
    | with_reducible rfl
    | (simp only [h0, h1, h2, h3, State.each_blank, ↓State.laneOff_blank, ↓State.emit_blank, ↓blank_ite, ↓fst_ite, ite_self, implies_true]; done)
    | split
    | simp only [h0, h1, h2, h3, State.each_blank, ↓State.laneOff_blank, ↓State.emit_blank, ↓blank_ite, ↓fst_ite, ite_self, implies_true]
    | refine (State.each_blank _ _ _ ?_).trans ?_
    | intro _

theorem State.flushQueue_blank (h0 : bl .regs = true) (h1 : bl .tb = true) (h2 : bl .order = true) (h3 : bl .queues = true) (h4 : bl .bellows = true) (h5 : bl .bgs = true) (s : State) (q : Nat) (cause : Nat) (partials : List QItem) : State.blank bl (State.flushQueue s q cause partials) = State.blank bl s := by
  unfold State.flushQueue
  repeat' first
    | with_reducible rfl
    | (simp only [h0, h1, h2, h3, h4, h5, ↓State.onQueue_blank, ↓State.count_blank, State.each_blank, ↓State.settle_blank, ↓State.queueUpdate_blank, ↓blank_ite, ↓fst_ite, ite_self, implies_true]; done)
    | split
    | simp only [h0, h1, h2, h3, h4, h5, ↓State.onQueue_blank, ↓State.count_blank, State.each_blank, ↓State.settle_blank, ↓State.queueUpdate_blank, ↓blank_ite, ↓fst_ite, ite_self, implies_true]
    | refine (State.each_blank _ _ _ ?_).trans ?_
    | intro _

theorem State.closeOpens_blank (h0 : bl .out = true) (h1 : bl .regs = true) (h2 : bl .tb = true) (h3 : bl .hearth = true) (h4 : bl .mem = true) (h5 : bl .pair = true) (s : State) (quench : Bool) : State.blank bl (State.closeOpens s quench) = State.blank bl s := by
  unfold State.closeOpens
  repeat' first
    | with_reducible rfl
    | (simp only [h0, h1, h2, h3, h4, h5, State.onH_blank, State.each_blank, ↓State.markFrame_blank, ↓State.tfClose_blank, ↓blank_ite, ↓fst_ite, ite_self, implies_true]; done)
    | split
    | simp only [h0, h1, h2, h3, h4, h5, State.onH_blank, State.each_blank, ↓State.markFrame_blank, ↓State.tfClose_blank, ↓blank_ite, ↓fst_ite, ite_self, implies_true]
    | (refine (State.onH_blank h3 _ _ rfl).trans ?_)
    | refine (State.each_blank _ _ _ ?_).trans ?_
    | intro _

theorem State.hrtQuench_blank (h0 : bl .out = true) (h1 : bl .regs = true) (h2 : bl .tb = true) (h3 : bl .hearth = true) (h4 : bl .mem = true) (h5 : bl .trig = true) (h6 : bl .pair = true) (h7 : bl .host = true) (s : State) : State.blank bl (State.hrtQuench s) = State.blank bl s := by
  unfold State.hrtQuench
  repeat' first
    | with_reducible rfl
    | (simp only [h0, h1, h2, h3, h4, h5, h6, h7, ↓State.closeOpens_blank, ↓State.onSeg_blank, ↓State.trigItem_blank, State.onH_blank, ↓State.setBit_blank, ↓State.closeFrames_blank, ↓blank_ite, ↓fst_ite, ite_self, implies_true]; done)
    | split
    | simp only [h0, h1, h2, h3, h4, h5, h6, h7, ↓State.closeOpens_blank, ↓State.onSeg_blank, ↓State.trigItem_blank, State.onH_blank, ↓State.setBit_blank, ↓State.closeFrames_blank, ↓blank_ite, ↓fst_ite, ite_self, implies_true]
    | (refine (State.onH_blank h3 _ _ rfl).trans ?_)

theorem State.trgLog_blank (h0 : bl .regs = true) (h1 : bl .tb = true) (s : State) (kind : Nat) (t : Stamp) (src : Nat) (tfrac : Nat) (frame : Nat) : State.blank bl (State.trgLog s kind t src tfrac frame) = State.blank bl s := by
  unfold State.trgLog
  repeat' first
    | with_reducible rfl
    | (simp only [h0, h1, ↓State.trgLogAt_blank, ↓blank_ite, ↓fst_ite, ite_self, implies_true]; done)
    | split
    | simp only [h0, h1, ↓State.trgLogAt_blank, ↓blank_ite, ↓fst_ite, ite_self, implies_true]

theorem State.enterPost_blank (h0 : bl .out = true) (h1 : bl .regs = true) (h2 : bl .tb = true) (h3 : bl .hearth = true) (h4 : bl .mem = true) (h5 : bl .trig = true) (h6 : bl .pair = true) (h7 : bl .host = true) (s : State) (t : Nat) (tfrac : Nat) (tstamp : Stamp) (pact : Nat) : State.blank bl (State.enterPost s t tfrac tstamp pact) = State.blank bl s := by
  unfold State.enterPost
  repeat' first
    | with_reducible rfl
    | (simp only [h0, h1, h2, h3, h4, h5, h6, h7, ↓State.onSeg_blank, State.each_blank, ↓State.slotPatch_blank, State.onH_blank, ↓State.unplaceOpens_blank, ↓State.tellRecord_blank, ↓State.settleFrames_blank, ↓blank_ite, ↓fst_ite, ite_self, implies_true]; done)
    | split
    | simp only [h0, h1, h2, h3, h4, h5, h6, h7, ↓State.onSeg_blank, State.each_blank, ↓State.slotPatch_blank, State.onH_blank, ↓State.unplaceOpens_blank, ↓State.tellRecord_blank, ↓State.settleFrames_blank, ↓blank_ite, ↓fst_ite, ite_self, implies_true]
    | (refine (State.onH_blank h3 _ _ rfl).trans ?_)
    | refine (State.each_blank _ _ _ ?_).trans ?_
    | intro _

theorem State.disarmSegment_blank (h0 : bl .hearth = true) (s : State) : State.blank bl (State.disarmSegment s) = State.blank bl s := by
  unfold State.disarmSegment
  repeat' first
    | with_reducible rfl
    | (simp only [h0, ↓State.unplaceOpens_blank, State.onH_blank, ↓State.onSeg_blank, ↓blank_ite, ↓fst_ite, ite_self, implies_true]; done)
    | split
    | simp only [h0, ↓State.unplaceOpens_blank, State.onH_blank, ↓State.onSeg_blank, ↓blank_ite, ↓fst_ite, ite_self, implies_true]
    | (refine (State.onH_blank h0 _ _ rfl).trans ?_)

theorem State.endSegment_blank (h0 : bl .out = true) (h1 : bl .regs = true) (h2 : bl .tb = true) (h3 : bl .hearth = true) (h4 : bl .mem = true) (h5 : bl .trig = true) (h6 : bl .pair = true) (h7 : bl .host = true) (s : State) : State.blank bl (State.endSegment s) = State.blank bl s := by
  unfold State.endSegment
  repeat' first
    | with_reducible rfl
    | (simp only [h0, h1, h2, h3, h4, h5, h6, h7, ↓State.tellRecord_blank, ↓State.settleFrames_blank, State.onH_blank, ↓State.disarmSegment_blank, ↓blank_ite, ↓fst_ite, ite_self, implies_true]; done)
    | split
    | simp only [h0, h1, h2, h3, h4, h5, h6, h7, ↓State.tellRecord_blank, ↓State.settleFrames_blank, State.onH_blank, ↓State.disarmSegment_blank, ↓blank_ite, ↓fst_ite, ite_self, implies_true]
    | (refine (State.onH_blank h3 _ _ rfl).trans ?_)

theorem State.tdcQuench_blank (h0 : bl .tdc = true) (s : State) : State.blank bl (State.tdcQuench s) = State.blank bl s := by
  unfold State.tdcQuench
  repeat' first
    | with_reducible rfl
    | (simp only [h0, State.each_blank, ↓State.onUnit_blank, ↓blank_ite, ↓fst_ite, ite_self, implies_true]; done)
    | split
    | simp only [h0, State.each_blank, ↓State.onUnit_blank, ↓blank_ite, ↓fst_ite, ite_self, implies_true]
    | refine (State.each_blank _ _ _ ?_).trans ?_
    | intro _

theorem State.requestStep_blank (h0 : bl .regs = true) (h1 : bl .tb = true) (s : State) (r : StepReq) : State.blank bl (State.requestStep s r) = State.blank bl s := by
  unfold State.requestStep
  repeat' first
    | with_reducible rfl
    | (simp only [h0, h1, ↓State.setBit_blank, ↓State.putTb_blank, ↓blank_ite, ↓fst_ite, ite_self, implies_true]; done)
    | split
    | simp only [h0, h1, ↓State.setBit_blank, ↓State.putTb_blank, ↓blank_ite, ↓fst_ite, ite_self, implies_true]

theorem State.tbStart_blank (h0 : bl .regs = true) (h1 : bl .tb = true) (s : State) : State.blank bl (State.tbStart s) = State.blank bl s := by
  unfold State.tbStart
  repeat' first
    | with_reducible rfl
    | (simp only [h0, h1, ↓State.requestStep_blank, ↓State.putInc_blank, ↓blank_ite, ↓fst_ite, ite_self, implies_true]; done)
    | split
    | simp only [h0, h1, ↓State.requestStep_blank, ↓State.putInc_blank, ↓blank_ite, ↓fst_ite, ite_self, implies_true]

theorem State.releaseSegment_blank (h0 : bl .out = true) (h1 : bl .field = true) (h2 : bl .hearth = true) (h3 : bl .trig = true) (h4 : bl .pair = true) (s : State) (seg : Nat) : State.blank bl (State.releaseSegment s seg) = State.blank bl s := by
  unfold State.releaseSegment
  repeat' first
    | with_reducible rfl
    | (simp only [h0, h1, h2, h3, h4, ↓State.onSeg_blank, ↓State.putTrig_blank, State.onH_blank, ↓State.putField_blank, ↓State.tellRecord_blank, ↓blank_ite, ↓fst_ite, ite_self, implies_true]; done)
    | split
    | simp only [h0, h1, h2, h3, h4, ↓State.onSeg_blank, ↓State.putTrig_blank, State.onH_blank, ↓State.putField_blank, ↓State.tellRecord_blank, ↓blank_ite, ↓fst_ite, ite_self, implies_true]
    | (refine (State.onH_blank h2 _ _ rfl).trans ?_)

theorem State.truncate_blank (h0 : bl .out = true) (h1 : bl .tb = true) (h2 : bl .hearth = true) (h3 : bl .mem = true) (h4 : bl .pair = true) (s : State) (n : Nat) (own : Bool) : State.blank bl (State.truncate s n own) = State.blank bl s := by
  unfold State.truncate
  repeat' first
    | with_reducible rfl
    | (simp only [h0, h1, h2, h3, h4, State.each_blank, ↓State.slotPatch_blank, State.onH_blank, ↓State.mirrorSend_blank, ↓State.logDev_blank, ↓blank_ite, ↓fst_ite, ite_self, implies_true]; done)
    | split
    | simp only [h0, h1, h2, h3, h4, State.each_blank, ↓State.slotPatch_blank, State.onH_blank, ↓State.mirrorSend_blank, ↓State.logDev_blank, ↓blank_ite, ↓fst_ite, ite_self, implies_true]
    | (refine (State.onH_blank h2 _ _ rfl).trans ?_)
    | refine (State.each_blank _ _ _ ?_).trans ?_
    | intro _

theorem State.truncateClosed_blank (h0 : bl .regs = true) (h1 : bl .tb = true) (h2 : bl .hearth = true) (h3 : bl .mem = true) (s : State) (n : Nat) : State.blank bl (State.truncateClosed s n) = State.blank bl s := by
  unfold State.truncateClosed
  repeat' first
    | with_reducible rfl
    | (simp only [h0, h1, h2, h3, State.each_blank, ↓State.slotPatch_blank, ↓State.writeDir_blank, ↓State.onSeg_blank, ↓State.count_blank, ↓State.logDev_blank, ↓blank_ite, ↓fst_ite, ite_self, implies_true]; done)
    | split
    | simp only [h0, h1, h2, h3, State.each_blank, ↓State.slotPatch_blank, ↓State.writeDir_blank, ↓State.onSeg_blank, ↓State.count_blank, ↓State.logDev_blank, ↓blank_ite, ↓fst_ite, ite_self, implies_true]
    | refine (State.each_blank _ _ _ ?_).trans ?_
    | intro _

theorem State.setIncrement_blank (h0 : bl .regs = true) (h1 : bl .tb = true) (s : State) (v : Nat) : State.blank bl (State.setIncrement s v) = State.blank bl s := by
  unfold State.setIncrement
  repeat' first
    | with_reducible rfl
    | (simp only [h0, h1, ↓State.count_blank, ↓State.setBit_blank, ↓State.putInc_blank, ↓blank_ite, ↓fst_ite, ite_self, implies_true]; done)
    | split
    | simp only [h0, h1, ↓State.count_blank, ↓State.setBit_blank, ↓State.putInc_blank, ↓blank_ite, ↓fst_ite, ite_self, implies_true]

theorem tbIncWrite_blank (h0 : bl .regs = true) (h1 : bl .tb = true) (v : Word) (s : State) : State.blank bl (tbIncWrite v s) = State.blank bl s := by
  unfold tbIncWrite
  repeat' first
    | with_reducible rfl
    | (simp only [h0, h1, ↓State.setIncrement_blank, ↓blank_ite, ↓fst_ite, ite_self, implies_true]; done)
    | split
    | simp only [h0, h1, ↓State.setIncrement_blank, ↓blank_ite, ↓fst_ite, ite_self, implies_true]

theorem stepGo_blank (h0 : bl .regs = true) (h1 : bl .tb = true) (s : State) : State.blank bl (stepGo s) = State.blank bl s := by
  unfold stepGo
  repeat' first
    | with_reducible rfl
    | (simp only [h0, h1, ↓State.requestStep_blank, ↓blank_ite, ↓fst_ite, ite_self, implies_true]; done)
    | split
    | simp only [h0, h1, ↓State.requestStep_blank, ↓blank_ite, ↓fst_ite, ite_self, implies_true]

theorem stepCancel_blank (h0 : bl .regs = true) (h1 : bl .tb = true) (s : State) : State.blank bl (stepCancel s) = State.blank bl s := by
  unfold stepCancel
  repeat' first
    | with_reducible rfl
    | (simp only [h0, h1, ↓State.clearStep_blank, ↓blank_ite, ↓fst_ite, ite_self, implies_true]; done)
    | split
    | simp only [h0, h1, ↓State.clearStep_blank, ↓blank_ite, ↓fst_ite, ite_self, implies_true]

theorem State.tdcSettle_blank (h0 : bl .regs = true) (h1 : bl .tb = true) (h2 : bl .tdc = true) (s : State) (seen : Stamp) : State.blank bl (State.tdcSettle s seen) = State.blank bl s := by
  unfold State.tdcSettle
  repeat' first
    | with_reducible rfl
    | (simp only [h0, h1, h2, State.each_blank, ↓State.unitSettle_blank, ↓blank_ite, ↓fst_ite, ite_self, implies_true]; done)
    | split
    | simp only [h0, h1, h2, State.each_blank, ↓State.unitSettle_blank, ↓blank_ite, ↓fst_ite, ite_self, implies_true]
    | refine (State.each_blank _ _ _ ?_).trans ?_
    | intro _

theorem State.unitInput_blank (h0 : bl .tdc = true) (s : State) (u : Nat) (t : Stamp) (i : UnitItem) : State.blank bl (State.unitInput s u t i) = State.blank bl s := by
  unfold State.unitInput
  repeat' first
    | with_reducible rfl
    | (simp only [h0, ↓State.onUnit_blank, ↓blank_ite, ↓fst_ite, ite_self, implies_true]; done)
    | split
    | simp only [h0, ↓State.onUnit_blank, ↓blank_ite, ↓fst_ite, ite_self, implies_true]

theorem tdcSoftwareArm_blank (h0 : bl .regs = true) (h1 : bl .tb = true) (h2 : bl .tdc = true) (u : Fin 8) (s : State) : State.blank bl (tdcSoftwareArm u s) = State.blank bl s := by
  unfold tdcSoftwareArm
  repeat' first
    | with_reducible rfl
    | (simp only [h0, h1, h2, ↓State.tdcSettle_blank, ↓State.unitInput_blank, ↓blank_ite, ↓fst_ite, ite_self, implies_true]; done)
    | split
    | simp only [h0, h1, h2, ↓State.tdcSettle_blank, ↓State.unitInput_blank, ↓blank_ite, ↓fst_ite, ite_self, implies_true]

theorem statisticsClear_blank (h0 : bl .tdc = true) (u : Fin 8) (s : State) : State.blank bl (statisticsClear u s) = State.blank bl s := by
  unfold statisticsClear
  repeat' first
    | with_reducible rfl
    | (simp only [h0, ↓State.onUnit_blank, ↓blank_ite, ↓fst_ite, ite_self, implies_true]; done)
    | split
    | simp only [h0, ↓State.onUnit_blank, ↓blank_ite, ↓fst_ite, ite_self, implies_true]

theorem clrPeak_blank (h0 : bl .queues = true) (q : Fin 97) (s : State) : State.blank bl (clrPeak q s) = State.blank bl s := by
  unfold clrPeak
  repeat' first
    | with_reducible rfl
    | (simp only [h0, ↓State.onQueue_blank, ↓blank_ite, ↓fst_ite, ite_self, implies_true]; done)
    | split
    | simp only [h0, ↓State.onQueue_blank, ↓blank_ite, ↓fst_ite, ite_self, implies_true]

theorem queueFlush_blank (h0 : bl .regs = true) (h1 : bl .tb = true) (h2 : bl .order = true) (h3 : bl .queues = true) (h4 : bl .bellows = true) (h5 : bl .engines = true) (h6 : bl .bgs = true) (q : Fin 97) (s : State) : State.blank bl (queueFlush q s) = State.blank bl s := by
  unfold queueFlush
  repeat' first
    | with_reducible rfl
    | (simp only [h0, h1, h2, h3, h4, h5, h6, ↓State.dropFilling_blank, ↓State.flushQueue_blank, ↓blank_ite, ↓fst_ite, ite_self, implies_true]; done)
    | split
    | simp only [h0, h1, h2, h3, h4, h5, h6, ↓State.dropFilling_blank, ↓State.flushQueue_blank, ↓blank_ite, ↓fst_ite, ite_self, implies_true]

theorem State.putTxClock_blank (h0 : bl .rx = true) (h1 : bl .cmd = true) (h2 : bl .mirLanes = true) (s : State) (f : Nat) (c : TxClock) : State.blank bl (State.putTxClock s f c) = State.blank bl s := by
  unfold State.putTxClock
  repeat' first
    | with_reducible rfl
    | (simp only [h0, h1, h2, ↓State.onCmd_blank, ↓laneOn_blank, ↓blank_ite, ↓fst_ite, ite_self, implies_true]; done)
    | split
    | simp only [h0, h1, h2, ↓State.onCmd_blank, ↓laneOn_blank, ↓blank_ite, ↓fst_ite, ite_self, implies_true]

theorem State.sendBlock_blank (h0 : bl .out = true) (h1 : bl .rx = true) (h2 : bl .cmd = true) (h3 : bl .mirLanes = true) (s : State) (f : Nat) (kind : Nat) (content : List Byte) : State.blank bl (State.sendBlock s f kind content) = State.blank bl s := by
  unfold State.sendBlock
  repeat' first
    | with_reducible rfl
    | (simp only [h0, h1, h2, h3, ↓State.putTxClock_blank, ↓State.emit_blank, ↓blank_ite, ↓fst_ite, ite_self, implies_true]; done)
    | split
    | simp only [h0, h1, h2, h3, ↓State.putTxClock_blank, ↓State.emit_blank, ↓blank_ite, ↓fst_ite, ite_self, implies_true]

theorem State.beginStage1_blank (h0 : bl .regs = true) (h1 : bl .rx = true) (h2 : bl .mirLanes = true) (s : State) (ln : Lane) : State.blank bl (State.beginStage1 s ln) = State.blank bl s := by
  unfold State.beginStage1
  repeat' first
    | with_reducible rfl
    | (simp only [h0, h1, h2, ↓State.setLock_blank, ↓State.setStage_blank, ↓State.setBit_blank, ↓laneOn_blank, ↓blank_ite, ↓fst_ite, ite_self, implies_true]; done)
    | split
    | simp only [h0, h1, h2, ↓State.setLock_blank, ↓State.setStage_blank, ↓State.setBit_blank, ↓laneOn_blank, ↓blank_ite, ↓fst_ite, ite_self, implies_true]

theorem State.bringUp_blank (h0 : bl .regs = true) (h1 : bl .rx = true) (h2 : bl .mirLanes = true) (s : State) (ln : Lane) : State.blank bl (State.bringUp s ln) = State.blank bl s := by
  unfold State.bringUp
  repeat' first
    | with_reducible rfl
    | (simp only [h0, h1, h2, ↓State.setFld_blank, ↓laneOn_blank, ↓State.beginStage1_blank, ↓State.setStep_blank, ↓blank_ite, ↓fst_ite, ite_self, implies_true]; done)
    | split
    | simp only [h0, h1, h2, ↓State.setFld_blank, ↓laneOn_blank, ↓State.beginStage1_blank, ↓State.setStep_blank, ↓blank_ite, ↓fst_ite, ite_self, implies_true]

theorem retrain_blank (h0 : bl .regs = true) (h1 : bl .rx = true) (h2 : bl .mirLanes = true) (l : Fin 96) (s : State) : State.blank bl (retrain l s) = State.blank bl s := by
  unfold retrain
  repeat' first
    | with_reducible rfl
    | (simp only [h0, h1, h2, ↓State.bringUp_blank, ↓blank_ite, ↓fst_ite, ite_self, implies_true]; done)
    | split
    | simp only [h0, h1, h2, ↓State.bringUp_blank, ↓blank_ite, ↓fst_ite, ite_self, implies_true]

theorem State.sendRate_blank (h0 : bl .out = true) (h1 : bl .rx = true) (h2 : bl .cmd = true) (h3 : bl .mirLanes = true) (s : State) (ln : Lane) (step : Nat) (accept : Bool) (final : Bool) : State.blank bl (State.sendRate s ln step accept final) = State.blank bl s := by
  unfold State.sendRate
  repeat' first
    | with_reducible rfl
    | (simp only [h0, h1, h2, h3, ↓State.sendBlock_blank, ↓blank_ite, ↓fst_ite, ite_self, implies_true]; done)
    | split
    | simp only [h0, h1, h2, h3, ↓State.sendBlock_blank, ↓blank_ite, ↓fst_ite, ite_self, implies_true]

theorem State.riseOrRun_blank (h0 : bl .out = true) (h1 : bl .regs = true) (h2 : bl .rx = true) (h3 : bl .cmd = true) (h4 : bl .mirLanes = true) (s : State) (ln : Lane) : State.blank bl (State.riseOrRun s ln) = State.blank bl s := by
  unfold State.riseOrRun
  repeat' first
    | with_reducible rfl
    | (simp only [h0, h1, h2, h3, h4, ↓State.sendRate_blank, ↓State.setStage_blank, ↓laneOn_blank, ↓blank_ite, ↓fst_ite, ite_self, implies_true]; done)
    | split
    | simp only [h0, h1, h2, h3, h4, ↓State.sendRate_blank, ↓State.setStage_blank, ↓laneOn_blank, ↓blank_ite, ↓fst_ite, ite_self, implies_true]

theorem State.sendCaps_blank (h0 : bl .out = true) (h1 : bl .rx = true) (h2 : bl .cmd = true) (h3 : bl .mirLanes = true) (s : State) (l : Nat) (gap : Nat) (ack : Bool) : State.blank bl (State.sendCaps s l gap ack) = State.blank bl s := by
  unfold State.sendCaps
  repeat' first
    | with_reducible rfl
    | (simp only [h0, h1, h2, h3, ↓State.sendBlock_blank, ↓blank_ite, ↓fst_ite, ite_self, implies_true]; done)
    | split
    | simp only [h0, h1, h2, h3, ↓State.sendBlock_blank, ↓blank_ite, ↓fst_ite, ite_self, implies_true]

theorem State.sendGap_blank (h0 : bl .out = true) (h1 : bl .regs = true) (h2 : bl .rx = true) (h3 : bl .cmd = true) (h4 : bl .mirLanes = true) (s : State) (l : Nat) (ppm10 : Int) (ack : Bool) : State.blank bl (State.sendGap s l ppm10 ack) = State.blank bl s := by
  unfold State.sendGap
  repeat' first
    | with_reducible rfl
    | (simp only [h0, h1, h2, h3, h4, ↓State.sendCaps_blank, ↓State.onRx_blank, ↓State.setFld_blank, ↓blank_ite, ↓fst_ite, ite_self, implies_true]; done)
    | split
    | simp only [h0, h1, h2, h3, h4, ↓State.sendCaps_blank, ↓State.onRx_blank, ↓State.setFld_blank, ↓blank_ite, ↓fst_ite, ite_self, implies_true]

theorem State.alignedDone_blank (h0 : bl .out = true) (h1 : bl .regs = true) (h2 : bl .rx = true) (h3 : bl .cmd = true) (h4 : bl .mirLanes = true) (s : State) (ln : Lane) : State.blank bl (State.alignedDone s ln) = State.blank bl s := by
  unfold State.alignedDone
  repeat' first
    | with_reducible rfl
    | (simp only [h0, h1, h2, h3, h4, ↓State.setBit_blank, ↓State.riseOrRun_blank, ↓State.setStage_blank, ↓State.sendGap_blank, ↓blank_ite, ↓fst_ite, ite_self, implies_true]; done)
    | split
    | simp only [h0, h1, h2, h3, h4, ↓State.setBit_blank, ↓State.riseOrRun_blank, ↓State.setStage_blank, ↓State.sendGap_blank, ↓blank_ite, ↓fst_ite, ite_self, implies_true]

theorem alignDone_blank (h0 : bl .out = true) (h1 : bl .regs = true) (h2 : bl .rx = true) (h3 : bl .cmd = true) (h4 : bl .mirLanes = true) (l : Fin 96) (s : State) : State.blank bl (alignDone l s) = State.blank bl s := by
  unfold alignDone
  repeat' first
    | with_reducible rfl
    | (simp only [h0, h1, h2, h3, h4, ↓State.alignedDone_blank, ↓blank_ite, ↓fst_ite, ite_self, implies_true]; done)
    | split
    | simp only [h0, h1, h2, h3, h4, ↓State.alignedDone_blank, ↓blank_ite, ↓fst_ite, ite_self, implies_true]

theorem clrCeil_blank (h0 : bl .rx = true) (l : Fin 96) (s : State) : State.blank bl (clrCeil l s) = State.blank bl s := by
  unfold clrCeil
  repeat' first
    | with_reducible rfl
    | (simp only [h0, ↓State.onRx_blank, ↓blank_ite, ↓fst_ite, ite_self, implies_true]; done)
    | split
    | simp only [h0, ↓State.onRx_blank, ↓blank_ite, ↓fst_ite, ite_self, implies_true]

theorem State.slipOne_blank (h0 : bl .rx = true) (h1 : bl .mirLanes = true) (s : State) (ln : Lane) : State.blank bl (State.slipOne s ln) = State.blank bl s := by
  unfold State.slipOne
  repeat' first
    | with_reducible rfl
    | (simp only [h0, h1, ↓laneOn_blank, ↓blank_ite, ↓fst_ite, ite_self, implies_true]; done)
    | split
    | simp only [h0, h1, ↓laneOn_blank, ↓blank_ite, ↓fst_ite, ite_self, implies_true]

theorem slip_blank (h0 : bl .rx = true) (h1 : bl .mirLanes = true) (l : Fin 96) (s : State) : State.blank bl (slip l s) = State.blank bl s := by
  unfold slip
  repeat' first
    | with_reducible rfl
    | (simp only [h0, h1, ↓State.slipOne_blank, ↓blank_ite, ↓fst_ite, ite_self, implies_true]; done)
    | split
    | simp only [h0, h1, ↓State.slipOne_blank, ↓blank_ite, ↓fst_ite, ite_self, implies_true]

theorem prbsInject_blank (h0 : bl .out = true) (h1 : bl .freeUse = true) (h2 : bl .regs = true) (h3 : bl .rx = true) (n : Nat) (p : PrbsLane) (s : State) : State.blank bl (prbsInject n p s) = State.blank bl s := by
  unfold prbsInject
  repeat' first
    | with_reducible rfl
    | (simp only [h0, h1, h2, h3, ↓State.emit_blank, ↓State.count_blank, ↓State.useFree_blank, ↓State.onRx_blank, ↓blank_ite, ↓fst_ite, ite_self, implies_true]; done)
    | split
    | simp only [h0, h1, h2, h3, ↓State.emit_blank, ↓State.count_blank, ↓State.useFree_blank, ↓State.onRx_blank, ↓blank_ite, ↓fst_ite, ite_self, implies_true]

theorem feAccessGo_blank (h0 : bl .out = true) (h1 : bl .regs = true) (h2 : bl .rx = true) (h3 : bl .cmd = true) (h4 : bl .mirLanes = true) (f : Fin 48) (s : State) : State.blank bl (feAccessGo f s) = State.blank bl s := by
  unfold feAccessGo
  repeat' first
    | with_reducible rfl
    | (simp only [h0, h1, h2, h3, h4, ↓State.setFld_blank, ↓State.onCmd_blank, ↓State.setBit_blank, ↓State.sendBlock_blank, ↓blank_ite, ↓fst_ite, ite_self, implies_true]; done)
    | split
    | simp only [h0, h1, h2, h3, h4, ↓State.setFld_blank, ↓State.onCmd_blank, ↓State.setBit_blank, ↓State.sendBlock_blank, ↓blank_ite, ↓fst_ite, ite_self, implies_true]

theorem blwForce_blank (h0 : bl .regs = true) (h1 : bl .bellows = true) (h2 : bl .bgs = true) (k : Fin 12) (on : Bool) (s : State) : State.blank bl (blwForce k on s) = State.blank bl s := by
  unfold blwForce
  repeat' first
    | with_reducible rfl
    | (simp only [h0, h1, h2, ↓State.blwUpdate_blank, ↓State.setBit_blank, ↓blank_ite, ↓fst_ite, ite_self, implies_true]; done)
    | split
    | simp only [h0, h1, h2, ↓State.blwUpdate_blank, ↓State.setBit_blank, ↓blank_ite, ↓fst_ite, ite_self, implies_true]

theorem State.onInput_blank (h0 : bl .tdc = true) (s : State) (i : Nat) (g : TimedInput → TimedInput) : State.blank bl (State.onInput s i g) = State.blank bl s := by
  unfold State.onInput
  repeat' first
    | with_reducible rfl
    | (simp only [h0, ↓State.onTdc_blank, ↓blank_ite, ↓fst_ite, ite_self, implies_true]; done)
    | split
    | simp only [h0, ↓State.onTdc_blank, ↓blank_ite, ↓fst_ite, ite_self, implies_true]

theorem State.enterMode_blank (h0 : bl .regs = true) (h1 : bl .rx = true) (h2 : bl .mirLanes = true) (s : State) (ln : Lane) : State.blank bl (State.enterMode s ln) = State.blank bl s := by
  unfold State.enterMode
  repeat' first
    | with_reducible rfl
    | (simp only [h0, h1, h2, ↓State.bringUp_blank, ↓State.setLock_blank, ↓State.setStep_blank, ↓State.setStage_blank, ↓blank_ite, ↓fst_ite, ite_self, implies_true]; done)
    | split
    | simp only [h0, h1, h2, ↓State.bringUp_blank, ↓State.setLock_blank, ↓State.setStep_blank, ↓State.setStage_blank, ↓blank_ite, ↓fst_ite, ite_self, implies_true]

theorem State.txEnter_blank (h0 : bl .out = true) (s : State) (f : Nat) : State.blank bl (State.txEnter s f) = State.blank bl s := by
  unfold State.txEnter
  repeat' first
    | with_reducible rfl
    | (simp only [h0, ↓State.emit_blank, ↓blank_ite, ↓fst_ite, ite_self, implies_true]; done)
    | split
    | simp only [h0, ↓State.emit_blank, ↓blank_ite, ↓fst_ite, ite_self, implies_true]

theorem State.lnkEnter_blank (h0 : bl .out = true) (h1 : bl .regs = true) (h2 : bl .rx = true) (h3 : bl .tiles = true) (h4 : bl .cmd = true) (h5 : bl .mirLanes = true) (s : State) : State.blank bl (State.lnkEnter s) = State.blank bl s := by
  unfold State.lnkEnter
  repeat' first
    | with_reducible rfl
    | (simp only [h0, h1, h2, h3, h4, h5, State.each_blank, ↓State.enterMode_blank, ↓State.txEnter_blank, ↓State.onTile_blank, ↓State.onCmd_blank, ↓blank_ite, ↓fst_ite, ite_self, implies_true]; done)
    | split
    | simp only [h0, h1, h2, h3, h4, h5, State.each_blank, ↓State.enterMode_blank, ↓State.txEnter_blank, ↓State.onTile_blank, ↓State.onCmd_blank, ↓blank_ite, ↓fst_ite, ite_self, implies_true]
    | refine (State.each_blank _ _ _ ?_).trans ?_
    | intro _

theorem State.hrtStart_blank (h0 : bl .hearth = true) (s : State) : State.blank bl (State.hrtStart s) = State.blank bl s := by
  unfold State.hrtStart
  repeat' first
    | with_reducible rfl
    | (simp only [h0, State.onH_blank, ↓blank_ite, ↓fst_ite, ite_self, implies_true]; done)
    | split
    | simp only [h0, State.onH_blank, ↓blank_ite, ↓fst_ite, ite_self, implies_true]
    | (refine (State.onH_blank h0 _ _ rfl).trans ?_)

theorem State.tdcStart_blank (h0 : bl .tdc = true) (s : State) : State.blank bl (State.tdcStart s) = State.blank bl s := by
  unfold State.tdcStart
  repeat' first
    | with_reducible rfl
    | (simp only [h0, State.each_blank, ↓State.onUnit_blank, ↓blank_ite, ↓fst_ite, ite_self, implies_true]; done)
    | split
    | simp only [h0, State.each_blank, ↓State.onUnit_blank, ↓blank_ite, ↓fst_ite, ite_self, implies_true]
    | refine (State.each_blank _ _ _ ?_).trans ?_
    | intro _

theorem State.srcLevel_blank (h0 : bl .regs = true) (h1 : bl .tb = true) (h2 : bl .trig = true) (s : State) (t : Stamp) (src : Nat) (b : Bool) : State.blank bl (State.srcLevel s t src b) = State.blank bl s := by
  unfold State.srcLevel
  repeat' first
    | with_reducible rfl
    | (simp only [h0, h1, h2, ↓State.srcEvent_blank, ↓blank_ite, ↓fst_ite, ite_self, implies_true]; done)
    | split
    | simp only [h0, h1, h2, ↓State.srcEvent_blank, ↓blank_ite, ↓fst_ite, ite_self, implies_true]

theorem State.logScore_blank (h0 : bl .freeUse = true) (h1 : bl .tb = true) (s : State) (e : Nat) (n : Nat) (t : Stamp) (m : StampMark) : State.blank bl (State.logScore s e n t m) = State.blank bl s := by
  unfold State.logScore
  repeat' first
    | with_reducible rfl
    | (simp only [h0, h1, ↓State.useFree_blank, ↓State.logMarked_blank, ↓blank_ite, ↓fst_ite, ite_self, implies_true]; done)
    | split
    | simp only [h0, h1, ↓State.useFree_blank, ↓State.logMarked_blank, ↓blank_ite, ↓fst_ite, ite_self, implies_true]

theorem fillInsert_blank (h0 : bl .out = true) (h1 : bl .rx = true) (h2 : bl .cmd = true) (h3 : bl .mirLanes = true) (t : TxLane) (s : State) : State.blank bl (fillInsert t s) = State.blank bl s := by
  unfold fillInsert
  repeat' first
    | with_reducible rfl
    | (simp only [h0, h1, h2, h3, ↓State.emit_blank, ↓State.putTxClock_blank, ↓blank_ite, ↓fst_ite, ite_self, implies_true]; done)
    | split
    | simp only [h0, h1, h2, h3, ↓State.emit_blank, ↓State.putTxClock_blank, ↓blank_ite, ↓fst_ite, ite_self, implies_true]

theorem State.tdcArm_blank (h0 : bl .regs = true) (h1 : bl .tb = true) (h2 : bl .tdc = true) (s : State) (src : Nat) (t : Stamp) : State.blank bl (State.tdcArm s src t) = State.blank bl s := by
  unfold State.tdcArm
  repeat' first
    | with_reducible rfl
    | (simp only [h0, h1, h2, State.each_blank, ↓State.unitInput_blank, ↓State.tdcSettle_blank, ↓blank_ite, ↓fst_ite, ite_self, implies_true]; done)
    | split
    | simp only [h0, h1, h2, State.each_blank, ↓State.unitInput_blank, ↓State.tdcSettle_blank, ↓blank_ite, ↓fst_ite, ite_self, implies_true]
    | refine (State.each_blank _ _ _ ?_).trans ?_
    | intro _

theorem State.addDue_blank (h0 : bl .bgs = true) (s : State) (key : Nat) : State.blank bl (State.addDue s key) = State.blank bl s := by
  unfold State.addDue
  repeat' first
    | with_reducible rfl
    | (simp only [h0, ↓State.putBgs_blank, ↓blank_ite, ↓fst_ite, ite_self, implies_true]; done)
    | split
    | simp only [h0, ↓State.putBgs_blank, ↓blank_ite, ↓fst_ite, ite_self, implies_true]

theorem State.recalGo_blank (h0 : bl .regs = true) (h1 : bl .bgs = true) (s : State) (target : Nat) : State.blank bl (State.recalGo s target) = State.blank bl s := by
  unfold State.recalGo
  repeat' first
    | with_reducible rfl
    | (simp only [h0, h1, ↓State.ranAt_blank, ↓State.setFld_blank, ↓State.setBit_blank, ↓blank_ite, ↓fst_ite, ite_self, implies_true]; done)
    | split
    | simp only [h0, h1, ↓State.ranAt_blank, ↓State.setFld_blank, ↓State.setBit_blank, ↓blank_ite, ↓fst_ite, ite_self, implies_true]

theorem interpolatorRecalStart_blank (h0 : bl .regs = true) (h1 : bl .bgs = true) (target : Fin 22) (s : State) : State.blank bl (interpolatorRecalStart target s) = State.blank bl s := by
  unfold interpolatorRecalStart
  repeat' first
    | with_reducible rfl
    | (simp only [h0, h1, ↓State.addDue_blank, ↓State.recalGo_blank, ↓blank_ite, ↓fst_ite, ite_self, implies_true]; done)
    | split
    | simp only [h0, h1, ↓State.addDue_blank, ↓State.recalGo_blank, ↓blank_ite, ↓fst_ite, ite_self, implies_true]

theorem State.streamAdd_blank (h0 : bl .trig = true) (s : State) (kind : Nat) (idx : Nat) (t : Stamp) (v : Int) (gap : Bool) (src : Nat) : State.blank bl (State.streamAdd s kind idx t v gap src) = State.blank bl s := by
  unfold State.streamAdd
  repeat' first
    | with_reducible rfl
    | (simp only [h0, ↓State.putTrig_blank, ↓blank_ite, ↓fst_ite, ite_self, implies_true]; done)
    | split
    | simp only [h0, ↓State.putTrig_blank, ↓blank_ite, ↓fst_ite, ite_self, implies_true]

theorem State.judgeScore_blank (h0 : bl .freeUse = true) (h1 : bl .regs = true) (h2 : bl .tb = true) (h3 : bl .trig = true) (s : State) (e : Nat) (n : Nat) (t : Stamp) (m : StampMark) (x : Int) : State.blank bl (State.judgeScore s e n t m x) = State.blank bl s := by
  unfold State.judgeScore
  repeat' first
    | with_reducible rfl
    | (simp only [h0, h1, h2, h3, ↓State.putTrig_blank, ↓State.streamAdd_blank, ↓State.srcEventAt_blank, ↓State.logScore_blank, ↓blank_ite, ↓fst_ite, ite_self, implies_true]; done)
    | split
    | simp only [h0, h1, h2, h3, ↓State.putTrig_blank, ↓State.streamAdd_blank, ↓State.srcEventAt_blank, ↓State.logScore_blank, ↓blank_ite, ↓fst_ite, ite_self, implies_true]

theorem idleRx_blank (h0 : bl .rx = true) (h1 : bl .mirLanes = true) (ln : Lane) (counter : Nat) (fill : Nat) (s : State) : State.blank bl (idleRx ln counter fill s) = State.blank bl s := by
  unfold idleRx
  repeat' first
    | with_reducible rfl
    | (simp only [h0, h1, ↓laneOn_blank, ↓blank_ite, ↓fst_ite, ite_self, implies_true]; done)
    | split
    | simp only [h0, h1, ↓laneOn_blank, ↓blank_ite, ↓fst_ite, ite_self, implies_true]

theorem State.holdBytes_blank (h0 : bl .hearth = true) (s : State) (f : Nat) (n : Nat) (bs : List Byte) : State.blank bl (State.holdBytes s f n bs) = State.blank bl s := by
  unfold State.holdBytes
  repeat' first
    | with_reducible rfl
    | (simp only [h0, ↓State.onOpen_blank, ↓blank_ite, ↓fst_ite, ite_self, implies_true]; done)
    | split
    | simp only [h0, ↓State.onOpen_blank, ↓blank_ite, ↓fst_ite, ite_self, implies_true]

theorem State.evictOpen_blank (h0 : bl .hearth = true) (s : State) (n : Nat) : State.blank bl (State.evictOpen s n) = State.blank bl s := by
  unfold State.evictOpen
  repeat' first
    | with_reducible rfl
    | (simp only [h0, ↓State.onOpen_blank, ↓blank_ite, ↓fst_ite, ite_self, implies_true]; done)
    | split
    | simp only [h0, ↓State.onOpen_blank, ↓blank_ite, ↓fst_ite, ite_self, implies_true]

theorem State.makeRoom_blank (h0 : bl .hearth = true) (h1 : bl .mem = true) (s : State) (f : Nat) (n : Nat) (a3 : Nat) : State.blank bl (State.makeRoom s f n a3) = State.blank bl s := by
  induction a3 generalizing s with
  | zero => unfold State.makeRoom; first | rfl | (split <;> rfl)
  | succ k ih =>
    unfold State.makeRoom
    repeat' first
      | with_reducible rfl
      | (simp only [h0, h1, ↓State.evictOne_blank, ↓State.evictOpen_blank, ↓blank_ite, ↓fst_ite, ite_self, implies_true, ↓ih]; done)
      | split
      | simp only [h0, h1, ↓State.evictOne_blank, ↓State.evictOpen_blank, ↓blank_ite, ↓fst_ite, ite_self, implies_true, ↓ih]

theorem State.acceptBytes_blank (h0 : bl .out = true) (h1 : bl .tb = true) (h2 : bl .hearth = true) (h3 : bl .mem = true) (h4 : bl .pair = true) (s : State) (f : Nat) (n : Nat) (bs : List Byte) (t : State) (hx : (State.acceptBytes s f n bs) = some t) :
    State.blank bl t = State.blank bl s := by
  unfold State.acceptBytes at hx
  repeat' first
    | (simp only [reduceCtorEq] at hx; done)
    | (simp only [Option.some.injEq, Prod.mk.injEq] at hx; obtain ⟨_, hx⟩ := hx; subst hx)
    | (simp only [Option.some.injEq] at hx; subst hx)
    | (simp only [h0, h1, h2, h3, h4, ↓State.holdBytes_blank, ↓State.makeRoom_blank, ↓State.placeBytes_blank, ↓State.truncate_blank, ↓blank_ite, ↓fst_ite, ite_self, implies_true]; done)
    | with_reducible rfl
    | split at hx
    | dsimp only at hx

theorem State.recordFail_blank (h0 : bl .regs = true) (s : State) (ln : Lane) (stage : Nat) (cause : Nat) : State.blank bl (State.recordFail s ln stage cause) = State.blank bl s := by
  unfold State.recordFail
  repeat' first
    | with_reducible rfl
    | (simp only [h0, ↓State.setFld_blank, ↓blank_ite, ↓fst_ite, ite_self, implies_true]; done)
    | split
    | simp only [h0, ↓State.setFld_blank, ↓blank_ite, ↓fst_ite, ite_self, implies_true]

theorem State.failStage_blank (h0 : bl .regs = true) (h1 : bl .rx = true) (h2 : bl .mirLanes = true) (s : State) (ln : Lane) (stage : Nat) (cause : Nat) : State.blank bl (State.failStage s ln stage cause) = State.blank bl s := by
  unfold State.failStage
  repeat' first
    | with_reducible rfl
    | (simp only [h0, h1, h2, ↓State.recordFail_blank, ↓State.beginStage1_blank, ↓State.setFld_blank, ↓State.setStep_blank, ↓State.setLock_blank, ↓State.setStage_blank, ↓laneOn_blank, ↓blank_ite, ↓fst_ite, ite_self, implies_true]; done)
    | split
    | simp only [h0, h1, h2, ↓State.recordFail_blank, ↓State.beginStage1_blank, ↓State.setFld_blank, ↓State.setStep_blank, ↓State.setLock_blank, ↓State.setStage_blank, ↓laneOn_blank, ↓blank_ite, ↓fst_ite, ite_self, implies_true]

theorem State.tdcEpoch_blank (h0 : bl .tb = true) (h1 : bl .tdc = true) (s : State) (d : Int) (dr : Int) : State.blank bl (State.tdcEpoch s d dr) = State.blank bl s := by
  unfold State.tdcEpoch
  repeat' first
    | with_reducible rfl
    | (simp only [h0, h1, ↓State.putTb_blank, ↓State.onTdc_blank, ↓blank_ite, ↓fst_ite, ite_self, implies_true]; done)
    | split
    | simp only [h0, h1, ↓State.putTb_blank, ↓State.onTdc_blank, ↓blank_ite, ↓fst_ite, ite_self, implies_true]

theorem bellowsPinChange_blank (h0 : bl .regs = true) (h1 : bl .bellows = true) (h2 : bl .bgs = true) (k : Fin 12) (asserted : Bool) (s : State) : State.blank bl (bellowsPinChange k asserted s) = State.blank bl s := by
  unfold bellowsPinChange
  repeat' first
    | with_reducible rfl
    | (simp only [h0, h1, h2, ↓State.onBellows_blank, ↓State.blwUpdate_blank, ↓blank_ite, ↓fst_ite, ite_self, implies_true]; done)
    | split
    | simp only [h0, h1, h2, ↓State.onBellows_blank, ↓State.blwUpdate_blank, ↓blank_ite, ↓fst_ite, ite_self, implies_true]

theorem State.setPrbsLock_blank (h0 : bl .regs = true) (h1 : bl .cmd = true) (s : State) (p : PrbsLane) (b : Bool) : State.blank bl (State.setPrbsLock s p b) = State.blank bl s := by
  unfold State.setPrbsLock
  repeat' first
    | with_reducible rfl
    | (simp only [h0, h1, ↓State.setLock_blank, ↓State.onCmd_blank, ↓blank_ite, ↓fst_ite, ite_self, implies_true]; done)
    | split
    | simp only [h0, h1, ↓State.setLock_blank, ↓State.onCmd_blank, ↓blank_ite, ↓fst_ite, ite_self, implies_true]

theorem prbsReseed_blank (h0 : bl .regs = true) (h1 : bl .cmd = true) (p : PrbsLane) (errors : Nat) (s : State) : State.blank bl (prbsReseed p errors s) = State.blank bl s := by
  unfold prbsReseed
  repeat' first
    | with_reducible rfl
    | (simp only [h0, h1, ↓State.count_blank, ↓State.setPrbsLock_blank, ↓blank_ite, ↓fst_ite, ite_self, implies_true]; done)
    | split
    | simp only [h0, h1, ↓State.count_blank, ↓State.setPrbsLock_blank, ↓blank_ite, ↓fst_ite, ite_self, implies_true]

theorem slotWriteResume_blank (h0 : bl .out = true) (h1 : bl .regs = true) (h2 : bl .tb = true) (h3 : bl .hearth = true) (h4 : bl .mem = true) (h5 : bl .trig = true) (h6 : bl .pair = true) (h7 : bl .host = true) (s : State) : State.blank bl (slotWriteResume s) = State.blank bl s := by
  unfold slotWriteResume
  repeat' first
    | with_reducible rfl
    | (simp only [h0, h1, h2, h3, h4, h5, h6, h7, ↓State.settleFrames_blank, ↓blank_ite, ↓fst_ite, ite_self, implies_true]; done)
    | split
    | simp only [h0, h1, h2, h3, h4, h5, h6, h7, ↓State.settleFrames_blank, ↓blank_ite, ↓fst_ite, ite_self, implies_true]

theorem trainRx_blank (h0 : bl .out = true) (h1 : bl .regs = true) (h2 : bl .rx = true) (h3 : bl .cmd = true) (h4 : bl .mirLanes = true) (ln : Lane) (align : Bool) (pos : Nat) (lock0 : Bool) (lock1 : Bool) (counter : Nat) (s : State) : State.blank bl (trainRx ln align pos lock0 lock1 counter s) = State.blank bl s := by
  unfold trainRx
  repeat' first
    | with_reducible rfl
    | (simp only [h0, h1, h2, h3, h4, ↓laneOn_blank, ↓State.alignedDone_blank, ↓State.failStage_blank, ↓State.slipOne_blank, ↓blank_ite, ↓fst_ite, ite_self, implies_true]; done)
    | split
    | simp only [h0, h1, h2, h3, h4, ↓laneOn_blank, ↓State.alignedDone_blank, ↓State.failStage_blank, ↓State.slipOne_blank, ↓blank_ite, ↓fst_ite, ite_self, implies_true]

theorem State.foldTranslation_blank (h0 : bl .regs = true) (h1 : bl .tb = true) (s : State) : State.blank bl (State.foldTranslation s) = State.blank bl s := by
  unfold State.foldTranslation
  repeat' first
    | with_reducible rfl
    | (simp only [h0, h1, ↓State.putTb_blank, ↓State.setReg_blank, ↓blank_ite, ↓fst_ite, ite_self, implies_true]; done)
    | split
    | simp only [h0, h1, ↓State.putTb_blank, ↓State.setReg_blank, ↓blank_ite, ↓fst_ite, ite_self, implies_true]

theorem State.moveTime_blank (h0 : bl .regs = true) (h1 : bl .tb = true) (s : State) (r : StepReq) : State.blank bl (State.moveTime s r) = State.blank bl s := by
  unfold State.moveTime
  repeat' first
    | with_reducible rfl
    | (simp only [h0, h1, ↓State.setReg_blank, ↓State.foldTranslation_blank, ↓State.putTb_blank, ↓State.clearStep_blank, ↓State.count_blank, ↓State.setFld_blank, ↓State.log_blank, ↓blank_ite, ↓fst_ite, ite_self, implies_true]; done)
    | split
    | simp only [h0, h1, ↓State.setReg_blank, ↓State.foldTranslation_blank, ↓State.putTb_blank, ↓State.clearStep_blank, ↓State.count_blank, ↓State.setFld_blank, ↓State.log_blank, ↓blank_ite, ↓fst_ite, ite_self, implies_true]

theorem fillGapResend_blank (h0 : bl .out = true) (h1 : bl .regs = true) (h2 : bl .rx = true) (h3 : bl .cmd = true) (h4 : bl .mirLanes = true) (l : Fin 96) (ppm10 : Int) (s : State) : State.blank bl (fillGapResend l ppm10 s) = State.blank bl s := by
  unfold fillGapResend
  repeat' first
    | with_reducible rfl
    | (simp only [h0, h1, h2, h3, h4, ↓State.setFld_blank, ↓State.sendGap_blank, ↓blank_ite, ↓fst_ite, ite_self, implies_true]; done)
    | split
    | simp only [h0, h1, h2, h3, h4, ↓State.setFld_blank, ↓State.sendGap_blank, ↓blank_ite, ↓fst_ite, ite_self, implies_true]

theorem State.tickMir_blank (h0 : bl .out = true) (h1 : bl .rx = true) (h2 : bl .mirLanes = true) (s : State) (m : Nat) : State.blank bl (State.tickMir s m) = State.blank bl s := by
  unfold State.tickMir
  repeat' first
    | with_reducible rfl
    | (simp only [h0, h1, h2, ↓laneOn_blank, ↓State.emit_blank, ↓blank_ite, ↓fst_ite, ite_self, implies_true]; done)
    | split
    | simp only [h0, h1, h2, ↓laneOn_blank, ↓State.emit_blank, ↓blank_ite, ↓fst_ite, ite_self, implies_true]

theorem State.gateTake_blank (h0 : bl .regs = true) (h1 : bl .tb = true) (h2 : bl .tdc = true) (s : State) (i : Nat) (c : Nat) (f : Nat) : State.blank bl (State.gateTake s i c f).1 = State.blank bl s := by
  unfold State.gateTake
  repeat' first
    | with_reducible rfl
    | (simp only [h0, h1, h2, ↓State.tdcArm_blank, ↓State.onInput_blank, ↓blank_ite, ↓fst_ite, ite_self, implies_true]; done)
    | split
    | simp only [h0, h1, h2, ↓State.tdcArm_blank, ↓State.onInput_blank, ↓blank_ite, ↓fst_ite, ite_self, implies_true]

theorem stageRetry_blank (h0 : bl .regs = true) (h1 : bl .rx = true) (h2 : bl .mirLanes = true) (ln : Lane) (s : State) : State.blank bl (stageRetry ln s) = State.blank bl s := by
  unfold stageRetry
  repeat' first
    | with_reducible rfl
    | (simp only [h0, h1, h2, ↓State.beginStage1_blank, ↓laneOn_blank, ↓blank_ite, ↓fst_ite, ite_self, implies_true]; done)
    | split
    | simp only [h0, h1, h2, ↓State.beginStage1_blank, ↓laneOn_blank, ↓blank_ite, ↓fst_ite, ite_self, implies_true]

theorem prbsLock_blank (h0 : bl .regs = true) (h1 : bl .cmd = true) (p : PrbsLane) (bs : List Bool) (s : State) : State.blank bl (prbsLock p bs s) = State.blank bl s := by
  unfold prbsLock
  repeat' first
    | with_reducible rfl
    | (simp only [h0, h1, ↓State.setPrbsLock_blank, ↓blank_ite, ↓fst_ite, ite_self, implies_true]; done)
    | split
    | simp only [h0, h1, ↓State.setPrbsLock_blank, ↓blank_ite, ↓fst_ite, ite_self, implies_true]

theorem State.hrtFlushDone_blank (h0 : bl .out = true) (h1 : bl .regs = true) (h2 : bl .tb = true) (h3 : bl .hearth = true) (h4 : bl .mem = true) (h5 : bl .trig = true) (h6 : bl .pair = true) (h7 : bl .host = true) (s : State) : State.blank bl (State.hrtFlushDone s) = State.blank bl s := by
  unfold State.hrtFlushDone
  repeat' first
    | with_reducible rfl
    | (simp only [h0, h1, h2, h3, h4, h5, h6, h7, State.onH_blank, ↓State.closeFrames_blank, ↓State.closeRecord_blank, ↓State.disarmSegment_blank, ↓State.setBit_blank, ↓blank_ite, ↓fst_ite, ite_self, implies_true]; done)
    | split
    | simp only [h0, h1, h2, h3, h4, h5, h6, h7, State.onH_blank, ↓State.closeFrames_blank, ↓State.closeRecord_blank, ↓State.disarmSegment_blank, ↓State.setBit_blank, ↓blank_ite, ↓fst_ite, ite_self, implies_true]
    | (refine (State.onH_blank h3 _ _ rfl).trans ?_)

theorem fillRx_blank (h0 : bl .rx = true) (h1 : bl .mirLanes = true) (ln : Lane) (held : Nat) (s : State) : State.blank bl (fillRx ln held s) = State.blank bl s := by
  unfold fillRx
  repeat' first
    | with_reducible rfl
    | (simp only [h0, h1, ↓laneOn_blank, ↓blank_ite, ↓fst_ite, ite_self, implies_true]; done)
    | split
    | simp only [h0, h1, ↓laneOn_blank, ↓blank_ite, ↓fst_ite, ite_self, implies_true]

theorem codeDensityCollected_blank (h0 : bl .regs = true) (h1 : bl .tb = true) (h2 : bl .tdc = true) (hist : List Nat) (s : State) : State.blank bl (codeDensityCollected hist s) = State.blank bl s := by
  unfold codeDensityCollected
  repeat' first
    | with_reducible rfl
    | (simp only [h0, h1, h2, ↓State.onTdc_blank, ↓State.setBit_blank, ↓State.logDev_blank, ↓blank_ite, ↓fst_ite, ite_self, implies_true]; done)
    | split
    | simp only [h0, h1, h2, ↓State.onTdc_blank, ↓State.setBit_blank, ↓State.logDev_blank, ↓blank_ite, ↓fst_ite, ite_self, implies_true]

theorem State.cfgaAnswer_blank (h0 : bl .regs = true) (s : State) (l : Nat) (tag : Nat) (status : Nat) (data : Nat) : State.blank bl (State.cfgaAnswer s l tag status data) = State.blank bl s := by
  unfold State.cfgaAnswer
  repeat' first
    | with_reducible rfl
    | (simp only [h0, ↓State.setFld_blank, ↓State.setBit_blank, ↓State.setReg_blank, ↓State.count_blank, ↓blank_ite, ↓fst_ite, ite_self, implies_true]; done)
    | split
    | simp only [h0, ↓State.setFld_blank, ↓State.setBit_blank, ↓State.setReg_blank, ↓State.count_blank, ↓blank_ite, ↓fst_ite, ite_self, implies_true]

theorem State.tbTick_blank (h0 : bl .regs = true) (h1 : bl .tb = true) (s : State) : State.blank bl (State.tbTick s) = State.blank bl s := by
  unfold State.tbTick
  repeat' first
    | with_reducible rfl
    | (simp only [h0, h1, ↓State.putTb_blank, ↓State.count_blank, ↓blank_ite, ↓fst_ite, ite_self, implies_true]; done)
    | split
    | simp only [h0, h1, ↓State.putTb_blank, ↓State.count_blank, ↓blank_ite, ↓fst_ite, ite_self, implies_true]

theorem interpolatorHandover_blank (h0 : bl .regs = true) (h1 : bl .tdc = true) (offs : Int) (temp : Int) (s : State) : State.blank bl (interpolatorHandover offs temp s) = State.blank bl s := by
  unfold interpolatorHandover
  repeat' first
    | with_reducible rfl
    | (simp only [h0, h1, ↓State.onTdc_blank, ↓State.onInput_blank, ↓State.setFld_blank, ↓State.setBit_blank, ↓blank_ite, ↓fst_ite, ite_self, implies_true]; done)
    | split
    | simp only [h0, h1, ↓State.onTdc_blank, ↓State.onInput_blank, ↓State.setFld_blank, ↓State.setBit_blank, ↓blank_ite, ↓fst_ite, ite_self, implies_true]

theorem State.abortSegment_blank (h0 : bl .out = true) (h1 : bl .regs = true) (h2 : bl .hearth = true) (h3 : bl .mem = true) (h4 : bl .trig = true) (h5 : bl .pair = true) (h6 : bl .host = true) (s : State) (quench : Bool) : State.blank bl (State.abortSegment s quench) = State.blank bl s := by
  unfold State.abortSegment
  repeat' first
    | with_reducible rfl
    | (simp only [h0, h1, h2, h3, h4, h5, h6, ↓State.closeRecord_blank, ↓State.disarmSegment_blank, ↓State.tellRecord_blank, ↓State.trigItem_blank, ↓blank_ite, ↓fst_ite, ite_self, implies_true]; done)
    | split
    | simp only [h0, h1, h2, h3, h4, h5, h6, ↓State.closeRecord_blank, ↓State.disarmSegment_blank, ↓State.tellRecord_blank, ↓State.trigItem_blank, ↓blank_ite, ↓fst_ite, ite_self, implies_true]

theorem State.hrtStopped_blank (h0 : bl .out = true) (h1 : bl .regs = true) (h2 : bl .tb = true) (h3 : bl .hearth = true) (h4 : bl .mem = true) (h5 : bl .trig = true) (h6 : bl .pair = true) (h7 : bl .host = true) (s : State) : State.blank bl (State.hrtStopped s) = State.blank bl s := by
  unfold State.hrtStopped
  repeat' first
    | with_reducible rfl
    | (simp only [h0, h1, h2, h3, h4, h5, h6, h7, ↓State.closeOpens_blank, ↓State.closeFrames_blank, ↓State.abortSegment_blank, State.onH_blank, ↓blank_ite, ↓fst_ite, ite_self, implies_true]; done)
    | split
    | simp only [h0, h1, h2, h3, h4, h5, h6, h7, ↓State.closeOpens_blank, ↓State.closeFrames_blank, ↓State.abortSegment_blank, State.onH_blank, ↓blank_ite, ↓fst_ite, ite_self, implies_true]
    | (refine (State.onH_blank h3 _ _ rfl).trans ?_)

theorem blockLockGained_blank (h0 : bl .regs = true) (ln : Lane) (s : State) : State.blank bl (blockLockGained ln s) = State.blank bl s := by
  unfold blockLockGained
  repeat' first
    | with_reducible rfl
    | (simp only [h0, ↓State.setLock_blank, ↓State.setStage_blank, ↓blank_ite, ↓fst_ite, ite_self, implies_true]; done)
    | split
    | simp only [h0, ↓State.setLock_blank, ↓State.setStage_blank, ↓blank_ite, ↓fst_ite, ite_self, implies_true]

theorem State.tbLatch_blank (h0 : bl .regs = true) (s : State) : State.blank bl (State.tbLatch s) = State.blank bl s := by
  unfold State.tbLatch
  repeat' first
    | with_reducible rfl
    | (simp only [h0, ↓State.setReg_blank, ↓blank_ite, ↓fst_ite, ite_self, implies_true]; done)
    | split
    | simp only [h0, ↓State.setReg_blank, ↓blank_ite, ↓fst_ite, ite_self, implies_true]

theorem feAccessTimeout_blank (h0 : bl .regs = true) (f : Fin 48) (s : State) : State.blank bl (feAccessTimeout f s) = State.blank bl s := by
  unfold feAccessTimeout
  repeat' first
    | with_reducible rfl
    | (simp only [h0, ↓State.setFld_blank, ↓State.setBit_blank, ↓blank_ite, ↓fst_ite, ite_self, implies_true]; done)
    | split
    | simp only [h0, ↓State.setFld_blank, ↓State.setBit_blank, ↓blank_ite, ↓fst_ite, ite_self, implies_true]

theorem eqFreeze_blank (h0 : bl .regs = true) (ln : Lane) (s : State) : State.blank bl (eqFreeze ln s) = State.blank bl s := by
  unfold eqFreeze
  repeat' first
    | with_reducible rfl
    | (simp only [h0, ↓State.setBit_blank, ↓blank_ite, ↓fst_ite, ite_self, implies_true]; done)
    | split
    | simp only [h0, ↓State.setBit_blank, ↓blank_ite, ↓fst_ite, ite_self, implies_true]

theorem State.lnkFault_blank (h0 : bl .out = true) (h1 : bl .fns = true) (h2 : bl .regs = true) (h3 : bl .rx = true) (h4 : bl .mirLanes = true) (s : State) (code : Nat) : State.blank bl (State.lnkFault s code) = State.blank bl s := by
  unfold State.lnkFault
  repeat' first
    | with_reducible rfl
    | (simp only [h0, h1, h2, h3, h4, ↓State.lnkOff_blank, ↓State.faultFn_blank, ↓blank_ite, ↓fst_ite, ite_self, implies_true]; done)
    | split
    | simp only [h0, h1, h2, h3, h4, ↓State.lnkOff_blank, ↓State.faultFn_blank, ↓blank_ite, ↓fst_ite, ite_self, implies_true]

theorem txGroupPllLoss_blank (h0 : bl .out = true) (h1 : bl .fns = true) (h2 : bl .regs = true) (h3 : bl .rx = true) (h4 : bl .mirLanes = true) (s : State) : State.blank bl (txGroupPllLoss s) = State.blank bl s := by
  unfold txGroupPllLoss
  repeat' first
    | with_reducible rfl
    | (simp only [h0, h1, h2, h3, h4, ↓State.lnkFault_blank, ↓blank_ite, ↓fst_ite, ite_self, implies_true]; done)
    | split
    | simp only [h0, h1, h2, h3, h4, ↓State.lnkFault_blank, ↓blank_ite, ↓fst_ite, ite_self, implies_true]

theorem State.tdcTake_blank (h0 : bl .regs = true) (h1 : bl .tb = true) (h2 : bl .tdc = true) (s : State) (n : Nat) (c : Nat) (f : Nat) : State.blank bl (State.tdcTake s n c f).1 = State.blank bl s := by
  unfold State.tdcTake
  repeat' first
    | with_reducible rfl
    | (simp only [h0, h1, h2, ↓State.count_blank, ↓State.onInput_blank, ↓State.log_blank, State.each_blank, ↓State.unitInput_blank, ↓State.tdcSettle_blank, ↓blank_ite, ↓fst_ite, ite_self, implies_true]; done)
    | split
    | simp only [h0, h1, h2, ↓State.count_blank, ↓State.onInput_blank, ↓State.log_blank, State.each_blank, ↓State.unitInput_blank, ↓State.tdcSettle_blank, ↓blank_ite, ↓fst_ite, ite_self, implies_true]
    | refine (State.each_blank _ _ _ ?_).trans ?_
    | intro _

theorem stageTimeout_blank (h0 : bl .regs = true) (h1 : bl .rx = true) (h2 : bl .mirLanes = true) (ln : Lane) (s : State) : State.blank bl (stageTimeout ln s) = State.blank bl s := by
  unfold stageTimeout
  repeat' first
    | with_reducible rfl
    | (simp only [h0, h1, h2, ↓State.failStage_blank, ↓blank_ite, ↓fst_ite, ite_self, implies_true]; done)
    | split
    | simp only [h0, h1, h2, ↓State.failStage_blank, ↓blank_ite, ↓fst_ite, ite_self, implies_true]

theorem State.rateAnswer_blank (h0 : bl .regs = true) (h1 : bl .rx = true) (h2 : bl .mirLanes = true) (s : State) (ln : Lane) (step : Nat) (accept : Bool) : State.blank bl (State.rateAnswer s ln step accept) = State.blank bl s := by
  unfold State.rateAnswer
  repeat' first
    | with_reducible rfl
    | (simp only [h0, h1, h2, ↓laneOn_blank, ↓State.failStage_blank, ↓blank_ite, ↓fst_ite, ite_self, implies_true]; done)
    | split
    | simp only [h0, h1, h2, ↓laneOn_blank, ↓State.failStage_blank, ↓blank_ite, ↓fst_ite, ite_self, implies_true]

theorem State.tdcStep_blank (h0 : bl .regs = true) (h1 : bl .tb = true) (h2 : bl .tdc = true) (s : State) (t : Stamp) : State.blank bl (State.tdcStep s t) = State.blank bl s := by
  unfold State.tdcStep
  repeat' first
    | with_reducible rfl
    | (simp only [h0, h1, h2, State.each_blank, ↓State.unitSettle_blank, ↓State.measEnd_blank, ↓blank_ite, ↓fst_ite, ite_self, implies_true]; done)
    | split
    | simp only [h0, h1, h2, State.each_blank, ↓State.unitSettle_blank, ↓State.measEnd_blank, ↓blank_ite, ↓fst_ite, ite_self, implies_true]
    | refine (State.each_blank _ _ _ ?_).trans ?_
    | intro _

theorem rateRx_blank (h0 : bl .out = true) (h1 : bl .regs = true) (h2 : bl .rx = true) (h3 : bl .cmd = true) (h4 : bl .mirLanes = true) (ln : Lane) (step : Nat) (bits : RateBits) (s : State) : State.blank bl (rateRx ln step bits s) = State.blank bl s := by
  unfold rateRx
  repeat' first
    | with_reducible rfl
    | (simp only [h0, h1, h2, h3, h4, ↓State.rateAnswer_blank, ↓laneOn_blank, ↓State.sendRate_blank, ↓blank_ite, ↓fst_ite, ite_self, implies_true]; done)
    | split
    | simp only [h0, h1, h2, h3, h4, ↓State.rateAnswer_blank, ↓laneOn_blank, ↓State.sendRate_blank, ↓blank_ite, ↓fst_ite, ite_self, implies_true]

theorem quenchSlotWritesDone_blank (h0 : bl .out = true) (h1 : bl .regs = true) (h2 : bl .tb = true) (h3 : bl .hearth = true) (h4 : bl .mem = true) (h5 : bl .trig = true) (h6 : bl .pair = true) (h7 : bl .host = true) (s : State) : State.blank bl (quenchSlotWritesDone s) = State.blank bl s := by
  unfold quenchSlotWritesDone
  repeat' first
    | with_reducible rfl
    | (simp only [h0, h1, h2, h3, h4, h5, h6, h7, ↓State.hrtFlushDone_blank, ↓blank_ite, ↓fst_ite, ite_self, implies_true]; done)
    | split
    | simp only [h0, h1, h2, h3, h4, h5, h6, h7, ↓State.hrtFlushDone_blank, ↓blank_ite, ↓fst_ite, ite_self, implies_true]

theorem trainingComplete_blank (h0 : bl .regs = true) (ln : Lane) (ppm10 : Int) (eq : EqSettings) (s : State) : State.blank bl (trainingComplete ln ppm10 eq s) = State.blank bl s := by
  unfold trainingComplete
  repeat' first
    | with_reducible rfl
    | (simp only [h0, ↓State.setFld_blank, ↓State.setReg_blank, ↓State.setStage_blank, ↓blank_ite, ↓fst_ite, ite_self, implies_true]; done)
    | split
    | simp only [h0, ↓State.setFld_blank, ↓State.setReg_blank, ↓State.setStage_blank, ↓blank_ite, ↓fst_ite, ite_self, implies_true]

theorem invalidSyncHeader_blank (h0 : bl .regs = true) (ln : Lane) (s : State) : State.blank bl (invalidSyncHeader ln s) = State.blank bl s := by
  unfold invalidSyncHeader
  repeat' first
    | with_reducible rfl
    | (simp only [h0, ↓State.count_blank, ↓blank_ite, ↓fst_ite, ite_self, implies_true]; done)
    | split
    | simp only [h0, ↓State.count_blank, ↓blank_ite, ↓fst_ite, ite_self, implies_true]

theorem State.repeatStages_blank (h0 : bl .regs = true) (h1 : bl .rx = true) (h2 : bl .mirLanes = true) (s : State) (ln : Lane) (cause : Nat) : State.blank bl (State.repeatStages s ln cause) = State.blank bl s := by
  unfold State.repeatStages
  repeat' first
    | with_reducible rfl
    | (simp only [h0, h1, h2, ↓State.beginStage1_blank, ↓State.recordFail_blank, ↓blank_ite, ↓fst_ite, ite_self, implies_true]; done)
    | split
    | simp only [h0, h1, h2, ↓State.beginStage1_blank, ↓State.recordFail_blank, ↓blank_ite, ↓fst_ite, ite_self, implies_true]

theorem elasticOverflow_blank (h0 : bl .regs = true) (h1 : bl .rx = true) (h2 : bl .mirLanes = true) (ln : Lane) (s : State) : State.blank bl (elasticOverflow ln s) = State.blank bl s := by
  unfold elasticOverflow
  repeat' first
    | with_reducible rfl
    | (simp only [h0, h1, h2, ↓State.repeatStages_blank, ↓blank_ite, ↓fst_ite, ite_self, implies_true]; done)
    | split
    | simp only [h0, h1, h2, ↓State.repeatStages_blank, ↓blank_ite, ↓fst_ite, ite_self, implies_true]

theorem State.capsStep_blank (h0 : bl .out = true) (h1 : bl .regs = true) (h2 : bl .rx = true) (h3 : bl .cmd = true) (h4 : bl .mirLanes = true) (s : State) (ln : Lane) : State.blank bl (State.capsStep s ln) = State.blank bl s := by
  unfold State.capsStep
  repeat' first
    | with_reducible rfl
    | (simp only [h0, h1, h2, h3, h4, ↓State.riseOrRun_blank, ↓laneOn_blank, ↓blank_ite, ↓fst_ite, ite_self, implies_true]; done)
    | split
    | simp only [h0, h1, h2, h3, h4, ↓State.riseOrRun_blank, ↓laneOn_blank, ↓blank_ite, ↓fst_ite, ite_self, implies_true]

theorem blockLockLost_blank (h0 : bl .regs = true) (h1 : bl .rx = true) (h2 : bl .mirLanes = true) (ln : Lane) (s : State) : State.blank bl (blockLockLost ln s) = State.blank bl s := by
  unfold blockLockLost
  repeat' first
    | with_reducible rfl
    | (simp only [h0, h1, h2, ↓State.repeatStages_blank, ↓State.failStage_blank, ↓State.setLock_blank, ↓blank_ite, ↓fst_ite, ite_self, implies_true]; done)
    | split
    | simp only [h0, h1, h2, ↓State.repeatStages_blank, ↓State.failStage_blank, ↓State.setLock_blank, ↓blank_ite, ↓fst_ite, ite_self, implies_true]

theorem logWindowClose_blank (h0 : bl .out = true) (h1 : bl .regs = true) (h2 : bl .tb = true) (h3 : bl .mem = true) (h4 : bl .host = true) (e : Nat) (k : Nat) (s : State) : State.blank bl (logWindowClose e k s) = State.blank bl s := by
  unfold logWindowClose
  repeat' first
    | with_reducible rfl
    | (simp only [h0, h1, h2, h3, h4, ↓State.closeWindow_blank, ↓State.closeWindows_blank, ↓State.putTb_blank, ↓blank_ite, ↓fst_ite, ite_self, implies_true]; done)
    | split
    | simp only [h0, h1, h2, h3, h4, ↓State.closeWindow_blank, ↓State.closeWindows_blank, ↓State.putTb_blank, ↓blank_ite, ↓fst_ite, ite_self, implies_true]

theorem capsRx_blank (h0 : bl .out = true) (h1 : bl .regs = true) (h2 : bl .rx = true) (h3 : bl .cmd = true) (h4 : bl .mirLanes = true) (l : Fin 96) (c : Caps) (s : State) : State.blank bl (capsRx l c s) = State.blank bl s := by
  unfold capsRx
  repeat' first
    | with_reducible rfl
    | (simp only [h0, h1, h2, h3, h4, ↓State.onRx_blank, ↓State.setFld_blank, ↓State.failStage_blank, ↓State.sendGap_blank, ↓State.capsStep_blank, ↓blank_ite, ↓fst_ite, ite_self, implies_true]; done)
    | split
    | simp only [h0, h1, h2, h3, h4, ↓State.onRx_blank, ↓State.setFld_blank, ↓State.failStage_blank, ↓State.sendGap_blank, ↓State.capsStep_blank, ↓blank_ite, ↓fst_ite, ite_self, implies_true]

theorem State.tickCmd_blank (h0 : bl .out = true) (h1 : bl .cmd = true) (s : State) (f : Nat) : State.blank bl (State.tickCmd s f) = State.blank bl s := by
  unfold State.tickCmd
  repeat' first
    | with_reducible rfl
    | (simp only [h0, h1, ↓State.onCmd_blank, ↓State.emit_blank, ↓blank_ite, ↓fst_ite, ite_self, implies_true]; done)
    | split
    | simp only [h0, h1, ↓State.onCmd_blank, ↓State.emit_blank, ↓blank_ite, ↓fst_ite, ite_self, implies_true]

theorem discardedControlBlock_blank (h0 : bl .regs = true) (ln : Lane) (bytes : List Byte) (s : State) : State.blank bl (discardedControlBlock ln bytes s) = State.blank bl s := by
  unfold discardedControlBlock
  repeat' first
    | with_reducible rfl
    | (simp only [h0, ↓invalidSyncHeader_blank, ↓blank_ite, ↓fst_ite, ite_self, implies_true]; done)
    | split
    | simp only [h0, ↓invalidSyncHeader_blank, ↓blank_ite, ↓fst_ite, ite_self, implies_true]

theorem lanePllLoss_blank (h0 : bl .out = true) (h1 : bl .fns = true) (h2 : bl .regs = true) (h3 : bl .rx = true) (h4 : bl .mirLanes = true) (s : State) : State.blank bl (lanePllLoss s) = State.blank bl s := by
  unfold lanePllLoss
  repeat' first
    | with_reducible rfl
    | (simp only [h0, h1, h2, h3, h4, ↓State.lnkFault_blank, ↓blank_ite, ↓fst_ite, ite_self, implies_true]; done)
    | split
    | simp only [h0, h1, h2, h3, h4, ↓State.lnkFault_blank, ↓blank_ite, ↓fst_ite, ite_self, implies_true]

theorem eqResume_blank (h0 : bl .regs = true) (ln : Lane) (s : State) : State.blank bl (eqResume ln s) = State.blank bl s := by
  unfold eqResume
  repeat' first
    | with_reducible rfl
    | (simp only [h0, ↓State.setBit_blank, ↓blank_ite, ↓fst_ite, ite_self, implies_true]; done)
    | split
    | simp only [h0, ↓State.setBit_blank, ↓blank_ite, ↓fst_ite, ite_self, implies_true]

theorem tbNowRead_blank (h0 : bl .out = true) (h1 : bl .regs = true) (s : State) : State.blank bl (tbNowRead s) = State.blank bl s := by
  unfold tbNowRead
  repeat' first
    | with_reducible rfl
    | (simp only [h0, h1, ↓State.emit_blank, ↓State.tbLatch_blank, ↓blank_ite, ↓fst_ite, ite_self, implies_true]; done)
    | split
    | simp only [h0, h1, ↓State.emit_blank, ↓State.tbLatch_blank, ↓blank_ite, ↓fst_ite, ite_self, implies_true]

theorem rateSwitch_blank (h0 : bl .regs = true) (h1 : bl .rx = true) (h2 : bl .mirLanes = true) (ln : Lane) (s : State) : State.blank bl (rateSwitch ln s) = State.blank bl s := by
  unfold rateSwitch
  repeat' first
    | with_reducible rfl
    | (simp only [h0, h1, h2, ↓State.beginStage1_blank, ↓State.setStep_blank, ↓blank_ite, ↓fst_ite, ite_self, implies_true]; done)
    | split
    | simp only [h0, h1, h2, ↓State.beginStage1_blank, ↓State.setStep_blank, ↓blank_ite, ↓fst_ite, ite_self, implies_true]

theorem tdcWindowEnd_blank (h0 : bl .regs = true) (h1 : bl .tb = true) (h2 : bl .tdc = true) (u : Fin 8) (s : State) : State.blank bl (tdcWindowEnd u s) = State.blank bl s := by
  unfold tdcWindowEnd
  repeat' first
    | with_reducible rfl
    | (simp only [h0, h1, h2, ↓State.unitSettle_blank, ↓State.measEnd_blank, ↓blank_ite, ↓fst_ite, ite_self, implies_true]; done)
    | split
    | simp only [h0, h1, h2, ↓State.unitSettle_blank, ↓State.measEnd_blank, ↓blank_ite, ↓fst_ite, ite_self, implies_true]

end Sys2Proof.Machine
end

