-- ==== Sys2Proof/Laws/BlankCapture.lean ====
section
/-!
SUPPORT. What each operation leaves alone: the parts of the state that it can change are emptied on both sides, and the rest agrees.
The files of Machine/: Compressor, Strips, Ingest, Field, Aou.
-/

namespace Sys2Proof.Machine

set_option linter.unusedSimpArgs false

variable {bl : Comp → Bool}

theorem State.ingStop_blank (h0 : bl .queues = true) (s : State) : State.blank bl (State.ingStop s) = State.blank bl s := by
  unfold State.ingStop
  repeat' first
    | with_reducible rfl
    | (simp only [h0, State.each_blank, ↓State.onQueue_blank, ↓blank_ite, ↓fst_ite, ite_self, implies_true]; done)
    | split
    | simp only [h0, State.each_blank, ↓State.onQueue_blank, ↓blank_ite, ↓fst_ite, ite_self, implies_true]
    | refine (State.each_blank _ _ _ ?_).trans ?_
    | intro _

theorem State.cancelCopies_blank (h0 : bl .queues = true) (h1 : bl .engines = true) (s : State) : State.blank bl (State.cancelCopies s) = State.blank bl s := by
  unfold State.cancelCopies
  repeat' first
    | with_reducible rfl
    | (simp only [h0, h1, State.each_blank, ↓State.dropFilling_blank, ↓State.onQueue_blank, ↓blank_ite, ↓fst_ite, ite_self, implies_true]; done)
    | split
    | simp only [h0, h1, State.each_blank, ↓State.dropFilling_blank, ↓State.onQueue_blank, ↓blank_ite, ↓fst_ite, ite_self, implies_true]
    | refine (State.each_blank _ _ _ ?_).trans ?_
    | intro _

theorem State.setOpenBlock_blank (h0 : bl .comps = true) (s : State) (f : Nat) (b : Option Block) : State.blank bl (State.setOpenBlock s f b) = State.blank bl s := by
  unfold State.setOpenBlock
  repeat' first
    | with_reducible rfl
    | (simp only [h0, ↓State.onComp_blank, ↓blank_ite, ↓fst_ite, ite_self, implies_true]; done)
    | split
    | simp only [h0, ↓State.onComp_blank, ↓blank_ite, ↓fst_ite, ite_self, implies_true]

theorem State.endBlock_blank (h0 : bl .regs = true) (h1 : bl .comps = true) (s : State) (f : Nat) (flushed : Bool) (forced : Bool) : State.blank bl (State.endBlock s f flushed forced) = State.blank bl s := by
  unfold State.endBlock
  repeat' first
    | with_reducible rfl
    | (simp only [h0, h1, ↓State.setOpenBlock_blank, ↓State.onComp_blank, ↓State.count_blank, ↓blank_ite, ↓fst_ite, ite_self, implies_true]; done)
    | split
    | simp only [h0, h1, ↓State.setOpenBlock_blank, ↓State.onComp_blank, ↓State.count_blank, ↓blank_ite, ↓fst_ite, ite_self, implies_true]

theorem State.setStaging_blank (h0 : bl .staging = true) (s : State) (e : Nat) (fs : List Fragment) : State.blank bl (State.setStaging s e fs) = State.blank bl s := by
  unfold State.setStaging
  repeat' first
    | with_reducible rfl
    | (simp only [h0, ↓State.putStaging_blank, ↓blank_ite, ↓fst_ite, ite_self, implies_true]; done)
    | split
    | simp only [h0, ↓State.putStaging_blank, ↓blank_ite, ↓fst_ite, ite_self, implies_true]

theorem State.appendPixels_blank (h0 : bl .regs = true) (h1 : bl .comps = true) (s : State) (f : Nat) (n : Nat) (fmt : Nat) (efault : Bool) (a5 : Nat) (a6 : List Nat) : State.blank bl (State.appendPixels s f n fmt efault a5 a6) = State.blank bl s := by
  induction a5 generalizing s a6 with
  | zero => unfold State.appendPixels; first | rfl | (split <;> rfl)
  | succ k ih =>
    unfold State.appendPixels
    repeat' first
      | with_reducible rfl
      | (simp only [h0, h1, ↓State.onComp_blank, ↓State.setOpenBlock_blank, ↓State.endBlock_blank, ↓blank_ite, ↓fst_ite, ite_self, implies_true, ↓ih]; done)
      | split
      | simp only [h0, h1, ↓State.onComp_blank, ↓State.setOpenBlock_blank, ↓State.endBlock_blank, ↓blank_ite, ↓fst_ite, ite_self, implies_true, ↓ih]

theorem State.countKib_blank (h0 : bl .regs = true) (h1 : bl .comps = true) (s : State) (k : Nat) (bytes : Nat) (inp : Bool) : State.blank bl (State.countKib s k bytes inp) = State.blank bl s := by
  unfold State.countKib
  repeat' first
    | with_reducible rfl
    | (simp only [h0, h1, ↓State.onComp_blank, ↓State.count_blank, ↓blank_ite, ↓fst_ite, ite_self, implies_true]; done)
    | split
    | simp only [h0, h1, ↓State.onComp_blank, ↓State.count_blank, ↓blank_ite, ↓fst_ite, ite_self, implies_true]

theorem State.enterFragment_blank (h0 : bl .out = true) (h1 : bl .freeUse = true) (h2 : bl .regs = true) (h3 : bl .tb = true) (h4 : bl .order = true) (h5 : bl .hearth = true) (h6 : bl .mem = true) (h7 : bl .trig = true) (h8 : bl .staging = true) (h9 : bl .comps = true) (h10 : bl .pair = true) (h11 : bl .host = true) (s : State) (e : Nat) (g : Fragment) : State.blank bl (State.enterFragment s e g) = State.blank bl s := by
  unfold State.enterFragment
  repeat' first
    | with_reducible rfl
    | (simp only [h0, h1, h2, h3, h4, h5, h6, h7, h8, h9, h10, h11, ↓State.setStaging_blank, ↓State.gapReport_blank, ↓State.count_blank, ↓State.endBlock_blank, ↓State.tfOpen_blank, ↓State.markFrame_blank, ↓State.onOpen_blank, ↓State.appendPixels_blank, ↓State.countKib_blank, ↓State.tfFlushed_blank, ↓State.settle_blank, ↓blank_ite, ↓fst_ite, ite_self, implies_true]; done)
    | split
    | simp only [h0, h1, h2, h3, h4, h5, h6, h7, h8, h9, h10, h11, ↓State.setStaging_blank, ↓State.gapReport_blank, ↓State.count_blank, ↓State.endBlock_blank, ↓State.tfOpen_blank, ↓State.markFrame_blank, ↓State.onOpen_blank, ↓State.appendPixels_blank, ↓State.countKib_blank, ↓State.tfFlushed_blank, ↓State.settle_blank, ↓blank_ite, ↓fst_ite, ite_self, implies_true]

theorem State.drainStaging_blank (h0 : bl .out = true) (h1 : bl .freeUse = true) (h2 : bl .regs = true) (h3 : bl .tb = true) (h4 : bl .order = true) (h5 : bl .hearth = true) (h6 : bl .mem = true) (h7 : bl .trig = true) (h8 : bl .staging = true) (h9 : bl .comps = true) (h10 : bl .pair = true) (h11 : bl .host = true) (s : State) (a1 : Nat) : State.blank bl (State.drainStaging s a1) = State.blank bl s := by
  induction a1 generalizing s with
  | zero => unfold State.drainStaging; first | rfl | (split <;> rfl)
  | succ k ih =>
    unfold State.drainStaging
    repeat' first
      | with_reducible rfl
      | (simp only [h0, h1, h2, h3, h4, h5, h6, h7, h8, h9, h10, h11, ↓State.enterFragment_blank, ↓blank_ite, ↓fst_ite, ite_self, implies_true, ↓ih]; done)
      | split
      | simp only [h0, h1, h2, h3, h4, h5, h6, h7, h8, h9, h10, h11, ↓State.enterFragment_blank, ↓blank_ite, ↓fst_ite, ite_self, implies_true, ↓ih]

theorem State.cmpStop_blank (h0 : bl .out = true) (h1 : bl .freeUse = true) (h2 : bl .regs = true) (h3 : bl .tb = true) (h4 : bl .order = true) (h5 : bl .hearth = true) (h6 : bl .mem = true) (h7 : bl .trig = true) (h8 : bl .staging = true) (h9 : bl .comps = true) (h10 : bl .pair = true) (h11 : bl .host = true) (s : State) : State.blank bl (State.cmpStop s) = State.blank bl s := by
  unfold State.cmpStop
  repeat' first
    | with_reducible rfl
    | (simp only [h0, h1, h2, h3, h4, h5, h6, h7, h8, h9, h10, h11, State.each_blank, ↓State.endBlock_blank, ↓State.drainStaging_blank, ↓blank_ite, ↓fst_ite, ite_self, implies_true]; done)
    | split
    | simp only [h0, h1, h2, h3, h4, h5, h6, h7, h8, h9, h10, h11, State.each_blank, ↓State.endBlock_blank, ↓State.drainStaging_blank, ↓blank_ite, ↓fst_ite, ite_self, implies_true]
    | refine (State.each_blank _ _ _ ?_).trans ?_
    | intro _

theorem State.setCode_blank (h0 : bl .regs = true) (s : State) (k : Nat) (z : Int) : State.blank bl (State.setCode s k z) = State.blank bl s := by
  unfold State.setCode
  repeat' first
    | with_reducible rfl
    | (simp only [h0, ↓State.setBit_blank, ↓State.setFld_blank, ↓blank_ite, ↓fst_ite, ite_self, implies_true]; done)
    | split
    | simp only [h0, ↓State.setBit_blank, ↓State.setFld_blank, ↓blank_ite, ↓fst_ite, ite_self, implies_true]

theorem State.setSafe_blank (h0 : bl .regs = true) (s : State) (k : Nat) : State.blank bl (State.setSafe s k) = State.blank bl s := by
  unfold State.setSafe
  repeat' first
    | with_reducible rfl
    | (simp only [h0, ↓State.setBit_blank, ↓State.setFld_blank, ↓State.setCode_blank, ↓blank_ite, ↓fst_ite, ite_self, implies_true]; done)
    | split
    | simp only [h0, ↓State.setBit_blank, ↓State.setFld_blank, ↓State.setCode_blank, ↓blank_ite, ↓fst_ite, ite_self, implies_true]

theorem State.onField_blank (h0 : bl .field = true) (s : State) (g : FieldState → FieldState) : State.blank bl (State.onField s g) = State.blank bl s := by
  unfold State.onField
  repeat' first
    | with_reducible rfl
    | (simp only [h0, ↓State.putField_blank, ↓blank_ite, ↓fst_ite, ite_self, implies_true]; done)
    | split
    | simp only [h0, ↓State.putField_blank, ↓blank_ite, ↓fst_ite, ite_self, implies_true]

theorem State.setTest_blank (h0 : bl .regs = true) (h1 : bl .field = true) (s : State) (k : Nat) (t : Option LoopTest) : State.blank bl (State.setTest s k t) = State.blank bl s := by
  unfold State.setTest
  repeat' first
    | with_reducible rfl
    | (simp only [h0, h1, ↓State.setBit_blank, ↓State.onField_blank, ↓blank_ite, ↓fst_ite, ite_self, implies_true]; done)
    | split
    | simp only [h0, h1, ↓State.setBit_blank, ↓State.onField_blank, ↓blank_ite, ↓fst_ite, ite_self, implies_true]

theorem State.aouStop_blank (h0 : bl .regs = true) (h1 : bl .field = true) (s : State) : State.blank bl (State.aouStop s) = State.blank bl s := by
  unfold State.aouStop
  repeat' first
    | with_reducible rfl
    | (simp only [h0, h1, State.each_blank, ↓State.setSafe_blank, ↓State.setTest_blank, ↓blank_ite, ↓fst_ite, ite_self, implies_true]; done)
    | split
    | simp only [h0, h1, State.each_blank, ↓State.setSafe_blank, ↓State.setTest_blank, ↓blank_ite, ↓fst_ite, ite_self, implies_true]
    | refine (State.each_blank _ _ _ ?_).trans ?_
    | intro _

theorem State.onAmp_blank (h0 : bl .field = true) (s : State) (n : Nat) (g : Amp → Amp) : State.blank bl (State.onAmp s n g) = State.blank bl s := by
  unfold State.onAmp
  repeat' first
    | with_reducible rfl
    | (simp only [h0, ↓State.onField_blank, ↓blank_ite, ↓fst_ite, ite_self, implies_true]; done)
    | split
    | simp only [h0, ↓State.onField_blank, ↓blank_ite, ↓fst_ite, ite_self, implies_true]

theorem State.chargeTestEnd_blank (h0 : bl .field = true) (s : State) : State.blank bl (State.chargeTestEnd s) = State.blank bl s := by
  unfold State.chargeTestEnd
  repeat' first
    | with_reducible rfl
    | (simp only [h0, ↓State.onAmp_blank, ↓State.onField_blank, ↓blank_ite, ↓fst_ite, ite_self, implies_true]; done)
    | split
    | simp only [h0, ↓State.onAmp_blank, ↓State.onField_blank, ↓blank_ite, ↓fst_ite, ite_self, implies_true]

theorem State.onAdc_blank (h0 : bl .field = true) (s : State) (x : Nat) (g : Adc → Adc) : State.blank bl (State.onAdc s x g) = State.blank bl s := by
  unfold State.onAdc
  repeat' first
    | with_reducible rfl
    | (simp only [h0, ↓State.onField_blank, ↓blank_ite, ↓fst_ite, ite_self, implies_true]; done)
    | split
    | simp only [h0, ↓State.onField_blank, ↓blank_ite, ↓fst_ite, ite_self, implies_true]

theorem State.calAbandon_blank (h0 : bl .field = true) (s : State) : State.blank bl (State.calAbandon s) = State.blank bl s := by
  unfold State.calAbandon
  repeat' first
    | with_reducible rfl
    | (simp only [h0, State.each_blank, ↓State.onAdc_blank, ↓blank_ite, ↓fst_ite, ite_self, implies_true]; done)
    | split
    | simp only [h0, State.each_blank, ↓State.onAdc_blank, ↓blank_ite, ↓fst_ite, ite_self, implies_true]
    | refine (State.each_blank _ _ _ ?_).trans ?_
    | intro _

theorem State.releaseStrip_blank (h0 : bl .regs = true) (h1 : bl .tb = true) (h2 : bl .tiles = true) (h3 : bl .order = true) (h4 : bl .queues = true) (h5 : bl .bellows = true) (h6 : bl .engines = true) (h7 : bl .bgs = true) (s : State) (f : Nat) (h : Held) : State.blank bl (State.releaseStrip s f h) = State.blank bl s := by
  unfold State.releaseStrip
  repeat' first
    | with_reducible rfl
    | (simp only [h0, h1, h2, h3, h4, h5, h6, h7, ↓State.onTile_blank, ↓State.partialLost_blank, ↓State.admitStrip_blank, ↓blank_ite, ↓fst_ite, ite_self, implies_true]; done)
    | split
    | simp only [h0, h1, h2, h3, h4, h5, h6, h7, ↓State.onTile_blank, ↓State.partialLost_blank, ↓State.admitStrip_blank, ↓blank_ite, ↓fst_ite, ite_self, implies_true]

theorem State.regularTrigger_blank (h0 : bl .regs = true) (h1 : bl .field = true) (s : State) (x : Nat) : State.blank bl (State.regularTrigger s x) = State.blank bl s := by
  unfold State.regularTrigger
  repeat' first
    | with_reducible rfl
    | (simp only [h0, h1, ↓State.count_blank, ↓State.onAdc_blank, ↓blank_ite, ↓fst_ite, ite_self, implies_true]; done)
    | split
    | simp only [h0, h1, ↓State.count_blank, ↓State.onAdc_blank, ↓blank_ite, ↓fst_ite, ite_self, implies_true]

theorem State.auxRunning_blank (h0 : bl .regs = true) (h1 : bl .field = true) (s : State) : State.blank bl (State.auxRunning s) = State.blank bl s := by
  unfold State.auxRunning
  repeat' first
    | with_reducible rfl
    | (simp only [h0, h1, State.each_blank, ↓State.regularTrigger_blank, ↓blank_ite, ↓fst_ite, ite_self, implies_true]; done)
    | split
    | simp only [h0, h1, State.each_blank, ↓State.regularTrigger_blank, ↓blank_ite, ↓fst_ite, ite_self, implies_true]
    | refine (State.each_blank _ _ _ ?_).trans ?_
    | intro _

theorem State.releaseHeld_blank (h0 : bl .regs = true) (h1 : bl .tb = true) (h2 : bl .tiles = true) (h3 : bl .order = true) (h4 : bl .queues = true) (h5 : bl .bellows = true) (h6 : bl .engines = true) (h7 : bl .bgs = true) (s : State) (f : Nat) (a2 : Nat) : State.blank bl (State.releaseHeld s f a2) = State.blank bl s := by
  induction a2 generalizing s with
  | zero => unfold State.releaseHeld; first | rfl | (split <;> rfl)
  | succ k ih =>
    unfold State.releaseHeld
    repeat' first
      | with_reducible rfl
      | (simp only [h0, h1, h2, h3, h4, h5, h6, h7, ↓State.onTile_blank, ↓State.releaseStrip_blank, ↓blank_ite, ↓fst_ite, ite_self, implies_true, ↓ih]; done)
      | split
      | simp only [h0, h1, h2, h3, h4, h5, h6, h7, ↓State.onTile_blank, ↓State.releaseStrip_blank, ↓blank_ite, ↓fst_ite, ite_self, implies_true, ↓ih]

theorem State.noticeLoss_blank (h0 : bl .regs = true) (h1 : bl .queues = true) (s : State) (f : Nat) (n : Nat) (firstSeq : Nat) (i : StripItem) : State.blank bl (State.noticeLoss s f n firstSeq i) = State.blank bl s := by
  unfold State.noticeLoss
  repeat' first
    | with_reducible rfl
    | (simp only [h0, h1, ↓State.pendLoss_blank, ↓State.count_blank, ↓blank_ite, ↓fst_ite, ite_self, implies_true]; done)
    | split
    | simp only [h0, h1, ↓State.pendLoss_blank, ↓State.count_blank, ↓blank_ite, ↓fst_ite, ite_self, implies_true]

theorem State.stripDeskew.go_blank (h0 : bl .regs = true) (h1 : bl .tb = true) (h2 : bl .tiles = true) (h3 : bl .order = true) (h4 : bl .queues = true) (h5 : bl .bellows = true) (h6 : bl .engines = true) (h7 : bl .bgs = true) (f : Fin 48) (seq : Nat) (a2 : Nat) (a3 : State) : State.blank bl (State.stripDeskew.go f seq a2 a3) = State.blank bl a3 := by
  induction a2 generalizing a3 with
  | zero => unfold State.stripDeskew.go; first | rfl | (split <;> rfl)
  | succ k ih =>
    unfold State.stripDeskew.go
    repeat' first
      | with_reducible rfl
      | (simp only [h0, h1, h2, h3, h4, h5, h6, h7, ↓State.noticeLoss_blank, ↓State.onTile_blank, ↓State.releaseStrip_blank, ↓blank_ite, ↓fst_ite, ite_self, implies_true, ↓ih]; done)
      | split
      | simp only [h0, h1, h2, h3, h4, h5, h6, h7, ↓State.noticeLoss_blank, ↓State.onTile_blank, ↓State.releaseStrip_blank, ↓blank_ite, ↓fst_ite, ite_self, implies_true, ↓ih]

theorem State.stripDeskew_blank (h0 : bl .regs = true) (h1 : bl .tb = true) (h2 : bl .tiles = true) (h3 : bl .order = true) (h4 : bl .queues = true) (h5 : bl .bellows = true) (h6 : bl .engines = true) (h7 : bl .bgs = true) (s : State) (f : Fin 48) (seq : Nat) : State.blank bl (State.stripDeskew s f seq) = State.blank bl s := by
  unfold State.stripDeskew
  repeat' first
    | with_reducible rfl
    | (simp only [h0, h1, h2, h3, h4, h5, h6, h7, ↓State.releaseHeld_blank, ↓State.stripDeskew.go_blank, ↓blank_ite, ↓fst_ite, ite_self, implies_true]; done)
    | split
    | simp only [h0, h1, h2, h3, h4, h5, h6, h7, ↓State.releaseHeld_blank, ↓State.stripDeskew.go_blank, ↓blank_ite, ↓fst_ite, ite_self, implies_true]

theorem State.ingQuench_blank (h0 : bl .regs = true) (h1 : bl .tb = true) (h2 : bl .tiles = true) (h3 : bl .order = true) (h4 : bl .queues = true) (h5 : bl .bellows = true) (h6 : bl .engines = true) (h7 : bl .bgs = true) (s : State) : State.blank bl (State.ingQuench s) = State.blank bl s := by
  unfold State.ingQuench
  repeat' first
    | with_reducible rfl
    | (simp only [h0, h1, h2, h3, h4, h5, h6, h7, State.each_blank, ↓State.dropFilling_blank, ↓State.flushQueue_blank, ↓State.onTile_blank, ↓blank_ite, ↓fst_ite, ite_self, implies_true]; done)
    | split
    | simp only [h0, h1, h2, h3, h4, h5, h6, h7, State.each_blank, ↓State.dropFilling_blank, ↓State.flushQueue_blank, ↓State.onTile_blank, ↓blank_ite, ↓fst_ite, ite_self, implies_true]
    | refine (State.each_blank _ _ _ ?_).trans ?_
    | intro _

theorem State.stageEnd_blank (h0 : bl .order = true) (h1 : bl .staging = true) (s : State) (e : Nat) (i : StripItem) (autoFlush : Bool) : State.blank bl (State.stageEnd s e i autoFlush) = State.blank bl s := by
  unfold State.stageEnd
  repeat' first
    | with_reducible rfl
    | (simp only [h0, h1, ↓State.setStaging_blank, ↓State.settle_blank, ↓blank_ite, ↓fst_ite, ite_self, implies_true]; done)
    | split
    | simp only [h0, h1, ↓State.setStaging_blank, ↓State.settle_blank, ↓blank_ite, ↓fst_ite, ite_self, implies_true]

theorem State.dropPartial_blank (h0 : bl .staging = true) (s : State) (e : Nat) (i : StripItem) : State.blank bl (State.dropPartial s e i) = State.blank bl s := by
  unfold State.dropPartial
  repeat' first
    | with_reducible rfl
    | (simp only [h0, ↓State.setStaging_blank, ↓blank_ite, ↓fst_ite, ite_self, implies_true]; done)
    | split
    | simp only [h0, ↓State.setStaging_blank, ↓blank_ite, ↓fst_ite, ite_self, implies_true]

theorem State.ringFirst_blank (h0 : bl .field = true) (s : State) (seg : Nat) (from_ : Stamp) : State.blank bl (State.ringFirst s seg from_) = State.blank bl s := by
  unfold State.ringFirst
  repeat' first
    | with_reducible rfl
    | (simp only [h0, ↓State.onField_blank, ↓blank_ite, ↓fst_ite, ite_self, implies_true]; done)
    | split
    | simp only [h0, ↓State.onField_blank, ↓blank_ite, ↓fst_ite, ite_self, implies_true]

theorem State.cmpDiscard_blank (h0 : bl .out = true) (h1 : bl .regs = true) (h2 : bl .tb = true) (h3 : bl .order = true) (h4 : bl .hearth = true) (h5 : bl .mem = true) (h6 : bl .trig = true) (h7 : bl .staging = true) (h8 : bl .comps = true) (h9 : bl .pair = true) (h10 : bl .host = true) (s : State) : State.blank bl (State.cmpDiscard s) = State.blank bl s := by
  unfold State.cmpDiscard
  repeat' first
    | with_reducible rfl
    | (simp only [h0, h1, h2, h3, h4, h5, h6, h7, h8, h9, h10, ↓State.putStaging_blank, State.each_blank, ↓State.onComp_blank, ↓State.gapReport_blank, ↓State.settle_blank, ↓State.settleTile_blank, ↓blank_ite, ↓fst_ite, ite_self, implies_true]; done)
    | split
    | simp only [h0, h1, h2, h3, h4, h5, h6, h7, h8, h9, h10, ↓State.putStaging_blank, State.each_blank, ↓State.onComp_blank, ↓State.gapReport_blank, ↓State.settle_blank, ↓State.settleTile_blank, ↓blank_ite, ↓fst_ite, ite_self, implies_true]
    | refine (State.each_blank _ _ _ ?_).trans ?_
    | intro _

theorem State.auxQuench_blank (h0 : bl .regs = true) (h1 : bl .tb = true) (h2 : bl .order = true) (h3 : bl .queues = true) (h4 : bl .bellows = true) (h5 : bl .bgs = true) (h6 : bl .field = true) (s : State) : State.blank bl (State.auxQuench s) = State.blank bl s := by
  unfold State.auxQuench
  repeat' first
    | with_reducible rfl
    | (simp only [h0, h1, h2, h3, h4, h5, h6, ↓State.flushQueue_blank, ↓State.onField_blank, ↓blank_ite, ↓fst_ite, ite_self, implies_true]; done)
    | split
    | simp only [h0, h1, h2, h3, h4, h5, h6, ↓State.flushQueue_blank, ↓State.onField_blank, ↓blank_ite, ↓fst_ite, ite_self, implies_true]

theorem State.stageBypass_blank (h0 : bl .staging = true) (s : State) (e : Nat) (i : StripItem) : State.blank bl (State.stageBypass s e i) = State.blank bl s := by
  unfold State.stageBypass
  repeat' first
    | with_reducible rfl
    | (simp only [h0, ↓State.setStaging_blank, ↓blank_ite, ↓fst_ite, ite_self, implies_true]; done)
    | split
    | simp only [h0, ↓State.setStaging_blank, ↓blank_ite, ↓fst_ite, ite_self, implies_true]

theorem State.passLeft_blank (h0 : bl .engines = true) (h1 : bl .staging = true) (s : State) (l : Nat) (b : Nat) (i : StripItem) : State.blank bl (State.passLeft s l b i) = State.blank bl s := by
  unfold State.passLeft
  repeat' first
    | with_reducible rfl
    | (simp only [h0, h1, ↓State.stageBypass_blank, ↓State.onEngine_blank, ↓blank_ite, ↓fst_ite, ite_self, implies_true]; done)
    | split
    | simp only [h0, h1, ↓State.stageBypass_blank, ↓State.onEngine_blank, ↓blank_ite, ↓fst_ite, ite_self, implies_true]

theorem State.chargeReset_blank (h0 : bl .field = true) (s : State) (mask : Nat) : State.blank bl (State.chargeReset s mask) = State.blank bl s := by
  unfold State.chargeReset
  repeat' first
    | with_reducible rfl
    | (simp only [h0, State.each_blank, ↓State.onAmp_blank, ↓blank_ite, ↓fst_ite, ite_self, implies_true]; done)
    | split
    | simp only [h0, State.each_blank, ↓State.onAmp_blank, ↓blank_ite, ↓fst_ite, ite_self, implies_true]
    | refine (State.each_blank _ _ _ ?_).trans ?_
    | intro _

theorem State.armResets_blank (h0 : bl .field = true) (s : State) : State.blank bl (State.armResets s) = State.blank bl s := by
  unfold State.armResets
  repeat' first
    | with_reducible rfl
    | (simp only [h0, ↓State.chargeReset_blank, ↓blank_ite, ↓fst_ite, ite_self, implies_true]; done)
    | split
    | simp only [h0, ↓State.chargeReset_blank, ↓blank_ite, ↓fst_ite, ite_self, implies_true]

theorem State.logField_blank (h0 : bl .tb = true) (s : State) (t : Stamp) (idx : Nat) (code : Nat) (fields : List (Nat × Nat × Nat)) : State.blank bl (State.logField s t idx code fields) = State.blank bl s := by
  unfold State.logField
  repeat' first
    | with_reducible rfl
    | (simp only [h0, ↓State.log_blank, ↓blank_ite, ↓fst_ite, ite_self, implies_true]; done)
    | split
    | simp only [h0, ↓State.log_blank, ↓blank_ite, ↓fst_ite, ite_self, implies_true]

theorem State.setBreak_blank (h0 : bl .regs = true) (h1 : bl .tb = true) (s : State) (ch : Nat) (b : Bool) : State.blank bl (State.setBreak s ch b) = State.blank bl s := by
  unfold State.setBreak
  repeat' first
    | with_reducible rfl
    | (simp only [h0, h1, ↓State.setBit_blank, ↓State.count_blank, ↓State.logField_blank, ↓blank_ite, ↓fst_ite, ite_self, implies_true]; done)
    | split
    | simp only [h0, h1, ↓State.setBit_blank, ↓State.count_blank, ↓State.logField_blank, ↓blank_ite, ↓fst_ite, ite_self, implies_true]

theorem State.aouOff_blank (h0 : bl .regs = true) (h1 : bl .field = true) (s : State) : State.blank bl (State.aouOff s) = State.blank bl s := by
  unfold State.aouOff
  repeat' first
    | with_reducible rfl
    | (simp only [h0, h1, State.each_blank, ↓State.setBit_blank, ↓State.setFld_blank, ↓State.setTest_blank, ↓blank_ite, ↓fst_ite, ite_self, implies_true]; done)
    | split
    | simp only [h0, h1, State.each_blank, ↓State.setBit_blank, ↓State.setFld_blank, ↓State.setTest_blank, ↓blank_ite, ↓fst_ite, ite_self, implies_true]
    | refine (State.each_blank _ _ _ ?_).trans ?_
    | intro _

theorem State.onExc_blank (h0 : bl .field = true) (s : State) (n : Nat) (g : Exciter → Exciter) : State.blank bl (State.onExc s n g) = State.blank bl s := by
  unfold State.onExc
  repeat' first
    | with_reducible rfl
    | (simp only [h0, ↓State.onField_blank, ↓blank_ite, ↓fst_ite, ite_self, implies_true]; done)
    | split
    | simp only [h0, ↓State.onField_blank, ↓blank_ite, ↓fst_ite, ite_self, implies_true]

theorem State.excWrite_blank (h0 : bl .regs = true) (h1 : bl .field = true) (s : State) (n : Nat) (v : Nat) : State.blank bl (State.excWrite s n v) = State.blank bl s := by
  unfold State.excWrite
  repeat' first
    | with_reducible rfl
    | (simp only [h0, h1, ↓State.setReg_blank, ↓State.onExc_blank, ↓blank_ite, ↓fst_ite, ite_self, implies_true]; done)
    | split
    | simp only [h0, h1, ↓State.setReg_blank, ↓State.onExc_blank, ↓blank_ite, ↓fst_ite, ite_self, implies_true]

theorem excWriteCmd_blank (h0 : bl .regs = true) (h1 : bl .field = true) (n : Fin 2) (v : Word) (s : State) : State.blank bl (excWriteCmd n v s) = State.blank bl s := by
  unfold excWriteCmd
  repeat' first
    | with_reducible rfl
    | (simp only [h0, h1, ↓State.excWrite_blank, ↓blank_ite, ↓fst_ite, ite_self, implies_true]; done)
    | split
    | simp only [h0, h1, ↓State.excWrite_blank, ↓blank_ite, ↓fst_ite, ite_self, implies_true]

theorem chargeAmpReset_blank (h0 : bl .field = true) (mask : BitVec 8) (s : State) : State.blank bl (chargeAmpReset mask s) = State.blank bl s := by
  unfold chargeAmpReset
  repeat' first
    | with_reducible rfl
    | (simp only [h0, ↓State.chargeReset_blank, ↓blank_ite, ↓fst_ite, ite_self, implies_true]; done)
    | split
    | simp only [h0, ↓State.chargeReset_blank, ↓blank_ite, ↓fst_ite, ite_self, implies_true]

theorem State.calBegin_blank (h0 : bl .field = true) (s : State) (x : Nat) : State.blank bl (State.calBegin s x) = State.blank bl s := by
  unfold State.calBegin
  repeat' first
    | with_reducible rfl
    | (simp only [h0, ↓State.onAdc_blank, ↓blank_ite, ↓fst_ite, ite_self, implies_true]; done)
    | split
    | simp only [h0, ↓State.onAdc_blank, ↓blank_ite, ↓fst_ite, ite_self, implies_true]

theorem adcCalibration_blank (h0 : bl .field = true) (x : Fin 2) (s : State) : State.blank bl (adcCalibration x s) = State.blank bl s := by
  unfold adcCalibration
  repeat' first
    | with_reducible rfl
    | (simp only [h0, ↓State.calBegin_blank, ↓blank_ite, ↓fst_ite, ite_self, implies_true]; done)
    | split
    | simp only [h0, ↓State.calBegin_blank, ↓blank_ite, ↓fst_ite, ite_self, implies_true]

theorem rscan_blank (h0 : bl .regs = true) (h1 : bl .field = true) (x : Fin 2) (s : State) : State.blank bl (rscan x s) = State.blank bl s := by
  unfold rscan
  repeat' first
    | with_reducible rfl
    | (simp only [h0, h1, ↓State.regularTrigger_blank, ↓blank_ite, ↓fst_ite, ite_self, implies_true]; done)
    | split
    | simp only [h0, h1, ↓State.regularTrigger_blank, ↓blank_ite, ↓fst_ite, ite_self, implies_true]

theorem State.injectedTrigger_blank (h0 : bl .regs = true) (h1 : bl .field = true) (s : State) (x : Nat) : State.blank bl (State.injectedTrigger s x) = State.blank bl s := by
  unfold State.injectedTrigger
  repeat' first
    | with_reducible rfl
    | (simp only [h0, h1, ↓State.count_blank, ↓State.onAdc_blank, ↓blank_ite, ↓fst_ite, ite_self, implies_true]; done)
    | split
    | simp only [h0, h1, ↓State.count_blank, ↓State.onAdc_blank, ↓blank_ite, ↓fst_ite, ite_self, implies_true]

theorem iscan_blank (h0 : bl .regs = true) (h1 : bl .field = true) (x : Fin 2) (s : State) : State.blank bl (iscan x s) = State.blank bl s := by
  unfold iscan
  repeat' first
    | with_reducible rfl
    | (simp only [h0, h1, ↓State.injectedTrigger_blank, ↓blank_ite, ↓fst_ite, ite_self, implies_true]; done)
    | split
    | simp only [h0, h1, ↓State.injectedTrigger_blank, ↓blank_ite, ↓fst_ite, ite_self, implies_true]

theorem State.demand_blank (h0 : bl .regs = true) (h1 : bl .tb = true) (h2 : bl .field = true) (s : State) (k : Nat) (z : Int) : State.blank bl (State.demand s k z) = State.blank bl s := by
  unfold State.demand
  repeat' first
    | with_reducible rfl
    | (simp only [h0, h1, h2, ↓State.setBit_blank, ↓State.setTest_blank, ↓State.logField_blank, ↓State.count_blank, ↓State.setCode_blank, ↓blank_ite, ↓fst_ite, ite_self, implies_true]; done)
    | split
    | simp only [h0, h1, h2, ↓State.setBit_blank, ↓State.setTest_blank, ↓State.logField_blank, ↓State.count_blank, ↓State.setCode_blank, ↓blank_ite, ↓fst_ite, ite_self, implies_true]

theorem State.aouValWrite_blank (h0 : bl .regs = true) (h1 : bl .tb = true) (h2 : bl .field = true) (s : State) (k : Nat) (v : Nat) : State.blank bl (State.aouValWrite s k v) = State.blank bl s := by
  unfold State.aouValWrite
  repeat' first
    | with_reducible rfl
    | (simp only [h0, h1, h2, ↓State.setFld_blank, ↓State.demand_blank, ↓blank_ite, ↓fst_ite, ite_self, implies_true]; done)
    | split
    | simp only [h0, h1, h2, ↓State.setFld_blank, ↓State.demand_blank, ↓blank_ite, ↓fst_ite, ite_self, implies_true]

theorem State.ingStart_blank (h0 : bl .regs = true) (h1 : bl .tb = true) (h2 : bl .queues = true) (h3 : bl .bellows = true) (h4 : bl .bgs = true) (s : State) : State.blank bl (State.ingStart s) = State.blank bl s := by
  unfold State.ingStart
  repeat' first
    | with_reducible rfl
    | (simp only [h0, h1, h2, h3, h4, State.each_blank, ↓State.queueUpdate_blank, ↓State.onQueue_blank, ↓blank_ite, ↓fst_ite, ite_self, implies_true]; done)
    | split
    | simp only [h0, h1, h2, h3, h4, State.each_blank, ↓State.queueUpdate_blank, ↓State.onQueue_blank, ↓blank_ite, ↓fst_ite, ite_self, implies_true]
    | refine (State.each_blank _ _ _ ?_).trans ?_
    | intro _

theorem State.cmpStart_blank (h0 : bl .comps = true) (s : State) : State.blank bl (State.cmpStart s) = State.blank bl s := by
  unfold State.cmpStart
  repeat' first
    | with_reducible rfl
    | (simp only [h0, State.each_blank, ↓State.onComp_blank, ↓blank_ite, ↓fst_ite, ite_self, implies_true]; done)
    | split
    | simp only [h0, State.each_blank, ↓State.onComp_blank, ↓blank_ite, ↓fst_ite, ite_self, implies_true]
    | refine (State.each_blank _ _ _ ?_).trans ?_
    | intro _

theorem State.auxStart_blank (h0 : bl .regs = true) (h1 : bl .tb = true) (h2 : bl .field = true) (h3 : bl .trig = true) (s : State) : State.blank bl (State.auxStart s) = State.blank bl s := by
  unfold State.auxStart
  repeat' first
    | with_reducible rfl
    | (simp only [h0, h1, h2, h3, ↓State.onField_blank, ↓State.excWrite_blank, State.each_blank, ↓State.srcLevel_blank, ↓blank_ite, ↓fst_ite, ite_self, implies_true]; done)
    | split
    | simp only [h0, h1, h2, h3, ↓State.onField_blank, ↓State.excWrite_blank, State.each_blank, ↓State.srcLevel_blank, ↓blank_ite, ↓fst_ite, ite_self, implies_true]
    | refine (State.each_blank _ _ _ ?_).trans ?_
    | intro _

theorem State.aouStart_blank (h0 : bl .regs = true) (h1 : bl .field = true) (s : State) : State.blank bl (State.aouStart s) = State.blank bl s := by
  unfold State.aouStart
  repeat' first
    | with_reducible rfl
    | (simp only [h0, h1, ↓State.onField_blank, State.each_blank, ↓State.setSafe_blank, ↓State.setTest_blank, ↓blank_ite, ↓fst_ite, ite_self, implies_true]; done)
    | split
    | simp only [h0, h1, ↓State.onField_blank, State.each_blank, ↓State.setSafe_blank, ↓State.setTest_blank, ↓blank_ite, ↓fst_ite, ite_self, implies_true]
    | refine (State.each_blank _ _ _ ?_).trans ?_
    | intro _

theorem adcPeriodicTrigger_blank (h0 : bl .regs = true) (h1 : bl .field = true) (x : Fin 2) (s : State) : State.blank bl (adcPeriodicTrigger x s) = State.blank bl s := by
  unfold adcPeriodicTrigger
  repeat' first
    | with_reducible rfl
    | (simp only [h0, h1, ↓State.regularTrigger_blank, ↓blank_ite, ↓fst_ite, ite_self, implies_true]; done)
    | split
    | simp only [h0, h1, ↓State.regularTrigger_blank, ↓blank_ite, ↓fst_ite, ite_self, implies_true]

theorem State.slagDelivered_blank (h0 : bl .tb = true) (h1 : bl .hearth = true) (h2 : bl .mem = true) (s : State) (l : Nat) (w : Slag) : State.blank bl (State.slagDelivered s l w) = State.blank bl s := by
  unfold State.slagDelivered
  repeat' first
    | with_reducible rfl
    | (simp only [h0, h1, h2, ↓State.slagReport_blank, ↓blank_ite, ↓fst_ite, ite_self, implies_true]; done)
    | split
    | simp only [h0, h1, h2, ↓State.slagReport_blank, ↓blank_ite, ↓fst_ite, ite_self, implies_true]

theorem State.packClose_blank (h0 : bl .regs = true) (h1 : bl .tb = true) (h2 : bl .order = true) (h3 : bl .queues = true) (h4 : bl .bellows = true) (h5 : bl .bgs = true) (s : State) : State.blank bl (State.packClose s) = State.blank bl s := by
  unfold State.packClose
  repeat' first
    | with_reducible rfl
    | (simp only [h0, h1, h2, h3, h4, h5, ↓State.takeIn_blank, ↓State.onQueue_blank, ↓blank_ite, ↓fst_ite, ite_self, implies_true]; done)
    | split
    | simp only [h0, h1, h2, h3, h4, h5, ↓State.takeIn_blank, ↓State.onQueue_blank, ↓blank_ite, ↓fst_ite, ite_self, implies_true]

theorem State.plausible_blank (h0 : bl .regs = true) (h1 : bl .tb = true) (h2 : bl .field = true) (s : State) (x : Nat) (ch : Nat) (t : Stamp) (m : StampMark) (code : Int) (sseq : Nat) : State.blank bl (State.plausible s x ch t m code sseq).1 = State.blank bl s := by
  unfold State.plausible
  repeat' first
    | with_reducible rfl
    | (simp only [h0, h1, h2, ↓State.onAdc_blank, ↓State.logMarked_blank, ↓State.count_blank, ↓blank_ite, ↓fst_ite, ite_self, implies_true]; done)
    | split
    | simp only [h0, h1, h2, ↓State.onAdc_blank, ↓State.logMarked_blank, ↓State.count_blank, ↓blank_ite, ↓fst_ite, ite_self, implies_true]

theorem State.acJudge_blank (h0 : bl .regs = true) (h1 : bl .tb = true) (h2 : bl .field = true) (h3 : bl .trig = true) (s : State) (n : Nat) (t : Stamp) (m : StampMark) (code : Int) (sseq : Nat) : State.blank bl (State.acJudge s n t m code sseq) = State.blank bl s := by
  unfold State.acJudge
  repeat' first
    | with_reducible rfl
    | (simp only [h0, h1, h2, h3, ↓State.onField_blank, ↓State.logMarked_blank, ↓State.srcEventAt_blank, ↓blank_ite, ↓fst_ite, ite_self, implies_true]; done)
    | split
    | simp only [h0, h1, h2, h3, ↓State.onField_blank, ↓State.logMarked_blank, ↓State.srcEventAt_blank, ↓blank_ite, ↓fst_ite, ite_self, implies_true]

theorem State.packSample_blank (h0 : bl .regs = true) (h1 : bl .tb = true) (h2 : bl .order = true) (h3 : bl .queues = true) (h4 : bl .bellows = true) (h5 : bl .bgs = true) (s : State) (b : List Byte) : State.blank bl (State.packSample s b) = State.blank bl s := by
  unfold State.packSample
  repeat' first
    | with_reducible rfl
    | (simp only [h0, h1, h2, h3, h4, h5, ↓State.onQueue_blank, ↓State.packClose_blank, ↓blank_ite, ↓fst_ite, ite_self, implies_true]; done)
    | split
    | simp only [h0, h1, h2, h3, h4, h5, ↓State.onQueue_blank, ↓State.packClose_blank, ↓blank_ite, ↓fst_ite, ite_self, implies_true]

theorem State.forward_blank (h0 : bl .regs = true) (h1 : bl .tb = true) (h2 : bl .order = true) (h3 : bl .queues = true) (h4 : bl .bellows = true) (h5 : bl .bgs = true) (h6 : bl .field = true) (h7 : bl .trig = true) (s : State) (x : Nat) : State.blank bl (State.forward s x) = State.blank bl s := by
  unfold State.forward
  repeat' first
    | with_reducible rfl
    | (simp only [h0, h1, h2, h3, h4, h5, h6, h7, ↓State.onAdc_blank, ↓State.onField_blank, ↓State.plausible_blank, State.each_blank, ↓State.acJudge_blank, ↓State.packSample_blank, ↓State.count_blank, ↓blank_ite, ↓fst_ite, ite_self, implies_true]; done)
    | split
    | simp only [h0, h1, h2, h3, h4, h5, h6, h7, ↓State.onAdc_blank, ↓State.onField_blank, ↓State.plausible_blank, State.each_blank, ↓State.acJudge_blank, ↓State.packSample_blank, ↓State.count_blank, ↓blank_ite, ↓fst_ite, ite_self, implies_true]
    | refine (State.each_blank _ _ _ ?_).trans ?_
    | intro _

theorem State.ringWrite_blank (h0 : bl .field = true) (h1 : bl .mem = true) (s : State) (rec_ : List Byte) : State.blank bl (State.ringWrite s rec_) = State.blank bl s := by
  unfold State.ringWrite
  repeat' first
    | with_reducible rfl
    | (simp only [h0, h1, ↓State.onField_blank, ↓State.hwrite_blank, ↓blank_ite, ↓fst_ite, ite_self, implies_true]; done)
    | split
    | simp only [h0, h1, ↓State.onField_blank, ↓State.hwrite_blank, ↓blank_ite, ↓fst_ite, ite_self, implies_true]

theorem State.ringResume_blank (h0 : bl .tb = true) (h1 : bl .field = true) (h2 : bl .mem = true) (s : State) : State.blank bl (State.ringResume s) = State.blank bl s := by
  unfold State.ringResume
  repeat' first
    | with_reducible rfl
    | (simp only [h0, h1, h2, ↓State.logField_blank, ↓State.ringWrite_blank, ↓State.onField_blank, ↓blank_ite, ↓fst_ite, ite_self, implies_true]; done)
    | split
    | simp only [h0, h1, h2, ↓State.logField_blank, ↓State.ringWrite_blank, ↓State.onField_blank, ↓blank_ite, ↓fst_ite, ite_self, implies_true]

theorem State.ringSkip_blank (h0 : bl .tb = true) (h1 : bl .field = true) (s : State) (t : Stamp) (n : Nat) (flags : Nat) : State.blank bl (State.ringSkip s t n flags) = State.blank bl s := by
  unfold State.ringSkip
  repeat' first
    | with_reducible rfl
    | (simp only [h0, h1, ↓State.logField_blank, ↓State.onField_blank, ↓blank_ite, ↓fst_ite, ite_self, implies_true]; done)
    | split
    | simp only [h0, h1, ↓State.logField_blank, ↓State.onField_blank, ↓blank_ite, ↓fst_ite, ite_self, implies_true]

theorem State.ringSample_blank (h0 : bl .regs = true) (h1 : bl .tb = true) (h2 : bl .field = true) (h3 : bl .mem = true) (s : State) (b : List Byte) : State.blank bl (State.ringSample s b) = State.blank bl s := by
  unfold State.ringSample
  repeat' first
    | with_reducible rfl
    | (simp only [h0, h1, h2, h3, ↓State.ringResume_blank, ↓State.count_blank, ↓State.ringSkip_blank, ↓State.ringWrite_blank, ↓blank_ite, ↓fst_ite, ite_self, implies_true]; done)
    | split
    | simp only [h0, h1, h2, h3, ↓State.ringResume_blank, ↓State.count_blank, ↓State.ringSkip_blank, ↓State.ringWrite_blank, ↓blank_ite, ↓fst_ite, ite_self, implies_true]

theorem State.routeSample_blank (h0 : bl .regs = true) (h1 : bl .tb = true) (h2 : bl .field = true) (h3 : bl .mem = true) (h4 : bl .trig = true) (s : State) (b : List Byte) : State.blank bl (State.routeSample s b) = State.blank bl s := by
  unfold State.routeSample
  repeat' first
    | with_reducible rfl
    | (simp only [h0, h1, h2, h3, h4, ↓State.ringSample_blank, ↓State.streamAdd_blank, ↓blank_ite, ↓fst_ite, ite_self, implies_true]; done)
    | split
    | simp only [h0, h1, h2, h3, h4, ↓State.ringSample_blank, ↓State.streamAdd_blank, ↓blank_ite, ↓fst_ite, ite_self, implies_true]

theorem State.ringLoss_blank (h0 : bl .tb = true) (h1 : bl .field = true) (h2 : bl .mem = true) (s : State) (t : Stamp) (n : Nat) : State.blank bl (State.ringLoss s t n) = State.blank bl s := by
  unfold State.ringLoss
  repeat' first
    | with_reducible rfl
    | (simp only [h0, h1, h2, ↓State.ringResume_blank, ↓State.ringSkip_blank, ↓State.ringWrite_blank, ↓blank_ite, ↓fst_ite, ite_self, implies_true]; done)
    | split
    | simp only [h0, h1, h2, ↓State.ringResume_blank, ↓State.ringSkip_blank, ↓State.ringWrite_blank, ↓blank_ite, ↓fst_ite, ite_self, implies_true]

theorem State.routeSlag_blank (h0 : bl .tb = true) (h1 : bl .field = true) (h2 : bl .mem = true) (h3 : bl .trig = true) (s : State) (w : Slag) : State.blank bl (State.routeSlag s w) = State.blank bl s := by
  unfold State.routeSlag
  repeat' first
    | with_reducible rfl
    | (simp only [h0, h1, h2, h3, ↓State.ringLoss_blank, State.each_blank, ↓State.streamAdd_blank, ↓blank_ite, ↓fst_ite, ite_self, implies_true]; done)
    | split
    | simp only [h0, h1, h2, h3, ↓State.ringLoss_blank, State.each_blank, ↓State.streamAdd_blank, ↓blank_ite, ↓fst_ite, ite_self, implies_true]
    | refine (State.each_blank _ _ _ ?_).trans ?_
    | intro _

theorem State.popItem_blank (h0 : bl .regs = true) (h1 : bl .tb = true) (h2 : bl .queues = true) (h3 : bl .bellows = true) (h4 : bl .bgs = true) (s : State) (l : Nat) : State.blank bl (State.popItem s l) = State.blank bl s := by
  unfold State.popItem
  repeat' first
    | with_reducible rfl
    | (simp only [h0, h1, h2, h3, h4, ↓State.queueUpdate_blank, ↓State.onQueue_blank, ↓blank_ite, ↓fst_ite, ite_self, implies_true]; done)
    | split
    | simp only [h0, h1, h2, h3, h4, ↓State.queueUpdate_blank, ↓State.onQueue_blank, ↓blank_ite, ↓fst_ite, ite_self, implies_true]

theorem State.auxDiscard_blank (h0 : bl .regs = true) (h1 : bl .tb = true) (h2 : bl .queues = true) (h3 : bl .bellows = true) (h4 : bl .bgs = true) (s : State) (tag : Bool) : State.blank bl (State.auxDiscard s tag) = State.blank bl s := by
  unfold State.auxDiscard
  repeat' first
    | with_reducible rfl
    | (simp only [h0, h1, h2, h3, h4, ↓State.count_blank, ↓State.pendLoss_blank, ↓State.popItem_blank, ↓blank_ite, ↓fst_ite, ite_self, implies_true]; done)
    | split
    | simp only [h0, h1, h2, h3, h4, ↓State.count_blank, ↓State.pendLoss_blank, ↓State.popItem_blank, ↓blank_ite, ↓fst_ite, ite_self, implies_true]

theorem State.routeFront_blank (h0 : bl .regs = true) (h1 : bl .tb = true) (h2 : bl .queues = true) (h3 : bl .bellows = true) (h4 : bl .bgs = true) (h5 : bl .field = true) (h6 : bl .mem = true) (h7 : bl .trig = true) (s : State) (ecc : QueueEcc) : State.blank bl (State.routeFront s ecc) = State.blank bl s := by
  unfold State.routeFront
  repeat' first
    | with_reducible rfl
    | (simp only [h0, h1, h2, h3, h4, h5, h6, h7, State.each_blank, ↓State.routeSample_blank, ↓State.count_blank, ↓State.routeSlag_blank, ↓State.auxDiscard_blank, ↓State.popItem_blank, ↓blank_ite, ↓fst_ite, ite_self, implies_true]; done)
    | split
    | simp only [h0, h1, h2, h3, h4, h5, h6, h7, State.each_blank, ↓State.routeSample_blank, ↓State.count_blank, ↓State.routeSlag_blank, ↓State.auxDiscard_blank, ↓State.popItem_blank, ↓blank_ite, ↓fst_ite, ite_self, implies_true]
    | refine (State.each_blank _ _ _ ?_).trans ?_
    | intro _

theorem State.auxStopped_blank (h0 : bl .regs = true) (h1 : bl .tb = true) (h2 : bl .order = true) (h3 : bl .queues = true) (h4 : bl .bellows = true) (h5 : bl .bgs = true) (h6 : bl .field = true) (h7 : bl .mem = true) (h8 : bl .trig = true) (s : State) : State.blank bl (State.auxStopped s) = State.blank bl s := by
  unfold State.auxStopped
  repeat' first
    | with_reducible rfl
    | (simp only [h0, h1, h2, h3, h4, h5, h6, h7, h8, ↓State.packClose_blank, ↓State.forward_blank, State.each_blank, ↓State.routeFront_blank, ↓State.onField_blank, ↓blank_ite, ↓fst_ite, ite_self, implies_true]; done)
    | split
    | simp only [h0, h1, h2, h3, h4, h5, h6, h7, h8, ↓State.packClose_blank, ↓State.forward_blank, State.each_blank, ↓State.routeFront_blank, ↓State.onField_blank, ↓blank_ite, ↓fst_ite, ite_self, implies_true]
    | refine (State.each_blank _ _ _ ?_).trans ?_
    | intro _

theorem State.stagePixels_blank (h0 : bl .staging = true) (s : State) (e : Nat) (i : StripItem) (xs : List Nat) (close : Bool) (flush : Bool) : State.blank bl (State.stagePixels s e i xs close flush) = State.blank bl s := by
  unfold State.stagePixels
  repeat' first
    | with_reducible rfl
    | (simp only [h0, ↓State.setStaging_blank, ↓blank_ite, ↓fst_ite, ite_self, implies_true]; done)
    | split
    | simp only [h0, ↓State.setStaging_blank, ↓blank_ite, ↓fst_ite, ite_self, implies_true]

theorem State.commitBlock_blank (h0 : bl .out = true) (h1 : bl .regs = true) (h2 : bl .tb = true) (h3 : bl .hearth = true) (h4 : bl .mem = true) (h5 : bl .trig = true) (h6 : bl .comps = true) (h7 : bl .pair = true) (h8 : bl .host = true) (s : State) (k : Nat) : State.blank bl (State.commitBlock s k) = State.blank bl s := by
  unfold State.commitBlock
  repeat' first
    | with_reducible rfl
    | (simp only [h0, h1, h2, h3, h4, h5, h6, h7, h8, ↓State.onComp_blank, ↓State.settleTile_blank, ↓State.countKib_blank, ↓State.count_blank, ↓blank_ite, ↓fst_ite, ite_self, implies_true]; done)
    | split
    | simp only [h0, h1, h2, h3, h4, h5, h6, h7, h8, ↓State.onComp_blank, ↓State.settleTile_blank, ↓State.countKib_blank, ↓State.count_blank, ↓blank_ite, ↓fst_ite, ite_self, implies_true]
    | refine (State.acceptBytes_blank (by assumption) (by assumption) (by assumption) (by assumption) (by assumption) _ _ _ _ _ (by assumption)).trans ?_

theorem hearthWriteResume_blank (h0 : bl .out = true) (h1 : bl .regs = true) (h2 : bl .tb = true) (h3 : bl .hearth = true) (h4 : bl .mem = true) (h5 : bl .trig = true) (h6 : bl .comps = true) (h7 : bl .pair = true) (h8 : bl .host = true) (k : Fin 12) (s : State) : State.blank bl (hearthWriteResume k s) = State.blank bl s := by
  unfold hearthWriteResume
  repeat' first
    | with_reducible rfl
    | (simp only [h0, h1, h2, h3, h4, h5, h6, h7, h8, ↓State.commitBlock_blank, ↓blank_ite, ↓fst_ite, ite_self, implies_true]; done)
    | split
    | simp only [h0, h1, h2, h3, h4, h5, h6, h7, h8, ↓State.commitBlock_blank, ↓blank_ite, ↓fst_ite, ite_self, implies_true]

theorem State.urgent_blank (h0 : bl .regs = true) (h1 : bl .field = true) (s : State) (code : Nat) : State.blank bl (State.urgent s code) = State.blank bl s := by
  unfold State.urgent
  repeat' first
    | with_reducible rfl
    | (simp only [h0, h1, State.each_blank, ↓State.injectedTrigger_blank, ↓blank_ite, ↓fst_ite, ite_self, implies_true]; done)
    | split
    | simp only [h0, h1, State.each_blank, ↓State.injectedTrigger_blank, ↓blank_ite, ↓fst_ite, ite_self, implies_true]
    | refine (State.each_blank _ _ _ ?_).trans ?_
    | intro _

theorem State.eccDiscard_blank (h0 : bl .regs = true) (h1 : bl .tb = true) (h2 : bl .order = true) (h3 : bl .queues = true) (h4 : bl .bellows = true) (h5 : bl .bgs = true) (s : State) (l : Nat) (read : Bool) : State.blank bl (State.eccDiscard s l read) = State.blank bl s := by
  unfold State.eccDiscard
  repeat' first
    | with_reducible rfl
    | (simp only [h0, h1, h2, h3, h4, h5, ↓State.pendLoss_blank, ↓State.popItem_blank, ↓State.count_blank, ↓State.settle_blank, ↓blank_ite, ↓fst_ite, ite_self, implies_true]; done)
    | split
    | simp only [h0, h1, h2, h3, h4, h5, ↓State.pendLoss_blank, ↓State.popItem_blank, ↓State.count_blank, ↓State.settle_blank, ↓blank_ite, ↓fst_ite, ite_self, implies_true]

theorem State.readFront_blank (h0 : bl .regs = true) (h1 : bl .tb = true) (h2 : bl .order = true) (h3 : bl .queues = true) (h4 : bl .bellows = true) (h5 : bl .bgs = true) (s : State) (l : Nat) (ecc : QueueEcc) : State.blank bl (State.readFront s l ecc).1 = State.blank bl s := by
  unfold State.readFront
  repeat' first
    | with_reducible rfl
    | (simp only [h0, h1, h2, h3, h4, h5, ↓State.count_blank, ↓State.eccDiscard_blank, State.each_blank, ↓State.popItem_blank, ↓blank_ite, ↓fst_ite, ite_self, implies_true]; done)
    | split
    | simp only [h0, h1, h2, h3, h4, h5, ↓State.count_blank, ↓State.eccDiscard_blank, State.each_blank, ↓State.popItem_blank, ↓blank_ite, ↓fst_ite, ite_self, implies_true]
    | refine (State.each_blank _ _ _ ?_).trans ?_
    | intro _

theorem ingDrainTimeout_blank (h0 : bl .regs = true) (h1 : bl .tb = true) (h2 : bl .order = true) (h3 : bl .queues = true) (h4 : bl .bellows = true) (h5 : bl .engines = true) (h6 : bl .bgs = true) (s : State) : State.blank bl (ingDrainTimeout s) = State.blank bl s := by
  unfold ingDrainTimeout
  repeat' first
    | with_reducible rfl
    | (simp only [h0, h1, h2, h3, h4, h5, h6, State.each_blank, ↓State.onQueue_blank, ↓State.dropFilling_blank, ↓State.flushQueue_blank, ↓blank_ite, ↓fst_ite, ite_self, implies_true]; done)
    | split
    | simp only [h0, h1, h2, h3, h4, h5, h6, State.each_blank, ↓State.onQueue_blank, ↓State.dropFilling_blank, ↓State.flushQueue_blank, ↓blank_ite, ↓fst_ite, ite_self, implies_true]
    | refine (State.each_blank _ _ _ ?_).trans ?_
    | intro _

theorem itemCopyStart_blank (h0 : bl .queues = true) (h1 : bl .engines = true) (l : Fin 96) (s : State) : State.blank bl (itemCopyStart l s) = State.blank bl s := by
  unfold itemCopyStart
  repeat' first
    | with_reducible rfl
    | (simp only [h0, h1, ↓State.onQueue_blank, ↓State.onEngine_blank, ↓State.paceCheck_blank, ↓blank_ite, ↓fst_ite, ite_self, implies_true]; done)
    | split
    | simp only [h0, h1, ↓State.onQueue_blank, ↓State.onEngine_blank, ↓State.paceCheck_blank, ↓blank_ite, ↓fst_ite, ite_self, implies_true]

theorem State.onVolt_blank (h0 : bl .field = true) (s : State) (n : Nat) (g : VoltIn → VoltIn) : State.blank bl (State.onVolt s n g) = State.blank bl s := by
  unfold State.onVolt
  repeat' first
    | with_reducible rfl
    | (simp only [h0, ↓State.onField_blank, ↓blank_ite, ↓fst_ite, ite_self, implies_true]; done)
    | split
    | simp only [h0, ↓State.onField_blank, ↓blank_ite, ↓fst_ite, ite_self, implies_true]

theorem State.voltEnd_blank (h0 : bl .regs = true) (h1 : bl .tb = true) (h2 : bl .field = true) (s : State) (ch : Nat) (flags : Nat) : State.blank bl (State.voltEnd s ch flags).1 = State.blank bl s := by
  unfold State.voltEnd
  repeat' first
    | with_reducible rfl
    | (simp only [h0, h1, h2, ↓State.setBreak_blank, ↓State.onVolt_blank, ↓blank_ite, ↓fst_ite, ite_self, implies_true]; done)
    | split
    | simp only [h0, h1, h2, ↓State.setBreak_blank, ↓State.onVolt_blank, ↓blank_ite, ↓fst_ite, ite_self, implies_true]

theorem State.adapt_blank (h0 : bl .freeUse = true) (h1 : bl .regs = true) (s : State) (l : Nat) : State.blank bl (State.adapt s l) = State.blank bl s := by
  unfold State.adapt
  repeat' first
    | with_reducible rfl
    | (simp only [h0, h1, ↓State.useFree_blank, ↓State.setReg_blank, ↓blank_ite, ↓fst_ite, ite_self, implies_true]; done)
    | split
    | simp only [h0, h1, ↓State.useFree_blank, ↓State.setReg_blank, ↓blank_ite, ↓fst_ite, ite_self, implies_true]

theorem excitationSettled_blank (h0 : bl .regs = true) (h1 : bl .tb = true) (n : Fin 2) (s : State) : State.blank bl (excitationSettled n s) = State.blank bl s := by
  unfold excitationSettled
  repeat' first
    | with_reducible rfl
    | (simp only [h0, h1, ↓State.logField_blank, ↓State.setBit_blank, ↓blank_ite, ↓fst_ite, ite_self, implies_true]; done)
    | split
    | simp only [h0, h1, ↓State.logField_blank, ↓State.setBit_blank, ↓blank_ite, ↓fst_ite, ite_self, implies_true]

theorem aouTestResult_blank (h0 : bl .regs = true) (h1 : bl .tb = true) (h2 : bl .field = true) (o : Fin 6) (readback : BitVec 16) (s : State) : State.blank bl (aouTestResult o readback s) = State.blank bl s := by
  unfold aouTestResult
  repeat' first
    | with_reducible rfl
    | (simp only [h0, h1, h2, ↓State.setTest_blank, ↓State.setFld_blank, ↓State.count_blank, ↓State.setBit_blank, ↓State.logField_blank, ↓blank_ite, ↓fst_ite, ite_self, implies_true]; done)
    | split
    | simp only [h0, h1, h2, ↓State.setTest_blank, ↓State.setFld_blank, ↓State.count_blank, ↓State.setBit_blank, ↓State.logField_blank, ↓blank_ite, ↓fst_ite, ite_self, implies_true]

theorem chargeInputTestDone_blank (h0 : bl .regs = true) (h1 : bl .tb = true) (h2 : bl .field = true) (cap : Nat) (s : State) : State.blank bl (chargeInputTestDone cap s) = State.blank bl s := by
  unfold chargeInputTestDone
  repeat' first
    | with_reducible rfl
    | (simp only [h0, h1, h2, ↓State.onField_blank, ↓State.onAmp_blank, ↓State.setBreak_blank, ↓State.logField_blank, ↓blank_ite, ↓fst_ite, ite_self, implies_true]; done)
    | split
    | simp only [h0, h1, h2, ↓State.onField_blank, ↓State.onAmp_blank, ↓State.setBreak_blank, ↓State.logField_blank, ↓blank_ite, ↓fst_ite, ite_self, implies_true]

theorem State.aoStatus_blank (h0 : bl .regs = true) (h1 : bl .tb = true) (s : State) (k : Nat) (b : Nat) (v : Bool) : State.blank bl (State.aoStatus s k b v) = State.blank bl s := by
  unfold State.aoStatus
  repeat' first
    | with_reducible rfl
    | (simp only [h0, h1, ↓State.setBit_blank, ↓State.logField_blank, ↓blank_ite, ↓fst_ite, ite_self, implies_true]; done)
    | split
    | simp only [h0, h1, ↓State.setBit_blank, ↓State.logField_blank, ↓blank_ite, ↓fst_ite, ite_self, implies_true]

theorem aouStaleTimeout_blank (h0 : bl .regs = true) (h1 : bl .tb = true) (h2 : bl .field = true) (o : Fin 8) (s : State) : State.blank bl (aouStaleTimeout o s) = State.blank bl s := by
  unfold aouStaleTimeout
  repeat' first
    | with_reducible rfl
    | (simp only [h0, h1, h2, ↓State.aoStatus_blank, ↓State.setSafe_blank, ↓State.setTest_blank, ↓blank_ite, ↓fst_ite, ite_self, implies_true]; done)
    | split
    | simp only [h0, h1, h2, ↓State.aoStatus_blank, ↓State.setSafe_blank, ↓State.setTest_blank, ↓blank_ite, ↓fst_ite, ite_self, implies_true]

theorem chargeResetEnd_blank (h0 : bl .field = true) (n : Fin 8) (s : State) : State.blank bl (chargeResetEnd n s) = State.blank bl s := by
  unfold chargeResetEnd
  repeat' first
    | with_reducible rfl
    | (simp only [h0, ↓State.onAmp_blank, ↓blank_ite, ↓fst_ite, ite_self, implies_true]; done)
    | split
    | simp only [h0, ↓State.onAmp_blank, ↓blank_ite, ↓fst_ite, ite_self, implies_true]

theorem blockVerifyDone_blank (h0 : bl .regs = true) (h1 : bl .tb = true) (h2 : bl .hearth = true) (h3 : bl .mem = true) (h4 : bl .comps = true) (k : Fin 12) (bad : Bool) (s : State) : State.blank bl (blockVerifyDone k bad s) = State.blank bl s := by
  unfold blockVerifyDone
  repeat' first
    | with_reducible rfl
    | (simp only [h0, h1, h2, h3, h4, ↓State.onComp_blank, ↓State.logDev_blank, ↓State.count_blank, ↓State.markFrame_blank, ↓blank_ite, ↓fst_ite, ite_self, implies_true]; done)
    | split
    | simp only [h0, h1, h2, h3, h4, ↓State.onComp_blank, ↓State.logDev_blank, ↓State.count_blank, ↓State.markFrame_blank, ↓blank_ite, ↓fst_ite, ite_self, implies_true]

theorem State.chargeGo_blank (h0 : bl .bgs = true) (h1 : bl .field = true) (s : State) (n : Nat) : State.blank bl (State.chargeGo s n) = State.blank bl s := by
  unfold State.chargeGo
  repeat' first
    | with_reducible rfl
    | (simp only [h0, h1, ↓State.ranAt_blank, ↓State.onField_blank, ↓blank_ite, ↓fst_ite, ite_self, implies_true]; done)
    | split
    | simp only [h0, h1, ↓State.ranAt_blank, ↓State.onField_blank, ↓blank_ite, ↓fst_ite, ite_self, implies_true]

theorem State.calGo_blank (h0 : bl .bgs = true) (h1 : bl .field = true) (s : State) (x : Nat) : State.blank bl (State.calGo s x) = State.blank bl s := by
  unfold State.calGo
  repeat' first
    | with_reducible rfl
    | (simp only [h0, h1, ↓State.ranAt_blank, ↓State.onAdc_blank, ↓State.calBegin_blank, ↓blank_ite, ↓fst_ite, ite_self, implies_true]; done)
    | split
    | simp only [h0, h1, ↓State.ranAt_blank, ↓State.onAdc_blank, ↓State.calBegin_blank, ↓blank_ite, ↓fst_ite, ite_self, implies_true]

theorem lvdtSumTrip_blank (h0 : bl .regs = true) (h1 : bl .tb = true) (k : Fin 2) (s : State) : State.blank bl (lvdtSumTrip k s) = State.blank bl s := by
  unfold lvdtSumTrip
  repeat' first
    | with_reducible rfl
    | (simp only [h0, h1, ↓State.setBreak_blank, ↓blank_ite, ↓fst_ite, ite_self, implies_true]; done)
    | split
    | simp only [h0, h1, ↓State.setBreak_blank, ↓blank_ite, ↓fst_ite, ite_self, implies_true]

theorem tileFrameTimeout_blank (h0 : bl .out = true) (h1 : bl .regs = true) (h2 : bl .tb = true) (h3 : bl .hearth = true) (h4 : bl .mem = true) (h5 : bl .trig = true) (h6 : bl .comps = true) (h7 : bl .pair = true) (h8 : bl .host = true) (f : Fin 48) (n : Nat) (s : State) : State.blank bl (tileFrameTimeout f n s) = State.blank bl s := by
  unfold tileFrameTimeout
  repeat' first
    | with_reducible rfl
    | (simp only [h0, h1, h2, h3, h4, h5, h6, h7, h8, ↓State.endBlock_blank, ↓State.count_blank, ↓State.tfFlushed_blank, ↓State.onOpen_blank, ↓State.settleFrames_blank, ↓State.tfClose_blank, ↓blank_ite, ↓fst_ite, ite_self, implies_true]; done)
    | split
    | simp only [h0, h1, h2, h3, h4, h5, h6, h7, h8, ↓State.endBlock_blank, ↓State.count_blank, ↓State.tfFlushed_blank, ↓State.onOpen_blank, ↓State.settleFrames_blank, ↓State.tfClose_blank, ↓blank_ite, ↓fst_ite, ite_self, implies_true]

theorem State.dataWrite_blank (h0 : bl .regs = true) (h1 : bl .field = true) (s : State) (x : Nat) (r : AdcResult) : State.blank bl (State.dataWrite s x r) = State.blank bl s := by
  unfold State.dataWrite
  repeat' first
    | with_reducible rfl
    | (simp only [h0, h1, ↓State.count_blank, ↓State.onAdc_blank, ↓blank_ite, ↓fst_ite, ite_self, implies_true]; done)
    | split
    | simp only [h0, h1, ↓State.count_blank, ↓State.onAdc_blank, ↓blank_ite, ↓fst_ite, ite_self, implies_true]

theorem State.adcAdvance_blank (h0 : bl .field = true) (s : State) (x : Nat) (inj : Bool) : State.blank bl (State.adcAdvance s x inj) = State.blank bl s := by
  unfold State.adcAdvance
  repeat' first
    | with_reducible rfl
    | (simp only [h0, ↓State.onAdc_blank, ↓State.calBegin_blank, ↓blank_ite, ↓fst_ite, ite_self, implies_true]; done)
    | split
    | simp only [h0, ↓State.onAdc_blank, ↓State.calBegin_blank, ↓blank_ite, ↓fst_ite, ite_self, implies_true]

theorem adcConversionDone_blank (h0 : bl .regs = true) (h1 : bl .tb = true) (h2 : bl .field = true) (x : Fin 2) (raw : Int) (s : State) : State.blank bl (adcConversionDone x raw s) = State.blank bl s := by
  unfold adcConversionDone
  repeat' first
    | with_reducible rfl
    | (simp only [h0, h1, h2, ↓State.voltEnd_blank, ↓State.onAdc_blank, ↓State.dataWrite_blank, ↓State.adcAdvance_blank, ↓blank_ite, ↓fst_ite, ite_self, implies_true]; done)
    | split
    | simp only [h0, h1, h2, ↓State.voltEnd_blank, ↓State.onAdc_blank, ↓State.dataWrite_blank, ↓State.adcAdvance_blank, ↓blank_ite, ↓fst_ite, ite_self, implies_true]

theorem State.frameTrigger_blank (h0 : bl .regs = true) (h1 : bl .field = true) (s : State) : State.blank bl (State.frameTrigger s) = State.blank bl s := by
  unfold State.frameTrigger
  repeat' first
    | with_reducible rfl
    | (simp only [h0, h1, State.each_blank, ↓State.regularTrigger_blank, ↓blank_ite, ↓fst_ite, ite_self, implies_true]; done)
    | split
    | simp only [h0, h1, State.each_blank, ↓State.regularTrigger_blank, ↓blank_ite, ↓fst_ite, ite_self, implies_true]
    | refine (State.each_blank _ _ _ ?_).trans ?_
    | intro _

theorem lvdtSumRelease_blank (h0 : bl .regs = true) (h1 : bl .tb = true) (k : Fin 2) (s : State) : State.blank bl (lvdtSumRelease k s) = State.blank bl s := by
  unfold lvdtSumRelease
  repeat' first
    | with_reducible rfl
    | (simp only [h0, h1, ↓State.setBreak_blank, ↓blank_ite, ↓fst_ite, ite_self, implies_true]; done)
    | split
    | simp only [h0, h1, ↓State.setBreak_blank, ↓blank_ite, ↓fst_ite, ite_self, implies_true]

theorem fragmentEnterStream_blank (h0 : bl .out = true) (h1 : bl .freeUse = true) (h2 : bl .regs = true) (h3 : bl .tb = true) (h4 : bl .order = true) (h5 : bl .hearth = true) (h6 : bl .mem = true) (h7 : bl .trig = true) (h8 : bl .staging = true) (h9 : bl .comps = true) (h10 : bl .pair = true) (h11 : bl .host = true) (f : Fin 48) (s : State) : State.blank bl (fragmentEnterStream f s) = State.blank bl s := by
  unfold fragmentEnterStream
  repeat' first
    | with_reducible rfl
    | (simp only [h0, h1, h2, h3, h4, h5, h6, h7, h8, h9, h10, h11, ↓State.enterFragment_blank, ↓State.endBlock_blank, ↓blank_ite, ↓fst_ite, ite_self, implies_true]; done)
    | split
    | simp only [h0, h1, h2, h3, h4, h5, h6, h7, h8, h9, h10, h11, ↓State.enterFragment_blank, ↓State.endBlock_blank, ↓blank_ite, ↓fst_ite, ite_self, implies_true]

theorem excitationApply_blank (h0 : bl .regs = true) (h1 : bl .tb = true) (h2 : bl .field = true) (n : Fin 2) (s : State) : State.blank bl (excitationApply n s) = State.blank bl s := by
  unfold excitationApply
  repeat' first
    | with_reducible rfl
    | (simp only [h0, h1, h2, ↓State.setBit_blank, ↓State.onExc_blank, ↓State.logField_blank, ↓blank_ite, ↓fst_ite, ite_self, implies_true]; done)
    | split
    | simp only [h0, h1, h2, ↓State.setBit_blank, ↓State.onExc_blank, ↓State.logField_blank, ↓blank_ite, ↓fst_ite, ite_self, implies_true]

theorem bypassDispatch_blank (h0 : bl .regs = true) (h1 : bl .tb = true) (h2 : bl .order = true) (h3 : bl .queues = true) (h4 : bl .bellows = true) (h5 : bl .engines = true) (h6 : bl .bgs = true) (h7 : bl .hearth = true) (h8 : bl .mem = true) (h9 : bl .staging = true) (l : Fin 96) (ecc : QueueEcc) (s : State) : State.blank bl (bypassDispatch l ecc s) = State.blank bl s := by
  unfold bypassDispatch
  repeat' first
    | with_reducible rfl
    | (simp only [h0, h1, h2, h3, h4, h5, h6, h7, h8, h9, ↓State.passLeft_blank, ↓State.readFront_blank, ↓State.stageBypass_blank, ↓State.count_blank, ↓State.slagDelivered_blank, ↓blank_ite, ↓fst_ite, ite_self, implies_true]; done)
    | split
    | simp only [h0, h1, h2, h3, h4, h5, h6, h7, h8, h9, ↓State.passLeft_blank, ↓State.readFront_blank, ↓State.stageBypass_blank, ↓State.count_blank, ↓State.slagDelivered_blank, ↓blank_ite, ↓fst_ite, ite_self, implies_true]

theorem voltageBreakTrip_blank (h0 : bl .field = true) (v : Fin 4) (s : State) : State.blank bl (voltageBreakTrip v s) = State.blank bl s := by
  unfold voltageBreakTrip
  repeat' first
    | with_reducible rfl
    | (simp only [h0, ↓State.onVolt_blank, ↓State.onField_blank, ↓blank_ite, ↓fst_ite, ite_self, implies_true]; done)
    | split
    | simp only [h0, ↓State.onVolt_blank, ↓State.onField_blank, ↓blank_ite, ↓fst_ite, ite_self, implies_true]

theorem auxPackerTimeout_blank (h0 : bl .regs = true) (h1 : bl .tb = true) (h2 : bl .order = true) (h3 : bl .queues = true) (h4 : bl .bellows = true) (h5 : bl .bgs = true) (s : State) : State.blank bl (auxPackerTimeout s) = State.blank bl s := by
  unfold auxPackerTimeout
  repeat' first
    | with_reducible rfl
    | (simp only [h0, h1, h2, h3, h4, h5, ↓State.packClose_blank, ↓blank_ite, ↓fst_ite, ite_self, implies_true]; done)
    | split
    | simp only [h0, h1, h2, h3, h4, h5, ↓State.packClose_blank, ↓blank_ite, ↓fst_ite, ite_self, implies_true]

theorem sampleForward_blank (h0 : bl .regs = true) (h1 : bl .tb = true) (h2 : bl .order = true) (h3 : bl .queues = true) (h4 : bl .bellows = true) (h5 : bl .bgs = true) (h6 : bl .field = true) (h7 : bl .trig = true) (x : Fin 2) (s : State) : State.blank bl (sampleForward x s) = State.blank bl s := by
  unfold sampleForward
  repeat' first
    | with_reducible rfl
    | (simp only [h0, h1, h2, h3, h4, h5, h6, h7, ↓State.forward_blank, ↓blank_ite, ↓fst_ite, ite_self, implies_true]; done)
    | split
    | simp only [h0, h1, h2, h3, h4, h5, h6, h7, ↓State.forward_blank, ↓blank_ite, ↓fst_ite, ite_self, implies_true]

theorem aouLoopError_blank (h0 : bl .regs = true) (h1 : bl .tb = true) (o : Fin 6) (readback : BitVec 16) (s : State) : State.blank bl (aouLoopError o readback s) = State.blank bl s := by
  unfold aouLoopError
  repeat' first
    | with_reducible rfl
    | (simp only [h0, h1, ↓State.setFld_blank, ↓State.aoStatus_blank, ↓State.count_blank, ↓blank_ite, ↓fst_ite, ite_self, implies_true]; done)
    | split
    | simp only [h0, h1, ↓State.setFld_blank, ↓State.aoStatus_blank, ↓State.count_blank, ↓blank_ite, ↓fst_ite, ite_self, implies_true]

theorem chargeInputTest_blank (h0 : bl .bgs = true) (h1 : bl .field = true) (n : Fin 8) (s : State) : State.blank bl (chargeInputTest n s) = State.blank bl s := by
  unfold chargeInputTest
  repeat' first
    | with_reducible rfl
    | (simp only [h0, h1, ↓State.addDue_blank, ↓State.chargeGo_blank, ↓blank_ite, ↓fst_ite, ite_self, implies_true]; done)
    | split
    | simp only [h0, h1, ↓State.addDue_blank, ↓State.chargeGo_blank, ↓blank_ite, ↓fst_ite, ite_self, implies_true]

theorem State.acceptStrip_blank (h0 : bl .regs = true) (h1 : bl .tb = true) (h2 : bl .tiles = true) (h3 : bl .order = true) (h4 : bl .queues = true) (h5 : bl .bellows = true) (h6 : bl .engines = true) (h7 : bl .bgs = true) (s : State) (f : Nat) (h : Held) : State.blank bl (State.acceptStrip s f h) = State.blank bl s := by
  unfold State.acceptStrip
  repeat' first
    | with_reducible rfl
    | (simp only [h0, h1, h2, h3, h4, h5, h6, h7, ↓State.releaseStrip_blank, ↓State.onTile_blank, ↓State.releaseHeld_blank, ↓State.noticeLoss_blank, ↓blank_ite, ↓fst_ite, ite_self, implies_true]; done)
    | split
    | simp only [h0, h1, h2, h3, h4, h5, h6, h7, ↓State.releaseStrip_blank, ↓State.onTile_blank, ↓State.releaseHeld_blank, ↓State.noticeLoss_blank, ↓blank_ite, ↓fst_ite, ite_self, implies_true]

theorem stripRx_blank (h0 : bl .freeUse = true) (h1 : bl .regs = true) (h2 : bl .tb = true) (h3 : bl .rx = true) (h4 : bl .tiles = true) (h5 : bl .order = true) (h6 : bl .queues = true) (h7 : bl .bellows = true) (h8 : bl .engines = true) (h9 : bl .bgs = true) (l : Fin 96) (bytes : List Byte) (t : Nat) (cut : Bool) (s : State) : State.blank bl (stripRx l bytes t cut s) = State.blank bl s := by
  unfold stripRx
  repeat' first
    | with_reducible rfl
    | (simp only [h0, h1, h2, h3, h4, h5, h6, h7, h8, h9, ↓State.count_blank, ↓State.adapt_blank, ↓State.putFreeUse_blank, ↓State.onRx_blank, ↓State.acceptStrip_blank, ↓blank_ite, ↓fst_ite, ite_self, implies_true]; done)
    | split
    | simp only [h0, h1, h2, h3, h4, h5, h6, h7, h8, h9, ↓State.count_blank, ↓State.adapt_blank, ↓State.putFreeUse_blank, ↓State.onRx_blank, ↓State.acceptStrip_blank, ↓blank_ite, ↓fst_ite, ite_self, implies_true]

theorem aouUpdate_blank (h0 : bl .regs = true) (h1 : bl .tb = true) (h2 : bl .slots = true) (h3 : bl .field = true) (s : State) : State.blank bl (aouUpdate s) = State.blank bl s := by
  unfold aouUpdate
  repeat' first
    | with_reducible rfl
    | (simp only [h0, h1, h2, h3, ↓State.putSlots_blank, State.each_blank, ↓State.demand_blank, ↓State.aoStatus_blank, ↓blank_ite, ↓fst_ite, ite_self, implies_true]; done)
    | split
    | simp only [h0, h1, h2, h3, ↓State.putSlots_blank, State.each_blank, ↓State.demand_blank, ↓State.aoStatus_blank, ↓blank_ite, ↓fst_ite, ite_self, implies_true]
    | refine (State.each_blank _ _ _ ?_).trans ?_
    | intro _

theorem aouTestCompare_blank (h0 : bl .regs = true) (h1 : bl .field = true) (o : Fin 6) (readback : BitVec 16) (s : State) : State.blank bl (aouTestCompare o readback s) = State.blank bl s := by
  unfold aouTestCompare
  repeat' first
    | with_reducible rfl
    | (simp only [h0, h1, ↓State.setTest_blank, ↓State.setFld_blank, ↓blank_ite, ↓fst_ite, ite_self, implies_true]; done)
    | split
    | simp only [h0, h1, ↓State.setTest_blank, ↓State.setFld_blank, ↓blank_ite, ↓fst_ite, ite_self, implies_true]

theorem blockCodingStart_blank (h0 : bl .regs = true) (h1 : bl .comps = true) (k : Fin 12) (s : State) : State.blank bl (blockCodingStart k s) = State.blank bl s := by
  unfold blockCodingStart
  repeat' first
    | with_reducible rfl
    | (simp only [h0, h1, ↓State.count_blank, ↓State.onComp_blank, ↓blank_ite, ↓fst_ite, ite_self, implies_true]; done)
    | split
    | simp only [h0, h1, ↓State.count_blank, ↓State.onComp_blank, ↓blank_ite, ↓fst_ite, ite_self, implies_true]

theorem sampleRoute_blank (h0 : bl .regs = true) (h1 : bl .tb = true) (h2 : bl .queues = true) (h3 : bl .bellows = true) (h4 : bl .bgs = true) (h5 : bl .field = true) (h6 : bl .mem = true) (h7 : bl .trig = true) (ecc : QueueEcc) (s : State) : State.blank bl (sampleRoute ecc s) = State.blank bl s := by
  unfold sampleRoute
  repeat' first
    | with_reducible rfl
    | (simp only [h0, h1, h2, h3, h4, h5, h6, h7, ↓State.routeFront_blank, ↓blank_ite, ↓fst_ite, ite_self, implies_true]; done)
    | split
    | simp only [h0, h1, h2, h3, h4, h5, h6, h7, ↓State.routeFront_blank, ↓blank_ite, ↓fst_ite, ite_self, implies_true]

theorem aouLoopErrorClear_blank (h0 : bl .regs = true) (h1 : bl .tb = true) (o : Fin 6) (readback : BitVec 16) (s : State) : State.blank bl (aouLoopErrorClear o readback s) = State.blank bl s := by
  unfold aouLoopErrorClear
  repeat' first
    | with_reducible rfl
    | (simp only [h0, h1, ↓State.aoStatus_blank, ↓State.setFld_blank, ↓blank_ite, ↓fst_ite, ite_self, implies_true]; done)
    | split
    | simp only [h0, h1, ↓State.aoStatus_blank, ↓State.setFld_blank, ↓blank_ite, ↓fst_ite, ite_self, implies_true]

theorem blockCommit_blank (h0 : bl .out = true) (h1 : bl .regs = true) (h2 : bl .tb = true) (h3 : bl .hearth = true) (h4 : bl .mem = true) (h5 : bl .trig = true) (h6 : bl .comps = true) (h7 : bl .pair = true) (h8 : bl .host = true) (k : Fin 12) (s : State) : State.blank bl (blockCommit k s) = State.blank bl s := by
  unfold blockCommit
  repeat' first
    | with_reducible rfl
    | (simp only [h0, h1, h2, h3, h4, h5, h6, h7, h8, ↓State.commitBlock_blank, ↓blank_ite, ↓fst_ite, ite_self, implies_true]; done)
    | split
    | simp only [h0, h1, h2, h3, h4, h5, h6, h7, h8, ↓State.commitBlock_blank, ↓blank_ite, ↓fst_ite, ite_self, implies_true]

theorem adcCalibrationDone_blank (h0 : bl .regs = true) (h1 : bl .tb = true) (h2 : bl .field = true) (x : Fin 2) (ofs : Int) (gain : Nat) (s : State) : State.blank bl (adcCalibrationDone x ofs gain s) = State.blank bl s := by
  unfold adcCalibrationDone
  repeat' first
    | with_reducible rfl
    | (simp only [h0, h1, h2, ↓State.onAdc_blank, ↓State.setReg_blank, ↓State.count_blank, ↓State.logField_blank, ↓blank_ite, ↓fst_ite, ite_self, implies_true]; done)
    | split
    | simp only [h0, h1, h2, ↓State.onAdc_blank, ↓State.setReg_blank, ↓State.count_blank, ↓State.logField_blank, ↓blank_ite, ↓fst_ite, ite_self, implies_true]

theorem voltageBreakRelease_blank (h0 : bl .field = true) (v : Fin 4) (s : State) : State.blank bl (voltageBreakRelease v s) = State.blank bl s := by
  unfold voltageBreakRelease
  repeat' first
    | with_reducible rfl
    | (simp only [h0, ↓State.onVolt_blank, ↓blank_ite, ↓fst_ite, ite_self, implies_true]; done)
    | split
    | simp only [h0, ↓State.onVolt_blank, ↓blank_ite, ↓fst_ite, ite_self, implies_true]

theorem aouTestRestore_blank (h0 : bl .regs = true) (h1 : bl .field = true) (o : Fin 6) (s : State) : State.blank bl (aouTestRestore o s) = State.blank bl s := by
  unfold aouTestRestore
  repeat' first
    | with_reducible rfl
    | (simp only [h0, h1, ↓State.setFld_blank, ↓State.setTest_blank, ↓blank_ite, ↓fst_ite, ite_self, implies_true]; done)
    | split
    | simp only [h0, h1, ↓State.setFld_blank, ↓State.setTest_blank, ↓blank_ite, ↓fst_ite, ite_self, implies_true]

theorem adcSamplingInstant_blank (h0 : bl .field = true) (x : Fin 2) (t : Stamp) (s : State) : State.blank bl (adcSamplingInstant x t s) = State.blank bl s := by
  unfold adcSamplingInstant
  repeat' first
    | with_reducible rfl
    | (simp only [h0, ↓State.onAdc_blank, ↓blank_ite, ↓fst_ite, ite_self, implies_true]; done)
    | split
    | simp only [h0, ↓State.onAdc_blank, ↓blank_ite, ↓fst_ite, ite_self, implies_true]

theorem tokenPost_blank (h0 : bl .regs = true) (h1 : bl .tb = true) (h2 : bl .order = true) (h3 : bl .queues = true) (h4 : bl .bellows = true) (h5 : bl .engines = true) (h6 : bl .bgs = true) (h7 : bl .hearth = true) (h8 : bl .mem = true) (l : Fin 96) (ecc : QueueEcc) (s : State) : State.blank bl (tokenPost l ecc s) = State.blank bl s := by
  unfold tokenPost
  repeat' first
    | with_reducible rfl
    | (simp only [h0, h1, h2, h3, h4, h5, h6, h7, h8, ↓State.readFront_blank, ↓State.onEngine_blank, ↓State.paceCheck_blank, ↓State.count_blank, ↓State.slagDelivered_blank, ↓blank_ite, ↓fst_ite, ite_self, implies_true]; done)
    | split
    | simp only [h0, h1, h2, h3, h4, h5, h6, h7, h8, ↓State.readFront_blank, ↓State.onEngine_blank, ↓State.paceCheck_blank, ↓State.count_blank, ↓State.slagDelivered_blank, ↓blank_ite, ↓fst_ite, ite_self, implies_true]

theorem adcCalibrationDue_blank (h0 : bl .bgs = true) (h1 : bl .field = true) (x : Fin 2) (s : State) : State.blank bl (adcCalibrationDue x s) = State.blank bl s := by
  unfold adcCalibrationDue
  repeat' first
    | with_reducible rfl
    | (simp only [h0, h1, ↓State.addDue_blank, ↓State.calGo_blank, ↓blank_ite, ↓fst_ite, ite_self, implies_true]; done)
    | split
    | simp only [h0, h1, ↓State.addDue_blank, ↓State.calGo_blank, ↓blank_ite, ↓fst_ite, ite_self, implies_true]

theorem ringRangeLast_blank (h0 : bl .tb = true) (h1 : bl .field = true) (h2 : bl .hearth = true) (seg : Fin 64) (s : State) : State.blank bl (ringRangeLast seg s) = State.blank bl s := by
  unfold ringRangeLast
  repeat' first
    | with_reducible rfl
    | (simp only [h0, h1, h2, State.onH_blank, ↓State.onField_blank, ↓State.logField_blank, ↓blank_ite, ↓fst_ite, ite_self, implies_true]; done)
    | split
    | simp only [h0, h1, h2, State.onH_blank, ↓State.onField_blank, ↓State.logField_blank, ↓blank_ite, ↓fst_ite, ite_self, implies_true]
    | (refine (State.onH_blank h2 _ _ rfl).trans ?_)

theorem adcPowerDown_blank (h0 : bl .field = true) (x : Fin 2) (s : State) : State.blank bl (adcPowerDown x s) = State.blank bl s := by
  unfold adcPowerDown
  repeat' first
    | with_reducible rfl
    | (simp only [h0, ↓State.onAdc_blank, ↓blank_ite, ↓fst_ite, ite_self, implies_true]; done)
    | split
    | simp only [h0, ↓State.onAdc_blank, ↓blank_ite, ↓fst_ite, ite_self, implies_true]

theorem aouLoopTestStart_blank (h0 : bl .regs = true) (h1 : bl .field = true) (o : Fin 6) (readback : BitVec 16) (s : State) : State.blank bl (aouLoopTestStart o readback s) = State.blank bl s := by
  unfold aouLoopTestStart
  repeat' first
    | with_reducible rfl
    | (simp only [h0, h1, ↓State.setFld_blank, ↓State.setTest_blank, ↓blank_ite, ↓fst_ite, ite_self, implies_true]; done)
    | split
    | simp only [h0, h1, ↓State.setFld_blank, ↓State.setTest_blank, ↓blank_ite, ↓fst_ite, ite_self, implies_true]

end Sys2Proof.Machine
end

