-- ==== Sys2Proof/Laws/BlankEngine.lean ====
section
/-!
SUPPORT. What each operation leaves alone: the parts of the state that it can change are emptied on both sides, and the rest agrees.
The files of Machine/: Engine, Pace, Sequencer, Background, Outputs, Trigger, Stream.
-/

namespace Sys2Proof.Machine

set_option linter.unusedSimpArgs false

variable {bl : Comp → Bool}

theorem State.onTrig_blank (h0 : bl .trig = true) (s : State) (g : Trig → Trig) : State.blank bl (State.onTrig s g) = State.blank bl s := by
  unfold State.onTrig
  repeat' first
    | with_reducible rfl
    | (simp only [h0, ↓State.putTrig_blank, ↓blank_ite, ↓fst_ite, ite_self, implies_true]; done)
    | split
    | simp only [h0, ↓State.putTrig_blank, ↓blank_ite, ↓fst_ite, ite_self, implies_true]

theorem State.logFrame_blank (h0 : bl .tb = true) (s : State) (fr : FrameTime) : State.blank bl (State.logFrame s fr) = State.blank bl s := by
  unfold State.logFrame
  repeat' first
    | with_reducible rfl
    | (simp only [h0, ↓State.log_blank, ↓blank_ite, ↓fst_ite, ite_self, implies_true]; done)
    | split
    | simp only [h0, ↓State.log_blank, ↓blank_ite, ↓fst_ite, ite_self, implies_true]

theorem State.checkStrobes_blank (h0 : bl .regs = true) (h1 : bl .tb = true) (h2 : bl .trig = true) (s : State) : State.blank bl (State.checkStrobes s) = State.blank bl s := by
  unfold State.checkStrobes
  repeat' first
    | with_reducible rfl
    | (simp only [h0, h1, h2, ↓State.onTrig_blank, State.each_blank, ↓State.logFrame_blank, ↓State.count_blank, ↓blank_ite, ↓fst_ite, ite_self, implies_true]; done)
    | split
    | simp only [h0, h1, h2, ↓State.onTrig_blank, State.each_blank, ↓State.logFrame_blank, ↓State.count_blank, ↓blank_ite, ↓fst_ite, ite_self, implies_true]
    | refine (State.each_blank _ _ _ ?_).trans ?_
    | intro _

theorem State.anvStop_blank (h0 : bl .queues = true) (h1 : bl .engines = true) (s : State) : State.blank bl (State.anvStop s) = State.blank bl s := by
  unfold State.anvStop
  repeat' first
    | with_reducible rfl
    | (simp only [h0, h1, ↓State.cancelCopies_blank, State.each_blank, ↓State.onEngine_blank, ↓blank_ite, ↓fst_ite, ite_self, implies_true]; done)
    | split
    | simp only [h0, h1, ↓State.cancelCopies_blank, State.each_blank, ↓State.onEngine_blank, ↓blank_ite, ↓fst_ite, ite_self, implies_true]
    | refine (State.each_blank _ _ _ ?_).trans ?_
    | intro _

theorem State.onSeq_blank (h0 : bl .trig = true) (s : State) (g : Sequencer → Sequencer) : State.blank bl (State.onSeq s g) = State.blank bl s := by
  unfold State.onSeq
  repeat' first
    | with_reducible rfl
    | (simp only [h0, ↓State.onTrig_blank, ↓blank_ite, ↓fst_ite, ite_self, implies_true]; done)
    | split
    | simp only [h0, ↓State.onTrig_blank, ↓blank_ite, ↓fst_ite, ite_self, implies_true]

theorem State.seqStop_blank (h0 : bl .trig = true) (s : State) : State.blank bl (State.seqStop s) = State.blank bl s := by
  unfold State.seqStop
  repeat' first
    | with_reducible rfl
    | (simp only [h0, ↓State.onTrig_blank, ↓State.onSeq_blank, ↓blank_ite, ↓fst_ite, ite_self, implies_true]; done)
    | split
    | simp only [h0, ↓State.onTrig_blank, ↓State.onSeq_blank, ↓blank_ite, ↓fst_ite, ite_self, implies_true]

theorem State.serviceEnd_blank (h0 : bl .regs = true) (h1 : bl .tdc = true) (h2 : bl .field = true) (s : State) : State.blank bl (State.serviceEnd s) = State.blank bl s := by
  unfold State.serviceEnd
  repeat' first
    | with_reducible rfl
    | (simp only [h0, h1, h2, ↓State.chargeTestEnd_blank, ↓State.calAbandon_blank, ↓State.onTdc_blank, ↓State.setBit_blank, ↓blank_ite, ↓fst_ite, ite_self, implies_true]; done)
    | split
    | simp only [h0, h1, h2, ↓State.chargeTestEnd_blank, ↓State.calAbandon_blank, ↓State.onTdc_blank, ↓State.setBit_blank, ↓blank_ite, ↓fst_ite, ite_self, implies_true]

theorem State.bgsStop_blank (h0 : bl .regs = true) (h1 : bl .tdc = true) (h2 : bl .field = true) (s : State) : State.blank bl (State.bgsStop s) = State.blank bl s := by
  unfold State.bgsStop
  repeat' first
    | with_reducible rfl
    | (simp only [h0, h1, h2, ↓State.serviceEnd_blank, ↓blank_ite, ↓fst_ite, ite_self, implies_true]; done)
    | split
    | simp only [h0, h1, h2, ↓State.serviceEnd_blank, ↓blank_ite, ↓fst_ite, ite_self, implies_true]

theorem State.domUp_blank (h0 : bl .regs = true) (h1 : bl .bgs = true) (s : State) (n : Nat) : State.blank bl (State.domUp s n) = State.blank bl s := by
  unfold State.domUp
  repeat' first
    | with_reducible rfl
    | (simp only [h0, h1, ↓State.putBgs_blank, ↓State.count_blank, ↓State.setFld_blank, ↓blank_ite, ↓fst_ite, ite_self, implies_true]; done)
    | split
    | simp only [h0, h1, ↓State.putBgs_blank, ↓State.count_blank, ↓State.setFld_blank, ↓blank_ite, ↓fst_ite, ite_self, implies_true]

theorem State.addPace_blank (h0 : bl .bgs = true) (s : State) (k : Nat) (ps : Nat) : State.blank bl (State.addPace s k ps) = State.blank bl s := by
  unfold State.addPace
  repeat' first
    | with_reducible rfl
    | (simp only [h0, ↓State.putBgs_blank, ↓blank_ite, ↓fst_ite, ite_self, implies_true]; done)
    | split
    | simp only [h0, ↓State.putBgs_blank, ↓blank_ite, ↓fst_ite, ite_self, implies_true]

theorem State.engineQuench_blank (h0 : bl .tb = true) (h1 : bl .order = true) (h2 : bl .engines = true) (h3 : bl .hearth = true) (h4 : bl .mem = true) (h5 : bl .staging = true) (s : State) (e : Nat) : State.blank bl (State.engineQuench s e) = State.blank bl s := by
  unfold State.engineQuench
  repeat' first
    | with_reducible rfl
    | (simp only [h0, h1, h2, h3, h4, h5, State.each_blank, ↓State.stageEnd_blank, ↓State.dropPartial_blank, ↓State.gapReport_blank, ↓State.onEngine_blank, ↓blank_ite, ↓fst_ite, ite_self, implies_true]; done)
    | split
    | simp only [h0, h1, h2, h3, h4, h5, State.each_blank, ↓State.stageEnd_blank, ↓State.dropPartial_blank, ↓State.gapReport_blank, ↓State.onEngine_blank, ↓blank_ite, ↓fst_ite, ite_self, implies_true]
    | refine (State.each_blank _ _ _ ?_).trans ?_
    | intro _

theorem State.anvQuench_blank (h0 : bl .tb = true) (h1 : bl .order = true) (h2 : bl .queues = true) (h3 : bl .engines = true) (h4 : bl .hearth = true) (h5 : bl .mem = true) (h6 : bl .staging = true) (s : State) : State.blank bl (State.anvQuench s) = State.blank bl s := by
  unfold State.anvQuench
  repeat' first
    | with_reducible rfl
    | (simp only [h0, h1, h2, h3, h4, h5, h6, State.each_blank, ↓State.cancelCopies_blank, ↓State.engineQuench_blank, ↓blank_ite, ↓fst_ite, ite_self, implies_true]; done)
    | split
    | simp only [h0, h1, h2, h3, h4, h5, h6, State.each_blank, ↓State.cancelCopies_blank, ↓State.engineQuench_blank, ↓blank_ite, ↓fst_ite, ite_self, implies_true]
    | refine (State.each_blank _ _ _ ?_).trans ?_
    | intro _

theorem State.dropPending_blank (h0 : bl .trig = true) (s : State) : State.blank bl (State.dropPending s) = State.blank bl s := by
  unfold State.dropPending
  repeat' first
    | with_reducible rfl
    | (simp only [h0, ↓State.onTrig_blank, ↓blank_ite, ↓fst_ite, ite_self, implies_true]; done)
    | split
    | simp only [h0, ↓State.onTrig_blank, ↓blank_ite, ↓fst_ite, ite_self, implies_true]

theorem State.applyPhase_blank (h0 : bl .regs = true) (h1 : bl .tb = true) (h2 : bl .trig = true) (s : State) (u : Stamp) (p : TrigPhase) : State.blank bl (State.applyPhase s u p) = State.blank bl s := by
  unfold State.applyPhase
  repeat' first
    | with_reducible rfl
    | (simp only [h0, h1, h2, ↓State.onTrig_blank, ↓State.trgLog_blank, ↓blank_ite, ↓fst_ite, ite_self, implies_true]; done)
    | split
    | simp only [h0, h1, h2, ↓State.onTrig_blank, ↓State.trgLog_blank, ↓blank_ite, ↓fst_ite, ite_self, implies_true]

theorem State.applyItem_blank (h0 : bl .trig = true) (s : State) (u : Stamp) (a2 : TrigItem) : State.blank bl (State.applyItem s u a2) = State.blank bl s := by
  unfold State.applyItem
  repeat' first
    | with_reducible rfl
    | (simp only [h0, ↓State.onTrig_blank, ↓blank_ite, ↓fst_ite, ite_self, implies_true]; done)
    | split
    | simp only [h0, ↓State.onTrig_blank, ↓blank_ite, ↓fst_ite, ite_self, implies_true]

theorem State.decMismatch_blank (h0 : bl .regs = true) (h1 : bl .tb = true) (s : State) (theirs : Option Decision) (own : Option Decision) : State.blank bl (State.decMismatch s theirs own) = State.blank bl s := by
  unfold State.decMismatch
  repeat' first
    | with_reducible rfl
    | (simp only [h0, h1, ↓State.logDev_blank, ↓State.count_blank, ↓blank_ite, ↓fst_ite, ite_self, implies_true]; done)
    | split
    | simp only [h0, h1, ↓State.logDev_blank, ↓State.count_blank, ↓blank_ite, ↓fst_ite, ite_self, implies_true]

theorem State.ownDecision_blank (h0 : bl .regs = true) (h1 : bl .tb = true) (h2 : bl .pair = true) (s : State) (d : Decision) : State.blank bl (State.ownDecision s d) = State.blank bl s := by
  unfold State.ownDecision
  repeat' first
    | with_reducible rfl
    | (simp only [h0, h1, h2, ↓State.putPair_blank, ↓State.decMismatch_blank, ↓blank_ite, ↓fst_ite, ite_self, implies_true]; done)
    | split
    | simp only [h0, h1, h2, ↓State.putPair_blank, ↓State.decMismatch_blank, ↓blank_ite, ↓fst_ite, ite_self, implies_true]

theorem State.logTest_blank (h0 : bl .tb = true) (s : State) (o : Nat) (result : Nat) : State.blank bl (State.logTest s o result) = State.blank bl s := by
  unfold State.logTest
  repeat' first
    | with_reducible rfl
    | (simp only [h0, ↓State.logDev_blank, ↓blank_ite, ↓fst_ite, ite_self, implies_true]; done)
    | split
    | simp only [h0, ↓State.logDev_blank, ↓blank_ite, ↓fst_ite, ite_self, implies_true]

theorem State.onPin_blank (h0 : bl .trig = true) (s : State) (o : Nat) (g : OutPin → OutPin) : State.blank bl (State.onPin s o g) = State.blank bl s := by
  unfold State.onPin
  repeat' first
    | with_reducible rfl
    | (simp only [h0, ↓State.onTrig_blank, ↓blank_ite, ↓fst_ite, ite_self, implies_true]; done)
    | split
    | simp only [h0, ↓State.onTrig_blank, ↓blank_ite, ↓fst_ite, ite_self, implies_true]

theorem State.testIncomplete_blank (h0 : bl .regs = true) (h1 : bl .tb = true) (h2 : bl .trig = true) (s : State) (o : Nat) : State.blank bl (State.testIncomplete s o) = State.blank bl s := by
  unfold State.testIncomplete
  repeat' first
    | with_reducible rfl
    | (simp only [h0, h1, h2, ↓State.logTest_blank, ↓State.count_blank, ↓State.onPin_blank, ↓blank_ite, ↓fst_ite, ite_self, implies_true]; done)
    | split
    | simp only [h0, h1, h2, ↓State.logTest_blank, ↓State.count_blank, ↓State.onPin_blank, ↓blank_ite, ↓fst_ite, ite_self, implies_true]

theorem State.cutTest_blank (h0 : bl .regs = true) (h1 : bl .tb = true) (h2 : bl .trig = true) (s : State) (o : Nat) : State.blank bl (State.cutTest s o) = State.blank bl s := by
  unfold State.cutTest
  repeat' first
    | with_reducible rfl
    | (simp only [h0, h1, h2, ↓State.testIncomplete_blank, ↓blank_ite, ↓fst_ite, ite_self, implies_true]; done)
    | split
    | simp only [h0, h1, h2, ↓State.testIncomplete_blank, ↓blank_ite, ↓fst_ite, ite_self, implies_true]

theorem State.levelDemand_blank (h0 : bl .regs = true) (h1 : bl .tb = true) (h2 : bl .trig = true) (s : State) : State.blank bl (State.levelDemand s) = State.blank bl s := by
  unfold State.levelDemand
  repeat' first
    | with_reducible rfl
    | (simp only [h0, h1, h2, State.each_blank, ↓State.cutTest_blank, ↓blank_ite, ↓fst_ite, ite_self, implies_true]; done)
    | split
    | simp only [h0, h1, h2, State.each_blank, ↓State.cutTest_blank, ↓blank_ite, ↓fst_ite, ite_self, implies_true]
    | refine (State.each_blank _ _ _ ?_).trans ?_
    | intro _

theorem State.pulse_blank (h0 : bl .out = true) (h1 : bl .regs = true) (h2 : bl .tb = true) (h3 : bl .trig = true) (s : State) (o : Nat) (t : Stamp) : State.blank bl (State.pulse s o t) = State.blank bl s := by
  unfold State.pulse
  repeat' first
    | with_reducible rfl
    | (simp only [h0, h1, h2, h3, ↓State.cutTest_blank, ↓State.emit_blank, ↓State.onPin_blank, ↓blank_ite, ↓fst_ite, ite_self, implies_true]; done)
    | split
    | simp only [h0, h1, h2, h3, ↓State.cutTest_blank, ↓State.emit_blank, ↓State.onPin_blank, ↓blank_ite, ↓fst_ite, ite_self, implies_true]

theorem State.pulseMode_blank (h0 : bl .out = true) (h1 : bl .regs = true) (h2 : bl .tb = true) (h3 : bl .trig = true) (s : State) (mode : Nat) (t : Stamp) : State.blank bl (State.pulseMode s mode t) = State.blank bl s := by
  unfold State.pulseMode
  repeat' first
    | with_reducible rfl
    | (simp only [h0, h1, h2, h3, State.each_blank, ↓State.pulse_blank, ↓blank_ite, ↓fst_ite, ite_self, implies_true]; done)
    | split
    | simp only [h0, h1, h2, h3, State.each_blank, ↓State.pulse_blank, ↓blank_ite, ↓fst_ite, ite_self, implies_true]
    | refine (State.each_blank _ _ _ ?_).trans ?_
    | intro _

theorem State.tellDecision_blank (h0 : bl .out = true) (h1 : bl .pair = true) (s : State) (d : Option Decision) : State.blank bl (State.tellDecision s d) = State.blank bl s := by
  unfold State.tellDecision
  repeat' first
    | with_reducible rfl
    | (simp only [h0, h1, ↓State.mirrorSend_blank, ↓blank_ite, ↓fst_ite, ite_self, implies_true]; done)
    | split
    | simp only [h0, h1, ↓State.mirrorSend_blank, ↓blank_ite, ↓fst_ite, ite_self, implies_true]

theorem State.applyTrigger_blank (h0 : bl .out = true) (h1 : bl .regs = true) (h2 : bl .tb = true) (h3 : bl .tdc = true) (h4 : bl .field = true) (h5 : bl .hearth = true) (h6 : bl .mem = true) (h7 : bl .trig = true) (h8 : bl .pair = true) (h9 : bl .host = true) (s : State) (d : Decision) (pact : Nat) (kind : Nat) : State.blank bl (State.applyTrigger s d pact kind) = State.blank bl s := by
  unfold State.applyTrigger
  repeat' first
    | with_reducible rfl
    | (simp only [h0, h1, h2, h3, h4, h5, h6, h7, h8, h9, ↓State.setReg_blank, ↓State.trgLog_blank, ↓State.ringFirst_blank, ↓State.serviceEnd_blank, ↓State.levelDemand_blank, ↓State.enterPost_blank, ↓State.pulseMode_blank, ↓State.tellDecision_blank, ↓blank_ite, ↓fst_ite, ite_self, implies_true]; done)
    | split
    | simp only [h0, h1, h2, h3, h4, h5, h6, h7, h8, h9, ↓State.setReg_blank, ↓State.trgLog_blank, ↓State.ringFirst_blank, ↓State.serviceEnd_blank, ↓State.levelDemand_blank, ↓State.enterPost_blank, ↓State.pulseMode_blank, ↓State.tellDecision_blank, ↓blank_ite, ↓fst_ite, ite_self, implies_true]

theorem State.judgeTrigger_blank (h0 : bl .out = true) (h1 : bl .regs = true) (h2 : bl .tb = true) (h3 : bl .tdc = true) (h4 : bl .field = true) (h5 : bl .hearth = true) (h6 : bl .mem = true) (h7 : bl .trig = true) (h8 : bl .pair = true) (h9 : bl .host = true) (s : State) (seg : Nat) (u : Stamp) (src : Nat) (forced : Bool) : State.blank bl (State.judgeTrigger s seg u src forced) = State.blank bl s := by
  unfold State.judgeTrigger
  repeat' first
    | with_reducible rfl
    | (simp only [h0, h1, h2, h3, h4, h5, h6, h7, h8, h9, ↓State.trgLog_blank, ↓State.onTrig_blank, ↓State.ownDecision_blank, ↓State.applyTrigger_blank, ↓blank_ite, ↓fst_ite, ite_self, implies_true]; done)
    | split
    | simp only [h0, h1, h2, h3, h4, h5, h6, h7, h8, h9, ↓State.trgLog_blank, ↓State.onTrig_blank, ↓State.ownDecision_blank, ↓State.applyTrigger_blank, ↓blank_ite, ↓fst_ite, ite_self, implies_true]

theorem State.decideTrigger_blank (h0 : bl .out = true) (h1 : bl .regs = true) (h2 : bl .tb = true) (h3 : bl .tdc = true) (h4 : bl .field = true) (h5 : bl .hearth = true) (h6 : bl .mem = true) (h7 : bl .trig = true) (h8 : bl .pair = true) (h9 : bl .host = true) (s : State) (u : Stamp) (src : Nat) (forced : Bool) : State.blank bl (State.decideTrigger s u src forced) = State.blank bl s := by
  unfold State.decideTrigger
  repeat' first
    | with_reducible rfl
    | (simp only [h0, h1, h2, h3, h4, h5, h6, h7, h8, h9, ↓State.trgLog_blank, ↓State.judgeTrigger_blank, ↓blank_ite, ↓fst_ite, ite_self, implies_true]; done)
    | split
    | simp only [h0, h1, h2, h3, h4, h5, h6, h7, h8, h9, ↓State.trgLog_blank, ↓State.judgeTrigger_blank, ↓blank_ite, ↓fst_ite, ite_self, implies_true]

theorem State.evalAt_blank (h0 : bl .out = true) (h1 : bl .regs = true) (h2 : bl .tb = true) (h3 : bl .tdc = true) (h4 : bl .field = true) (h5 : bl .hearth = true) (h6 : bl .mem = true) (h7 : bl .trig = true) (h8 : bl .pair = true) (h9 : bl .host = true) (s : State) (u : Stamp) : State.blank bl (State.evalAt s u) = State.blank bl s := by
  unfold State.evalAt
  repeat' first
    | with_reducible rfl
    | (simp only [h0, h1, h2, h3, h4, h5, h6, h7, h8, h9, ↓State.onTrig_blank, State.each_blank, ↓State.applyPhase_blank, ↓State.applyItem_blank, ↓State.decideTrigger_blank, ↓blank_ite, ↓fst_ite, ite_self, implies_true]; done)
    | split
    | simp only [h0, h1, h2, h3, h4, h5, h6, h7, h8, h9, ↓State.onTrig_blank, State.each_blank, ↓State.applyPhase_blank, ↓State.applyItem_blank, ↓State.decideTrigger_blank, ↓blank_ite, ↓fst_ite, ite_self, implies_true]
    | refine (State.each_blank _ _ _ ?_).trans ?_
    | intro _

theorem State.evalAll_blank (h0 : bl .out = true) (h1 : bl .regs = true) (h2 : bl .tb = true) (h3 : bl .tdc = true) (h4 : bl .field = true) (h5 : bl .hearth = true) (h6 : bl .mem = true) (h7 : bl .trig = true) (h8 : bl .pair = true) (h9 : bl .host = true) (s : State) (limit : Stamp) (a2 : Nat) : State.blank bl (State.evalAll s limit a2) = State.blank bl s := by
  induction a2 generalizing s with
  | zero => unfold State.evalAll; first | rfl | (split <;> rfl)
  | succ k ih =>
    unfold State.evalAll
    repeat' first
      | with_reducible rfl
      | (simp only [h0, h1, h2, h3, h4, h5, h6, h7, h8, h9, ↓State.evalAt_blank, ↓blank_ite, ↓fst_ite, ite_self, implies_true, ↓ih]; done)
      | split
      | simp only [h0, h1, h2, h3, h4, h5, h6, h7, h8, h9, ↓State.evalAt_blank, ↓blank_ite, ↓fst_ite, ite_self, implies_true, ↓ih]

theorem State.outputsIdle_blank (h0 : bl .trig = true) (s : State) : State.blank bl (State.outputsIdle s) = State.blank bl s := by
  unfold State.outputsIdle
  repeat' first
    | with_reducible rfl
    | (simp only [h0, ↓State.onTrig_blank, ↓blank_ite, ↓fst_ite, ite_self, implies_true]; done)
    | split
    | simp only [h0, ↓State.onTrig_blank, ↓blank_ite, ↓fst_ite, ite_self, implies_true]

theorem State.domLose_blank (h0 : bl .regs = true) (h1 : bl .tb = true) (h2 : bl .queues = true) (h3 : bl .bellows = true) (h4 : bl .engines = true) (h5 : bl .bgs = true) (h6 : bl .comps = true) (s : State) (n : Nat) : State.blank bl (State.domLose s n) = State.blank bl s := by
  unfold State.domLose
  repeat' first
    | with_reducible rfl
    | (simp only [h0, h1, h2, h3, h4, h5, h6, ↓State.putBgs_blank, ↓State.setFld_blank, State.each_blank, ↓State.queueUpdate_blank, ↓State.onQueue_blank, ↓State.onEngine_blank, ↓State.onComp_blank, ↓blank_ite, ↓fst_ite, ite_self, implies_true]; done)
    | split
    | simp only [h0, h1, h2, h3, h4, h5, h6, ↓State.putBgs_blank, ↓State.setFld_blank, State.each_blank, ↓State.queueUpdate_blank, ↓State.onQueue_blank, ↓State.onEngine_blank, ↓State.onComp_blank, ↓blank_ite, ↓fst_ite, ite_self, implies_true]
    | refine (State.each_blank _ _ _ ?_).trans ?_
    | intro _

theorem State.domainsOff_blank (h0 : bl .regs = true) (h1 : bl .tb = true) (h2 : bl .queues = true) (h3 : bl .bellows = true) (h4 : bl .engines = true) (h5 : bl .bgs = true) (h6 : bl .comps = true) (s : State) : State.blank bl (State.domainsOff s) = State.blank bl s := by
  unfold State.domainsOff
  repeat' first
    | with_reducible rfl
    | (simp only [h0, h1, h2, h3, h4, h5, h6, State.each_blank, ↓State.domLose_blank, ↓blank_ite, ↓fst_ite, ite_self, implies_true]; done)
    | split
    | simp only [h0, h1, h2, h3, h4, h5, h6, State.each_blank, ↓State.domLose_blank, ↓blank_ite, ↓fst_ite, ite_self, implies_true]
    | refine (State.each_blank _ _ _ ?_).trans ?_
    | intro _

theorem State.passAllLeft_blank (h0 : bl .engines = true) (h1 : bl .staging = true) (s : State) (e : Nat) (a2 : Nat) : State.blank bl (State.passAllLeft s e a2) = State.blank bl s := by
  induction a2 generalizing s with
  | zero => unfold State.passAllLeft; first | rfl | (split <;> rfl)
  | succ k ih =>
    unfold State.passAllLeft
    repeat' first
      | with_reducible rfl
      | (simp only [h0, h1, ↓State.passLeft_blank, ↓blank_ite, ↓fst_ite, ite_self, implies_true, ↓ih]; done)
      | split
      | simp only [h0, h1, ↓State.passLeft_blank, ↓blank_ite, ↓fst_ite, ite_self, implies_true, ↓ih]

theorem State.anvStart_blank (h0 : bl .regs = true) (h1 : bl .engines = true) (h2 : bl .staging = true) (s : State) : State.blank bl (State.anvStart s) = State.blank bl s := by
  unfold State.anvStart
  repeat' first
    | with_reducible rfl
    | (simp only [h0, h1, h2, State.each_blank, ↓State.passAllLeft_blank, ↓State.setBit_blank, ↓State.setReg_blank, ↓State.onEngine_blank, ↓blank_ite, ↓fst_ite, ite_self, implies_true]; done)
    | split
    | simp only [h0, h1, h2, State.each_blank, ↓State.passAllLeft_blank, ↓State.setBit_blank, ↓State.setReg_blank, ↓State.onEngine_blank, ↓blank_ite, ↓fst_ite, ite_self, implies_true]
    | refine (State.each_blank _ _ _ ?_).trans ?_
    | intro _

theorem State.shadowDiff_blank (h0 : bl .tb = true) (s : State) (n : Nat) (theirs : Stamp) (own : Stamp) : State.blank bl (State.shadowDiff s n theirs own) = State.blank bl s := by
  unfold State.shadowDiff
  repeat' first
    | with_reducible rfl
    | (simp only [h0, ↓State.logDev_blank, ↓blank_ite, ↓fst_ite, ite_self, implies_true]; done)
    | split
    | simp only [h0, ↓State.logDev_blank, ↓blank_ite, ↓fst_ite, ite_self, implies_true]

theorem State.restamp_blank (h0 : bl .hearth = true) (h1 : bl .trig = true) (s : State) (old : FrameTime) (fr : FrameTime) : State.blank bl (State.restamp s old fr) = State.blank bl s := by
  unfold State.restamp
  repeat' first
    | with_reducible rfl
    | (simp only [h0, h1, ↓State.onTrig_blank, State.onH_blank, ↓blank_ite, ↓fst_ite, ite_self, implies_true]; done)
    | split
    | simp only [h0, h1, ↓State.onTrig_blank, State.onH_blank, ↓blank_ite, ↓fst_ite, ite_self, implies_true]
    | (refine (State.onH_blank h0 _ _ rfl).trans ?_)

theorem State.knowFrame_blank (h0 : bl .hearth = true) (h1 : bl .trig = true) (s : State) (n : Nat) (t : Stamp) (copied : Bool) : State.blank bl (State.knowFrame s n t copied) = State.blank bl s := by
  unfold State.knowFrame
  repeat' first
    | with_reducible rfl
    | (simp only [h0, h1, ↓State.onTrig_blank, ↓State.newFrame_blank, ↓blank_ite, ↓fst_ite, ite_self, implies_true]; done)
    | split
    | simp only [h0, h1, ↓State.onTrig_blank, ↓State.newFrame_blank, ↓blank_ite, ↓fst_ite, ite_self, implies_true]

theorem State.wakeHeld_blank (h0 : bl .regs = true) (h1 : bl .bgs = true) (s : State) : State.blank bl (State.wakeHeld s) = State.blank bl s := by
  unfold State.wakeHeld
  repeat' first
    | with_reducible rfl
    | (simp only [h0, h1, State.each_blank, ↓State.domUp_blank, ↓blank_ite, ↓fst_ite, ite_self, implies_true]; done)
    | split
    | simp only [h0, h1, State.each_blank, ↓State.domUp_blank, ↓blank_ite, ↓fst_ite, ite_self, implies_true]
    | refine (State.each_blank _ _ _ ?_).trans ?_
    | intro _

theorem State.renumber_blank (h0 : bl .regs = true) (h1 : bl .hearth = true) (h2 : bl .trig = true) (h3 : bl .comps = true) (h4 : bl .pair = true) (s : State) : State.blank bl (State.renumber s) = State.blank bl s := by
  unfold State.renumber
  repeat' first
    | with_reducible rfl
    | (simp only [h0, h1, h2, h3, h4, ↓State.count_blank, State.onH_blank, State.each_blank, ↓State.onComp_blank, ↓State.putPair_blank, ↓State.onTrig_blank, ↓blank_ite, ↓fst_ite, ite_self, implies_true]; done)
    | split
    | simp only [h0, h1, h2, h3, h4, ↓State.count_blank, State.onH_blank, State.each_blank, ↓State.onComp_blank, ↓State.putPair_blank, ↓State.onTrig_blank, ↓blank_ite, ↓fst_ite, ite_self, implies_true]
    | (refine (State.onH_blank h1 _ _ rfl).trans ?_)
    | refine (State.each_blank _ _ _ ?_).trans ?_
    | intro _

theorem State.tellSched_blank (h0 : bl .out = true) (h1 : bl .pair = true) (s : State) (n : Nat) (t : Stamp) : State.blank bl (State.tellSched s n t) = State.blank bl s := by
  unfold State.tellSched
  repeat' first
    | with_reducible rfl
    | (simp only [h0, h1, ↓State.mirrorSend_blank, ↓blank_ite, ↓fst_ite, ite_self, implies_true]; done)
    | split
    | simp only [h0, h1, ↓State.mirrorSend_blank, ↓blank_ite, ↓fst_ite, ite_self, implies_true]

theorem State.refineFrame_blank (h0 : bl .out = true) (h1 : bl .tb = true) (h2 : bl .hearth = true) (h3 : bl .trig = true) (h4 : bl .pair = true) (s : State) (fr : FrameTime) (t : Stamp) : State.blank bl (State.refineFrame s fr t) = State.blank bl s := by
  unfold State.refineFrame
  repeat' first
    | with_reducible rfl
    | (simp only [h0, h1, h2, h3, h4, ↓State.logFrame_blank, ↓State.tellSched_blank, ↓State.restamp_blank, ↓blank_ite, ↓fst_ite, ite_self, implies_true]; done)
    | split
    | simp only [h0, h1, h2, h3, h4, ↓State.logFrame_blank, ↓State.tellSched_blank, ↓State.restamp_blank, ↓blank_ite, ↓fst_ite, ite_self, implies_true]

theorem State.refine_blank (h0 : bl .out = true) (h1 : bl .tb = true) (h2 : bl .hearth = true) (h3 : bl .trig = true) (h4 : bl .pair = true) (s : State) (n : Nat) (t : Stamp) : State.blank bl (State.refine s n t) = State.blank bl s := by
  unfold State.refine
  repeat' first
    | with_reducible rfl
    | (simp only [h0, h1, h2, h3, h4, ↓State.refineFrame_blank, ↓State.onTrig_blank, ↓blank_ite, ↓fst_ite, ite_self, implies_true]; done)
    | split
    | simp only [h0, h1, h2, h3, h4, ↓State.refineFrame_blank, ↓State.onTrig_blank, ↓blank_ite, ↓fst_ite, ite_self, implies_true]

theorem State.noteSteps_blank (h0 : bl .regs = true) (s : State) (e : Nat) (n : Nat) : State.blank bl (State.noteSteps s e n) = State.blank bl s := by
  unfold State.noteSteps
  repeat' first
    | with_reducible rfl
    | (simp only [h0, ↓State.setFld_blank, ↓blank_ite, ↓fst_ite, ite_self, implies_true]; done)
    | split
    | simp only [h0, ↓State.setFld_blank, ↓blank_ite, ↓fst_ite, ite_self, implies_true]

theorem State.engineWait_blank (h0 : bl .regs = true) (h1 : bl .order = true) (h2 : bl .engines = true) (h3 : bl .staging = true) (s : State) (e : Nat) (gd : Nat) : State.blank bl (State.engineWait s e gd) = State.blank bl s := by
  unfold State.engineWait
  repeat' first
    | with_reducible rfl
    | (simp only [h0, h1, h2, h3, ↓State.stageEnd_blank, ↓State.count_blank, ↓State.noteSteps_blank, ↓State.onEngine_blank, ↓blank_ite, ↓fst_ite, ite_self, implies_true]; done)
    | split
    | simp only [h0, h1, h2, h3, ↓State.stageEnd_blank, ↓State.count_blank, ↓State.noteSteps_blank, ↓State.onEngine_blank, ↓blank_ite, ↓fst_ite, ite_self, implies_true]

theorem State.redBegin_blank (h0 : bl .trig = true) (s : State) : State.blank bl (State.redBegin s) = State.blank bl s := by
  unfold State.redBegin
  repeat' first
    | with_reducible rfl
    | (simp only [h0, ↓State.onTrig_blank, ↓blank_ite, ↓fst_ite, ite_self, implies_true]; done)
    | split
    | simp only [h0, ↓State.onTrig_blank, ↓blank_ite, ↓fst_ite, ite_self, implies_true]

theorem State.postResolve_blank (h0 : bl .cores = true) (h1 : bl .postRecs = true) (s : State) (id : Nat) (e : Nat) (late : Bool) : State.blank bl (State.postResolve s id e late) = State.blank bl s := by
  unfold State.postResolve
  repeat' first
    | with_reducible rfl
    | (simp only [h0, h1, ↓State.putPostRecs_blank, ↓State.onCore_blank, ↓blank_ite, ↓fst_ite, ite_self, implies_true]; done)
    | split
    | simp only [h0, h1, ↓State.putPostRecs_blank, ↓State.onCore_blank, ↓blank_ite, ↓fst_ite, ite_self, implies_true]

theorem State.applyPosts_blank (h0 : bl .engines = true) (h1 : bl .cores = true) (h2 : bl .postRecs = true) (s : State) (e : Nat) (frame : Nat) : State.blank bl (State.applyPosts s e frame) = State.blank bl s := by
  unfold State.applyPosts
  repeat' first
    | with_reducible rfl
    | (simp only [h0, h1, h2, ↓State.onEngine_blank, State.each_blank, ↓State.postResolve_blank, ↓blank_ite, ↓fst_ite, ite_self, implies_true]; done)
    | split
    | simp only [h0, h1, h2, ↓State.onEngine_blank, State.each_blank, ↓State.postResolve_blank, ↓blank_ite, ↓fst_ite, ite_self, implies_true]
    | refine (State.each_blank _ _ _ ?_).trans ?_
    | intro _

theorem State.markStored_blank (h0 : bl .hearth = true) (h1 : bl .mem = true) (s : State) (slot : Nat) (flag : Nat) : State.blank bl (State.markStored s slot flag) = State.blank bl s := by
  unfold State.markStored
  repeat' first
    | with_reducible rfl
    | (simp only [h0, h1, ↓State.slotPatch_blank, ↓State.writeDir_blank, ↓State.onSeg_blank, ↓blank_ite, ↓fst_ite, ite_self, implies_true]; done)
    | split
    | simp only [h0, h1, ↓State.slotPatch_blank, ↓State.writeDir_blank, ↓State.onSeg_blank, ↓blank_ite, ↓fst_ite, ite_self, implies_true]

theorem State.markData_blank (h0 : bl .hearth = true) (h1 : bl .mem = true) (s : State) (a : Nat) : State.blank bl (State.markData s a) = State.blank bl s := by
  unfold State.markData
  repeat' first
    | with_reducible rfl
    | (simp only [h0, h1, State.each_blank, ↓State.markStored_blank, ↓State.markFrame_blank, ↓blank_ite, ↓fst_ite, ite_self, implies_true]; done)
    | split
    | simp only [h0, h1, State.each_blank, ↓State.markStored_blank, ↓State.markFrame_blank, ↓blank_ite, ↓fst_ite, ite_self, implies_true]
    | refine (State.each_blank _ _ _ ?_).trans ?_
    | intro _

theorem State.postTo_blank (h0 : bl .regs = true) (h1 : bl .engines = true) (h2 : bl .cores = true) (h3 : bl .postRecs = true) (s : State) (e : Nat) (p : Post) : State.blank bl (State.postTo s e p) = State.blank bl s := by
  unfold State.postTo
  repeat' first
    | with_reducible rfl
    | (simp only [h0, h1, h2, h3, ↓State.postResolve_blank, ↓State.count_blank, ↓State.onEngine_blank, ↓blank_ite, ↓fst_ite, ite_self, implies_true]; done)
    | split
    | simp only [h0, h1, h2, h3, ↓State.postResolve_blank, ↓State.count_blank, ↓State.onEngine_blank, ↓blank_ite, ↓fst_ite, ite_self, implies_true]

theorem State.postIssue_blank (h0 : bl .regs = true) (h1 : bl .engines = true) (h2 : bl .cores = true) (h3 : bl .postRecs = true) (h4 : bl .postSeq = true) (s : State) (core : Nat) (addr : Nat) (mask : Nat) (ls : Nat) (value : Nat) (key : Nat) (t : State) (hx : (State.postIssue s core addr mask ls value key) = some t) :
    State.blank bl t = State.blank bl s := by
  unfold State.postIssue at hx
  repeat' first
    | (simp only [reduceCtorEq] at hx; done)
    | (simp only [Option.some.injEq, Prod.mk.injEq] at hx; obtain ⟨_, hx⟩ := hx; subst hx)
    | (simp only [Option.some.injEq] at hx; subst hx)
    | (simp only [h0, h1, h2, h3, h4, ↓State.putPostRecs_blank, ↓State.putPostSeq_blank, State.each_blank, ↓State.postTo_blank, ↓blank_ite, ↓fst_ite, ite_self, implies_true]; done)
    | with_reducible rfl
    | split at hx
    | dsimp only at hx

theorem State.dropPosts_blank (h0 : bl .engines = true) (h1 : bl .cores = true) (h2 : bl .postRecs = true) (s : State) (e : Nat) : State.blank bl (State.dropPosts s e) = State.blank bl s := by
  unfold State.dropPosts
  repeat' first
    | with_reducible rfl
    | (simp only [h0, h1, h2, ↓State.onEngine_blank, State.each_blank, ↓State.postResolve_blank, ↓blank_ite, ↓fst_ite, ite_self, implies_true]; done)
    | split
    | simp only [h0, h1, h2, ↓State.onEngine_blank, State.each_blank, ↓State.postResolve_blank, ↓blank_ite, ↓fst_ite, ite_self, implies_true]
    | refine (State.each_blank _ _ _ ?_).trans ?_
    | intro _

theorem State.engineFault_blank (h0 : bl .regs = true) (h1 : bl .tb = true) (h2 : bl .queues = true) (h3 : bl .engines = true) (h4 : bl .cores = true) (h5 : bl .postRecs = true) (h6 : bl .staging = true) (s : State) (e : Nat) (cause : Nat) (slot : Nat) : State.blank bl (State.engineFault s e cause slot) = State.blank bl s := by
  unfold State.engineFault
  repeat' first
    | with_reducible rfl
    | (simp only [h0, h1, h2, h3, h4, h5, h6, ↓State.setReg_blank, ↓State.setBit_blank, ↓State.logDev_blank, ↓State.dropPartial_blank, ↓State.dropPosts_blank, ↓State.onQueue_blank, ↓State.onEngine_blank, ↓blank_ite, ↓fst_ite, ite_self, implies_true]; done)
    | split
    | simp only [h0, h1, h2, h3, h4, h5, h6, ↓State.setReg_blank, ↓State.setBit_blank, ↓State.logDev_blank, ↓State.dropPartial_blank, ↓State.dropPosts_blank, ↓State.onQueue_blank, ↓State.onEngine_blank, ↓blank_ite, ↓fst_ite, ite_self, implies_true]

theorem State.emitFrag_blank (h0 : bl .engines = true) (h1 : bl .staging = true) (s : State) (e : Nat) (i : StripItem) (xs : List Nat) (last : Bool) (flush : Bool) : State.blank bl (State.emitFrag s e i xs last flush) = State.blank bl s := by
  unfold State.emitFrag
  repeat' first
    | with_reducible rfl
    | (simp only [h0, h1, ↓State.onEngine_blank, ↓State.stagePixels_blank, ↓blank_ite, ↓fst_ite, ite_self, implies_true]; done)
    | split
    | simp only [h0, h1, ↓State.onEngine_blank, ↓State.stagePixels_blank, ↓blank_ite, ↓fst_ite, ite_self, implies_true]

theorem State.emitScore_blank (h0 : bl .freeUse = true) (h1 : bl .regs = true) (h2 : bl .tb = true) (h3 : bl .engines = true) (h4 : bl .trig = true) (s : State) (e : Nat) (k : Nat) (v : Int) : State.blank bl (State.emitScore s e k v) = State.blank bl s := by
  unfold State.emitScore
  repeat' first
    | with_reducible rfl
    | (simp only [h0, h1, h2, h3, h4, ↓State.onEngine_blank, ↓State.judgeScore_blank, ↓blank_ite, ↓fst_ite, ite_self, implies_true]; done)
    | split
    | simp only [h0, h1, h2, h3, h4, ↓State.onEngine_blank, ↓State.judgeScore_blank, ↓blank_ite, ↓fst_ite, ite_self, implies_true]

theorem State.onDual_blank (h0 : bl .trig = true) (s : State) (i : Nat) (g : DualInput → DualInput) : State.blank bl (State.onDual s i g) = State.blank bl s := by
  unfold State.onDual
  repeat' first
    | with_reducible rfl
    | (simp only [h0, ↓State.onTrig_blank, ↓blank_ite, ↓fst_ite, ite_self, implies_true]; done)
    | split
    | simp only [h0, ↓State.onTrig_blank, ↓blank_ite, ↓fst_ite, ite_self, implies_true]

theorem State.discFault_blank (h0 : bl .regs = true) (h1 : bl .tb = true) (h2 : bl .trig = true) (s : State) (i : Nat) (t : Stamp) : State.blank bl (State.discFault s i t) = State.blank bl s := by
  unfold State.discFault
  repeat' first
    | with_reducible rfl
    | (simp only [h0, h1, h2, ↓State.setBit_blank, ↓State.onDual_blank, ↓State.trgLog_blank, ↓blank_ite, ↓fst_ite, ite_self, implies_true]; done)
    | split
    | simp only [h0, h1, h2, ↓State.setBit_blank, ↓State.onDual_blank, ↓State.trgLog_blank, ↓blank_ite, ↓fst_ite, ite_self, implies_true]

theorem State.dualEdge_blank (h0 : bl .regs = true) (h1 : bl .tb = true) (h2 : bl .trig = true) (s : State) (i : Nat) (b : Bool) (t : Stamp) : State.blank bl (State.dualEdge s i b t) = State.blank bl s := by
  unfold State.dualEdge
  repeat' first
    | with_reducible rfl
    | (simp only [h0, h1, h2, ↓State.count_blank, ↓State.onDual_blank, ↓State.trigItem_blank, ↓State.discFault_blank, ↓blank_ite, ↓fst_ite, ite_self, implies_true]; done)
    | split
    | simp only [h0, h1, h2, ↓State.count_blank, ↓State.onDual_blank, ↓State.trigItem_blank, ↓State.discFault_blank, ↓blank_ite, ↓fst_ite, ite_self, implies_true]

theorem State.immediate_blank (h0 : bl .out = true) (h1 : bl .regs = true) (h2 : bl .tb = true) (h3 : bl .trig = true) (s : State) (src : Nat) (t : Stamp) : State.blank bl (State.immediate s src t) = State.blank bl s := by
  unfold State.immediate
  repeat' first
    | with_reducible rfl
    | (simp only [h0, h1, h2, h3, State.each_blank, ↓State.pulse_blank, ↓blank_ite, ↓fst_ite, ite_self, implies_true]; done)
    | split
    | simp only [h0, h1, h2, h3, State.each_blank, ↓State.pulse_blank, ↓blank_ite, ↓fst_ite, ite_self, implies_true]
    | refine (State.each_blank _ _ _ ?_).trans ?_
    | intro _

theorem trigEdge_blank (h0 : bl .out = true) (h1 : bl .regs = true) (h2 : bl .tb = true) (h3 : bl .field = true) (h4 : bl .trig = true) (ch : Fin 4) (c : Nat) (e : Fin 2500000) (s : State) : State.blank bl (trigEdge ch c e s) = State.blank bl s := by
  unfold trigEdge
  repeat' first
    | with_reducible rfl
    | (simp only [h0, h1, h2, h3, h4, ↓State.log_blank, ↓State.urgent_blank, ↓State.immediate_blank, ↓State.dualEdge_blank, ↓blank_ite, ↓fst_ite, ite_self, implies_true]; done)
    | split
    | simp only [h0, h1, h2, h3, h4, ↓State.log_blank, ↓State.urgent_blank, ↓State.immediate_blank, ↓State.dualEdge_blank, ↓blank_ite, ↓fst_ite, ite_self, implies_true]

theorem discrepancyTimeout_blank (h0 : bl .regs = true) (h1 : bl .tb = true) (h2 : bl .trig = true) (i : Fin 2) (s : State) : State.blank bl (discrepancyTimeout i s) = State.blank bl s := by
  unfold discrepancyTimeout
  repeat' first
    | with_reducible rfl
    | (simp only [h0, h1, h2, ↓State.discFault_blank, ↓blank_ite, ↓fst_ite, ite_self, implies_true]; done)
    | split
    | simp only [h0, h1, h2, ↓State.discFault_blank, ↓blank_ite, ↓fst_ite, ite_self, implies_true]

theorem sidebandIdleTimeout_blank (h0 : bl .regs = true) (h1 : bl .tb = true) (h2 : bl .queues = true) (h3 : bl .bellows = true) (h4 : bl .engines = true) (h5 : bl .bgs = true) (h6 : bl .comps = true) (p : Fin 2) (s : State) : State.blank bl (sidebandIdleTimeout p s) = State.blank bl s := by
  unfold sidebandIdleTimeout
  repeat' first
    | with_reducible rfl
    | (simp only [h0, h1, h2, h3, h4, h5, h6, ↓State.domLose_blank, ↓State.putBgs_blank, ↓blank_ite, ↓fst_ite, ite_self, implies_true]; done)
    | split
    | simp only [h0, h1, h2, h3, h4, h5, h6, ↓State.domLose_blank, ↓State.putBgs_blank, ↓blank_ite, ↓fst_ite, ite_self, implies_true]

theorem State.testBegin_blank (h0 : bl .trig = true) (s : State) (o : Nat) : State.blank bl (State.testBegin s o) = State.blank bl s := by
  unfold State.testBegin
  repeat' first
    | with_reducible rfl
    | (simp only [h0, ↓State.onPin_blank, ↓blank_ite, ↓fst_ite, ite_self, implies_true]; done)
    | split
    | simp only [h0, ↓State.onPin_blank, ↓blank_ite, ↓fst_ite, ite_self, implies_true]

theorem State.tickOutput_blank (h0 : bl .trig = true) (s : State) (o : Nat) : State.blank bl (State.tickOutput s o) = State.blank bl s := by
  unfold State.tickOutput
  repeat' first
    | with_reducible rfl
    | (simp only [h0, ↓State.testBegin_blank, ↓blank_ite, ↓fst_ite, ite_self, implies_true]; done)
    | split
    | simp only [h0, ↓State.testBegin_blank, ↓blank_ite, ↓fst_ite, ite_self, implies_true]

theorem emitAccepted_blank (h0 : bl .freeUse = true) (h1 : bl .regs = true) (h2 : bl .tb = true) (h3 : bl .engines = true) (h4 : bl .trig = true) (h5 : bl .staging = true) (e : Fin 96) (s : State) : State.blank bl (emitAccepted e s) = State.blank bl s := by
  unfold emitAccepted
  repeat' first
    | with_reducible rfl
    | (simp only [h0, h1, h2, h3, h4, h5, ↓State.paceCheck_blank, ↓State.emitFrag_blank, ↓State.emitScore_blank, ↓blank_ite, ↓fst_ite, ite_self, implies_true]; done)
    | split
    | simp only [h0, h1, h2, h3, h4, h5, ↓State.paceCheck_blank, ↓State.emitFrag_blank, ↓State.emitScore_blank, ↓blank_ite, ↓fst_ite, ite_self, implies_true]

theorem outputTestEnd_blank (h0 : bl .trig = true) (o : Fin 9) (s : State) : State.blank bl (outputTestEnd o s) = State.blank bl s := by
  unfold outputTestEnd
  repeat' first
    | with_reducible rfl
    | (simp only [h0, ↓State.onPin_blank, ↓blank_ite, ↓fst_ite, ite_self, implies_true]; done)
    | split
    | simp only [h0, ↓State.onPin_blank, ↓blank_ite, ↓fst_ite, ite_self, implies_true]

theorem State.streamPrune_blank (h0 : bl .trig = true) (s : State) : State.blank bl (State.streamPrune s) = State.blank bl s := by
  unfold State.streamPrune
  repeat' first
    | with_reducible rfl
    | (simp only [h0, ↓State.onTrig_blank, ↓blank_ite, ↓fst_ite, ite_self, implies_true]; done)
    | split
    | simp only [h0, ↓State.onTrig_blank, ↓blank_ite, ↓fst_ite, ite_self, implies_true]

theorem State.uncorrectable_blank (h0 : bl .regs = true) (h1 : bl .tb = true) (h2 : bl .hearth = true) (h3 : bl .mem = true) (h4 : bl .keptBad = true) (s : State) (a : Nat) : State.blank bl (State.uncorrectable s a) = State.blank bl s := by
  unfold State.uncorrectable
  repeat' first
    | with_reducible rfl
    | (simp only [h0, h1, h2, h3, h4, ↓State.logDev_blank, ↓State.countUE_blank, ↓State.putKeptBad_blank, ↓State.markStored_blank, ↓State.markData_blank, ↓blank_ite, ↓fst_ite, ite_self, implies_true]; done)
    | split
    | simp only [h0, h1, h2, h3, h4, ↓State.logDev_blank, ↓State.countUE_blank, ↓State.putKeptBad_blank, ↓State.markStored_blank, ↓State.markData_blank, ↓blank_ite, ↓fst_ite, ite_self, implies_true]

theorem scrubStep_blank (h0 : bl .regs = true) (h1 : bl .tb = true) (h2 : bl .bgs = true) (h3 : bl .hearth = true) (h4 : bl .mem = true) (h5 : bl .keptBad = true) (finding : ScrubFinding) (prog : Fin 65536) (s : State) : State.blank bl (scrubStep finding prog s) = State.blank bl s := by
  unfold scrubStep
  repeat' first
    | with_reducible rfl
    | (simp only [h0, h1, h2, h3, h4, h5, ↓State.setReg_blank, ↓State.putBgs_blank, ↓State.countCE_blank, ↓State.uncorrectable_blank, ↓State.markStored_blank, ↓State.logDev_blank, ↓State.count_blank, ↓blank_ite, ↓fst_ite, ite_self, implies_true]; done)
    | split
    | simp only [h0, h1, h2, h3, h4, h5, ↓State.setReg_blank, ↓State.putBgs_blank, ↓State.countCE_blank, ↓State.uncorrectable_blank, ↓State.markStored_blank, ↓State.logDev_blank, ↓State.count_blank, ↓blank_ite, ↓fst_ite, ite_self, implies_true]

theorem State.measureOne_blank (h0 : bl .out = true) (h1 : bl .freeUse = true) (h2 : bl .regs = true) (h3 : bl .trig = true) (h4 : bl .host = true) (s : State) (seg : Nat) (r : Record) (ch : Nat) : State.blank bl (State.measureOne s seg r ch) = State.blank bl s := by
  unfold State.measureOne
  repeat' first
    | with_reducible rfl
    | (simp only [h0, h1, h2, h3, h4, ↓State.putFreeUse_blank, ↓State.onTrig_blank, ↓State.eqPost_blank, ↓blank_ite, ↓fst_ite, ite_self, implies_true]; done)
    | split
    | simp only [h0, h1, h2, h3, h4, ↓State.putFreeUse_blank, ↓State.onTrig_blank, ↓State.eqPost_blank, ↓blank_ite, ↓fst_ite, ite_self, implies_true]

theorem measurementReady_blank (h0 : bl .out = true) (h1 : bl .freeUse = true) (h2 : bl .regs = true) (h3 : bl .hearth = true) (h4 : bl .trig = true) (h5 : bl .host = true) (s : State) : State.blank bl (measurementReady s) = State.blank bl s := by
  unfold measurementReady
  repeat' first
    | with_reducible rfl
    | (simp only [h0, h1, h2, h3, h4, h5, State.onH_blank, ↓State.onTrig_blank, ↓State.streamPrune_blank, State.each_blank, ↓State.measureOne_blank, ↓blank_ite, ↓fst_ite, ite_self, implies_true]; done)
    | split
    | simp only [h0, h1, h2, h3, h4, h5, State.onH_blank, ↓State.onTrig_blank, ↓State.streamPrune_blank, State.each_blank, ↓State.measureOne_blank, ↓blank_ite, ↓fst_ite, ite_self, implies_true]
    | (refine (State.onH_blank h3 _ _ rfl).trans ?_)
    | refine (State.each_blank _ _ _ ?_).trans ?_
    | intro _

theorem State.testResult_blank (h0 : bl .regs = true) (h1 : bl .tb = true) (h2 : bl .trig = true) (s : State) (o : Nat) (ok : Bool) : State.blank bl (State.testResult s o ok) = State.blank bl s := by
  unfold State.testResult
  repeat' first
    | with_reducible rfl
    | (simp only [h0, h1, h2, ↓State.onPin_blank, ↓State.logTest_blank, ↓State.count_blank, ↓State.setBit_blank, ↓blank_ite, ↓fst_ite, ite_self, implies_true]; done)
    | split
    | simp only [h0, h1, h2, ↓State.onPin_blank, ↓State.logTest_blank, ↓State.count_blank, ↓State.setBit_blank, ↓blank_ite, ↓fst_ite, ite_self, implies_true]

theorem State.shiftRaw_blank (h0 : bl .queues = true) (h1 : bl .field = true) (h2 : bl .pair = true) (h3 : bl .host = true) (h4 : bl .ptp = true) (s : State) (d : Int) (dr : Int) : State.blank bl (State.shiftRaw s d dr) = State.blank bl s := by
  unfold State.shiftRaw
  repeat' first
    | with_reducible rfl
    | (simp only [h0, h1, h2, h3, h4, ↓State.putPair_blank, ↓State.putHost_blank, ↓State.putPtp_blank, ↓State.onField_blank, ↓State.putQueues_blank, ↓blank_ite, ↓fst_ite, ite_self, implies_true]; done)
    | split
    | simp only [h0, h1, h2, h3, h4, ↓State.putPair_blank, ↓State.putHost_blank, ↓State.putPtp_blank, ↓State.onField_blank, ↓State.putQueues_blank, ↓blank_ite, ↓fst_ite, ite_self, implies_true]

theorem domainRetentionEntry_blank (h0 : bl .regs = true) (h1 : bl .tb = true) (h2 : bl .queues = true) (h3 : bl .bellows = true) (h4 : bl .engines = true) (h5 : bl .bgs = true) (h6 : bl .comps = true) (n : Fin 51) (s : State) : State.blank bl (domainRetentionEntry n s) = State.blank bl s := by
  unfold domainRetentionEntry
  repeat' first
    | with_reducible rfl
    | (simp only [h0, h1, h2, h3, h4, h5, h6, ↓State.domainsOff_blank, ↓State.setFld_blank, ↓blank_ite, ↓fst_ite, ite_self, implies_true]; done)
    | split
    | simp only [h0, h1, h2, h3, h4, h5, h6, ↓State.domainsOff_blank, ↓State.setFld_blank, ↓blank_ite, ↓fst_ite, ite_self, implies_true]

theorem State.dueGo_blank (h0 : bl .regs = true) (h1 : bl .bgs = true) (h2 : bl .field = true) (s : State) (key : Nat) : State.blank bl (State.dueGo s key) = State.blank bl s := by
  unfold State.dueGo
  repeat' first
    | with_reducible rfl
    | (simp only [h0, h1, h2, ↓State.chargeGo_blank, ↓State.calGo_blank, ↓State.recalGo_blank, ↓blank_ite, ↓fst_ite, ite_self, implies_true]; done)
    | split
    | simp only [h0, h1, h2, ↓State.chargeGo_blank, ↓State.calGo_blank, ↓State.recalGo_blank, ↓blank_ite, ↓fst_ite, ite_self, implies_true]

theorem State.tickDue_blank (h0 : bl .regs = true) (h1 : bl .bgs = true) (h2 : bl .field = true) (s : State) : State.blank bl (State.tickDue s) = State.blank bl s := by
  unfold State.tickDue
  repeat' first
    | with_reducible rfl
    | (simp only [h0, h1, h2, ↓State.dueGo_blank, ↓State.putBgs_blank, ↓blank_ite, ↓fst_ite, ite_self, implies_true]; done)
    | split
    | simp only [h0, h1, h2, ↓State.dueGo_blank, ↓State.putBgs_blank, ↓blank_ite, ↓fst_ite, ite_self, implies_true]

theorem sidebandActivity_blank (h0 : bl .bgs = true) (p : Fin 2) (s : State) : State.blank bl (sidebandActivity p s) = State.blank bl s := by
  unfold sidebandActivity
  repeat' first
    | with_reducible rfl
    | (simp only [h0, ↓State.putBgs_blank, ↓blank_ite, ↓fst_ite, ite_self, implies_true]; done)
    | split
    | simp only [h0, ↓State.putBgs_blank, ↓blank_ite, ↓fst_ite, ite_self, implies_true]

theorem State.evaluate_blank (h0 : bl .out = true) (h1 : bl .regs = true) (h2 : bl .tb = true) (h3 : bl .tdc = true) (h4 : bl .field = true) (h5 : bl .hearth = true) (h6 : bl .mem = true) (h7 : bl .trig = true) (h8 : bl .pair = true) (h9 : bl .host = true) (s : State) (t : Stamp) : State.blank bl (State.evaluate s t) = State.blank bl s := by
  unfold State.evaluate
  repeat' first
    | with_reducible rfl
    | (simp only [h0, h1, h2, h3, h4, h5, h6, h7, h8, h9, ↓State.evalAll_blank, ↓State.onTrig_blank, ↓State.putPair_blank, ↓State.setReg_blank, State.each_blank, ↓State.decMismatch_blank, ↓State.tellDecision_blank, ↓blank_ite, ↓fst_ite, ite_self, implies_true]; done)
    | split
    | simp only [h0, h1, h2, h3, h4, h5, h6, h7, h8, h9, ↓State.evalAll_blank, ↓State.onTrig_blank, ↓State.putPair_blank, ↓State.setReg_blank, State.each_blank, ↓State.decMismatch_blank, ↓State.tellDecision_blank, ↓blank_ite, ↓fst_ite, ite_self, implies_true]
    | refine (State.each_blank _ _ _ ?_).trans ?_
    | intro _

theorem outputTestReadback_blank (h0 : bl .regs = true) (h1 : bl .tb = true) (h2 : bl .trig = true) (o : Fin 9) (level : Bool) (s : State) : State.blank bl (outputTestReadback o level s) = State.blank bl s := by
  unfold outputTestReadback
  repeat' first
    | with_reducible rfl
    | (simp only [h0, h1, h2, ↓State.onPin_blank, ↓State.testIncomplete_blank, ↓State.testResult_blank, ↓blank_ite, ↓fst_ite, ite_self, implies_true]; done)
    | split
    | simp only [h0, h1, h2, ↓State.onPin_blank, ↓State.testIncomplete_blank, ↓State.testResult_blank, ↓blank_ite, ↓fst_ite, ite_self, implies_true]

theorem laneAdaptMonitor_blank (h0 : bl .regs = true) (h1 : bl .tb = true) (h2 : bl .bgs = true) (s : State) : State.blank bl (laneAdaptMonitor s) = State.blank bl s := by
  unfold laneAdaptMonitor
  repeat' first
    | with_reducible rfl
    | (simp only [h0, h1, h2, ↓State.updateAlarms_blank, ↓State.ranAt_blank, ↓State.putBgs_blank, ↓blank_ite, ↓fst_ite, ite_self, implies_true]; done)
    | split
    | simp only [h0, h1, h2, ↓State.updateAlarms_blank, ↓State.ranAt_blank, ↓State.putBgs_blank, ↓blank_ite, ↓fst_ite, ite_self, implies_true]

theorem frameStart_blank (h0 : bl .regs = true) (h1 : bl .tb = true) (h2 : bl .tdc = true) (h3 : bl .field = true) (h4 : bl .trig = true) (s : State) : State.blank bl (frameStart s) = State.blank bl s := by
  unfold frameStart
  repeat' first
    | with_reducible rfl
    | (simp only [h0, h1, h2, h3, h4, ↓State.onTrig_blank, ↓State.frameTrigger_blank, ↓State.tdcArm_blank, ↓State.logFrame_blank, ↓State.checkStrobes_blank, ↓blank_ite, ↓fst_ite, ite_self, implies_true]; done)
    | split
    | simp only [h0, h1, h2, h3, h4, ↓State.onTrig_blank, ↓State.frameTrigger_blank, ↓State.tdcArm_blank, ↓State.logFrame_blank, ↓State.checkStrobes_blank, ↓blank_ite, ↓fst_ite, ite_self, implies_true]

theorem outputPulseEnd_blank (h0 : bl .trig = true) (o : Fin 9) (s : State) : State.blank bl (outputPulseEnd o s) = State.blank bl s := by
  unfold outputPulseEnd
  repeat' first
    | with_reducible rfl
    | (simp only [h0, ↓State.onPin_blank, ↓blank_ite, ↓fst_ite, ite_self, implies_true]; done)
    | split
    | simp only [h0, ↓State.onPin_blank, ↓blank_ite, ↓fst_ite, ite_self, implies_true]

theorem paceMeasurement_blank (h0 : bl .regs = true) (h1 : bl .tb = true) (h2 : bl .bgs = true) (island : Fin 12) (ps : Nat) (s : State) : State.blank bl (paceMeasurement island ps s) = State.blank bl s := by
  unfold paceMeasurement
  repeat' first
    | with_reducible rfl
    | (simp only [h0, h1, h2, ↓State.updateAlarms_blank, ↓State.ranAt_blank, ↓State.addPace_blank, ↓blank_ite, ↓fst_ite, ite_self, implies_true]; done)
    | split
    | simp only [h0, h1, h2, ↓State.updateAlarms_blank, ↓State.ranAt_blank, ↓State.addPace_blank, ↓blank_ite, ↓fst_ite, ite_self, implies_true]

theorem reductionIntervalEnd_blank (h0 : bl .out = true) (h1 : bl .regs = true) (h2 : bl .trig = true) (h3 : bl .host = true) (ch : Fin 32) (s : State) : State.blank bl (reductionIntervalEnd ch s) = State.blank bl s := by
  unfold reductionIntervalEnd
  repeat' first
    | with_reducible rfl
    | (simp only [h0, h1, h2, h3, ↓State.onTrig_blank, ↓State.pvPost_blank, ↓State.streamPrune_blank, ↓State.count_blank, ↓blank_ite, ↓fst_ite, ite_self, implies_true]; done)
    | split
    | simp only [h0, h1, h2, h3, ↓State.onTrig_blank, ↓State.pvPost_blank, ↓State.streamPrune_blank, ↓State.count_blank, ↓blank_ite, ↓fst_ite, ite_self, implies_true]

theorem State.refineLate_blank (h0 : bl .out = true) (h1 : bl .tb = true) (h2 : bl .hearth = true) (h3 : bl .trig = true) (h4 : bl .pair = true) (s : State) (n : Nat) : State.blank bl (State.refineLate s n) = State.blank bl s := by
  unfold State.refineLate
  repeat' first
    | with_reducible rfl
    | (simp only [h0, h1, h2, h3, h4, ↓State.refineFrame_blank, ↓blank_ite, ↓fst_ite, ite_self, implies_true]; done)
    | split
    | simp only [h0, h1, h2, h3, h4, ↓State.refineFrame_blank, ↓blank_ite, ↓fst_ite, ite_self, implies_true]

theorem State.issueFrame_blank (h0 : bl .out = true) (h1 : bl .tb = true) (h2 : bl .hearth = true) (h3 : bl .trig = true) (h4 : bl .pair = true) (s : State) : State.blank bl (State.issueFrame s) = State.blank bl s := by
  unfold State.issueFrame
  repeat' first
    | with_reducible rfl
    | (simp only [h0, h1, h2, h3, h4, ↓State.shadowDiff_blank, ↓State.refineLate_blank, ↓State.tellSched_blank, ↓State.knowFrame_blank, ↓State.onSeq_blank, ↓State.seqStop_blank, ↓blank_ite, ↓fst_ite, ite_self, implies_true]; done)
    | split
    | simp only [h0, h1, h2, h3, h4, ↓State.shadowDiff_blank, ↓State.refineLate_blank, ↓State.tellSched_blank, ↓State.knowFrame_blank, ↓State.onSeq_blank, ↓State.seqStop_blank, ↓blank_ite, ↓fst_ite, ite_self, implies_true]

theorem frameCommand_blank (h0 : bl .out = true) (h1 : bl .freeUse = true) (h2 : bl .tb = true) (h3 : bl .rx = true) (h4 : bl .cmd = true) (h5 : bl .mirLanes = true) (h6 : bl .hearth = true) (h7 : bl .trig = true) (h8 : bl .pair = true) (slots : List Nat) (s : State) : State.blank bl (frameCommand slots s) = State.blank bl s := by
  unfold frameCommand
  repeat' first
    | with_reducible rfl
    | (simp only [h0, h1, h2, h3, h4, h5, h6, h7, h8, ↓State.useFree_blank, State.each_blank, ↓State.sendBlock_blank, ↓State.issueFrame_blank, ↓blank_ite, ↓fst_ite, ite_self, implies_true]; done)
    | split
    | simp only [h0, h1, h2, h3, h4, h5, h6, h7, h8, ↓State.useFree_blank, State.each_blank, ↓State.sendBlock_blank, ↓State.issueFrame_blank, ↓blank_ite, ↓fst_ite, ite_self, implies_true]
    | refine (State.each_blank _ _ _ ?_).trans ?_
    | intro _

theorem tdcEdge_blank (h0 : bl .out = true) (h1 : bl .regs = true) (h2 : bl .tb = true) (h3 : bl .tdc = true) (h4 : bl .field = true) (h5 : bl .hearth = true) (h6 : bl .trig = true) (h7 : bl .pair = true) (n : Fin 16) (c : Nat) (e : Fin 2500000) (s : State) : State.blank bl (tdcEdge n c e s) = State.blank bl s := by
  unfold tdcEdge
  repeat' first
    | with_reducible rfl
    | (simp only [h0, h1, h2, h3, h4, h5, h6, h7, ↓State.immediate_blank, ↓State.tdcTake_blank, ↓State.urgent_blank, ↓State.refine_blank, ↓State.srcEdge_blank, ↓blank_ite, ↓fst_ite, ite_self, implies_true]; done)
    | split
    | simp only [h0, h1, h2, h3, h4, h5, h6, h7, ↓State.immediate_blank, ↓State.tdcTake_blank, ↓State.urgent_blank, ↓State.refine_blank, ↓State.srcEdge_blank, ↓blank_ite, ↓fst_ite, ite_self, implies_true]

theorem State.moveFrames_blank (h0 : bl .hearth = true) (s : State) (was : Stamp) (d : Int) : State.blank bl (State.moveFrames s was d) = State.blank bl s := by
  unfold State.moveFrames
  repeat' first
    | with_reducible rfl
    | (simp only [h0, State.onH_blank, ↓blank_ite, ↓fst_ite, ite_self, implies_true]; done)
    | split
    | simp only [h0, State.onH_blank, ↓blank_ite, ↓fst_ite, ite_self, implies_true]
    | (refine (State.onH_blank h0 _ _ rfl).trans ?_)

theorem telemetryRecord_blank (h0 : bl .regs = true) (h1 : bl .tb = true) (h2 : bl .bgs = true) (h3 : bl .mem = true) (x : Sensors) (s : State) : State.blank bl (telemetryRecord x s) = State.blank bl s := by
  unfold telemetryRecord
  repeat' first
    | with_reducible rfl
    | (simp only [h0, h1, h2, h3, ↓State.updateAlarms_blank, ↓State.ranAt_blank, ↓State.putBgs_blank, ↓State.hwrite_blank, ↓State.setReg_blank, ↓blank_ite, ↓fst_ite, ite_self, implies_true]; done)
    | split
    | simp only [h0, h1, h2, h3, ↓State.updateAlarms_blank, ↓State.ranAt_blank, ↓State.putBgs_blank, ↓State.hwrite_blank, ↓State.setReg_blank, ↓blank_ite, ↓fst_ite, ite_self, implies_true]

theorem gateEdge_blank (h0 : bl .regs = true) (h1 : bl .tb = true) (h2 : bl .tdc = true) (h3 : bl .field = true) (i : Fin 2) (c : Nat) (e : Fin 2500000) (s : State) : State.blank bl (gateEdge i c e s) = State.blank bl s := by
  unfold gateEdge
  repeat' first
    | with_reducible rfl
    | (simp only [h0, h1, h2, h3, ↓State.gateTake_blank, ↓State.urgent_blank, ↓blank_ite, ↓fst_ite, ite_self, implies_true]; done)
    | split
    | simp only [h0, h1, h2, h3, ↓State.gateTake_blank, ↓State.urgent_blank, ↓blank_ite, ↓fst_ite, ite_self, implies_true]

theorem domainWakeDone_blank (h0 : bl .regs = true) (h1 : bl .bgs = true) (n : Fin 51) (s : State) : State.blank bl (domainWakeDone n s) = State.blank bl s := by
  unfold domainWakeDone
  repeat' first
    | with_reducible rfl
    | (simp only [h0, h1, ↓State.domUp_blank, ↓blank_ite, ↓fst_ite, ite_self, implies_true]; done)
    | split
    | simp only [h0, h1, ↓State.domUp_blank, ↓blank_ite, ↓fst_ite, ite_self, implies_true]

theorem waitStripReturn_blank (h0 : bl .regs = true) (h1 : bl .engines = true) (h2 : bl .cores = true) (h3 : bl .postRecs = true) (e : Fin 96) (s : State) : State.blank bl (waitStripReturn e s) = State.blank bl s := by
  unfold waitStripReturn
  repeat' first
    | with_reducible rfl
    | (simp only [h0, h1, h2, h3, ↓State.count_blank, ↓State.applyPosts_blank, ↓State.onEngine_blank, ↓State.paceCheck_blank, ↓blank_ite, ↓fst_ite, ite_self, implies_true]; done)
    | split
    | simp only [h0, h1, h2, h3, ↓State.count_blank, ↓State.applyPosts_blank, ↓State.onEngine_blank, ↓State.paceCheck_blank, ↓blank_ite, ↓fst_ite, ite_self, implies_true]

theorem triggerEvaluation_blank (h0 : bl .out = true) (h1 : bl .regs = true) (h2 : bl .tb = true) (h3 : bl .tdc = true) (h4 : bl .field = true) (h5 : bl .hearth = true) (h6 : bl .mem = true) (h7 : bl .trig = true) (h8 : bl .pair = true) (h9 : bl .host = true) (t : Stamp) (s : State) : State.blank bl (triggerEvaluation t s) = State.blank bl s := by
  unfold triggerEvaluation
  repeat' first
    | with_reducible rfl
    | (simp only [h0, h1, h2, h3, h4, h5, h6, h7, h8, h9, ↓State.evaluate_blank, ↓State.checkStrobes_blank, ↓blank_ite, ↓fst_ite, ite_self, implies_true]; done)
    | split
    | simp only [h0, h1, h2, h3, h4, h5, h6, h7, h8, h9, ↓State.evaluate_blank, ↓State.checkStrobes_blank, ↓blank_ite, ↓fst_ite, ite_self, implies_true]

theorem State.seqStart_blank (h0 : bl .regs = true) (h1 : bl .hearth = true) (h2 : bl .trig = true) (h3 : bl .comps = true) (h4 : bl .pair = true) (s : State) : State.blank bl (State.seqStart s) = State.blank bl s := by
  unfold State.seqStart
  repeat' first
    | with_reducible rfl
    | (simp only [h0, h1, h2, h3, h4, ↓State.renumber_blank, ↓State.onSeq_blank, ↓blank_ite, ↓fst_ite, ite_self, implies_true]; done)
    | split
    | simp only [h0, h1, h2, h3, h4, ↓State.renumber_blank, ↓State.onSeq_blank, ↓blank_ite, ↓fst_ite, ite_self, implies_true]

theorem domainPowerUp_blank (h0 : bl .regs = true) (h1 : bl .bgs = true) (n : Fin 51) (s : State) : State.blank bl (domainPowerUp n s) = State.blank bl s := by
  unfold domainPowerUp
  repeat' first
    | with_reducible rfl
    | (simp only [h0, h1, ↓State.domUp_blank, ↓blank_ite, ↓fst_ite, ite_self, implies_true]; done)
    | split
    | simp only [h0, h1, ↓State.domUp_blank, ↓blank_ite, ↓fst_ite, ite_self, implies_true]

theorem dualInputIdle_blank (h0 : bl .trig = true) (i : Fin 2) (s : State) : State.blank bl (dualInputIdle i s) = State.blank bl s := by
  unfold dualInputIdle
  repeat' first
    | with_reducible rfl
    | (simp only [h0, ↓State.onDual_blank, ↓blank_ite, ↓fst_ite, ite_self, implies_true]; done)
    | split
    | simp only [h0, ↓State.onDual_blank, ↓blank_ite, ↓fst_ite, ite_self, implies_true]

theorem domainWake_blank (h0 : bl .bgs = true) (n : Fin 51) (s : State) : State.blank bl (domainWake n s) = State.blank bl s := by
  unfold domainWake
  repeat' first
    | with_reducible rfl
    | (simp only [h0, ↓State.putBgs_blank, ↓blank_ite, ↓fst_ite, ite_self, implies_true]; done)
    | split
    | simp only [h0, ↓State.putBgs_blank, ↓blank_ite, ↓fst_ite, ite_self, implies_true]

theorem stepApply_blank (h0 : bl .out = true) (h1 : bl .regs = true) (h2 : bl .tb = true) (h3 : bl .queues = true) (h4 : bl .tdc = true) (h5 : bl .field = true) (h6 : bl .hearth = true) (h7 : bl .mem = true) (h8 : bl .trig = true) (h9 : bl .pair = true) (h10 : bl .host = true) (h11 : bl .ptp = true) (s : State) : State.blank bl (stepApply s) = State.blank bl s := by
  unfold stepApply
  repeat' first
    | with_reducible rfl
    | (simp only [h0, h1, h2, h3, h4, h5, h6, h7, h8, h9, h10, h11, ↓State.tdcStep_blank, ↓State.evaluate_blank, ↓State.dropPending_blank, ↓State.moveTime_blank, ↓State.mirrorSend_blank, ↓State.onTrig_blank, ↓State.moveFrames_blank, ↓State.shiftRaw_blank, ↓State.tdcEpoch_blank, ↓State.srcEdge_blank, ↓blank_ite, ↓fst_ite, ite_self, implies_true]; done)
    | split
    | simp only [h0, h1, h2, h3, h4, h5, h6, h7, h8, h9, h10, h11, ↓State.tdcStep_blank, ↓State.evaluate_blank, ↓State.dropPending_blank, ↓State.moveTime_blank, ↓State.mirrorSend_blank, ↓State.onTrig_blank, ↓State.moveFrames_blank, ↓State.shiftRaw_blank, ↓State.tdcEpoch_blank, ↓State.srcEdge_blank, ↓blank_ite, ↓fst_ite, ite_self, implies_true]

theorem anvStopTimeout_blank (h0 : bl .tb = true) (h1 : bl .order = true) (h2 : bl .queues = true) (h3 : bl .engines = true) (h4 : bl .hearth = true) (h5 : bl .mem = true) (h6 : bl .staging = true) (s : State) : State.blank bl (anvStopTimeout s) = State.blank bl s := by
  unfold anvStopTimeout
  repeat' first
    | with_reducible rfl
    | (simp only [h0, h1, h2, h3, h4, h5, h6, ↓State.anvQuench_blank, ↓blank_ite, ↓fst_ite, ite_self, implies_true]; done)
    | split
    | simp only [h0, h1, h2, h3, h4, h5, h6, ↓State.anvQuench_blank, ↓blank_ite, ↓fst_ite, ite_self, implies_true]

theorem postLsResume_blank (h0 : bl .regs = true) (h1 : bl .engines = true) (h2 : bl .cores = true) (h3 : bl .postRecs = true) (h4 : bl .postSeq = true) (c : Fin 4) (s : State) : State.blank bl (postLsResume c s) = State.blank bl s := by
  unfold postLsResume
  repeat' first
    | with_reducible rfl
    | (simp only [h0, h1, h2, h3, h4, ↓State.onCore_blank, ↓blank_ite, ↓fst_ite, ite_self, implies_true]; done)
    | split
    | simp only [h0, h1, h2, h3, h4, ↓State.onCore_blank, ↓blank_ite, ↓fst_ite, ite_self, implies_true]
    | refine (State.postIssue_blank (by assumption) (by assumption) (by assumption) (by assumption) (by assumption) _ _ _ _ _ _ _ _ (by assumption)).trans ?_

theorem outputTestStart_blank (h0 : bl .trig = true) (o : Fin 9) (s : State) : State.blank bl (outputTestStart o s) = State.blank bl s := by
  unfold outputTestStart
  repeat' first
    | with_reducible rfl
    | (simp only [h0, ↓State.testBegin_blank, ↓blank_ite, ↓fst_ite, ite_self, implies_true]; done)
    | split
    | simp only [h0, ↓State.testBegin_blank, ↓blank_ite, ↓fst_ite, ite_self, implies_true]

theorem outputTimedPulse_blank (h0 : bl .out = true) (h1 : bl .regs = true) (h2 : bl .tb = true) (h3 : bl .trig = true) (o : Fin 9) (t : Stamp) (s : State) : State.blank bl (outputTimedPulse o t s) = State.blank bl s := by
  unfold outputTimedPulse
  repeat' first
    | with_reducible rfl
    | (simp only [h0, h1, h2, h3, ↓State.pulse_blank, ↓blank_ite, ↓fst_ite, ite_self, implies_true]; done)
    | split
    | simp only [h0, h1, h2, h3, ↓State.pulse_blank, ↓blank_ite, ↓fst_ite, ite_self, implies_true]

theorem State.setRun_blank (h0 : bl .engines = true) (h1 : bl .cores = true) (s : State) (p : ProcId) (r : RunSt) : State.blank bl (State.setRun s p r) = State.blank bl s := by
  unfold State.setRun
  repeat' first
    | with_reducible rfl
    | (simp only [h0, h1, ↓State.onEngine_blank, ↓State.onCore_blank, ↓blank_ite, ↓fst_ite, ite_self, implies_true]; done)
    | split
    | simp only [h0, h1, ↓State.onEngine_blank, ↓State.onCore_blank, ↓blank_ite, ↓fst_ite, ite_self, implies_true]

theorem fenceComplete_blank (h0 : bl .engines = true) (h1 : bl .cores = true) (p : ProcId) (s : State) : State.blank bl (fenceComplete p s) = State.blank bl s := by
  unfold fenceComplete
  repeat' first
    | with_reducible rfl
    | (simp only [h0, h1, ↓State.setRun_blank, ↓State.paceCheck_blank, ↓blank_ite, ↓fst_ite, ite_self, implies_true]; done)
    | split
    | simp only [h0, h1, ↓State.setRun_blank, ↓State.paceCheck_blank, ↓blank_ite, ↓fst_ite, ite_self, implies_true]

end Sys2Proof.Machine
end

