-- ==== Sys2Proof/Laws/BlankRig.lean ====
section
/-!
SUPPORT. What each operation leaves alone: the parts of the state that it can change are emptied on both sides, and the rest agrees.
The files of Machine/: Firmware, TrigCmds, Reset, Tongs, Ptp, HostRange, HostDma.
-/

namespace Sys2Proof.Machine

set_option linter.unusedSimpArgs false

variable {bl : Comp → Bool}

theorem State.hostWrite_blank (h0 : bl .hearth = true) (h1 : bl .mem = true) (s : State) (a : Nat) (bs : List Byte) : State.blank bl (State.hostWrite s a bs) = State.blank bl s := by
  unfold State.hostWrite
  repeat' first
    | with_reducible rfl
    | (simp only [h0, h1, State.onH_blank, ↓State.hwrite_blank, ↓blank_ite, ↓fst_ite, ite_self, implies_true]; done)
    | split
    | simp only [h0, h1, State.onH_blank, ↓State.hwrite_blank, ↓blank_ite, ↓fst_ite, ite_self, implies_true]
    | (refine (State.onH_blank h0 _ _ rfl).trans ?_)

theorem State.scramble_blank (h0 : bl .freeUse = true) (h1 : bl .hearth = true) (h2 : bl .mem = true) (s : State) (a : Nat) (n : Nat) : State.blank bl (State.scramble s a n) = State.blank bl s := by
  unfold State.scramble
  repeat' first
    | with_reducible rfl
    | (simp only [h0, h1, h2, ↓State.useFree_blank, ↓State.hostWrite_blank, ↓blank_ite, ↓fst_ite, ite_self, implies_true]; done)
    | split
    | simp only [h0, h1, h2, ↓State.useFree_blank, ↓State.hostWrite_blank, ↓blank_ite, ↓fst_ite, ite_self, implies_true]

theorem State.trgStop_blank (h0 : bl .trig = true) (s : State) : State.blank bl (State.trgStop s) = State.blank bl s := by
  unfold State.trgStop
  repeat' first
    | with_reducible rfl
    | (simp only [h0, ↓State.seqStop_blank, ↓State.trigItem_blank, ↓blank_ite, ↓fst_ite, ite_self, implies_true]; done)
    | split
    | simp only [h0, ↓State.seqStop_blank, ↓State.trigItem_blank, ↓blank_ite, ↓fst_ite, ite_self, implies_true]

theorem State.lostMaster_blank (h0 : bl .regs = true) (h1 : bl .tb = true) (s : State) : State.blank bl (State.lostMaster s) = State.blank bl s := by
  unfold State.lostMaster
  repeat' first
    | with_reducible rfl
    | (simp only [h0, h1, ↓State.setSync_blank, ↓State.clearStep_blank, ↓blank_ite, ↓fst_ite, ite_self, implies_true]; done)
    | split
    | simp only [h0, h1, ↓State.setSync_blank, ↓State.clearStep_blank, ↓blank_ite, ↓fst_ite, ite_self, implies_true]

theorem State.onPort_blank (h0 : bl .ptp = true) (s : State) (p : Nat) (g : PtpPort → PtpPort) : State.blank bl (State.onPort s p g) = State.blank bl s := by
  unfold State.onPort
  repeat' first
    | with_reducible rfl
    | (simp only [h0, ↓State.putPtp_blank, ↓blank_ite, ↓fst_ite, ite_self, implies_true]; done)
    | split
    | simp only [h0, ↓State.putPtp_blank, ↓blank_ite, ↓fst_ite, ite_self, implies_true]

theorem State.setPort_blank (h0 : bl .regs = true) (h1 : bl .tb = true) (s : State) (p : Nat) (n : Nat) : State.blank bl (State.setPort s p n) = State.blank bl s := by
  unfold State.setPort
  repeat' first
    | with_reducible rfl
    | (simp only [h0, h1, ↓State.log_blank, ↓State.setFld_blank, ↓blank_ite, ↓fst_ite, ite_self, implies_true]; done)
    | split
    | simp only [h0, h1, ↓State.log_blank, ↓State.setFld_blank, ↓blank_ite, ↓fst_ite, ite_self, implies_true]

theorem State.portDrop_blank (h0 : bl .regs = true) (h1 : bl .tb = true) (h2 : bl .ptp = true) (s : State) (p : Nat) : State.blank bl (State.portDrop s p) = State.blank bl s := by
  unfold State.portDrop
  repeat' first
    | with_reducible rfl
    | (simp only [h0, h1, h2, ↓State.setFld_blank, ↓State.onPort_blank, ↓State.setPort_blank, ↓blank_ite, ↓fst_ite, ite_self, implies_true]; done)
    | split
    | simp only [h0, h1, h2, ↓State.setFld_blank, ↓State.onPort_blank, ↓State.setPort_blank, ↓blank_ite, ↓fst_ite, ite_self, implies_true]

theorem State.ptpStop_blank (h0 : bl .regs = true) (h1 : bl .tb = true) (h2 : bl .ptp = true) (s : State) : State.blank bl (State.ptpStop s) = State.blank bl s := by
  unfold State.ptpStop
  repeat' first
    | with_reducible rfl
    | (simp only [h0, h1, h2, ↓State.lostMaster_blank, State.each_blank, ↓State.onPort_blank, ↓State.portDrop_blank, ↓blank_ite, ↓fst_ite, ite_self, implies_true]; done)
    | split
    | simp only [h0, h1, h2, ↓State.lostMaster_blank, State.each_blank, ↓State.onPort_blank, ↓State.portDrop_blank, ↓blank_ite, ↓fst_ite, ite_self, implies_true]
    | refine (State.each_blank _ _ _ ?_).trans ?_
    | intro _

theorem State.onPair_blank (h0 : bl .pair = true) (s : State) (g : PairState → PairState) : State.blank bl (State.onPair s g) = State.blank bl s := by
  unfold State.onPair
  repeat' first
    | with_reducible rfl
    | (simp only [h0, ↓State.putPair_blank, ↓blank_ite, ↓fst_ite, ite_self, implies_true]; done)
    | split
    | simp only [h0, ↓State.putPair_blank, ↓blank_ite, ↓fst_ite, ite_self, implies_true]

theorem State.heartbeat_blank (h0 : bl .out = true) (h1 : bl .pair = true) (s : State) (role : Nat) : State.blank bl (State.heartbeat s role) = State.blank bl s := by
  unfold State.heartbeat
  repeat' first
    | with_reducible rfl
    | (simp only [h0, h1, State.each_blank, ↓State.onPair_blank, ↓State.emit_blank, ↓blank_ite, ↓fst_ite, ite_self, implies_true]; done)
    | split
    | simp only [h0, h1, State.each_blank, ↓State.onPair_blank, ↓State.emit_blank, ↓blank_ite, ↓fst_ite, ite_self, implies_true]
    | refine (State.each_blank _ _ _ ?_).trans ?_
    | intro _

theorem State.onDma_blank (h0 : bl .host = true) (s : State) (q : Nat) (g : DmaQueue → DmaQueue) : State.blank bl (State.onDma s q g) = State.blank bl s := by
  unfold State.onDma
  repeat' first
    | with_reducible rfl
    | (simp only [h0, ↓State.putHost_blank, ↓blank_ite, ↓fst_ite, ite_self, implies_true]; done)
    | split
    | simp only [h0, ↓State.putHost_blank, ↓blank_ite, ↓fst_ite, ite_self, implies_true]

theorem State.dmaComplete_blank (h0 : bl .out = true) (h1 : bl .host = true) (s : State) (q : Nat) : State.blank bl (State.dmaComplete s q) = State.blank bl s := by
  unfold State.dmaComplete
  repeat' first
    | with_reducible rfl
    | (simp only [h0, h1, ↓State.onDma_blank, ↓State.emit_blank, ↓State.signal_blank, ↓blank_ite, ↓fst_ite, ite_self, implies_true]; done)
    | split
    | simp only [h0, h1, ↓State.onDma_blank, ↓State.emit_blank, ↓State.signal_blank, ↓blank_ite, ↓fst_ite, ite_self, implies_true]

theorem State.dmaResult_blank (h0 : bl .host = true) (s : State) (q : Nat) (o : DmaOp) : State.blank bl (State.dmaResult s q o) = State.blank bl s := by
  unfold State.dmaResult
  repeat' first
    | with_reducible rfl
    | (simp only [h0, ↓State.onDma_blank, ↓blank_ite, ↓fst_ite, ite_self, implies_true]; done)
    | split
    | simp only [h0, ↓State.onDma_blank, ↓blank_ite, ↓fst_ite, ite_self, implies_true]

theorem State.dmaCut_blank (h0 : bl .freeUse = true) (h1 : bl .hearth = true) (h2 : bl .mem = true) (s : State) (o : DmaOp) : State.blank bl (State.dmaCut s o) = State.blank bl s := by
  unfold State.dmaCut
  repeat' first
    | with_reducible rfl
    | (simp only [h0, h1, h2, ↓State.scramble_blank, ↓blank_ite, ↓fst_ite, ite_self, implies_true]; done)
    | split
    | simp only [h0, h1, h2, ↓State.scramble_blank, ↓blank_ite, ↓fst_ite, ite_self, implies_true]

theorem State.hstStop_blank (h0 : bl .out = true) (h1 : bl .freeUse = true) (h2 : bl .hearth = true) (h3 : bl .mem = true) (h4 : bl .host = true) (s : State) : State.blank bl (State.hstStop s) = State.blank bl s := by
  unfold State.hstStop
  repeat' first
    | with_reducible rfl
    | (simp only [h0, h1, h2, h3, h4, State.each_blank, ↓State.dmaComplete_blank, ↓State.dmaResult_blank, ↓State.dmaCut_blank, ↓blank_ite, ↓fst_ite, ite_self, implies_true]; done)
    | split
    | simp only [h0, h1, h2, h3, h4, State.each_blank, ↓State.dmaComplete_blank, ↓State.dmaResult_blank, ↓State.dmaCut_blank, ↓blank_ite, ↓fst_ite, ite_self, implies_true]
    | refine (State.each_blank _ _ _ ?_).trans ?_
    | intro _

theorem State.armRing_blank (h0 : bl .regs = true) (h1 : bl .field = true) (h2 : bl .hearth = true) (h3 : bl .mem = true) (h4 : bl .trig = true) (h5 : bl .jobs = true) (s : State) (seg : Nat) (f0 : Nat) : State.blank bl (State.armRing s seg f0) = State.blank bl s := by
  unfold State.armRing
  repeat' first
    | with_reducible rfl
    | (simp only [h0, h1, h2, h3, h4, h5, ↓State.setReg_blank, ↓State.armSegment_blank, ↓State.chargeTestEnd_blank, ↓State.onTrig_blank, ↓blank_ite, ↓fst_ite, ite_self, implies_true]; done)
    | split
    | simp only [h0, h1, h2, h3, h4, h5, ↓State.setReg_blank, ↓State.armSegment_blank, ↓State.chargeTestEnd_blank, ↓State.onTrig_blank, ↓blank_ite, ↓fst_ite, ite_self, implies_true]

theorem State.rigRx_blank (h0 : bl .regs = true) (s : State) (p type : Nat) (fcs : Bool) (frame : List Byte) (ok : RigMsg → Bool)
    (g : RigMsg → State → State) (hg : ∀ m t, State.blank bl (g m t) = State.blank bl t) :
    State.blank bl (s.rigRx p type fcs frame ok g) = State.blank bl s := by
  unfold State.rigRx
  repeat' first
    | rfl
    | exact hg _ _
    | exact State.count_blank h0 _ _ _
    | split

theorem State.setTimeTrigger_blank (h0 : bl .out = true) (h1 : bl .trig = true) (h2 : bl .pair = true) (s : State) (ns : Nat) : State.blank bl (State.setTimeTrigger s ns).1 = State.blank bl s := by
  unfold State.setTimeTrigger
  repeat' first
    | with_reducible rfl
    | (simp only [h0, h1, h2, ↓State.onTrig_blank, ↓State.mirrorSend_blank, ↓blank_ite, ↓fst_ite, ite_self, implies_true]; done)
    | split
    | simp only [h0, h1, h2, ↓State.onTrig_blank, ↓State.mirrorSend_blank, ↓blank_ite, ↓fst_ite, ite_self, implies_true]

theorem State.ownTimeTrigger_blank (h0 : bl .out = true) (h1 : bl .tb = true) (h2 : bl .trig = true) (h3 : bl .pair = true) (s : State) (ns : Nat) : State.blank bl (State.ownTimeTrigger s ns).1 = State.blank bl s := by
  unfold State.ownTimeTrigger
  repeat' first
    | with_reducible rfl
    | (simp only [h0, h1, h2, h3, ↓State.setTimeTrigger_blank, ↓State.log_blank, ↓blank_ite, ↓fst_ite, ite_self, implies_true]; done)
    | split
    | simp only [h0, h1, h2, h3, ↓State.setTimeTrigger_blank, ↓State.log_blank, ↓blank_ite, ↓fst_ite, ite_self, implies_true]

theorem State.paceWake_blank (h0 : bl .regs = true) (h1 : bl .bgs = true) (s : State) (meas : List (Nat × Nat)) : State.blank bl (State.paceWake s meas) = State.blank bl s := by
  unfold State.paceWake
  repeat' first
    | with_reducible rfl
    | (simp only [h0, h1, State.each_blank, ↓State.domUp_blank, ↓State.addPace_blank, ↓blank_ite, ↓fst_ite, ite_self, implies_true]; done)
    | split
    | simp only [h0, h1, State.each_blank, ↓State.domUp_blank, ↓State.addPace_blank, ↓blank_ite, ↓fst_ite, ite_self, implies_true]
    | refine (State.each_blank _ _ _ ?_).trans ?_
    | intro _

theorem State.setRole_blank (h0 : bl .regs = true) (s : State) (n : Nat) : State.blank bl (State.setRole s n) = State.blank bl s := by
  unfold State.setRole
  repeat' first
    | with_reducible rfl
    | (simp only [h0, ↓State.setFld_blank, ↓State.setBit_blank, ↓blank_ite, ↓fst_ite, ite_self, implies_true]; done)
    | split
    | simp only [h0, ↓State.setFld_blank, ↓State.setBit_blank, ↓blank_ite, ↓fst_ite, ite_self, implies_true]

theorem State.dropTongs_blank (h0 : bl .regs = true) (h1 : bl .tb = true) (h2 : bl .pair = true) (s : State) (cause : Nat) : State.blank bl (State.dropTongs s cause) = State.blank bl s := by
  unfold State.dropTongs
  repeat' first
    | with_reducible rfl
    | (simp only [h0, h1, h2, ↓State.setBit_blank, ↓State.logDev_blank, ↓State.onPair_blank, ↓State.setRole_blank, ↓blank_ite, ↓fst_ite, ite_self, implies_true]; done)
    | split
    | simp only [h0, h1, h2, ↓State.setBit_blank, ↓State.logDev_blank, ↓State.onPair_blank, ↓State.setRole_blank, ↓blank_ite, ↓fst_ite, ite_self, implies_true]

theorem State.faultOut_blank (h0 : bl .fns = true) (h1 : bl .regs = true) (h2 : bl .tb = true) (h3 : bl .pair = true) (s : State) (f : Fn) (code : Nat) : State.blank bl (State.faultOut s f code) = State.blank bl s := by
  unfold State.faultOut
  repeat' first
    | with_reducible rfl
    | (simp only [h0, h1, h2, h3, ↓State.faultFn_blank, ↓State.dropTongs_blank, ↓blank_ite, ↓fst_ite, ite_self, implies_true]; done)
    | split
    | simp only [h0, h1, h2, h3, ↓State.faultFn_blank, ↓State.dropTongs_blank, ↓blank_ite, ↓fst_ite, ite_self, implies_true]

theorem State.pairForget_blank (h0 : bl .pair = true) (s : State) : State.blank bl (State.pairForget s) = State.blank bl s := by
  unfold State.pairForget
  repeat' first
    | with_reducible rfl
    | (simp only [h0, ↓State.onPair_blank, ↓blank_ite, ↓fst_ite, ite_self, implies_true]; done)
    | split
    | simp only [h0, ↓State.onPair_blank, ↓blank_ite, ↓fst_ite, ite_self, implies_true]

theorem State.leaveFollow_blank (h0 : bl .regs = true) (h1 : bl .tb = true) (s : State) : State.blank bl (State.leaveFollow s) = State.blank bl s := by
  unfold State.leaveFollow
  repeat' first
    | with_reducible rfl
    | (simp only [h0, h1, ↓State.putTb_blank, ↓State.setSync_blank, ↓blank_ite, ↓fst_ite, ite_self, implies_true]; done)
    | split
    | simp only [h0, h1, ↓State.putTb_blank, ↓State.setSync_blank, ↓blank_ite, ↓fst_ite, ite_self, implies_true]

theorem State.mirrorOff_blank (h0 : bl .regs = true) (h1 : bl .rx = true) (h2 : bl .mirLanes = true) (s : State) : State.blank bl (State.mirrorOff s) = State.blank bl s := by
  unfold State.mirrorOff
  repeat' first
    | with_reducible rfl
    | (simp only [h0, h1, h2, State.each_blank, ↓State.laneOff_blank, ↓blank_ite, ↓fst_ite, ite_self, implies_true]; done)
    | split
    | simp only [h0, h1, h2, State.each_blank, ↓State.laneOff_blank, ↓blank_ite, ↓fst_ite, ite_self, implies_true]
    | refine (State.each_blank _ _ _ ?_).trans ?_
    | intro _

theorem State.pairFaultNow_blank (h0 : bl .fns = true) (h1 : bl .regs = true) (h2 : bl .tb = true) (h3 : bl .rx = true) (h4 : bl .mirLanes = true) (h5 : bl .pair = true) (s : State) (code : Nat) : State.blank bl (State.pairFaultNow s code) = State.blank bl s := by
  unfold State.pairFaultNow
  repeat' first
    | with_reducible rfl
    | (simp only [h0, h1, h2, h3, h4, h5, ↓State.pairForget_blank, ↓State.leaveFollow_blank, ↓State.mirrorOff_blank, ↓State.faultFn_blank, ↓State.setRole_blank, ↓blank_ite, ↓fst_ite, ite_self, implies_true]; done)
    | split
    | simp only [h0, h1, h2, h3, h4, h5, ↓State.pairForget_blank, ↓State.leaveFollow_blank, ↓State.mirrorOff_blank, ↓State.faultFn_blank, ↓State.setRole_blank, ↓blank_ite, ↓fst_ite, ite_self, implies_true]

theorem State.trgQuench_blank (h0 : bl .out = true) (h1 : bl .regs = true) (h2 : bl .tb = true) (h3 : bl .tdc = true) (h4 : bl .field = true) (h5 : bl .hearth = true) (h6 : bl .mem = true) (h7 : bl .trig = true) (h8 : bl .pair = true) (h9 : bl .host = true) (s : State) (global : Bool) : State.blank bl (State.trgQuench s global) = State.blank bl s := by
  unfold State.trgQuench
  repeat' first
    | with_reducible rfl
    | (simp only [h0, h1, h2, h3, h4, h5, h6, h7, h8, h9, ↓State.seqStop_blank, ↓State.dropPending_blank, ↓State.onTrig_blank, ↓State.evalAll_blank, ↓State.endSegment_blank, ↓State.outputsIdle_blank, ↓blank_ite, ↓fst_ite, ite_self, implies_true]; done)
    | split
    | simp only [h0, h1, h2, h3, h4, h5, h6, h7, h8, h9, ↓State.seqStop_blank, ↓State.dropPending_blank, ↓State.onTrig_blank, ↓State.evalAll_blank, ↓State.endSegment_blank, ↓State.outputsIdle_blank, ↓blank_ite, ↓fst_ite, ite_self, implies_true]

theorem State.pairStopped_blank (h0 : bl .regs = true) (h1 : bl .tb = true) (h2 : bl .rx = true) (h3 : bl .mirLanes = true) (h4 : bl .pair = true) (s : State) : State.blank bl (State.pairStopped s) = State.blank bl s := by
  unfold State.pairStopped
  repeat' first
    | with_reducible rfl
    | (simp only [h0, h1, h2, h3, h4, ↓State.setRole_blank, ↓State.pairForget_blank, ↓State.leaveFollow_blank, ↓State.mirrorOff_blank, ↓blank_ite, ↓fst_ite, ite_self, implies_true]; done)
    | split
    | simp only [h0, h1, h2, h3, h4, ↓State.setRole_blank, ↓State.pairForget_blank, ↓State.leaveFollow_blank, ↓State.mirrorOff_blank, ↓blank_ite, ↓fst_ite, ite_self, implies_true]

theorem State.dmaAbandon_blank (h0 : bl .freeUse = true) (h1 : bl .regs = true) (h2 : bl .hearth = true) (h3 : bl .mem = true) (h4 : bl .host = true) (s : State) (q : Nat) : State.blank bl (State.dmaAbandon s q) = State.blank bl s := by
  unfold State.dmaAbandon
  repeat' first
    | with_reducible rfl
    | (simp only [h0, h1, h2, h3, h4, ↓State.dmaCut_blank, ↓State.onDma_blank, ↓State.setReg_blank, ↓blank_ite, ↓fst_ite, ite_self, implies_true]; done)
    | split
    | simp only [h0, h1, h2, h3, h4, ↓State.dmaCut_blank, ↓State.onDma_blank, ↓State.setReg_blank, ↓blank_ite, ↓fst_ite, ite_self, implies_true]

theorem State.hstQuench_blank (h0 : bl .freeUse = true) (h1 : bl .regs = true) (h2 : bl .hearth = true) (h3 : bl .mem = true) (h4 : bl .host = true) (s : State) : State.blank bl (State.hstQuench s) = State.blank bl s := by
  unfold State.hstQuench
  repeat' first
    | with_reducible rfl
    | (simp only [h0, h1, h2, h3, h4, State.each_blank, ↓State.dmaAbandon_blank, ↓blank_ite, ↓fst_ite, ite_self, implies_true]; done)
    | split
    | simp only [h0, h1, h2, h3, h4, State.each_blank, ↓State.dmaAbandon_blank, ↓blank_ite, ↓fst_ite, ite_self, implies_true]
    | refine (State.each_blank _ _ _ ?_).trans ?_
    | intro _

theorem State.armNow_blank (h0 : bl .out = true) (h1 : bl .regs = true) (h2 : bl .tb = true) (h3 : bl .field = true) (h4 : bl .hearth = true) (h5 : bl .mem = true) (h6 : bl .trig = true) (h7 : bl .jobs = true) (h8 : bl .pair = true) (s : State) (seg : Nat) (f0 : Nat) (again : Bool) : State.blank bl (State.armNow s seg f0 again) = State.blank bl s := by
  unfold State.armNow
  repeat' first
    | with_reducible rfl
    | (simp only [h0, h1, h2, h3, h4, h5, h6, h7, h8, ↓State.onTrig_blank, ↓State.armRing_blank, ↓State.trigItem_blank, ↓State.tellRecord_blank, ↓State.setBit_blank, ↓State.putPair_blank, ↓State.levelDemand_blank, ↓blank_ite, ↓fst_ite, ite_self, implies_true]; done)
    | split
    | simp only [h0, h1, h2, h3, h4, h5, h6, h7, h8, ↓State.onTrig_blank, ↓State.armRing_blank, ↓State.trigItem_blank, ↓State.tellRecord_blank, ↓State.setBit_blank, ↓State.putPair_blank, ↓State.levelDemand_blank, ↓blank_ite, ↓fst_ite, ite_self, implies_true]

theorem State.logPace_blank (h0 : bl .tb = true) (s : State) (engine : Nat) (check : Nat) (pCheck : Nat) (member : Nat) : State.blank bl (State.logPace s engine check pCheck member) = State.blank bl s := by
  unfold State.logPace
  repeat' first
    | with_reducible rfl
    | (simp only [h0, ↓State.logDev_blank, ↓blank_ite, ↓fst_ite, ite_self, implies_true]; done)
    | split
    | simp only [h0, ↓State.logDev_blank, ↓blank_ite, ↓fst_ite, ite_self, implies_true]

theorem State.disarmAll_blank (h0 : bl .out = true) (h1 : bl .regs = true) (h2 : bl .tb = true) (h3 : bl .hearth = true) (h4 : bl .mem = true) (h5 : bl .trig = true) (h6 : bl .pair = true) (h7 : bl .host = true) (s : State) : State.blank bl (State.disarmAll s) = State.blank bl s := by
  unfold State.disarmAll
  repeat' first
    | with_reducible rfl
    | (simp only [h0, h1, h2, h3, h4, h5, h6, h7, ↓State.seqStop_blank, ↓State.onTrig_blank, ↓State.trigItem_blank, ↓State.endSegment_blank, ↓blank_ite, ↓fst_ite, ite_self, implies_true]; done)
    | split
    | simp only [h0, h1, h2, h3, h4, h5, h6, h7, ↓State.seqStop_blank, ↓State.onTrig_blank, ↓State.trigItem_blank, ↓State.endSegment_blank, ↓blank_ite, ↓fst_ite, ite_self, implies_true]

theorem State.onMbox_blank (h0 : bl .host = true) (s : State) (p : Nat) (g : Mbox → Mbox) : State.blank bl (State.onMbox s p g) = State.blank bl s := by
  unfold State.onMbox
  repeat' first
    | with_reducible rfl
    | (simp only [h0, ↓State.putHost_blank, ↓blank_ite, ↓fst_ite, ite_self, implies_true]; done)
    | split
    | simp only [h0, ↓State.putHost_blank, ↓blank_ite, ↓fst_ite, ite_self, implies_true]

theorem State.reply_blank (h0 : bl .out = true) (h1 : bl .cores = true) (h2 : bl .host = true) (s : State) (c : FwCmd) (status : Nat) (res : List Byte) : State.blank bl (State.reply s c status res) = State.blank bl s := by
  unfold State.reply
  repeat' first
    | with_reducible rfl
    | (simp only [h0, h1, h2, ↓State.putHost_blank, ↓State.signal_blank, ↓State.onMbox_blank, ↓State.onCore_blank, ↓blank_ite, ↓fst_ite, ite_self, implies_true]; done)
    | split
    | simp only [h0, h1, h2, ↓State.putHost_blank, ↓State.signal_blank, ↓State.onMbox_blank, ↓State.onCore_blank, ↓blank_ite, ↓fst_ite, ite_self, implies_true]

theorem State.accept_blank (h0 : bl .out = true) (h1 : bl .cores = true) (h2 : bl .host = true) (s : State) (c : FwCmd) : State.blank bl (State.accept s c) = State.blank bl s := by
  unfold State.accept
  repeat' first
    | with_reducible rfl
    | (simp only [h0, h1, h2, ↓State.putHost_blank, ↓State.reply_blank, ↓blank_ite, ↓fst_ite, ite_self, implies_true]; done)
    | split
    | simp only [h0, h1, h2, ↓State.putHost_blank, ↓State.reply_blank, ↓blank_ite, ↓fst_ite, ite_self, implies_true]

theorem mboxGo_blank (h0 : bl .out = true) (h1 : bl .cores = true) (h2 : bl .host = true) (p : Fin 2) (s : State) : State.blank bl (mboxGo p s) = State.blank bl s := by
  unfold mboxGo
  repeat' first
    | with_reducible rfl
    | (simp only [h0, h1, h2, ↓State.onMbox_blank, ↓State.accept_blank, ↓blank_ite, ↓fst_ite, ite_self, implies_true]; done)
    | split
    | simp only [h0, h1, h2, ↓State.onMbox_blank, ↓State.accept_blank, ↓blank_ite, ↓fst_ite, ite_self, implies_true]

theorem State.endCommand_blank (h0 : bl .out = true) (h1 : bl .cores = true) (h2 : bl .host = true) (s : State) (src : Src) (status : Nat) : State.blank bl (State.endCommand s src status) = State.blank bl s := by
  unfold State.endCommand
  repeat' first
    | with_reducible rfl
    | (simp only [h0, h1, h2, ↓State.reply_blank, ↓blank_ite, ↓fst_ite, ite_self, implies_true]; done)
    | split
    | simp only [h0, h1, h2, ↓State.reply_blank, ↓blank_ite, ↓fst_ite, ite_self, implies_true]

theorem mboxAbort_blank (h0 : bl .out = true) (h1 : bl .cores = true) (h2 : bl .host = true) (p : Fin 2) (s : State) : State.blank bl (mboxAbort p s) = State.blank bl s := by
  unfold mboxAbort
  repeat' first
    | with_reducible rfl
    | (simp only [h0, h1, h2, ↓State.endCommand_blank, ↓blank_ite, ↓fst_ite, ite_self, implies_true]; done)
    | split
    | simp only [h0, h1, h2, ↓State.endCommand_blank, ↓blank_ite, ↓fst_ite, ite_self, implies_true]

theorem hosttrigGo_blank (h0 : bl .regs = true) (h1 : bl .tb = true) (h2 : bl .trig = true) (s : State) : State.blank bl (hosttrigGo s) = State.blank bl s := by
  unfold hosttrigGo
  repeat' first
    | with_reducible rfl
    | (simp only [h0, h1, h2, ↓State.srcEvent_blank, ↓blank_ite, ↓fst_ite, ite_self, implies_true]; done)
    | split
    | simp only [h0, h1, h2, ↓State.srcEvent_blank, ↓blank_ite, ↓fst_ite, ite_self, implies_true]

theorem segcmdRelease_blank (h0 : bl .out = true) (h1 : bl .field = true) (h2 : bl .hearth = true) (h3 : bl .trig = true) (h4 : bl .pair = true) (s : State) : State.blank bl (segcmdRelease s) = State.blank bl s := by
  unfold segcmdRelease
  repeat' first
    | with_reducible rfl
    | (simp only [h0, h1, h2, h3, h4, ↓State.mirrorSend_blank, ↓State.releaseSegment_blank, ↓blank_ite, ↓fst_ite, ite_self, implies_true]; done)
    | split
    | simp only [h0, h1, h2, h3, h4, ↓State.mirrorSend_blank, ↓State.releaseSegment_blank, ↓blank_ite, ↓fst_ite, ite_self, implies_true]

theorem eqHeadWrite_blank (h0 : bl .out = true) (h1 : bl .regs = true) (h2 : bl .host = true) (v : Word) (s : State) : State.blank bl (eqHeadWrite v s) = State.blank bl s := by
  unfold eqHeadWrite
  repeat' first
    | with_reducible rfl
    | (simp only [h0, h1, h2, ↓State.setReg_blank, ↓State.eqReportLost_blank, ↓blank_ite, ↓fst_ite, ite_self, implies_true]; done)
    | split
    | simp only [h0, h1, h2, ↓State.setReg_blank, ↓State.eqReportLost_blank, ↓blank_ite, ↓fst_ite, ite_self, implies_true]

theorem pvHeadWrite_blank (h0 : bl .regs = true) (v : Word) (s : State) : State.blank bl (pvHeadWrite v s) = State.blank bl s := by
  unfold pvHeadWrite
  repeat' first
    | with_reducible rfl
    | (simp only [h0, ↓State.setReg_blank, ↓blank_ite, ↓fst_ite, ite_self, implies_true]; done)
    | split
    | simp only [h0, ↓State.setReg_blank, ↓blank_ite, ↓fst_ite, ite_self, implies_true]

theorem sqDoorbell_blank (h0 : bl .regs = true) (h1 : bl .host = true) (q : Fin 16) (v : Word) (s : State) : State.blank bl (sqDoorbell q v s) = State.blank bl s := by
  unfold sqDoorbell
  repeat' first
    | with_reducible rfl
    | (simp only [h0, h1, ↓State.setReg_blank, ↓State.onDma_blank, ↓blank_ite, ↓fst_ite, ite_self, implies_true]; done)
    | split
    | simp only [h0, h1, ↓State.setReg_blank, ↓State.onDma_blank, ↓blank_ite, ↓fst_ite, ite_self, implies_true]

theorem cqHeadWrite_blank (h0 : bl .out = true) (h1 : bl .regs = true) (h2 : bl .host = true) (q : Fin 16) (v : Word) (s : State) : State.blank bl (cqHeadWrite q v s) = State.blank bl s := by
  unfold cqHeadWrite
  repeat' first
    | with_reducible rfl
    | (simp only [h0, h1, h2, ↓State.setReg_blank, ↓State.dmaComplete_blank, ↓blank_ite, ↓fst_ite, ite_self, implies_true]; done)
    | split
    | simp only [h0, h1, h2, ↓State.setReg_blank, ↓State.dmaComplete_blank, ↓blank_ite, ↓fst_ite, ite_self, implies_true]

theorem State.ptpTake_blank (h0 : bl .regs = true) (s : State) (p : Nat) (h : PtpHead) (mech : Option Bool) : State.blank bl (State.ptpTake s p h mech).1 = State.blank bl s := by
  unfold State.ptpTake
  repeat' first
    | with_reducible rfl
    | (simp only [h0, ↓State.count_blank, ↓blank_ite, ↓fst_ite, ite_self, implies_true]; done)
    | split
    | simp only [h0, ↓State.count_blank, ↓blank_ite, ↓fst_ite, ite_self, implies_true]

theorem State.ptpRx_blank (h0 : bl .regs = true) (s : State) (p : Nat) (h : PtpHead) (mech : Option Bool) (g : State → State)
    (hg : ∀ t, State.blank bl (g t) = State.blank bl t) : State.blank bl (s.ptpRx p h mech g) = State.blank bl s := by
  unfold State.ptpRx
  dsimp only
  split
  · exact (hg _).trans (State.ptpTake_blank h0 _ _ _ _)
  · exact State.ptpTake_blank h0 _ _ _ _

theorem State.onPtp_blank (h0 : bl .ptp = true) (s : State) (g : PtpState → PtpState) : State.blank bl (State.onPtp s g) = State.blank bl s := by
  unfold State.onPtp
  repeat' first
    | with_reducible rfl
    | (simp only [h0, ↓State.putPtp_blank, ↓blank_ite, ↓fst_ite, ite_self, implies_true]; done)
    | split
    | simp only [h0, ↓State.putPtp_blank, ↓blank_ite, ↓fst_ite, ite_self, implies_true]

theorem State.servoFirst_blank (h0 : bl .regs = true) (h1 : bl .tb = true) (h2 : bl .ptp = true) (s : State) (ofs : Int) : State.blank bl (State.servoFirst s ofs) = State.blank bl s := by
  unfold State.servoFirst
  repeat' first
    | with_reducible rfl
    | (simp only [h0, h1, h2, ↓State.setSync_blank, ↓State.requestStep_blank, ↓State.onPtp_blank, ↓blank_ite, ↓fst_ite, ite_self, implies_true]; done)
    | split
    | simp only [h0, h1, h2, ↓State.setSync_blank, ↓State.requestStep_blank, ↓State.onPtp_blank, ↓blank_ite, ↓fst_ite, ite_self, implies_true]

theorem State.servoRate_blank (h0 : bl .freeUse = true) (h1 : bl .regs = true) (h2 : bl .tb = true) (s : State) : State.blank bl (State.servoRate s) = State.blank bl s := by
  unfold State.servoRate
  repeat' first
    | with_reducible rfl
    | (simp only [h0, h1, h2, ↓State.useFree_blank, ↓State.putInc_blank, ↓blank_ite, ↓fst_ite, ite_self, implies_true]; done)
    | split
    | simp only [h0, h1, h2, ↓State.useFree_blank, ↓State.putInc_blank, ↓blank_ite, ↓fst_ite, ite_self, implies_true]

theorem State.servoAct_blank (h0 : bl .freeUse = true) (h1 : bl .regs = true) (h2 : bl .tb = true) (h3 : bl .ptp = true) (s : State) (p : Nat) (ofs : Int) : State.blank bl (State.servoAct s p ofs) = State.blank bl s := by
  unfold State.servoAct
  repeat' first
    | with_reducible rfl
    | (simp only [h0, h1, h2, h3, ↓State.servoFirst_blank, ↓State.setPort_blank, ↓State.setSync_blank, ↓State.requestStep_blank, ↓State.servoRate_blank, ↓State.onPtp_blank, ↓blank_ite, ↓fst_ite, ite_self, implies_true]; done)
    | split
    | simp only [h0, h1, h2, h3, ↓State.servoFirst_blank, ↓State.setPort_blank, ↓State.setSync_blank, ↓State.requestStep_blank, ↓State.servoRate_blank, ↓State.onPtp_blank, ↓blank_ite, ↓fst_ite, ite_self, implies_true]

theorem State.takeOffset_blank (h0 : bl .freeUse = true) (h1 : bl .regs = true) (h2 : bl .tb = true) (h3 : bl .ptp = true) (s : State) (p : Nat) (ofs : Int) : State.blank bl (State.takeOffset s p ofs) = State.blank bl s := by
  unfold State.takeOffset
  repeat' first
    | with_reducible rfl
    | (simp only [h0, h1, h2, h3, ↓State.servoAct_blank, ↓State.setReg_blank, ↓blank_ite, ↓fst_ite, ite_self, implies_true]; done)
    | split
    | simp only [h0, h1, h2, h3, ↓State.servoAct_blank, ↓State.setReg_blank, ↓blank_ite, ↓fst_ite, ite_self, implies_true]

theorem State.syncDone_blank (h0 : bl .freeUse = true) (h1 : bl .regs = true) (h2 : bl .tb = true) (h3 : bl .ptp = true) (s : State) (p : Nat) (t1 : Stamp) (t2 : Stamp) (corr : Int) : State.blank bl (State.syncDone s p t1 t2 corr) = State.blank bl s := by
  unfold State.syncDone
  repeat' first
    | with_reducible rfl
    | (simp only [h0, h1, h2, h3, ↓State.onPort_blank, ↓State.takeOffset_blank, ↓blank_ite, ↓fst_ite, ite_self, implies_true]; done)
    | split
    | simp only [h0, h1, h2, h3, ↓State.onPort_blank, ↓State.takeOffset_blank, ↓blank_ite, ↓fst_ite, ite_self, implies_true]

theorem syncRx_blank (h0 : bl .freeUse = true) (h1 : bl .regs = true) (h2 : bl .tb = true) (h3 : bl .ptp = true) (p : Fin 2) (h : PtpHead) (twoStep : Bool) (origin : Nat) (raw : Nat) (s : State) : State.blank bl (syncRx p h twoStep origin raw s) = State.blank bl s := by
  unfold syncRx
  repeat' first
    | with_reducible rfl
    | (simp only [h0, h1, h2, h3, State.ptpRx_blank, ↓State.count_blank, ↓State.onPort_blank, ↓State.syncDone_blank, ↓blank_ite, ↓fst_ite, ite_self, implies_true]; done)
    | split
    | simp only [h0, h1, h2, h3, State.ptpRx_blank, ↓State.count_blank, ↓State.onPort_blank, ↓State.syncDone_blank, ↓blank_ite, ↓fst_ite, ite_self, implies_true]
    | refine (State.ptpRx_blank h1 _ _ _ _ _ ?_).trans ?_
    | intro _

theorem rearm_blank (h0 : bl .out = true) (h1 : bl .regs = true) (h2 : bl .tb = true) (h3 : bl .field = true) (h4 : bl .hearth = true) (h5 : bl .mem = true) (h6 : bl .trig = true) (h7 : bl .jobs = true) (h8 : bl .pair = true) (s : State) : State.blank bl (rearm s) = State.blank bl s := by
  unfold rearm
  repeat' first
    | with_reducible rfl
    | (simp only [h0, h1, h2, h3, h4, h5, h6, h7, h8, ↓State.armNow_blank, ↓State.onTrig_blank, ↓State.trigItem_blank, ↓State.logDev_blank, ↓blank_ite, ↓fst_ite, ite_self, implies_true]; done)
    | split
    | simp only [h0, h1, h2, h3, h4, h5, h6, h7, h8, ↓State.armNow_blank, ↓State.onTrig_blank, ↓State.trigItem_blank, ↓State.logDev_blank, ↓blank_ite, ↓fst_ite, ite_self, implies_true]

theorem State.trgStart_blank (h0 : bl .trig = true) (s : State) : State.blank bl (State.trgStart s) = State.blank bl s := by
  unfold State.trgStart
  repeat' first
    | with_reducible rfl
    | (simp only [h0, ↓State.onTrig_blank, ↓State.redBegin_blank, ↓blank_ite, ↓fst_ite, ite_self, implies_true]; done)
    | split
    | simp only [h0, ↓State.onTrig_blank, ↓State.redBegin_blank, ↓blank_ite, ↓fst_ite, ite_self, implies_true]

theorem State.setGm_blank (h0 : bl .regs = true) (h1 : bl .tb = true) (s : State) (idx : Nat) (gm : Nat) : State.blank bl (State.setGm s idx gm) = State.blank bl s := by
  unfold State.setGm
  repeat' first
    | with_reducible rfl
    | (simp only [h0, h1, ↓State.log_blank, ↓State.setReg_blank, ↓blank_ite, ↓fst_ite, ite_self, implies_true]; done)
    | split
    | simp only [h0, h1, ↓State.log_blank, ↓State.setReg_blank, ↓blank_ite, ↓fst_ite, ite_self, implies_true]

theorem State.ownGm_blank (h0 : bl .regs = true) (h1 : bl .tb = true) (s : State) : State.blank bl (State.ownGm s) = State.blank bl s := by
  unfold State.ownGm
  repeat' first
    | with_reducible rfl
    | (simp only [h0, h1, ↓State.setGm_blank, ↓blank_ite, ↓fst_ite, ite_self, implies_true]; done)
    | split
    | simp only [h0, h1, ↓State.setGm_blank, ↓blank_ite, ↓fst_ite, ite_self, implies_true]

theorem State.ptpStart_blank (h0 : bl .regs = true) (h1 : bl .tb = true) (h2 : bl .ptp = true) (s : State) : State.blank bl (State.ptpStart s) = State.blank bl s := by
  unfold State.ptpStart
  repeat' first
    | with_reducible rfl
    | (simp only [h0, h1, h2, ↓State.onPtp_blank, State.each_blank, ↓State.setFld_blank, ↓State.setPort_blank, ↓State.onPort_blank, ↓State.ownGm_blank, ↓blank_ite, ↓fst_ite, ite_self, implies_true]; done)
    | split
    | simp only [h0, h1, h2, ↓State.onPtp_blank, State.each_blank, ↓State.setFld_blank, ↓State.setPort_blank, ↓State.onPort_blank, ↓State.ownGm_blank, ↓blank_ite, ↓fst_ite, ite_self, implies_true]
    | refine (State.each_blank _ _ _ ?_).trans ?_
    | intro _

theorem State.pairStart_blank (h0 : bl .regs = true) (h1 : bl .rx = true) (h2 : bl .mirLanes = true) (h3 : bl .pair = true) (s : State) : State.blank bl (State.pairStart s) = State.blank bl s := by
  unfold State.pairStart
  repeat' first
    | with_reducible rfl
    | (simp only [h0, h1, h2, h3, ↓State.onPair_blank, ↓State.pairForget_blank, State.each_blank, ↓State.enterMode_blank, ↓State.setRole_blank, ↓blank_ite, ↓fst_ite, ite_self, implies_true]; done)
    | split
    | simp only [h0, h1, h2, h3, ↓State.onPair_blank, ↓State.pairForget_blank, State.each_blank, ↓State.enterMode_blank, ↓State.setRole_blank, ↓blank_ite, ↓fst_ite, ite_self, implies_true]
    | refine (State.each_blank _ _ _ ?_).trans ?_
    | intro _

theorem State.hstStart_blank (h0 : bl .regs = true) (h1 : bl .host = true) (s : State) : State.blank bl (State.hstStart s) = State.blank bl s := by
  unfold State.hstStart
  repeat' first
    | with_reducible rfl
    | (simp only [h0, h1, ↓State.setReg_blank, ↓State.putHost_blank, State.each_blank, ↓State.onDma_blank, ↓blank_ite, ↓fst_ite, ite_self, implies_true]; done)
    | split
    | simp only [h0, h1, ↓State.setReg_blank, ↓State.putHost_blank, State.each_blank, ↓State.onDma_blank, ↓blank_ite, ↓fst_ite, ite_self, implies_true]
    | refine (State.each_blank _ _ _ ?_).trans ?_
    | intro _

theorem mboxLimitExpiry_blank (h0 : bl .out = true) (h1 : bl .cores = true) (h2 : bl .host = true) (src : Src) (s : State) : State.blank bl (mboxLimitExpiry src s) = State.blank bl s := by
  unfold mboxLimitExpiry
  repeat' first
    | with_reducible rfl
    | (simp only [h0, h1, h2, ↓State.endCommand_blank, ↓blank_ite, ↓fst_ite, ite_self, implies_true]; done)
    | split
    | simp only [h0, h1, h2, ↓State.endCommand_blank, ↓blank_ite, ↓fst_ite, ite_self, implies_true]

theorem State.ptpSend_blank (h0 : bl .out = true) (h1 : bl .regs = true) (s : State) (p : Nat) (kind : Nat) (fields : List Int) : State.blank bl (State.ptpSend s p kind fields) = State.blank bl s := by
  unfold State.ptpSend
  repeat' first
    | with_reducible rfl
    | (simp only [h0, h1, ↓State.count_blank, ↓State.emit_blank, ↓blank_ite, ↓fst_ite, ite_self, implies_true]; done)
    | split
    | simp only [h0, h1, ↓State.count_blank, ↓State.emit_blank, ↓blank_ite, ↓fst_ite, ite_self, implies_true]

theorem State.sendReq_blank (h0 : bl .out = true) (h1 : bl .regs = true) (h2 : bl .ptp = true) (s : State) (p : Nat) (kind : Nat) : State.blank bl (State.sendReq s p kind) = State.blank bl s := by
  unfold State.sendReq
  repeat' first
    | with_reducible rfl
    | (simp only [h0, h1, h2, ↓State.onPort_blank, ↓State.ptpSend_blank, ↓blank_ite, ↓fst_ite, ite_self, implies_true]; done)
    | split
    | simp only [h0, h1, h2, ↓State.onPort_blank, ↓State.ptpSend_blank, ↓blank_ite, ↓fst_ite, ite_self, implies_true]

theorem delayReqTx_blank (h0 : bl .out = true) (h1 : bl .regs = true) (h2 : bl .ptp = true) (p : Fin 2) (s : State) : State.blank bl (delayReqTx p s) = State.blank bl s := by
  unfold delayReqTx
  repeat' first
    | with_reducible rfl
    | (simp only [h0, h1, h2, ↓State.sendReq_blank, ↓blank_ite, ↓fst_ite, ite_self, implies_true]; done)
    | split
    | simp only [h0, h1, h2, ↓State.sendReq_blank, ↓blank_ite, ↓fst_ite, ite_self, implies_true]

theorem timeTrigger_blank (h0 : bl .out = true) (h1 : bl .tb = true) (h2 : bl .cores = true) (h3 : bl .trig = true) (h4 : bl .pair = true) (h5 : bl .host = true) (src : Src) (hs : Nat) (s : State) : State.blank bl (timeTrigger src hs s) = State.blank bl s := by
  unfold timeTrigger
  repeat' first
    | with_reducible rfl
    | (simp only [h0, h1, h2, h3, h4, h5, State.serve_blank, ↓State.reply_blank, ↓State.mirrorSend_blank, ↓State.ownTimeTrigger_blank, ↓blank_ite, ↓fst_ite, ite_self, implies_true]; done)
    | split
    | simp only [h0, h1, h2, h3, h4, h5, State.serve_blank, ↓State.reply_blank, ↓State.mirrorSend_blank, ↓State.ownTimeTrigger_blank, ↓blank_ite, ↓fst_ite, ite_self, implies_true]
    | refine (State.serve_blank _ _ _ _ ?_).trans ?_
    | intro _

theorem State.dmaBad_blank (h0 : bl .host = true) (s : State) (q : Nat) (d : List Byte) : State.blank bl (State.dmaBad s q d) = State.blank bl s := by
  unfold State.dmaBad
  repeat' first
    | with_reducible rfl
    | (simp only [h0, ↓State.dmaResult_blank, ↓blank_ite, ↓fst_ite, ite_self, implies_true]; done)
    | split
    | simp only [h0, ↓State.dmaResult_blank, ↓blank_ite, ↓fst_ite, ite_self, implies_true]

theorem State.readUE_blank (h0 : bl .regs = true) (h1 : bl .hearth = true) (h2 : bl .mem = true) (s : State) (a : Nat) : State.blank bl (State.readUE s a) = State.blank bl s := by
  unfold State.readUE
  repeat' first
    | with_reducible rfl
    | (simp only [h0, h1, h2, ↓State.countUE_blank, ↓State.markStored_blank, ↓State.markData_blank, ↓blank_ite, ↓fst_ite, ite_self, implies_true]; done)
    | split
    | simp only [h0, h1, h2, ↓State.countUE_blank, ↓State.markStored_blank, ↓State.markData_blank, ↓blank_ite, ↓fst_ite, ite_self, implies_true]

theorem State.noteErrs_blank (h0 : bl .regs = true) (h1 : bl .hearth = true) (h2 : bl .mem = true) (s : State) (e : MemErrs) (a : Nat) (n : Nat) : State.blank bl (State.noteErrs s e a n) = State.blank bl s := by
  unfold State.noteErrs
  repeat' first
    | with_reducible rfl
    | (simp only [h0, h1, h2, State.each_blank, ↓State.countCE_blank, ↓State.readUE_blank, ↓blank_ite, ↓fst_ite, ite_self, implies_true]; done)
    | split
    | simp only [h0, h1, h2, State.each_blank, ↓State.countCE_blank, ↓State.readUE_blank, ↓blank_ite, ↓fst_ite, ite_self, implies_true]
    | refine (State.each_blank _ _ _ ?_).trans ?_
    | intro _

theorem State.deliver_blank (h0 : bl .out = true) (h1 : bl .regs = true) (h2 : bl .host = true) (s : State) (q : Nat) (a : Nat) (bs : List Byte) : State.blank bl (State.deliver s q a bs) = State.blank bl s := by
  unfold State.deliver
  repeat' first
    | with_reducible rfl
    | (simp only [h0, h1, h2, ↓State.emit_blank, ↓State.count_blank, ↓State.putHost_blank, ↓blank_ite, ↓fst_ite, ite_self, implies_true]; done)
    | split
    | simp only [h0, h1, h2, ↓State.emit_blank, ↓State.count_blank, ↓State.putHost_blank, ↓blank_ite, ↓fst_ite, ite_self, implies_true]

theorem State.readFrames_blank (h0 : bl .out = true) (h1 : bl .regs = true) (h2 : bl .hearth = true) (h3 : bl .mem = true) (h4 : bl .host = true) (s : State) (q : Nat) (d : List Byte) (e : MemErrs) (decoded : Bool) : State.blank bl (State.readFrames s q d e decoded) = State.blank bl s := by
  unfold State.readFrames
  repeat' first
    | with_reducible rfl
    | (simp only [h0, h1, h2, h3, h4, ↓State.dmaBad_blank, State.each_blank, ↓State.noteErrs_blank, ↓State.count_blank, ↓State.markStored_blank, ↓State.dmaResult_blank, ↓State.deliver_blank, ↓blank_ite, ↓fst_ite, ite_self, implies_true]; done)
    | split
    | simp only [h0, h1, h2, h3, h4, ↓State.dmaBad_blank, State.each_blank, ↓State.noteErrs_blank, ↓State.count_blank, ↓State.markStored_blank, ↓State.dmaResult_blank, ↓State.deliver_blank, ↓blank_ite, ↓fst_ite, ite_self, implies_true]
    | refine (State.each_blank _ _ _ ?_).trans ?_
    | intro _

theorem ethRateFallback_blank (h0 : bl .ptp = true) (p : Fin 2) (s : State) : State.blank bl (ethRateFallback p s) = State.blank bl s := by
  unfold ethRateFallback
  repeat' first
    | with_reducible rfl
    | (simp only [h0, ↓State.onPort_blank, ↓blank_ite, ↓fst_ite, ite_self, implies_true]; done)
    | split
    | simp only [h0, ↓State.onPort_blank, ↓blank_ite, ↓fst_ite, ite_self, implies_true]

theorem delayReqRx_blank (h0 : bl .out = true) (h1 : bl .regs = true) (p : Fin 2) (h : PtpHead) (raw : Nat) (s : State) : State.blank bl (delayReqRx p h raw s) = State.blank bl s := by
  unfold delayReqRx
  repeat' first
    | with_reducible rfl
    | (simp only [h0, h1, State.ptpRx_blank, ↓State.ptpSend_blank, ↓blank_ite, ↓fst_ite, ite_self, implies_true]; done)
    | split
    | simp only [h0, h1, State.ptpRx_blank, ↓State.ptpSend_blank, ↓blank_ite, ↓fst_ite, ite_self, implies_true]
    | refine (State.ptpRx_blank h1 _ _ _ _ _ ?_).trans ?_
    | intro _

theorem State.rigSend_blank (h0 : bl .out = true) (s : State) (p : Nat) (type : Nat) (hops : Nat) (origin : Nat) (seq : Nat) (body : List Byte) : State.blank bl (State.rigSend s p type hops origin seq body) = State.blank bl s := by
  unfold State.rigSend
  repeat' first
    | with_reducible rfl
    | (simp only [h0, ↓State.emit_blank, ↓blank_ite, ↓fst_ite, ite_self, implies_true]; done)
    | split
    | simp only [h0, ↓State.emit_blank, ↓blank_ite, ↓fst_ite, ite_self, implies_true]

theorem State.deviceReset_blank (h0 : bl .out = true) (h1 : bl .fns = true) (h2 : bl .regs = true) (h3 : bl .tb = true) (h4 : bl .rx = true) (h5 : bl .tiles = true) (h6 : bl .cmd = true) (h7 : bl .mirLanes = true) (h8 : bl .order = true) (h9 : bl .queues = true) (h10 : bl .bellows = true) (h11 : bl .engines = true) (h12 : bl .cores = true) (h13 : bl .postRecs = true) (h14 : bl .postSeq = true) (h15 : bl .slots = true) (h16 : bl .tdc = true) (h17 : bl .bgs = true) (h18 : bl .field = true) (h19 : bl .hearth = true) (h20 : bl .mem = true) (h21 : bl .trig = true) (h22 : bl .staging = true) (h23 : bl .comps = true) (h24 : bl .jobs = true) (h25 : bl .pair = true) (h26 : bl .host = true) (h27 : bl .ptp = true) (h28 : bl .sys = true) (h29 : bl .kept = true) (h30 : bl .keptBad = true) (s : State) : State.blank bl (State.deviceReset s) = State.blank bl s := by
  unfold State.deviceReset
  simp only [h0, h1, h2, h3, h4, h5, h6, h7, h8, h9, h10, h11, h12, h13, h14, h15, h16, h17, h18, h19, h20, h21, h22, h23, h24, h25, h26, h27, h28, h29, h30, ↓State.setBit_blank, State.blank, if_true, ite_true, Bool.false_eq_true, if_false]

theorem usb4LinkUp_blank (h0 : bl .regs = true) (h1 : bl .host = true) (p : Fin 2) (gen : Nat) (s : State) : State.blank bl (usb4LinkUp p gen s) = State.blank bl s := by
  unfold usb4LinkUp
  repeat' first
    | with_reducible rfl
    | (simp only [h0, h1, ↓State.setFld_blank, ↓State.setBit_blank, State.each_blank, ↓State.onDma_blank, ↓blank_ite, ↓fst_ite, ite_self, implies_true]; done)
    | split
    | simp only [h0, h1, ↓State.setFld_blank, ↓State.setBit_blank, State.each_blank, ↓State.onDma_blank, ↓blank_ite, ↓fst_ite, ite_self, implies_true]
    | refine (State.each_blank _ _ _ ?_).trans ?_
    | intro _

theorem State.becomeSlave_blank (h0 : bl .regs = true) (h1 : bl .tb = true) (h2 : bl .ptp = true) (s : State) (p : Nat) (c : Cand) : State.blank bl (State.becomeSlave s p c) = State.blank bl s := by
  unfold State.becomeSlave
  repeat' first
    | with_reducible rfl
    | (simp only [h0, h1, h2, ↓State.onPort_blank, ↓State.setPort_blank, ↓State.setReg_blank, ↓State.setGm_blank, ↓blank_ite, ↓fst_ite, ite_self, implies_true]; done)
    | split
    | simp only [h0, h1, h2, ↓State.onPort_blank, ↓State.setPort_blank, ↓State.setReg_blank, ↓State.setGm_blank, ↓blank_ite, ↓fst_ite, ite_self, implies_true]

theorem followUpRx_blank (h0 : bl .freeUse = true) (h1 : bl .regs = true) (h2 : bl .tb = true) (h3 : bl .ptp = true) (p : Fin 2) (h : PtpHead) (origin : Nat) (s : State) : State.blank bl (followUpRx p h origin s) = State.blank bl s := by
  unfold followUpRx
  repeat' first
    | with_reducible rfl
    | (simp only [h0, h1, h2, h3, State.ptpRx_blank, ↓State.syncDone_blank, ↓State.onPort_blank, ↓State.count_blank, ↓blank_ite, ↓fst_ite, ite_self, implies_true]; done)
    | split
    | simp only [h0, h1, h2, h3, State.ptpRx_blank, ↓State.syncDone_blank, ↓State.onPort_blank, ↓State.count_blank, ↓blank_ite, ↓fst_ite, ite_self, implies_true]
    | refine (State.ptpRx_blank h1 _ _ _ _ _ ?_).trans ?_
    | intro _

theorem State.takeDelay_blank (h0 : bl .freeUse = true) (h1 : bl .regs = true) (h2 : bl .tb = true) (h3 : bl .ptp = true) (s : State) (p : Nat) (m : Int) : State.blank bl (State.takeDelay s p m) = State.blank bl s := by
  unfold State.takeDelay
  repeat' first
    | with_reducible rfl
    | (simp only [h0, h1, h2, h3, ↓State.onPort_blank, ↓State.setReg_blank, ↓State.takeOffset_blank, ↓blank_ite, ↓fst_ite, ite_self, implies_true]; done)
    | split
    | simp only [h0, h1, h2, h3, ↓State.onPort_blank, ↓State.setReg_blank, ↓State.takeOffset_blank, ↓blank_ite, ↓fst_ite, ite_self, implies_true]

theorem pdelayRespFollowUpRx_blank (h0 : bl .freeUse = true) (h1 : bl .regs = true) (h2 : bl .tb = true) (h3 : bl .ptp = true) (p : Fin 2) (h : PtpHead) (origin : Nat) (reqClock : Nat) (reqPort : Nat) (s : State) : State.blank bl (pdelayRespFollowUpRx p h origin reqClock reqPort s) = State.blank bl s := by
  unfold pdelayRespFollowUpRx
  repeat' first
    | with_reducible rfl
    | (simp only [h0, h1, h2, h3, State.ptpRx_blank, ↓State.takeDelay_blank, ↓State.onPort_blank, ↓blank_ite, ↓fst_ite, ite_self, implies_true]; done)
    | split
    | simp only [h0, h1, h2, h3, State.ptpRx_blank, ↓State.takeDelay_blank, ↓State.onPort_blank, ↓blank_ite, ↓fst_ite, ite_self, implies_true]
    | refine (State.ptpRx_blank h1 _ _ _ _ _ ?_).trans ?_
    | intro _

theorem syncTx_blank (h0 : bl .out = true) (h1 : bl .regs = true) (h2 : bl .ptp = true) (p : Fin 2) (s : State) : State.blank bl (syncTx p s) = State.blank bl s := by
  unfold syncTx
  repeat' first
    | with_reducible rfl
    | (simp only [h0, h1, h2, ↓State.onPort_blank, ↓State.ptpSend_blank, ↓blank_ite, ↓fst_ite, ite_self, implies_true]; done)
    | split
    | simp only [h0, h1, h2, ↓State.onPort_blank, ↓State.ptpSend_blank, ↓blank_ite, ↓fst_ite, ite_self, implies_true]

theorem State.dmaTake_blank (h0 : bl .regs = true) (s : State) (q : Nat) (op : Nat) (desc : List Byte) (b : List Byte) (t : State) (hx : (State.dmaTake s q op desc) = some (b, t)) :
    State.blank bl t = State.blank bl s := by
  unfold State.dmaTake at hx
  repeat' first
    | (simp only [reduceCtorEq] at hx; done)
    | (simp only [Option.some.injEq, Prod.mk.injEq] at hx; obtain ⟨_, hx⟩ := hx; subst hx)
    | (simp only [Option.some.injEq] at hx; subst hx)
    | (simp only [h0, ↓State.setReg_blank, ↓blank_ite, ↓fst_ite, ite_self, implies_true]; done)
    | with_reducible rfl
    | split at hx
    | dsimp only at hx

theorem readRange_blank (h0 : bl .out = true) (h1 : bl .regs = true) (h2 : bl .hearth = true) (h3 : bl .mem = true) (h4 : bl .host = true) (q : Fin 16) (desc : List Byte) (e : MemErrs) (s : State) : State.blank bl (readRange q desc e s) = State.blank bl s := by
  unfold readRange
  repeat' first
    | with_reducible rfl
    | (simp only [h0, h1, h2, h3, h4, ↓State.dmaBad_blank, ↓State.dmaResult_blank, ↓State.deliver_blank, ↓State.noteErrs_blank, ↓blank_ite, ↓fst_ite, ite_self, implies_true]; done)
    | split
    | simp only [h0, h1, h2, h3, h4, ↓State.dmaBad_blank, ↓State.dmaResult_blank, ↓State.deliver_blank, ↓State.noteErrs_blank, ↓blank_ite, ↓fst_ite, ite_self, implies_true]
    | refine (State.dmaTake_blank (by assumption) _ _ _ _ _ _ (by assumption)).trans ?_

theorem announceTx_blank (h0 : bl .out = true) (h1 : bl .regs = true) (h2 : bl .ptp = true) (p : Fin 2) (s : State) : State.blank bl (announceTx p s) = State.blank bl s := by
  unfold announceTx
  repeat' first
    | with_reducible rfl
    | (simp only [h0, h1, h2, ↓State.onPort_blank, ↓State.ptpSend_blank, ↓blank_ite, ↓fst_ite, ite_self, implies_true]; done)
    | split
    | simp only [h0, h1, h2, ↓State.onPort_blank, ↓State.ptpSend_blank, ↓blank_ite, ↓fst_ite, ite_self, implies_true]

theorem measure_blank (h0 : bl .out = true) (h1 : bl .cores = true) (h2 : bl .host = true) (src : Src) (s : State) : State.blank bl (measure src s) = State.blank bl s := by
  unfold measure
  repeat' first
    | with_reducible rfl
    | (simp only [h0, h1, h2, State.serve_blank, ↓State.reply_blank, ↓blank_ite, ↓fst_ite, ite_self, implies_true]; done)
    | split
    | simp only [h0, h1, h2, State.serve_blank, ↓State.reply_blank, ↓blank_ite, ↓fst_ite, ite_self, implies_true]
    | refine (State.serve_blank _ _ _ _ ?_).trans ?_
    | intro _

theorem dmaDescriptorDone_blank (h0 : bl .out = true) (h1 : bl .host = true) (q : Fin 16) (s : State) : State.blank bl (dmaDescriptorDone q s) = State.blank bl s := by
  unfold dmaDescriptorDone
  repeat' first
    | with_reducible rfl
    | (simp only [h0, h1, ↓State.dmaComplete_blank, ↓blank_ite, ↓fst_ite, ite_self, implies_true]; done)
    | split
    | simp only [h0, h1, ↓State.dmaComplete_blank, ↓blank_ite, ↓fst_ite, ite_self, implies_true]

theorem State.orLost_blank (h0 : bl .regs = true) (h1 : bl .tb = true) (s : State) (was : Bool) : State.blank bl (State.orLost s was) = State.blank bl s := by
  unfold State.orLost
  repeat' first
    | with_reducible rfl
    | (simp only [h0, h1, ↓State.lostMaster_blank, ↓blank_ite, ↓fst_ite, ite_self, implies_true]; done)
    | split
    | simp only [h0, h1, ↓State.lostMaster_blank, ↓blank_ite, ↓fst_ite, ite_self, implies_true]

theorem State.leaveSlave_blank (h0 : bl .regs = true) (h1 : bl .tb = true) (h2 : bl .ptp = true) (s : State) (p : Nat) (n : Nat) : State.blank bl (State.leaveSlave s p n) = State.blank bl s := by
  unfold State.leaveSlave
  repeat' first
    | with_reducible rfl
    | (simp only [h0, h1, h2, ↓State.setPort_blank, ↓State.onPort_blank, ↓blank_ite, ↓fst_ite, ite_self, implies_true]; done)
    | split
    | simp only [h0, h1, h2, ↓State.setPort_blank, ↓State.onPort_blank, ↓blank_ite, ↓fst_ite, ite_self, implies_true]

theorem State.toMaster_blank (h0 : bl .regs = true) (h1 : bl .tb = true) (h2 : bl .ptp = true) (s : State) (p : Nat) (steps : Option Nat) : State.blank bl (State.toMaster s p steps) = State.blank bl s := by
  unfold State.toMaster
  repeat' first
    | with_reducible rfl
    | (simp only [h0, h1, h2, ↓State.leaveSlave_blank, ↓State.onPort_blank, ↓blank_ite, ↓fst_ite, ite_self, implies_true]; done)
    | split
    | simp only [h0, h1, h2, ↓State.leaveSlave_blank, ↓State.onPort_blank, ↓blank_ite, ↓fst_ite, ite_self, implies_true]

theorem State.bmcaPort_blank (h0 : bl .regs = true) (h1 : bl .tb = true) (h2 : bl .ptp = true) (s : State) (timedOut : Nat → Bool) (p : Nat) : State.blank bl (State.bmcaPort s timedOut p) = State.blank bl s := by
  unfold State.bmcaPort
  repeat' first
    | with_reducible rfl
    | (simp only [h0, h1, h2, ↓State.leaveSlave_blank, ↓State.toMaster_blank, ↓State.becomeSlave_blank, ↓blank_ite, ↓fst_ite, ite_self, implies_true]; done)
    | split
    | simp only [h0, h1, h2, ↓State.leaveSlave_blank, ↓State.toMaster_blank, ↓State.becomeSlave_blank, ↓blank_ite, ↓fst_ite, ite_self, implies_true]

theorem State.bmca_blank (h0 : bl .regs = true) (h1 : bl .tb = true) (h2 : bl .ptp = true) (s : State) (timedOut : Nat → Bool) : State.blank bl (State.bmca s timedOut) = State.blank bl s := by
  unfold State.bmca
  repeat' first
    | with_reducible rfl
    | (simp only [h0, h1, h2, ↓State.orLost_blank, ↓State.bmcaPort_blank, ↓State.ownGm_blank, ↓blank_ite, ↓fst_ite, ite_self, implies_true]; done)
    | split
    | simp only [h0, h1, h2, ↓State.orLost_blank, ↓State.bmcaPort_blank, ↓State.ownGm_blank, ↓blank_ite, ↓fst_ite, ite_self, implies_true]

theorem announceRx_blank (h0 : bl .regs = true) (h1 : bl .tb = true) (h2 : bl .ptp = true) (p : Fin 2) (h : PtpHead) (d : PtpData) (s : State) : State.blank bl (announceRx p h d s) = State.blank bl s := by
  unfold announceRx
  repeat' first
    | with_reducible rfl
    | (simp only [h0, h1, h2, State.ptpRx_blank, ↓State.becomeSlave_blank, ↓State.onPort_blank, ↓State.bmca_blank, ↓blank_ite, ↓fst_ite, ite_self, implies_true]; done)
    | split
    | simp only [h0, h1, h2, State.ptpRx_blank, ↓State.becomeSlave_blank, ↓State.onPort_blank, ↓State.bmca_blank, ↓blank_ite, ↓fst_ite, ite_self, implies_true]
    | refine (State.ptpRx_blank h0 _ _ _ _ _ ?_).trans ?_
    | intro _

theorem State.holdOrigin_blank (h0 : bl .ptp = true) (s : State) (origin : Nat) (seq : Nat) : State.blank bl (State.holdOrigin s origin seq) = State.blank bl s := by
  unfold State.holdOrigin
  repeat' first
    | with_reducible rfl
    | (simp only [h0, ↓State.onPtp_blank, ↓blank_ite, ↓fst_ite, ite_self, implies_true]; done)
    | split
    | simp only [h0, ↓State.onPtp_blank, ↓blank_ite, ↓fst_ite, ite_self, implies_true]

theorem State.rigLocal_blank (h0 : bl .out = true) (h1 : bl .tb = true) (h2 : bl .trig = true) (h3 : bl .pair = true) (s : State) (idx : Nat) (time : Nat) (seq : Nat) (hs : Nat) : State.blank bl (State.rigLocal s idx time seq hs).1 = State.blank bl s := by
  unfold State.rigLocal
  repeat' first
    | with_reducible rfl
    | (simp only [h0, h1, h2, h3, ↓State.mirrorSend_blank, ↓State.setTimeTrigger_blank, ↓State.log_blank, ↓blank_ite, ↓fst_ite, ite_self, implies_true]; done)
    | split
    | simp only [h0, h1, h2, h3, ↓State.mirrorSend_blank, ↓State.setTimeTrigger_blank, ↓State.log_blank, ↓blank_ite, ↓fst_ite, ite_self, implies_true]

theorem rigTrigger_blank (h0 : bl .out = true) (h1 : bl .tb = true) (h2 : bl .cores = true) (h3 : bl .trig = true) (h4 : bl .pair = true) (h5 : bl .host = true) (h6 : bl .ptp = true) (src : Src) (hs : Nat) (s : State) : State.blank bl (rigTrigger src hs s) = State.blank bl s := by
  unfold rigTrigger
  repeat' first
    | with_reducible rfl
    | (simp only [h0, h1, h2, h3, h4, h5, h6, State.serve_blank, ↓State.holdOrigin_blank, ↓State.onPtp_blank, State.each_blank, ↓State.rigSend_blank, ↓State.rigLocal_blank, ↓State.reply_blank, ↓blank_ite, ↓fst_ite, ite_self, implies_true]; done)
    | split
    | simp only [h0, h1, h2, h3, h4, h5, h6, State.serve_blank, ↓State.holdOrigin_blank, ↓State.onPtp_blank, State.each_blank, ↓State.rigSend_blank, ↓State.rigLocal_blank, ↓State.reply_blank, ↓blank_ite, ↓fst_ite, ite_self, implies_true]
    | refine (State.each_blank _ _ _ ?_).trans ?_
    | intro _
    | refine (State.serve_blank _ _ _ _ ?_).trans ?_
    | intro _

theorem State.trgStopped_blank (h0 : bl .out = true) (h1 : bl .regs = true) (h2 : bl .tb = true) (h3 : bl .tdc = true) (h4 : bl .field = true) (h5 : bl .hearth = true) (h6 : bl .mem = true) (h7 : bl .trig = true) (h8 : bl .pair = true) (h9 : bl .host = true) (s : State) : State.blank bl (State.trgStopped s) = State.blank bl s := by
  unfold State.trgStopped
  repeat' first
    | with_reducible rfl
    | (simp only [h0, h1, h2, h3, h4, h5, h6, h7, h8, h9, ↓State.evaluate_blank, ↓State.dropPending_blank, ↓State.onTrig_blank, ↓State.outputsIdle_blank, ↓State.endSegment_blank, ↓blank_ite, ↓fst_ite, ite_self, implies_true]; done)
    | split
    | simp only [h0, h1, h2, h3, h4, h5, h6, h7, h8, h9, ↓State.evaluate_blank, ↓State.dropPending_blank, ↓State.onTrig_blank, ↓State.outputsIdle_blank, ↓State.endSegment_blank, ↓blank_ite, ↓fst_ite, ite_self, implies_true]

theorem State.tickPort_blank (h0 : bl .regs = true) (h1 : bl .tb = true) (s : State) (p : Nat) : State.blank bl (State.tickPort s p) = State.blank bl s := by
  unfold State.tickPort
  repeat' first
    | with_reducible rfl
    | (simp only [h0, h1, ↓State.setPort_blank, ↓blank_ite, ↓fst_ite, ite_self, implies_true]; done)
    | split
    | simp only [h0, h1, ↓State.setPort_blank, ↓blank_ite, ↓fst_ite, ite_self, implies_true]

theorem pdelayReqRx_blank (h0 : bl .out = true) (h1 : bl .regs = true) (p : Fin 2) (h : PtpHead) (raw : Nat) (s : State) : State.blank bl (pdelayReqRx p h raw s) = State.blank bl s := by
  unfold pdelayReqRx
  repeat' first
    | with_reducible rfl
    | (simp only [h0, h1, State.ptpRx_blank, ↓State.ptpSend_blank, ↓blank_ite, ↓fst_ite, ite_self, implies_true]; done)
    | split
    | simp only [h0, h1, State.ptpRx_blank, ↓State.ptpSend_blank, ↓blank_ite, ↓fst_ite, ite_self, implies_true]
    | refine (State.ptpRx_blank h1 _ _ _ _ _ ?_).trans ?_
    | intro _

theorem mirrorLaneFault_blank (h0 : bl .fns = true) (h1 : bl .regs = true) (h2 : bl .tb = true) (h3 : bl .rx = true) (h4 : bl .mirLanes = true) (h5 : bl .pair = true) (s : State) : State.blank bl (mirrorLaneFault s) = State.blank bl s := by
  unfold mirrorLaneFault
  repeat' first
    | with_reducible rfl
    | (simp only [h0, h1, h2, h3, h4, h5, ↓State.pairFaultNow_blank, ↓blank_ite, ↓fst_ite, ite_self, implies_true]; done)
    | split
    | simp only [h0, h1, h2, h3, h4, h5, ↓State.pairFaultNow_blank, ↓blank_ite, ↓fst_ite, ite_self, implies_true]

theorem trigger_blank (h0 : bl .out = true) (h1 : bl .regs = true) (h2 : bl .tb = true) (h3 : bl .cores = true) (h4 : bl .trig = true) (h5 : bl .pair = true) (h6 : bl .host = true) (src : Src) (hs : Nat) (s : State) : State.blank bl (trigger src hs s) = State.blank bl s := by
  unfold trigger
  repeat' first
    | with_reducible rfl
    | (simp only [h0, h1, h2, h3, h4, h5, h6, State.serve_blank, ↓State.reply_blank, ↓State.mirrorSend_blank, ↓State.srcEventAt_blank, ↓blank_ite, ↓fst_ite, ite_self, implies_true]; done)
    | split
    | simp only [h0, h1, h2, h3, h4, h5, h6, State.serve_blank, ↓State.reply_blank, ↓State.mirrorSend_blank, ↓State.srcEventAt_blank, ↓blank_ite, ↓fst_ite, ite_self, implies_true]
    | refine (State.serve_blank _ _ _ _ ?_).trans ?_
    | intro _

theorem readDecoded_blank (h0 : bl .out = true) (h1 : bl .regs = true) (h2 : bl .hearth = true) (h3 : bl .mem = true) (h4 : bl .host = true) (q : Fin 16) (desc : List Byte) (e : MemErrs) (s : State) : State.blank bl (readDecoded q desc e s) = State.blank bl s := by
  unfold readDecoded
  repeat' first
    | with_reducible rfl
    | (simp only [h0, h1, h2, h3, h4, ↓State.readFrames_blank, ↓blank_ite, ↓fst_ite, ite_self, implies_true]; done)
    | split
    | simp only [h0, h1, h2, h3, h4, ↓State.readFrames_blank, ↓blank_ite, ↓fst_ite, ite_self, implies_true]
    | refine (State.dmaTake_blank (by assumption) _ _ _ _ _ _ (by assumption)).trans ?_

theorem State.portStop_blank (h0 : bl .freeUse = true) (h1 : bl .regs = true) (h2 : bl .hearth = true) (h3 : bl .mem = true) (h4 : bl .host = true) (s : State) (p : Nat) : State.blank bl (State.portStop s p) = State.blank bl s := by
  unfold State.portStop
  repeat' first
    | with_reducible rfl
    | (simp only [h0, h1, h2, h3, h4, State.each_blank, ↓State.setBit_blank, ↓State.onDma_blank, ↓State.dmaAbandon_blank, ↓blank_ite, ↓fst_ite, ite_self, implies_true]; done)
    | split
    | simp only [h0, h1, h2, h3, h4, State.each_blank, ↓State.setBit_blank, ↓State.onDma_blank, ↓State.dmaAbandon_blank, ↓blank_ite, ↓fst_ite, ite_self, implies_true]
    | refine (State.each_blank _ _ _ ?_).trans ?_
    | intro _

theorem readFrame_blank (h0 : bl .out = true) (h1 : bl .regs = true) (h2 : bl .hearth = true) (h3 : bl .mem = true) (h4 : bl .host = true) (q : Fin 16) (desc : List Byte) (e : MemErrs) (s : State) : State.blank bl (readFrame q desc e s) = State.blank bl s := by
  unfold readFrame
  repeat' first
    | with_reducible rfl
    | (simp only [h0, h1, h2, h3, h4, ↓State.readFrames_blank, ↓blank_ite, ↓fst_ite, ite_self, implies_true]; done)
    | split
    | simp only [h0, h1, h2, h3, h4, ↓State.readFrames_blank, ↓blank_ite, ↓fst_ite, ite_self, implies_true]
    | refine (State.dmaTake_blank (by assumption) _ _ _ _ _ _ (by assumption)).trans ?_

theorem timeTriggerFire_blank (h0 : bl .regs = true) (h1 : bl .tb = true) (h2 : bl .trig = true) (s : State) : State.blank bl (timeTriggerFire s) = State.blank bl s := by
  unfold timeTriggerFire
  repeat' first
    | with_reducible rfl
    | (simp only [h0, h1, h2, ↓State.srcEdge_blank, ↓State.onTrig_blank, ↓blank_ite, ↓fst_ite, ite_self, implies_true]; done)
    | split
    | simp only [h0, h1, h2, ↓State.srcEdge_blank, ↓State.onTrig_blank, ↓blank_ite, ↓fst_ite, ite_self, implies_true]

theorem writeRange_blank (h0 : bl .out = true) (h1 : bl .regs = true) (h2 : bl .hearth = true) (h3 : bl .mem = true) (h4 : bl .host = true) (q : Fin 16) (desc : List Byte) (data : List Byte) (s : State) : State.blank bl (writeRange q desc data s) = State.blank bl s := by
  unfold writeRange
  repeat' first
    | with_reducible rfl
    | (simp only [h0, h1, h2, h3, h4, ↓State.dmaBad_blank, ↓State.hostWrite_blank, ↓State.emit_blank, ↓State.dmaResult_blank, ↓blank_ite, ↓fst_ite, ite_self, implies_true]; done)
    | split
    | simp only [h0, h1, h2, h3, h4, ↓State.dmaBad_blank, ↓State.hostWrite_blank, ↓State.emit_blank, ↓State.dmaResult_blank, ↓blank_ite, ↓fst_ite, ite_self, implies_true]
    | refine (State.dmaTake_blank (by assumption) _ _ _ _ _ _ (by assumption)).trans ?_

theorem release_blank (h0 : bl .out = true) (h1 : bl .cores = true) (h2 : bl .field = true) (h3 : bl .hearth = true) (h4 : bl .trig = true) (h5 : bl .pair = true) (h6 : bl .host = true) (src : Src) (hs : Nat) (s : State) : State.blank bl (release src hs s) = State.blank bl s := by
  unfold release
  repeat' first
    | with_reducible rfl
    | (simp only [h0, h1, h2, h3, h4, h5, h6, State.serve_blank, ↓State.reply_blank, ↓State.mirrorSend_blank, ↓State.releaseSegment_blank, ↓blank_ite, ↓fst_ite, ite_self, implies_true]; done)
    | split
    | simp only [h0, h1, h2, h3, h4, h5, h6, State.serve_blank, ↓State.reply_blank, ↓State.mirrorSend_blank, ↓State.releaseSegment_blank, ↓blank_ite, ↓fst_ite, ite_self, implies_true]
    | refine (State.serve_blank _ _ _ _ ?_).trans ?_
    | intro _

theorem State.enterFollow_blank (h0 : bl .regs = true) (h1 : bl .tb = true) (s : State) : State.blank bl (State.enterFollow s) = State.blank bl s := by
  unfold State.enterFollow
  repeat' first
    | with_reducible rfl
    | (simp only [h0, h1, ↓State.setReg_blank, ↓State.putInc_blank, ↓State.putTb_blank, ↓State.setSync_blank, ↓blank_ite, ↓fst_ite, ite_self, implies_true]; done)
    | split
    | simp only [h0, h1, ↓State.setReg_blank, ↓State.putInc_blank, ↓State.putTb_blank, ↓State.setSync_blank, ↓blank_ite, ↓fst_ite, ite_self, implies_true]

theorem writeRangeTimeout_blank (h0 : bl .regs = true) (h1 : bl .host = true) (q : Fin 16) (late : Nat) (s : State) : State.blank bl (writeRangeTimeout q late s) = State.blank bl s := by
  unfold writeRangeTimeout
  repeat' first
    | with_reducible rfl
    | (simp only [h0, h1, ↓State.count_blank, ↓State.dmaResult_blank, ↓blank_ite, ↓fst_ite, ite_self, implies_true]; done)
    | split
    | simp only [h0, h1, ↓State.count_blank, ↓State.dmaResult_blank, ↓blank_ite, ↓fst_ite, ite_self, implies_true]

theorem ethBlockLock_blank (h0 : bl .regs = true) (h1 : bl .tb = true) (h2 : bl .ptp = true) (p : Fin 2) (s : State) : State.blank bl (ethBlockLock p s) = State.blank bl s := by
  unfold ethBlockLock
  repeat' first
    | with_reducible rfl
    | (simp only [h0, h1, h2, ↓State.setBit_blank, ↓State.bmca_blank, ↓State.setPort_blank, ↓blank_ite, ↓fst_ite, ite_self, implies_true]; done)
    | split
    | simp only [h0, h1, h2, ↓State.setBit_blank, ↓State.bmca_blank, ↓State.setPort_blank, ↓blank_ite, ↓fst_ite, ite_self, implies_true]

theorem rigTriggerRx_blank (h0 : bl .out = true) (h1 : bl .regs = true) (h2 : bl .tb = true) (h3 : bl .trig = true) (h4 : bl .pair = true) (h5 : bl .ptp = true) (p : Fin 2) (fcs : Bool) (frame : List Byte) (hs : Nat) (s : State) : State.blank bl (rigTriggerRx p fcs frame hs s) = State.blank bl s := by
  unfold rigTriggerRx
  repeat' first
    | with_reducible rfl
    | (simp only [h0, h1, h2, h3, h4, h5, State.rigRx_blank, ↓State.holdOrigin_blank, ↓State.count_blank, ↓State.rigSend_blank, ↓State.rigLocal_blank, ↓blank_ite, ↓fst_ite, ite_self, implies_true]; done)
    | split
    | simp only [h0, h1, h2, h3, h4, h5, State.rigRx_blank, ↓State.holdOrigin_blank, ↓State.count_blank, ↓State.rigSend_blank, ↓State.rigLocal_blank, ↓blank_ite, ↓fst_ite, ite_self, implies_true]
    | refine (State.rigRx_blank h1 _ _ _ _ _ _ _ ?_).trans ?_
    | intro _

theorem disarm_blank (h0 : bl .out = true) (h1 : bl .regs = true) (h2 : bl .tb = true) (h3 : bl .cores = true) (h4 : bl .hearth = true) (h5 : bl .mem = true) (h6 : bl .trig = true) (h7 : bl .pair = true) (h8 : bl .host = true) (src : Src) (s : State) : State.blank bl (disarm src s) = State.blank bl s := by
  unfold disarm
  repeat' first
    | with_reducible rfl
    | (simp only [h0, h1, h2, h3, h4, h5, h6, h7, h8, State.serve_blank, ↓State.reply_blank, ↓State.disarmAll_blank, ↓blank_ite, ↓fst_ite, ite_self, implies_true]; done)
    | split
    | simp only [h0, h1, h2, h3, h4, h5, h6, h7, h8, State.serve_blank, ↓State.reply_blank, ↓State.disarmAll_blank, ↓blank_ite, ↓fst_ite, ite_self, implies_true]
    | refine (State.serve_blank _ _ _ _ ?_).trans ?_
    | intro _

theorem ethLockLoss_blank (h0 : bl .regs = true) (h1 : bl .tb = true) (h2 : bl .ptp = true) (p : Fin 2) (s : State) : State.blank bl (ethLockLoss p s) = State.blank bl s := by
  unfold ethLockLoss
  repeat' first
    | with_reducible rfl
    | (simp only [h0, h1, h2, ↓State.orLost_blank, ↓State.bmca_blank, ↓State.portDrop_blank, ↓blank_ite, ↓fst_ite, ite_self, implies_true]; done)
    | split
    | simp only [h0, h1, h2, ↓State.orLost_blank, ↓State.bmca_blank, ↓State.portDrop_blank, ↓blank_ite, ↓fst_ite, ite_self, implies_true]

theorem apertureRead_blank (h0 : bl .out = true) (h1 : bl .regs = true) (h2 : bl .hearth = true) (h3 : bl .mem = true) (p : Fin 2) (o : Nat) (n : Nat) (e : MemErrs) (s : State) : State.blank bl (apertureRead p o n e s) = State.blank bl s := by
  unfold apertureRead
  repeat' first
    | with_reducible rfl
    | (simp only [h0, h1, h2, h3, ↓State.emit_blank, ↓State.noteErrs_blank, ↓State.count_blank, ↓blank_ite, ↓fst_ite, ite_self, implies_true]; done)
    | split
    | simp only [h0, h1, h2, h3, ↓State.emit_blank, ↓State.noteErrs_blank, ↓State.count_blank, ↓blank_ite, ↓fst_ite, ite_self, implies_true]

theorem apertureWrite_blank (h0 : bl .regs = true) (h1 : bl .hearth = true) (h2 : bl .mem = true) (p : Fin 2) (o : Nat) (data : List Byte) (s : State) : State.blank bl (apertureWrite p o data s) = State.blank bl s := by
  unfold apertureWrite
  repeat' first
    | with_reducible rfl
    | (simp only [h0, h1, h2, ↓State.hostWrite_blank, ↓State.count_blank, ↓blank_ite, ↓fst_ite, ite_self, implies_true]; done)
    | split
    | simp only [h0, h1, h2, ↓State.hostWrite_blank, ↓State.count_blank, ↓blank_ite, ↓fst_ite, ite_self, implies_true]

theorem State.armDone_blank (h0 : bl .out = true) (h1 : bl .regs = true) (h2 : bl .tb = true) (h3 : bl .field = true) (h4 : bl .hearth = true) (h5 : bl .mem = true) (h6 : bl .trig = true) (h7 : bl .comps = true) (h8 : bl .jobs = true) (h9 : bl .pair = true) (s : State) (seg : Nat) : State.blank bl (State.armDone s seg) = State.blank bl s := by
  unfold State.armDone
  repeat' first
    | with_reducible rfl
    | (simp only [h0, h1, h2, h3, h4, h5, h6, h7, h8, h9, ↓State.armResets_blank, ↓State.seqStart_blank, ↓State.onTrig_blank, ↓State.armNow_blank, ↓blank_ite, ↓fst_ite, ite_self, implies_true]; done)
    | split
    | simp only [h0, h1, h2, h3, h4, h5, h6, h7, h8, h9, ↓State.armResets_blank, ↓State.seqStart_blank, ↓State.onTrig_blank, ↓State.armNow_blank, ↓blank_ite, ↓fst_ite, ite_self, implies_true]

theorem arm_blank (h0 : bl .out = true) (h1 : bl .regs = true) (h2 : bl .tb = true) (h3 : bl .cores = true) (h4 : bl .bgs = true) (h5 : bl .field = true) (h6 : bl .hearth = true) (h7 : bl .mem = true) (h8 : bl .trig = true) (h9 : bl .comps = true) (h10 : bl .jobs = true) (h11 : bl .pair = true) (h12 : bl .host = true) (src : Src) (meas : List (Nat × Nat)) (partner : ArmCheck) (s : State) : State.blank bl (arm src meas partner s) = State.blank bl s := by
  unfold arm
  repeat' first
    | with_reducible rfl
    | (simp only [h0, h1, h2, h3, h4, h5, h6, h7, h8, h9, h10, h11, h12, State.serve_blank, ↓State.reply_blank, ↓State.wakeHeld_blank, ↓State.paceWake_blank, ↓State.logPace_blank, ↓State.armDone_blank, ↓blank_ite, ↓fst_ite, ite_self, implies_true]; done)
    | split
    | simp only [h0, h1, h2, h3, h4, h5, h6, h7, h8, h9, h10, h11, h12, State.serve_blank, ↓State.reply_blank, ↓State.wakeHeld_blank, ↓State.paceWake_blank, ↓State.logPace_blank, ↓State.armDone_blank, ↓blank_ite, ↓fst_ite, ite_self, implies_true]
    | refine (State.serve_blank _ _ _ _ ?_).trans ?_
    | intro _

theorem functionLevelReset_blank (h0 : bl .out = true) (h1 : bl .freeUse = true) (h2 : bl .regs = true) (h3 : bl .cores = true) (h4 : bl .hearth = true) (h5 : bl .mem = true) (h6 : bl .host = true) (p : Fin 2) (s : State) : State.blank bl (functionLevelReset p s) = State.blank bl s := by
  unfold functionLevelReset
  repeat' first
    | with_reducible rfl
    | (simp only [h0, h1, h2, h3, h4, h5, h6, ↓State.endCommand_blank, ↓State.portStop_blank, ↓State.putHost_blank, ↓blank_ite, ↓fst_ite, ite_self, implies_true]; done)
    | split
    | simp only [h0, h1, h2, h3, h4, h5, h6, ↓State.endCommand_blank, ↓State.portStop_blank, ↓State.putHost_blank, ↓blank_ite, ↓fst_ite, ite_self, implies_true]

theorem usb4LinkDown_blank (h0 : bl .freeUse = true) (h1 : bl .regs = true) (h2 : bl .hearth = true) (h3 : bl .mem = true) (h4 : bl .host = true) (p : Fin 2) (s : State) : State.blank bl (usb4LinkDown p s) = State.blank bl s := by
  unfold usb4LinkDown
  repeat' first
    | with_reducible rfl
    | (simp only [h0, h1, h2, h3, h4, ↓State.portStop_blank, ↓State.setFld_blank, ↓State.setBit_blank, ↓blank_ite, ↓fst_ite, ite_self, implies_true]; done)
    | split
    | simp only [h0, h1, h2, h3, h4, ↓State.portStop_blank, ↓State.setFld_blank, ↓State.setBit_blank, ↓blank_ite, ↓fst_ite, ite_self, implies_true]

theorem masterTimeout_blank (h0 : bl .regs = true) (h1 : bl .tb = true) (h2 : bl .ptp = true) (p : Fin 2) (announce : Bool) (s : State) : State.blank bl (masterTimeout p announce s) = State.blank bl s := by
  unfold masterTimeout
  repeat' first
    | with_reducible rfl
    | (simp only [h0, h1, h2, ↓State.count_blank, ↓State.onPort_blank, ↓State.bmca_blank, ↓State.lostMaster_blank, ↓blank_ite, ↓fst_ite, ite_self, implies_true]; done)
    | split
    | simp only [h0, h1, h2, ↓State.count_blank, ↓State.onPort_blank, ↓State.bmca_blank, ↓State.lostMaster_blank, ↓blank_ite, ↓fst_ite, ite_self, implies_true]

theorem pdelayRespRx_blank (h0 : bl .freeUse = true) (h1 : bl .regs = true) (h2 : bl .tb = true) (h3 : bl .ptp = true) (p : Fin 2) (h : PtpHead) (twoStep : Bool) (recv : Nat) (reqClock : Nat) (reqPort : Nat) (raw : Nat) (s : State) : State.blank bl (pdelayRespRx p h twoStep recv reqClock reqPort raw s) = State.blank bl s := by
  unfold pdelayRespRx
  repeat' first
    | with_reducible rfl
    | (simp only [h0, h1, h2, h3, State.ptpRx_blank, ↓State.onPort_blank, ↓State.takeDelay_blank, ↓blank_ite, ↓fst_ite, ite_self, implies_true]; done)
    | split
    | simp only [h0, h1, h2, h3, State.ptpRx_blank, ↓State.onPort_blank, ↓State.takeDelay_blank, ↓blank_ite, ↓fst_ite, ite_self, implies_true]
    | refine (State.ptpRx_blank h1 _ _ _ _ _ ?_).trans ?_
    | intro _

theorem delayRespRx_blank (h0 : bl .freeUse = true) (h1 : bl .regs = true) (h2 : bl .tb = true) (h3 : bl .ptp = true) (p : Fin 2) (h : PtpHead) (recv : Nat) (reqClock : Nat) (reqPort : Nat) (s : State) : State.blank bl (delayRespRx p h recv reqClock reqPort s) = State.blank bl s := by
  unfold delayRespRx
  repeat' first
    | with_reducible rfl
    | (simp only [h0, h1, h2, h3, State.ptpRx_blank, ↓State.takeDelay_blank, ↓State.onPort_blank, ↓blank_ite, ↓fst_ite, ite_self, implies_true]; done)
    | split
    | simp only [h0, h1, h2, h3, State.ptpRx_blank, ↓State.takeDelay_blank, ↓State.onPort_blank, ↓blank_ite, ↓fst_ite, ite_self, implies_true]
    | refine (State.ptpRx_blank h1 _ _ _ _ _ ?_).trans ?_
    | intro _

theorem pdelayReqTx_blank (h0 : bl .out = true) (h1 : bl .regs = true) (h2 : bl .ptp = true) (p : Fin 2) (s : State) : State.blank bl (pdelayReqTx p s) = State.blank bl s := by
  unfold pdelayReqTx
  repeat' first
    | with_reducible rfl
    | (simp only [h0, h1, h2, ↓State.sendReq_blank, ↓blank_ite, ↓fst_ite, ite_self, implies_true]; done)
    | split
    | simp only [h0, h1, h2, ↓State.sendReq_blank, ↓blank_ite, ↓fst_ite, ite_self, implies_true]

end Sys2Proof.Machine
end

