-- ==== Sys2Proof/Laws/BlankFns.lean ====
section
/-!
SUPPORT. What each operation leaves alone: the parts of the state that it can change are emptied on both sides, and the rest agrees.
The files of Machine/: Jobs, LoadImage, FnCmds, RegFile, Pair, Store.
-/

namespace Sys2Proof.Machine

set_option linter.unusedSimpArgs false

variable {bl : Comp → Bool}

theorem State.onJobs_blank (h0 : bl .jobs = true) (s : State) (g : JobUnit → JobUnit) : State.blank bl (State.onJobs s g) = State.blank bl s := by
  unfold State.onJobs
  repeat' first
    | with_reducible rfl
    | (simp only [h0, ↓State.putJobs_blank, ↓blank_ite, ↓fst_ite, ite_self, implies_true]; done)
    | split
    | simp only [h0, ↓State.putJobs_blank, ↓blank_ite, ↓fst_ite, ite_self, implies_true]

theorem State.jobEnd_blank (h0 : bl .out = true) (h1 : bl .regs = true) (h2 : bl .jobs = true) (h3 : bl .host = true) (s : State) (r : JobRun) : State.blank bl (State.jobEnd s r) = State.blank bl s := by
  unfold State.jobEnd
  repeat' first
    | with_reducible rfl
    | (simp only [h0, h1, h2, h3, ↓State.onJobs_blank, ↓State.eqPost_blank, ↓blank_ite, ↓fst_ite, ite_self, implies_true]; done)
    | split
    | simp only [h0, h1, h2, h3, ↓State.onJobs_blank, ↓State.eqPost_blank, ↓blank_ite, ↓fst_ite, ite_self, implies_true]

theorem State.jobsAbort_blank (h0 : bl .out = true) (h1 : bl .freeUse = true) (h2 : bl .regs = true) (h3 : bl .hearth = true) (h4 : bl .mem = true) (h5 : bl .jobs = true) (h6 : bl .host = true) (s : State) : State.blank bl (State.jobsAbort s) = State.blank bl s := by
  unfold State.jobsAbort
  repeat' first
    | with_reducible rfl
    | (simp only [h0, h1, h2, h3, h4, h5, h6, ↓State.scramble_blank, ↓State.onJobs_blank, State.each_blank, ↓State.jobEnd_blank, ↓blank_ite, ↓fst_ite, ite_self, implies_true]; done)
    | split
    | simp only [h0, h1, h2, h3, h4, h5, h6, ↓State.scramble_blank, ↓State.onJobs_blank, State.each_blank, ↓State.jobEnd_blank, ↓blank_ite, ↓fst_ite, ite_self, implies_true]
    | refine (State.each_blank _ _ _ ?_).trans ?_
    | intro _

theorem State.stopEffect_blank (h0 : bl .out = true) (h1 : bl .freeUse = true) (h2 : bl .regs = true) (h3 : bl .tb = true) (h4 : bl .order = true) (h5 : bl .queues = true) (h6 : bl .engines = true) (h7 : bl .tdc = true) (h8 : bl .field = true) (h9 : bl .hearth = true) (h10 : bl .mem = true) (h11 : bl .trig = true) (h12 : bl .staging = true) (h13 : bl .comps = true) (h14 : bl .jobs = true) (h15 : bl .pair = true) (h16 : bl .host = true) (h17 : bl .ptp = true) (s : State) (a1 : Fn) : State.blank bl (State.stopEffect s a1) = State.blank bl s := by
  unfold State.stopEffect
  repeat' first
    | with_reducible rfl
    | (simp only [h0, h1, h2, h3, h4, h5, h6, h7, h8, h9, h10, h11, h12, h13, h14, h15, h16, h17, ↓State.ingStop_blank, ↓State.anvStop_blank, ↓State.jobsAbort_blank, ↓State.cmpStop_blank, ↓State.trgStop_blank, ↓State.tbStop_blank, ↓State.tdcStop_blank, ↓State.ptpStop_blank, ↓State.aouStop_blank, ↓State.heartbeat_blank, ↓State.hstStop_blank, ↓State.bgsStop_blank, ↓blank_ite, ↓fst_ite, ite_self, implies_true]; done)
    | split
    | simp only [h0, h1, h2, h3, h4, h5, h6, h7, h8, h9, h10, h11, h12, h13, h14, h15, h16, h17, ↓State.ingStop_blank, ↓State.anvStop_blank, ↓State.jobsAbort_blank, ↓State.cmpStop_blank, ↓State.trgStop_blank, ↓State.tbStop_blank, ↓State.tdcStop_blank, ↓State.ptpStop_blank, ↓State.aouStop_blank, ↓State.heartbeat_blank, ↓State.hstStop_blank, ↓State.bgsStop_blank, ↓blank_ite, ↓fst_ite, ite_self, implies_true]

theorem State.writeTime_blank (h0 : bl .freeUse = true) (h1 : bl .regs = true) (s : State) (x : TimeXchg) (ofs : Int) : State.blank bl (State.writeTime s x ofs) = State.blank bl s := by
  unfold State.writeTime
  repeat' first
    | with_reducible rfl
    | (simp only [h0, h1, ↓State.setReg_blank, ↓State.useFree_blank, ↓blank_ite, ↓fst_ite, ite_self, implies_true]; done)
    | split
    | simp only [h0, h1, ↓State.setReg_blank, ↓State.useFree_blank, ↓blank_ite, ↓fst_ite, ite_self, implies_true]

theorem pairTimeUpdate_blank (h0 : bl .freeUse = true) (h1 : bl .regs = true) (s : State) : State.blank bl (pairTimeUpdate s) = State.blank bl s := by
  unfold pairTimeUpdate
  repeat' first
    | with_reducible rfl
    | (simp only [h0, h1, ↓State.writeTime_blank, ↓blank_ite, ↓fst_ite, ite_self, implies_true]; done)
    | split
    | simp only [h0, h1, ↓State.writeTime_blank, ↓blank_ite, ↓fst_ite, ite_self, implies_true]

theorem State.ranEffect_blank (h0 : bl .fns = true) (h1 : bl .regs = true) (h2 : bl .tb = true) (h3 : bl .field = true) (h4 : bl .pair = true) (s : State) (a1 : Fn) : State.blank bl (State.ranEffect s a1) = State.blank bl s := by
  unfold State.ranEffect
  repeat' first
    | with_reducible rfl
    | (simp only [h0, h1, h2, h3, h4, ↓State.faultOut_blank, ↓State.auxRunning_blank, ↓blank_ite, ↓fst_ite, ite_self, implies_true]; done)
    | split
    | simp only [h0, h1, h2, h3, h4, ↓State.faultOut_blank, ↓State.auxRunning_blank, ↓blank_ite, ↓fst_ite, ite_self, implies_true]

theorem State.tellImage_blank (h0 : bl .out = true) (h1 : bl .pair = true) (s : State) (img : List Byte) : State.blank bl (State.tellImage s img) = State.blank bl s := by
  unfold State.tellImage
  repeat' first
    | with_reducible rfl
    | (simp only [h0, h1, State.each_blank, ↓State.mirrorSend_blank, ↓blank_ite, ↓fst_ite, ite_self, implies_true]; done)
    | split
    | simp only [h0, h1, State.each_blank, ↓State.mirrorSend_blank, ↓blank_ite, ↓fst_ite, ite_self, implies_true]
    | refine (State.each_blank _ _ _ ?_).trans ?_
    | intro _

theorem State.tellReg_blank (h0 : bl .out = true) (h1 : bl .pair = true) (s : State) (a : Nat) (seg : Nat) (tile : Nat) : State.blank bl (State.tellReg s a seg tile) = State.blank bl s := by
  unfold State.tellReg
  repeat' first
    | with_reducible rfl
    | (simp only [h0, h1, ↓State.mirrorSend_blank, ↓blank_ite, ↓fst_ite, ite_self, implies_true]; done)
    | split
    | simp only [h0, h1, ↓State.mirrorSend_blank, ↓blank_ite, ↓fst_ite, ite_self, implies_true]

theorem State.sendSegRegs_blank (h0 : bl .out = true) (h1 : bl .pair = true) (s : State) (i : Nat) : State.blank bl (State.sendSegRegs s i) = State.blank bl s := by
  unfold State.sendSegRegs
  repeat' first
    | with_reducible rfl
    | (simp only [h0, h1, State.each_blank, ↓State.tellReg_blank, ↓blank_ite, ↓fst_ite, ite_self, implies_true]; done)
    | split
    | simp only [h0, h1, State.each_blank, ↓State.tellReg_blank, ↓blank_ite, ↓fst_ite, ite_self, implies_true]
    | refine (State.each_blank _ _ _ ?_).trans ?_
    | intro _

theorem State.tellFn_blank (h0 : bl .out = true) (h1 : bl .pair = true) (s : State) (f : Fn) (cmd : Nat) : State.blank bl (State.tellFn s f cmd) = State.blank bl s := by
  unfold State.tellFn
  repeat' first
    | with_reducible rfl
    | (simp only [h0, h1, ↓State.mirrorSend_blank, ↓blank_ite, ↓fst_ite, ite_self, implies_true]; done)
    | split
    | simp only [h0, h1, ↓State.mirrorSend_blank, ↓blank_ite, ↓fst_ite, ite_self, implies_true]

theorem State.tellRunning_blank (h0 : bl .out = true) (h1 : bl .pair = true) (s : State) (f : Fn) : State.blank bl (State.tellRunning s f) = State.blank bl s := by
  unfold State.tellRunning
  repeat' first
    | with_reducible rfl
    | (simp only [h0, h1, ↓State.tellFn_blank, ↓blank_ite, ↓fst_ite, ite_self, implies_true]; done)
    | split
    | simp only [h0, h1, ↓State.tellFn_blank, ↓blank_ite, ↓fst_ite, ite_self, implies_true]

theorem State.sendTimeTrig_blank (h0 : bl .out = true) (h1 : bl .pair = true) (s : State) : State.blank bl (State.sendTimeTrig s) = State.blank bl s := by
  unfold State.sendTimeTrig
  repeat' first
    | with_reducible rfl
    | (simp only [h0, h1, ↓State.mirrorSend_blank, ↓blank_ite, ↓fst_ite, ite_self, implies_true]; done)
    | split
    | simp only [h0, h1, ↓State.mirrorSend_blank, ↓blank_ite, ↓fst_ite, ite_self, implies_true]

theorem State.sendSegState_blank (h0 : bl .out = true) (h1 : bl .pair = true) (s : State) (i : Nat) : State.blank bl (State.sendSegState s i) = State.blank bl s := by
  unfold State.sendSegState
  repeat' first
    | with_reducible rfl
    | (simp only [h0, h1, ↓State.mirrorSend_blank, ↓blank_ite, ↓fst_ite, ite_self, implies_true]; done)
    | split
    | simp only [h0, h1, ↓State.mirrorSend_blank, ↓blank_ite, ↓fst_ite, ite_self, implies_true]

theorem State.sendAll_blank (h0 : bl .out = true) (h1 : bl .pair = true) (s : State) : State.blank bl (State.sendAll s) = State.blank bl s := by
  unfold State.sendAll
  repeat' first
    | with_reducible rfl
    | (simp only [h0, h1, ↓State.tellImage_blank, State.each_blank, ↓State.tellReg_blank, ↓State.sendSegRegs_blank, ↓State.tellRunning_blank, ↓State.sendTimeTrig_blank, ↓State.sendSegState_blank, ↓blank_ite, ↓fst_ite, ite_self, implies_true]; done)
    | split
    | simp only [h0, h1, ↓State.tellImage_blank, State.each_blank, ↓State.tellReg_blank, ↓State.sendSegRegs_blank, ↓State.tellRunning_blank, ↓State.sendTimeTrig_blank, ↓State.sendSegState_blank, ↓blank_ite, ↓fst_ite, ite_self, implies_true]
    | refine (State.each_blank _ _ _ ?_).trans ?_
    | intro _

theorem State.holderHears_blank (h0 : bl .out = true) (h1 : bl .regs = true) (h2 : bl .pair = true) (s : State) (before : Option Heartbeat) (h : Heartbeat) : State.blank bl (State.holderHears s before h) = State.blank bl s := by
  unfold State.holderHears
  repeat' first
    | with_reducible rfl
    | (simp only [h0, h1, h2, ↓State.setRole_blank, ↓State.sendAll_blank, ↓State.setBit_blank, ↓State.onPair_blank, ↓blank_ite, ↓fst_ite, ite_self, implies_true]; done)
    | split
    | simp only [h0, h1, h2, ↓State.setRole_blank, ↓State.sendAll_blank, ↓State.setBit_blank, ↓State.onPair_blank, ↓blank_ite, ↓fst_ite, ite_self, implies_true]

theorem State.lastStatus_blank (h0 : bl .fns = true) (s : State) (f : Fn) (st : Nat) : State.blank bl (State.lastStatus s f st) = State.blank bl s := by
  unfold State.lastStatus
  repeat' first
    | with_reducible rfl
    | (simp only [h0, ↓State.onFn_blank, ↓blank_ite, ↓fst_ite, ite_self, implies_true]; done)
    | split
    | simp only [h0, ↓State.onFn_blank, ↓blank_ite, ↓fst_ite, ite_self, implies_true]

theorem State.quenchEffect_blank (h0 : bl .out = true) (h1 : bl .freeUse = true) (h2 : bl .regs = true) (h3 : bl .tb = true) (h4 : bl .rx = true) (h5 : bl .tiles = true) (h6 : bl .mirLanes = true) (h7 : bl .order = true) (h8 : bl .queues = true) (h9 : bl .bellows = true) (h10 : bl .engines = true) (h11 : bl .tdc = true) (h12 : bl .bgs = true) (h13 : bl .field = true) (h14 : bl .hearth = true) (h15 : bl .mem = true) (h16 : bl .trig = true) (h17 : bl .staging = true) (h18 : bl .comps = true) (h19 : bl .jobs = true) (h20 : bl .pair = true) (h21 : bl .host = true) (h22 : bl .ptp = true) (s : State) (global : Bool) (a2 : Fn) : State.blank bl (State.quenchEffect s global a2) = State.blank bl s := by
  unfold State.quenchEffect
  repeat' first
    | with_reducible rfl
    | (simp only [h0, h1, h2, h3, h4, h5, h6, h7, h8, h9, h10, h11, h12, h13, h14, h15, h16, h17, h18, h19, h20, h21, h22, ↓State.lnkOff_blank, ↓State.ingQuench_blank, ↓State.anvQuench_blank, ↓State.hrtQuench_blank, ↓State.trgQuench_blank, ↓State.jobsAbort_blank, ↓State.cmpDiscard_blank, ↓State.tbStop_blank, ↓State.tdcQuench_blank, ↓State.ptpStop_blank, ↓State.auxQuench_blank, ↓State.aouStop_blank, ↓State.pairStopped_blank, ↓State.hstQuench_blank, ↓State.bgsStop_blank, ↓blank_ite, ↓fst_ite, ite_self, implies_true]; done)
    | split
    | simp only [h0, h1, h2, h3, h4, h5, h6, h7, h8, h9, h10, h11, h12, h13, h14, h15, h16, h17, h18, h19, h20, h21, h22, ↓State.lnkOff_blank, ↓State.ingQuench_blank, ↓State.anvQuench_blank, ↓State.hrtQuench_blank, ↓State.trgQuench_blank, ↓State.jobsAbort_blank, ↓State.cmpDiscard_blank, ↓State.tbStop_blank, ↓State.tdcQuench_blank, ↓State.ptpStop_blank, ↓State.auxQuench_blank, ↓State.aouStop_blank, ↓State.pairStopped_blank, ↓State.hstQuench_blank, ↓State.bgsStop_blank, ↓blank_ite, ↓fst_ite, ite_self, implies_true]

theorem State.faultLeft_blank (h0 : bl .regs = true) (s : State) (f : Fn) : State.blank bl (State.faultLeft s f) = State.blank bl s := by
  unfold State.faultLeft
  repeat' first
    | with_reducible rfl
    | (simp only [h0, ↓State.setRole_blank, ↓blank_ite, ↓fst_ite, ite_self, implies_true]; done)
    | split
    | simp only [h0, ↓State.setRole_blank, ↓blank_ite, ↓fst_ite, ite_self, implies_true]

theorem State.quenchNow_blank (h0 : bl .out = true) (h1 : bl .freeUse = true) (h2 : bl .fns = true) (h3 : bl .regs = true) (h4 : bl .tb = true) (h5 : bl .rx = true) (h6 : bl .tiles = true) (h7 : bl .mirLanes = true) (h8 : bl .order = true) (h9 : bl .queues = true) (h10 : bl .bellows = true) (h11 : bl .engines = true) (h12 : bl .tdc = true) (h13 : bl .bgs = true) (h14 : bl .field = true) (h15 : bl .hearth = true) (h16 : bl .mem = true) (h17 : bl .trig = true) (h18 : bl .staging = true) (h19 : bl .comps = true) (h20 : bl .jobs = true) (h21 : bl .pair = true) (h22 : bl .host = true) (h23 : bl .ptp = true) (s : State) (f : Fn) (global : Bool) : State.blank bl (State.quenchNow s f global) = State.blank bl s := by
  unfold State.quenchNow
  repeat' first
    | with_reducible rfl
    | (simp only [h0, h1, h2, h3, h4, h5, h6, h7, h8, h9, h10, h11, h12, h13, h14, h15, h16, h17, h18, h19, h20, h21, h22, h23, ↓State.lastStatus_blank, ↓State.setFn_blank, ↓State.quenchEffect_blank, ↓State.faultLeft_blank, ↓blank_ite, ↓fst_ite, ite_self, implies_true]; done)
    | split
    | simp only [h0, h1, h2, h3, h4, h5, h6, h7, h8, h9, h10, h11, h12, h13, h14, h15, h16, h17, h18, h19, h20, h21, h22, h23, ↓State.lastStatus_blank, ↓State.setFn_blank, ↓State.quenchEffect_blank, ↓State.faultLeft_blank, ↓blank_ite, ↓fst_ite, ite_self, implies_true]

theorem State.quenchFive_blank (h0 : bl .out = true) (h1 : bl .freeUse = true) (h2 : bl .fns = true) (h3 : bl .regs = true) (h4 : bl .tb = true) (h5 : bl .rx = true) (h6 : bl .tiles = true) (h7 : bl .mirLanes = true) (h8 : bl .order = true) (h9 : bl .queues = true) (h10 : bl .bellows = true) (h11 : bl .engines = true) (h12 : bl .tdc = true) (h13 : bl .bgs = true) (h14 : bl .field = true) (h15 : bl .hearth = true) (h16 : bl .mem = true) (h17 : bl .trig = true) (h18 : bl .staging = true) (h19 : bl .comps = true) (h20 : bl .jobs = true) (h21 : bl .pair = true) (h22 : bl .host = true) (h23 : bl .ptp = true) (s : State) : State.blank bl (State.quenchFive s).1 = State.blank bl s := by
  unfold State.quenchFive
  repeat' first
    | with_reducible rfl
    | (simp only [h0, h1, h2, h3, h4, h5, h6, h7, h8, h9, h10, h11, h12, h13, h14, h15, h16, h17, h18, h19, h20, h21, h22, h23, State.each_blank, ↓State.quenchNow_blank, ↓State.domainsOff_blank, ↓blank_ite, ↓fst_ite, ite_self, implies_true]; done)
    | split
    | simp only [h0, h1, h2, h3, h4, h5, h6, h7, h8, h9, h10, h11, h12, h13, h14, h15, h16, h17, h18, h19, h20, h21, h22, h23, State.each_blank, ↓State.quenchNow_blank, ↓State.domainsOff_blank, ↓blank_ite, ↓fst_ite, ite_self, implies_true]
    | refine (State.each_blank _ _ _ ?_).trans ?_
    | intro _

theorem State.beginJoin_blank (h0 : bl .out = true) (h1 : bl .freeUse = true) (h2 : bl .fns = true) (h3 : bl .regs = true) (h4 : bl .tb = true) (h5 : bl .rx = true) (h6 : bl .tiles = true) (h7 : bl .mirLanes = true) (h8 : bl .order = true) (h9 : bl .queues = true) (h10 : bl .bellows = true) (h11 : bl .engines = true) (h12 : bl .tdc = true) (h13 : bl .bgs = true) (h14 : bl .field = true) (h15 : bl .hearth = true) (h16 : bl .mem = true) (h17 : bl .trig = true) (h18 : bl .staging = true) (h19 : bl .comps = true) (h20 : bl .jobs = true) (h21 : bl .pair = true) (h22 : bl .host = true) (h23 : bl .ptp = true) (s : State) : State.blank bl (State.beginJoin s) = State.blank bl s := by
  unfold State.beginJoin
  repeat' first
    | with_reducible rfl
    | (simp only [h0, h1, h2, h3, h4, h5, h6, h7, h8, h9, h10, h11, h12, h13, h14, h15, h16, h17, h18, h19, h20, h21, h22, h23, ↓State.quenchFive_blank, ↓State.onPair_blank, ↓State.pairForget_blank, ↓State.setRole_blank, ↓blank_ite, ↓fst_ite, ite_self, implies_true]; done)
    | split
    | simp only [h0, h1, h2, h3, h4, h5, h6, h7, h8, h9, h10, h11, h12, h13, h14, h15, h16, h17, h18, h19, h20, h21, h22, h23, ↓State.quenchFive_blank, ↓State.onPair_blank, ↓State.pairForget_blank, ↓State.setRole_blank, ↓blank_ite, ↓fst_ite, ite_self, implies_true]

theorem State.otherHears_blank (h0 : bl .out = true) (h1 : bl .freeUse = true) (h2 : bl .fns = true) (h3 : bl .regs = true) (h4 : bl .tb = true) (h5 : bl .rx = true) (h6 : bl .tiles = true) (h7 : bl .mirLanes = true) (h8 : bl .order = true) (h9 : bl .queues = true) (h10 : bl .bellows = true) (h11 : bl .engines = true) (h12 : bl .tdc = true) (h13 : bl .bgs = true) (h14 : bl .field = true) (h15 : bl .hearth = true) (h16 : bl .mem = true) (h17 : bl .trig = true) (h18 : bl .staging = true) (h19 : bl .comps = true) (h20 : bl .jobs = true) (h21 : bl .pair = true) (h22 : bl .host = true) (h23 : bl .ptp = true) (s : State) (h : Heartbeat) : State.blank bl (State.otherHears s h) = State.blank bl s := by
  unfold State.otherHears
  repeat' first
    | with_reducible rfl
    | (simp only [h0, h1, h2, h3, h4, h5, h6, h7, h8, h9, h10, h11, h12, h13, h14, h15, h16, h17, h18, h19, h20, h21, h22, h23, ↓State.beginJoin_blank, ↓blank_ite, ↓fst_ite, ite_self, implies_true]; done)
    | split
    | simp only [h0, h1, h2, h3, h4, h5, h6, h7, h8, h9, h10, h11, h12, h13, h14, h15, h16, h17, h18, h19, h20, h21, h22, h23, ↓State.beginJoin_blank, ↓blank_ite, ↓fst_ite, ite_self, implies_true]

theorem State.takeHeartbeat_blank (h0 : bl .out = true) (h1 : bl .freeUse = true) (h2 : bl .fns = true) (h3 : bl .regs = true) (h4 : bl .tb = true) (h5 : bl .rx = true) (h6 : bl .tiles = true) (h7 : bl .mirLanes = true) (h8 : bl .order = true) (h9 : bl .queues = true) (h10 : bl .bellows = true) (h11 : bl .engines = true) (h12 : bl .tdc = true) (h13 : bl .bgs = true) (h14 : bl .field = true) (h15 : bl .hearth = true) (h16 : bl .mem = true) (h17 : bl .trig = true) (h18 : bl .staging = true) (h19 : bl .comps = true) (h20 : bl .jobs = true) (h21 : bl .pair = true) (h22 : bl .host = true) (h23 : bl .ptp = true) (s : State) (h : Heartbeat) (t : Stamp) : State.blank bl (State.takeHeartbeat s h t) = State.blank bl s := by
  unfold State.takeHeartbeat
  repeat' first
    | with_reducible rfl
    | (simp only [h0, h1, h2, h3, h4, h5, h6, h7, h8, h9, h10, h11, h12, h13, h14, h15, h16, h17, h18, h19, h20, h21, h22, h23, ↓State.count_blank, ↓State.pairFaultNow_blank, ↓State.onPair_blank, ↓State.holderHears_blank, ↓State.otherHears_blank, ↓blank_ite, ↓fst_ite, ite_self, implies_true]; done)
    | split
    | simp only [h0, h1, h2, h3, h4, h5, h6, h7, h8, h9, h10, h11, h12, h13, h14, h15, h16, h17, h18, h19, h20, h21, h22, h23, ↓State.count_blank, ↓State.pairFaultNow_blank, ↓State.onPair_blank, ↓State.holderHears_blank, ↓State.otherHears_blank, ↓blank_ite, ↓fst_ite, ite_self, implies_true]

theorem State.stopCores_blank (h0 : bl .cores = true) (s : State) : State.blank bl (State.stopCores s) = State.blank bl s := by
  unfold State.stopCores
  repeat' first
    | with_reducible rfl
    | (simp only [h0, State.each_blank, ↓State.onCore_blank, ↓blank_ite, ↓fst_ite, ite_self, implies_true]; done)
    | split
    | simp only [h0, State.each_blank, ↓State.onCore_blank, ↓blank_ite, ↓fst_ite, ite_self, implies_true]
    | refine (State.each_blank _ _ _ ?_).trans ?_
    | intro _

theorem State.setEngines_blank (h0 : bl .regs = true) (s : State) (img : List Byte) : State.blank bl (State.setEngines s img) = State.blank bl s := by
  unfold State.setEngines
  repeat' first
    | with_reducible rfl
    | (simp only [h0, State.each_blank, ↓State.setBit_blank, ↓State.setFld_blank, ↓blank_ite, ↓fst_ite, ite_self, implies_true]; done)
    | split
    | simp only [h0, State.each_blank, ↓State.setBit_blank, ↓State.setFld_blank, ↓blank_ite, ↓fst_ite, ite_self, implies_true]
    | refine (State.each_blank _ _ _ ?_).trans ?_
    | intro _

theorem State.writeSections_blank (h0 : bl .engines = true) (h1 : bl .cores = true) (s : State) (img : List Byte) : State.blank bl (State.writeSections s img) = State.blank bl s := by
  unfold State.writeSections
  repeat' first
    | with_reducible rfl
    | (simp only [h0, h1, State.each_blank, ↓State.onEngine_blank, ↓State.onCore_blank, ↓blank_ite, ↓fst_ite, ite_self, implies_true]; done)
    | split
    | simp only [h0, h1, State.each_blank, ↓State.onEngine_blank, ↓State.onCore_blank, ↓blank_ite, ↓fst_ite, ite_self, implies_true]
    | refine (State.each_blank _ _ _ ?_).trans ?_
    | intro _

theorem State.startCore_blank (h0 : bl .cores = true) (s : State) (c : Nat) (entry : Nat) : State.blank bl (State.startCore s c entry) = State.blank bl s := by
  unfold State.startCore
  repeat' first
    | with_reducible rfl
    | (simp only [h0, ↓State.onCore_blank, ↓blank_ite, ↓fst_ite, ite_self, implies_true]; done)
    | split
    | simp only [h0, ↓State.onCore_blank, ↓blank_ite, ↓fst_ite, ite_self, implies_true]

theorem State.loadImage_blank (h0 : bl .regs = true) (h1 : bl .tb = true) (h2 : bl .queues = true) (h3 : bl .bellows = true) (h4 : bl .engines = true) (h5 : bl .cores = true) (h6 : bl .bgs = true) (h7 : bl .trig = true) (h8 : bl .comps = true) (h9 : bl .kept = true) (h10 : bl .keptBad = true) (s : State) (img : List Byte) : State.blank bl (State.loadImage s img) = State.blank bl s := by
  unfold State.loadImage
  repeat' first
    | with_reducible rfl
    | (simp only [h0, h1, h2, h3, h4, h5, h6, h7, h8, h9, h10, ↓State.stopCores_blank, State.each_blank, ↓State.domUp_blank, ↓State.setEngines_blank, ↓State.writeSections_blank, ↓State.putBgs_blank, ↓State.putKeptBad_blank, ↓State.putKept_blank, ↓State.onSeq_blank, ↓State.startCore_blank, ↓State.updateAlarms_blank, ↓State.domainsOff_blank, ↓blank_ite, ↓fst_ite, ite_self, implies_true]; done)
    | split
    | simp only [h0, h1, h2, h3, h4, h5, h6, h7, h8, h9, h10, ↓State.stopCores_blank, State.each_blank, ↓State.domUp_blank, ↓State.setEngines_blank, ↓State.writeSections_blank, ↓State.putBgs_blank, ↓State.putKeptBad_blank, ↓State.putKept_blank, ↓State.onSeq_blank, ↓State.startCore_blank, ↓State.updateAlarms_blank, ↓State.domainsOff_blank, ↓blank_ite, ↓fst_ite, ite_self, implies_true]
    | refine (State.each_blank _ _ _ ?_).trans ?_
    | intro _

theorem State.imagePiece_blank (h0 : bl .regs = true) (h1 : bl .tb = true) (h2 : bl .queues = true) (h3 : bl .bellows = true) (h4 : bl .engines = true) (h5 : bl .cores = true) (h6 : bl .bgs = true) (h7 : bl .trig = true) (h8 : bl .comps = true) (h9 : bl .pair = true) (h10 : bl .kept = true) (h11 : bl .keptBad = true) (s : State) (total : Nat) (off : Nat) (body : List Byte) : State.blank bl (State.imagePiece s total off body) = State.blank bl s := by
  unfold State.imagePiece
  repeat' first
    | with_reducible rfl
    | (simp only [h0, h1, h2, h3, h4, h5, h6, h7, h8, h9, h10, h11, ↓State.onPair_blank, ↓State.loadImage_blank, ↓blank_ite, ↓fst_ite, ite_self, implies_true]; done)
    | split
    | simp only [h0, h1, h2, h3, h4, h5, h6, h7, h8, h9, h10, h11, ↓State.onPair_blank, ↓State.loadImage_blank, ↓blank_ite, ↓fst_ite, ite_self, implies_true]

theorem State.storeMirrored_blank (h0 : bl .regs = true) (h1 : bl .hearth = true) (s : State) (a : Nat) (seg : Nat) (tile : Nat) (v : Nat) : State.blank bl (State.storeMirrored s a seg tile v) = State.blank bl s := by
  unfold State.storeMirrored
  repeat' first
    | with_reducible rfl
    | (simp only [h0, h1, ↓State.onSeg_blank, ↓State.setReg_blank, ↓blank_ite, ↓fst_ite, ite_self, implies_true]; done)
    | split
    | simp only [h0, h1, ↓State.onSeg_blank, ↓State.setReg_blank, ↓blank_ite, ↓fst_ite, ite_self, implies_true]

theorem State.ignored_blank (h0 : bl .fns = true) (h1 : bl .regs = true) (s : State) (f : Fn) : State.blank bl (State.ignored s f).1 = State.blank bl s := by
  unfold State.ignored
  repeat' first
    | with_reducible rfl
    | (simp only [h0, h1, ↓State.lastStatus_blank, ↓State.badCmd_blank, ↓blank_ite, ↓fst_ite, ite_self, implies_true]; done)
    | split
    | simp only [h0, h1, ↓State.lastStatus_blank, ↓State.badCmd_blank, ↓blank_ite, ↓fst_ite, ite_self, implies_true]

theorem State.startFwCore_blank (h0 : bl .cores = true) (s : State) (c : Nat) : State.blank bl (State.startFwCore s c) = State.blank bl s := by
  unfold State.startFwCore
  repeat' first
    | with_reducible rfl
    | (simp only [h0, ↓State.onCore_blank, ↓blank_ite, ↓fst_ite, ite_self, implies_true]; done)
    | split
    | simp only [h0, ↓State.onCore_blank, ↓blank_ite, ↓fst_ite, ite_self, implies_true]

theorem State.startCore1_blank (h0 : bl .cores = true) (s : State) : State.blank bl (State.startCore1 s) = State.blank bl s := by
  unfold State.startCore1
  repeat' first
    | with_reducible rfl
    | (simp only [h0, ↓State.startFwCore_blank, ↓blank_ite, ↓fst_ite, ite_self, implies_true]; done)
    | split
    | simp only [h0, ↓State.startFwCore_blank, ↓blank_ite, ↓fst_ite, ite_self, implies_true]

theorem State.startEffect_blank (h0 : bl .regs = true) (h1 : bl .tb = true) (h2 : bl .engines = true) (h3 : bl .cores = true) (h4 : bl .staging = true) (s : State) (a1 : Fn) : State.blank bl (State.startEffect s a1) = State.blank bl s := by
  unfold State.startEffect
  repeat' first
    | with_reducible rfl
    | (simp only [h0, h1, h2, h3, h4, ↓State.anvStart_blank, ↓State.tbStart_blank, ↓State.startCore1_blank, ↓blank_ite, ↓fst_ite, ite_self, implies_true]; done)
    | split
    | simp only [h0, h1, h2, h3, h4, ↓State.anvStart_blank, ↓State.tbStart_blank, ↓State.startCore1_blank, ↓blank_ite, ↓fst_ite, ite_self, implies_true]

theorem State.startFn_blank (h0 : bl .fns = true) (h1 : bl .regs = true) (h2 : bl .tb = true) (h3 : bl .engines = true) (h4 : bl .cores = true) (h5 : bl .staging = true) (s : State) (f : Fn) : State.blank bl (State.startFn s f).1 = State.blank bl s := by
  unfold State.startFn
  repeat' first
    | with_reducible rfl
    | (simp only [h0, h1, h2, h3, h4, h5, ↓State.ignored_blank, ↓State.lastStatus_blank, ↓State.onFn_blank, ↓State.startEffect_blank, ↓blank_ite, ↓fst_ite, ite_self, implies_true]; done)
    | split
    | simp only [h0, h1, h2, h3, h4, h5, ↓State.ignored_blank, ↓State.lastStatus_blank, ↓State.onFn_blank, ↓State.startEffect_blank, ↓blank_ite, ↓fst_ite, ite_self, implies_true]

theorem State.stopFn_blank (h0 : bl .out = true) (h1 : bl .freeUse = true) (h2 : bl .fns = true) (h3 : bl .regs = true) (h4 : bl .tb = true) (h5 : bl .order = true) (h6 : bl .queues = true) (h7 : bl .engines = true) (h8 : bl .tdc = true) (h9 : bl .field = true) (h10 : bl .hearth = true) (h11 : bl .mem = true) (h12 : bl .trig = true) (h13 : bl .staging = true) (h14 : bl .comps = true) (h15 : bl .jobs = true) (h16 : bl .pair = true) (h17 : bl .host = true) (h18 : bl .ptp = true) (s : State) (f : Fn) : State.blank bl (State.stopFn s f).1 = State.blank bl s := by
  unfold State.stopFn
  repeat' first
    | with_reducible rfl
    | (simp only [h0, h1, h2, h3, h4, h5, h6, h7, h8, h9, h10, h11, h12, h13, h14, h15, h16, h17, h18, ↓State.stopEffect_blank, ↓State.lastStatus_blank, ↓State.setFn_blank, ↓State.faultLeft_blank, ↓State.ignored_blank, ↓blank_ite, ↓fst_ite, ite_self, implies_true]; done)
    | split
    | simp only [h0, h1, h2, h3, h4, h5, h6, h7, h8, h9, h10, h11, h12, h13, h14, h15, h16, h17, h18, ↓State.stopEffect_blank, ↓State.lastStatus_blank, ↓State.setFn_blank, ↓State.faultLeft_blank, ↓State.ignored_blank, ↓blank_ite, ↓fst_ite, ite_self, implies_true]

theorem State.quenchFn_blank (h0 : bl .out = true) (h1 : bl .freeUse = true) (h2 : bl .fns = true) (h3 : bl .regs = true) (h4 : bl .tb = true) (h5 : bl .rx = true) (h6 : bl .tiles = true) (h7 : bl .mirLanes = true) (h8 : bl .order = true) (h9 : bl .queues = true) (h10 : bl .bellows = true) (h11 : bl .engines = true) (h12 : bl .tdc = true) (h13 : bl .bgs = true) (h14 : bl .field = true) (h15 : bl .hearth = true) (h16 : bl .mem = true) (h17 : bl .trig = true) (h18 : bl .staging = true) (h19 : bl .comps = true) (h20 : bl .jobs = true) (h21 : bl .pair = true) (h22 : bl .host = true) (h23 : bl .ptp = true) (s : State) (f : Fn) : State.blank bl (State.quenchFn s f).1 = State.blank bl s := by
  unfold State.quenchFn
  repeat' first
    | with_reducible rfl
    | (simp only [h0, h1, h2, h3, h4, h5, h6, h7, h8, h9, h10, h11, h12, h13, h14, h15, h16, h17, h18, h19, h20, h21, h22, h23, ↓State.domainsOff_blank, ↓State.quenchNow_blank, ↓State.ignored_blank, ↓blank_ite, ↓fst_ite, ite_self, implies_true]; done)
    | split
    | simp only [h0, h1, h2, h3, h4, h5, h6, h7, h8, h9, h10, h11, h12, h13, h14, h15, h16, h17, h18, h19, h20, h21, h22, h23, ↓State.domainsOff_blank, ↓State.quenchNow_blank, ↓State.ignored_blank, ↓blank_ite, ↓fst_ite, ite_self, implies_true]

theorem State.fnCommand_blank (h0 : bl .out = true) (h1 : bl .freeUse = true) (h2 : bl .fns = true) (h3 : bl .regs = true) (h4 : bl .tb = true) (h5 : bl .rx = true) (h6 : bl .tiles = true) (h7 : bl .mirLanes = true) (h8 : bl .order = true) (h9 : bl .queues = true) (h10 : bl .bellows = true) (h11 : bl .engines = true) (h12 : bl .cores = true) (h13 : bl .tdc = true) (h14 : bl .bgs = true) (h15 : bl .field = true) (h16 : bl .hearth = true) (h17 : bl .mem = true) (h18 : bl .trig = true) (h19 : bl .staging = true) (h20 : bl .comps = true) (h21 : bl .jobs = true) (h22 : bl .pair = true) (h23 : bl .host = true) (h24 : bl .ptp = true) (s : State) (f : Fn) (cmd : Nat) : State.blank bl (State.fnCommand s f cmd).1 = State.blank bl s := by
  unfold State.fnCommand
  repeat' first
    | with_reducible rfl
    | (simp only [h0, h1, h2, h3, h4, h5, h6, h7, h8, h9, h10, h11, h12, h13, h14, h15, h16, h17, h18, h19, h20, h21, h22, h23, h24, ↓State.startFn_blank, ↓State.stopFn_blank, ↓State.quenchFn_blank, ↓State.tellFn_blank, ↓blank_ite, ↓fst_ite, ite_self, implies_true]; done)
    | split
    | simp only [h0, h1, h2, h3, h4, h5, h6, h7, h8, h9, h10, h11, h12, h13, h14, h15, h16, h17, h18, h19, h20, h21, h22, h23, h24, ↓State.startFn_blank, ↓State.stopFn_blank, ↓State.quenchFn_blank, ↓State.tellFn_blank, ↓blank_ite, ↓fst_ite, ite_self, implies_true]

theorem State.copySegment_blank (h0 : bl .hearth = true) (h1 : bl .jobs = true) (h2 : bl .pair = true) (s : State) (i : Nat) (phase : Nat) (recCount : Nat) (f0 : Nat) : State.blank bl (State.copySegment s i phase recCount f0) = State.blank bl s := by
  unfold State.copySegment
  repeat' first
    | with_reducible rfl
    | (simp only [h0, h1, h2, ↓State.cutJob_blank, ↓State.onSeg_blank, ↓State.onPair_blank, ↓blank_ite, ↓fst_ite, ite_self, implies_true]; done)
    | split
    | simp only [h0, h1, h2, ↓State.cutJob_blank, ↓State.onSeg_blank, ↓State.onPair_blank, ↓blank_ite, ↓fst_ite, ite_self, implies_true]

theorem State.takeState_blank (h0 : bl .out = true) (h1 : bl .freeUse = true) (h2 : bl .fns = true) (h3 : bl .regs = true) (h4 : bl .tb = true) (h5 : bl .rx = true) (h6 : bl .tiles = true) (h7 : bl .mirLanes = true) (h8 : bl .order = true) (h9 : bl .queues = true) (h10 : bl .bellows = true) (h11 : bl .engines = true) (h12 : bl .cores = true) (h13 : bl .tdc = true) (h14 : bl .bgs = true) (h15 : bl .field = true) (h16 : bl .hearth = true) (h17 : bl .mem = true) (h18 : bl .trig = true) (h19 : bl .staging = true) (h20 : bl .comps = true) (h21 : bl .jobs = true) (h22 : bl .pair = true) (h23 : bl .host = true) (h24 : bl .ptp = true) (h25 : bl .kept = true) (h26 : bl .keptBad = true) (s : State) (m : StateMsg) : State.blank bl (State.takeState s m) = State.blank bl s := by
  unfold State.takeState
  repeat' first
    | with_reducible rfl
    | (simp only [h0, h1, h2, h3, h4, h5, h6, h7, h8, h9, h10, h11, h12, h13, h14, h15, h16, h17, h18, h19, h20, h21, h22, h23, h24, h25, h26, ↓State.imagePiece_blank, ↓State.storeMirrored_blank, ↓State.onPair_blank, ↓State.fnCommand_blank, ↓State.copySegment_blank, ↓State.onTrig_blank, ↓State.requestStep_blank, ↓blank_ite, ↓fst_ite, ite_self, implies_true]; done)
    | split
    | simp only [h0, h1, h2, h3, h4, h5, h6, h7, h8, h9, h10, h11, h12, h13, h14, h15, h16, h17, h18, h19, h20, h21, h22, h23, h24, h25, h26, ↓State.imagePiece_blank, ↓State.storeMirrored_blank, ↓State.onPair_blank, ↓State.fnCommand_blank, ↓State.copySegment_blank, ↓State.onTrig_blank, ↓State.requestStep_blank, ↓blank_ite, ↓fst_ite, ite_self, implies_true]

theorem State.shadowAfter_blank (h0 : bl .trig = true) (s : State) (n : Nat) (t : Stamp) : State.blank bl (State.shadowAfter s n t) = State.blank bl s := by
  unfold State.shadowAfter
  repeat' first
    | with_reducible rfl
    | (simp only [h0, ↓State.onSeq_blank, ↓blank_ite, ↓fst_ite, ite_self, implies_true]; done)
    | split
    | simp only [h0, ↓State.onSeq_blank, ↓blank_ite, ↓fst_ite, ite_self, implies_true]

theorem State.takeSched_blank (h0 : bl .tb = true) (h1 : bl .hearth = true) (h2 : bl .trig = true) (s : State) (n : Nat) (t : Nat) : State.blank bl (State.takeSched s n t) = State.blank bl s := by
  unfold State.takeSched
  repeat' first
    | with_reducible rfl
    | (simp only [h0, h1, h2, ↓State.shadowDiff_blank, ↓State.restamp_blank, ↓State.logFrame_blank, ↓State.shadowAfter_blank, ↓State.knowFrame_blank, ↓blank_ite, ↓fst_ite, ite_self, implies_true]; done)
    | split
    | simp only [h0, h1, h2, ↓State.shadowDiff_blank, ↓State.restamp_blank, ↓State.logFrame_blank, ↓State.shadowAfter_blank, ↓State.knowFrame_blank, ↓blank_ite, ↓fst_ite, ite_self, implies_true]

theorem State.applyDecision_blank (h0 : bl .out = true) (h1 : bl .regs = true) (h2 : bl .tb = true) (h3 : bl .tdc = true) (h4 : bl .field = true) (h5 : bl .hearth = true) (h6 : bl .mem = true) (h7 : bl .trig = true) (h8 : bl .pair = true) (h9 : bl .host = true) (s : State) (d : Decision) : State.blank bl (State.applyDecision s d) = State.blank bl s := by
  unfold State.applyDecision
  repeat' first
    | with_reducible rfl
    | (simp only [h0, h1, h2, h3, h4, h5, h6, h7, h8, h9, ↓State.onTrig_blank, ↓State.applyTrigger_blank, ↓blank_ite, ↓fst_ite, ite_self, implies_true]; done)
    | split
    | simp only [h0, h1, h2, h3, h4, h5, h6, h7, h8, h9, ↓State.onTrig_blank, ↓State.applyTrigger_blank, ↓blank_ite, ↓fst_ite, ite_self, implies_true]

theorem State.takeDecision_blank (h0 : bl .out = true) (h1 : bl .regs = true) (h2 : bl .tb = true) (h3 : bl .tdc = true) (h4 : bl .field = true) (h5 : bl .hearth = true) (h6 : bl .mem = true) (h7 : bl .trig = true) (h8 : bl .pair = true) (h9 : bl .host = true) (s : State) (d : Option Decision) (k : Option Nat) : State.blank bl (State.takeDecision s d k) = State.blank bl s := by
  unfold State.takeDecision
  repeat' first
    | with_reducible rfl
    | (simp only [h0, h1, h2, h3, h4, h5, h6, h7, h8, h9, ↓State.onPair_blank, ↓State.decMismatch_blank, ↓State.applyDecision_blank, State.each_blank, ↓State.onTrig_blank, ↓blank_ite, ↓fst_ite, ite_self, implies_true]; done)
    | split
    | simp only [h0, h1, h2, h3, h4, h5, h6, h7, h8, h9, ↓State.onPair_blank, ↓State.decMismatch_blank, ↓State.applyDecision_blank, State.each_blank, ↓State.onTrig_blank, ↓blank_ite, ↓fst_ite, ite_self, implies_true]
    | refine (State.each_blank _ _ _ ?_).trans ?_
    | intro _

theorem State.tellArmCheck_blank (h0 : bl .out = true) (h1 : bl .pair = true) (s : State) (st : Nat) (engine : Nat) (check : Nat) (pCheck : Nat) : State.blank bl (State.tellArmCheck s st engine check pCheck) = State.blank bl s := by
  unfold State.tellArmCheck
  repeat' first
    | with_reducible rfl
    | (simp only [h0, h1, ↓State.mirrorSend_blank, ↓blank_ite, ↓fst_ite, ite_self, implies_true]; done)
    | split
    | simp only [h0, h1, ↓State.mirrorSend_blank, ↓blank_ite, ↓fst_ite, ite_self, implies_true]

theorem State.copyArm_blank (h0 : bl .out = true) (h1 : bl .regs = true) (h2 : bl .tb = true) (h3 : bl .bgs = true) (h4 : bl .field = true) (h5 : bl .hearth = true) (h6 : bl .mem = true) (h7 : bl .trig = true) (h8 : bl .comps = true) (h9 : bl .jobs = true) (h10 : bl .pair = true) (s : State) (seg : Nat) (f0 : Nat) (again : Bool) (meas : List (Nat × Nat)) : State.blank bl (State.copyArm s seg f0 again meas) = State.blank bl s := by
  unfold State.copyArm
  repeat' first
    | with_reducible rfl
    | (simp only [h0, h1, h2, h3, h4, h5, h6, h7, h8, h9, h10, ↓State.tellArmCheck_blank, ↓State.armNow_blank, ↓State.wakeHeld_blank, ↓State.paceWake_blank, ↓State.logPace_blank, ↓State.onTrig_blank, ↓State.armResets_blank, ↓State.renumber_blank, ↓blank_ite, ↓fst_ite, ite_self, implies_true]; done)
    | split
    | simp only [h0, h1, h2, h3, h4, h5, h6, h7, h8, h9, h10, ↓State.tellArmCheck_blank, ↓State.armNow_blank, ↓State.wakeHeld_blank, ↓State.paceWake_blank, ↓State.logPace_blank, ↓State.onTrig_blank, ↓State.armResets_blank, ↓State.renumber_blank, ↓blank_ite, ↓fst_ite, ite_self, implies_true]

theorem State.copyRecno_blank (h0 : bl .hearth = true) (s : State) (seg : Nat) (recno : Nat) : State.blank bl (State.copyRecno s seg recno) = State.blank bl s := by
  unfold State.copyRecno
  repeat' first
    | with_reducible rfl
    | (simp only [h0, State.onH_blank, ↓State.onSeg_blank, ↓blank_ite, ↓fst_ite, ite_self, implies_true]; done)
    | split
    | simp only [h0, State.onH_blank, ↓State.onSeg_blank, ↓blank_ite, ↓fst_ite, ite_self, implies_true]
    | (refine (State.onH_blank h0 _ _ rfl).trans ?_)

theorem State.patchClosed_blank (h0 : bl .hearth = true) (h1 : bl .mem = true) (s : State) (seg : Nat) (qact : Nat) (flags : Nat) (cstamp : Stamp) : State.blank bl (State.patchClosed s seg qact flags cstamp) = State.blank bl s := by
  unfold State.patchClosed
  repeat' first
    | with_reducible rfl
    | (simp only [h0, h1, ↓State.writeDir_blank, ↓State.onSeg_blank, ↓blank_ite, ↓fst_ite, ite_self, implies_true]; done)
    | split
    | simp only [h0, h1, ↓State.writeDir_blank, ↓State.onSeg_blank, ↓blank_ite, ↓fst_ite, ite_self, implies_true]

theorem State.copyClose_blank (h0 : bl .out = true) (h1 : bl .regs = true) (h2 : bl .tb = true) (h3 : bl .hearth = true) (h4 : bl .mem = true) (h5 : bl .trig = true) (h6 : bl .pair = true) (h7 : bl .host = true) (s : State) (seg : Nat) (qact : Nat) (flags : Nat) (cstamp : Stamp) : State.blank bl (State.copyClose s seg qact flags cstamp) = State.blank bl s := by
  unfold State.copyClose
  repeat' first
    | with_reducible rfl
    | (simp only [h0, h1, h2, h3, h4, h5, h6, h7, ↓State.onPair_blank, ↓State.settleFrames_blank, State.onH_blank, ↓State.patchClosed_blank, ↓blank_ite, ↓fst_ite, ite_self, implies_true]; done)
    | split
    | simp only [h0, h1, h2, h3, h4, h5, h6, h7, ↓State.onPair_blank, ↓State.settleFrames_blank, State.onH_blank, ↓State.patchClosed_blank, ↓blank_ite, ↓fst_ite, ite_self, implies_true]
    | (refine (State.onH_blank h3 _ _ rfl).trans ?_)

theorem State.takeRecord_blank (h0 : bl .out = true) (h1 : bl .regs = true) (h2 : bl .tb = true) (h3 : bl .bgs = true) (h4 : bl .field = true) (h5 : bl .hearth = true) (h6 : bl .mem = true) (h7 : bl .trig = true) (h8 : bl .comps = true) (h9 : bl .jobs = true) (h10 : bl .pair = true) (h11 : bl .host = true) (s : State) (m : RecordMsg) (meas : List (Nat × Nat)) : State.blank bl (State.takeRecord s m meas) = State.blank bl s := by
  unfold State.takeRecord
  repeat' first
    | with_reducible rfl
    | (simp only [h0, h1, h2, h3, h4, h5, h6, h7, h8, h9, h10, h11, ↓State.onPair_blank, ↓State.onSeg_blank, ↓State.cutJob_blank, State.each_blank, ↓State.copyArm_blank, ↓State.disarmAll_blank, ↓State.copyRecno_blank, ↓State.copyClose_blank, ↓State.releaseSegment_blank, ↓blank_ite, ↓fst_ite, ite_self, implies_true]; done)
    | split
    | simp only [h0, h1, h2, h3, h4, h5, h6, h7, h8, h9, h10, h11, ↓State.onPair_blank, ↓State.onSeg_blank, ↓State.cutJob_blank, State.each_blank, ↓State.copyArm_blank, ↓State.disarmAll_blank, ↓State.copyRecno_blank, ↓State.copyClose_blank, ↓State.releaseSegment_blank, ↓blank_ite, ↓fst_ite, ite_self, implies_true]
    | refine (State.each_blank _ _ _ ?_).trans ?_
    | intro _

theorem State.takeTime_blank (h0 : bl .regs = true) (h1 : bl .pair = true) (s : State) (dep : Nat) (back : Nat) (t : Stamp) : State.blank bl (State.takeTime s dep back t) = State.blank bl s := by
  unfold State.takeTime
  repeat' first
    | with_reducible rfl
    | (simp only [h0, h1, ↓State.onPair_blank, ↓State.setReg_blank, ↓blank_ite, ↓fst_ite, ite_self, implies_true]; done)
    | split
    | simp only [h0, h1, ↓State.onPair_blank, ↓State.setReg_blank, ↓blank_ite, ↓fst_ite, ite_self, implies_true]

theorem State.theirDigest_blank (h0 : bl .regs = true) (h1 : bl .tb = true) (h2 : bl .hearth = true) (h3 : bl .mem = true) (h4 : bl .pair = true) (s : State) (d : DigestNote) : State.blank bl (State.theirDigest s d) = State.blank bl s := by
  unfold State.theirDigest
  repeat' first
    | with_reducible rfl
    | (simp only [h0, h1, h2, h3, h4, ↓State.count_blank, ↓State.compareDigest_blank, ↓State.onPair_blank, ↓blank_ite, ↓fst_ite, ite_self, implies_true]; done)
    | split
    | simp only [h0, h1, h2, h3, h4, ↓State.count_blank, ↓State.compareDigest_blank, ↓State.onPair_blank, ↓blank_ite, ↓fst_ite, ite_self, implies_true]

theorem State.takeSpace_blank (h0 : bl .out = true) (h1 : bl .regs = true) (h2 : bl .tb = true) (h3 : bl .hearth = true) (h4 : bl .mem = true) (h5 : bl .pair = true) (s : State) (n : Nat) : State.blank bl (State.takeSpace s n) = State.blank bl s := by
  unfold State.takeSpace
  repeat' first
    | with_reducible rfl
    | (simp only [h0, h1, h2, h3, h4, h5, ↓State.truncate_blank, ↓State.truncateClosed_blank, ↓blank_ite, ↓fst_ite, ite_self, implies_true]; done)
    | split
    | simp only [h0, h1, h2, h3, h4, h5, ↓State.truncate_blank, ↓State.truncateClosed_blank, ↓blank_ite, ↓fst_ite, ite_self, implies_true]

theorem State.noteQuenched_blank (h0 : bl .pair = true) (s : State) : State.blank bl (State.noteQuenched s) = State.blank bl s := by
  unfold State.noteQuenched
  repeat' first
    | with_reducible rfl
    | (simp only [h0, ↓State.onPair_blank, ↓blank_ite, ↓fst_ite, ite_self, implies_true]; done)
    | split
    | simp only [h0, ↓State.onPair_blank, ↓blank_ite, ↓fst_ite, ite_self, implies_true]

theorem State.takeQuench_blank (h0 : bl .out = true) (h1 : bl .freeUse = true) (h2 : bl .fns = true) (h3 : bl .regs = true) (h4 : bl .tb = true) (h5 : bl .rx = true) (h6 : bl .tiles = true) (h7 : bl .mirLanes = true) (h8 : bl .order = true) (h9 : bl .queues = true) (h10 : bl .bellows = true) (h11 : bl .engines = true) (h12 : bl .tdc = true) (h13 : bl .bgs = true) (h14 : bl .field = true) (h15 : bl .hearth = true) (h16 : bl .mem = true) (h17 : bl .trig = true) (h18 : bl .staging = true) (h19 : bl .comps = true) (h20 : bl .jobs = true) (h21 : bl .pair = true) (h22 : bl .host = true) (h23 : bl .ptp = true) (s : State) (t : Nat) : State.blank bl (State.takeQuench s t) = State.blank bl s := by
  unfold State.takeQuench
  repeat' first
    | with_reducible rfl
    | (simp only [h0, h1, h2, h3, h4, h5, h6, h7, h8, h9, h10, h11, h12, h13, h14, h15, h16, h17, h18, h19, h20, h21, h22, h23, ↓State.quenchFive_blank, ↓State.log_blank, ↓State.noteQuenched_blank, ↓blank_ite, ↓fst_ite, ite_self, implies_true]; done)
    | split
    | simp only [h0, h1, h2, h3, h4, h5, h6, h7, h8, h9, h10, h11, h12, h13, h14, h15, h16, h17, h18, h19, h20, h21, h22, h23, ↓State.quenchFive_blank, ↓State.log_blank, ↓State.noteQuenched_blank, ↓blank_ite, ↓fst_ite, ite_self, implies_true]

theorem State.planHandover_blank (h0 : bl .out = true) (h1 : bl .pair = true) (s : State) (h : Nat) (test : Bool) : State.blank bl (State.planHandover s h test) = State.blank bl s := by
  unfold State.planHandover
  repeat' first
    | with_reducible rfl
    | (simp only [h0, h1, ↓State.onPair_blank, ↓State.mirrorSend_blank, ↓blank_ite, ↓fst_ite, ite_self, implies_true]; done)
    | split
    | simp only [h0, h1, ↓State.onPair_blank, ↓State.mirrorSend_blank, ↓blank_ite, ↓fst_ite, ite_self, implies_true]

theorem State.takeForward_blank (h0 : bl .out = true) (h1 : bl .regs = true) (h2 : bl .tb = true) (h3 : bl .field = true) (h4 : bl .hearth = true) (h5 : bl .trig = true) (h6 : bl .pair = true) (s : State) (c : ForwardCmd) : State.blank bl (State.takeForward s c) = State.blank bl s := by
  unfold State.takeForward
  repeat' first
    | with_reducible rfl
    | (simp only [h0, h1, h2, h3, h4, h5, h6, ↓State.srcEvent_blank, ↓State.releaseSegment_blank, ↓State.ownTimeTrigger_blank, ↓State.planHandover_blank, ↓blank_ite, ↓fst_ite, ite_self, implies_true]; done)
    | split
    | simp only [h0, h1, h2, h3, h4, h5, h6, ↓State.srcEvent_blank, ↓State.releaseSegment_blank, ↓State.ownTimeTrigger_blank, ↓State.planHandover_blank, ↓blank_ite, ↓fst_ite, ite_self, implies_true]

theorem State.takeHandover_blank (h0 : bl .pair = true) (s : State) (h : Nat) (n : Nat) (test : Bool) : State.blank bl (State.takeHandover s h n test) = State.blank bl s := by
  unfold State.takeHandover
  repeat' first
    | with_reducible rfl
    | (simp only [h0, ↓State.onPair_blank, ↓blank_ite, ↓fst_ite, ite_self, implies_true]; done)
    | split
    | simp only [h0, ↓State.onPair_blank, ↓blank_ite, ↓fst_ite, ite_self, implies_true]

theorem State.mirApply_blank (h0 : bl .out = true) (h1 : bl .freeUse = true) (h2 : bl .fns = true) (h3 : bl .regs = true) (h4 : bl .tb = true) (h5 : bl .rx = true) (h6 : bl .tiles = true) (h7 : bl .mirLanes = true) (h8 : bl .order = true) (h9 : bl .queues = true) (h10 : bl .bellows = true) (h11 : bl .engines = true) (h12 : bl .cores = true) (h13 : bl .tdc = true) (h14 : bl .bgs = true) (h15 : bl .field = true) (h16 : bl .hearth = true) (h17 : bl .mem = true) (h18 : bl .trig = true) (h19 : bl .staging = true) (h20 : bl .comps = true) (h21 : bl .jobs = true) (h22 : bl .pair = true) (h23 : bl .host = true) (h24 : bl .ptp = true) (h25 : bl .kept = true) (h26 : bl .keptBad = true) (s : State) (a1 : MirMsg) : State.blank bl (State.mirApply s a1) = State.blank bl s := by
  unfold State.mirApply
  repeat' first
    | with_reducible rfl
    | (simp only [h0, h1, h2, h3, h4, h5, h6, h7, h8, h9, h10, h11, h12, h13, h14, h15, h16, h17, h18, h19, h20, h21, h22, h23, h24, h25, h26, ↓State.takeHeartbeat_blank, ↓State.takeState_blank, ↓State.takeSched_blank, ↓State.takeDecision_blank, ↓State.takeRecord_blank, ↓State.takeTime_blank, ↓State.theirDigest_blank, ↓State.takeSpace_blank, ↓State.takeQuench_blank, ↓State.takeForward_blank, ↓State.takeHandover_blank, ↓blank_ite, ↓fst_ite, ite_self, implies_true]; done)
    | split
    | simp only [h0, h1, h2, h3, h4, h5, h6, h7, h8, h9, h10, h11, h12, h13, h14, h15, h16, h17, h18, h19, h20, h21, h22, h23, h24, h25, h26, ↓State.takeHeartbeat_blank, ↓State.takeState_blank, ↓State.takeSched_blank, ↓State.takeDecision_blank, ↓State.takeRecord_blank, ↓State.takeTime_blank, ↓State.theirDigest_blank, ↓State.takeSpace_blank, ↓State.takeQuench_blank, ↓State.takeForward_blank, ↓State.takeHandover_blank, ↓blank_ite, ↓fst_ite, ite_self, implies_true]

theorem State.mirPass_blank (h0 : bl .out = true) (h1 : bl .freeUse = true) (h2 : bl .fns = true) (h3 : bl .regs = true) (h4 : bl .tb = true) (h5 : bl .rx = true) (h6 : bl .tiles = true) (h7 : bl .mirLanes = true) (h8 : bl .order = true) (h9 : bl .queues = true) (h10 : bl .bellows = true) (h11 : bl .engines = true) (h12 : bl .cores = true) (h13 : bl .tdc = true) (h14 : bl .bgs = true) (h15 : bl .field = true) (h16 : bl .hearth = true) (h17 : bl .mem = true) (h18 : bl .trig = true) (h19 : bl .staging = true) (h20 : bl .comps = true) (h21 : bl .jobs = true) (h22 : bl .pair = true) (h23 : bl .host = true) (h24 : bl .ptp = true) (h25 : bl .kept = true) (h26 : bl .keptBad = true) (s : State) (q : Nat) (m : MirMsg) : State.blank bl (State.mirPass s q m) = State.blank bl s := by
  unfold State.mirPass
  repeat' first
    | with_reducible rfl
    | (simp only [h0, h1, h2, h3, h4, h5, h6, h7, h8, h9, h10, h11, h12, h13, h14, h15, h16, h17, h18, h19, h20, h21, h22, h23, h24, h25, h26, ↓State.onPair_blank, ↓State.mirApply_blank, ↓blank_ite, ↓fst_ite, ite_self, implies_true]; done)
    | split
    | simp only [h0, h1, h2, h3, h4, h5, h6, h7, h8, h9, h10, h11, h12, h13, h14, h15, h16, h17, h18, h19, h20, h21, h22, h23, h24, h25, h26, ↓State.onPair_blank, ↓State.mirApply_blank, ↓blank_ite, ↓fst_ite, ite_self, implies_true]

theorem State.mirDrain_blank (h0 : bl .out = true) (h1 : bl .freeUse = true) (h2 : bl .fns = true) (h3 : bl .regs = true) (h4 : bl .tb = true) (h5 : bl .rx = true) (h6 : bl .tiles = true) (h7 : bl .mirLanes = true) (h8 : bl .order = true) (h9 : bl .queues = true) (h10 : bl .bellows = true) (h11 : bl .engines = true) (h12 : bl .cores = true) (h13 : bl .tdc = true) (h14 : bl .bgs = true) (h15 : bl .field = true) (h16 : bl .hearth = true) (h17 : bl .mem = true) (h18 : bl .trig = true) (h19 : bl .staging = true) (h20 : bl .comps = true) (h21 : bl .jobs = true) (h22 : bl .pair = true) (h23 : bl .host = true) (h24 : bl .ptp = true) (h25 : bl .kept = true) (h26 : bl .keptBad = true) (a0 : Nat) (a1 : State) : State.blank bl (State.mirDrain a0 a1) = State.blank bl a1 := by
  induction a0 generalizing a1 with
  | zero => unfold State.mirDrain; first | rfl | (split <;> rfl)
  | succ k ih =>
    unfold State.mirDrain
    repeat' first
      | with_reducible rfl
      | (simp only [h0, h1, h2, h3, h4, h5, h6, h7, h8, h9, h10, h11, h12, h13, h14, h15, h16, h17, h18, h19, h20, h21, h22, h23, h24, h25, h26, ↓State.mirPass_blank, ↓blank_ite, ↓fst_ite, ite_self, implies_true, ↓ih]; done)
      | split
      | simp only [h0, h1, h2, h3, h4, h5, h6, h7, h8, h9, h10, h11, h12, h13, h14, h15, h16, h17, h18, h19, h20, h21, h22, h23, h24, h25, h26, ↓State.mirPass_blank, ↓blank_ite, ↓fst_ite, ite_self, implies_true, ↓ih]

theorem State.mirSkip_blank (h0 : bl .out = true) (h1 : bl .freeUse = true) (h2 : bl .fns = true) (h3 : bl .regs = true) (h4 : bl .tb = true) (h5 : bl .rx = true) (h6 : bl .tiles = true) (h7 : bl .mirLanes = true) (h8 : bl .order = true) (h9 : bl .queues = true) (h10 : bl .bellows = true) (h11 : bl .engines = true) (h12 : bl .cores = true) (h13 : bl .tdc = true) (h14 : bl .bgs = true) (h15 : bl .field = true) (h16 : bl .hearth = true) (h17 : bl .mem = true) (h18 : bl .trig = true) (h19 : bl .staging = true) (h20 : bl .comps = true) (h21 : bl .jobs = true) (h22 : bl .pair = true) (h23 : bl .host = true) (h24 : bl .ptp = true) (h25 : bl .kept = true) (h26 : bl .keptBad = true) (a0 : Nat) (a1 : Nat) (a2 : State) : State.blank bl (State.mirSkip a0 a1 a2) = State.blank bl a2 := by
  induction a0 generalizing a2 with
  | zero => unfold State.mirSkip; first | rfl | (split <;> rfl)
  | succ k ih =>
    unfold State.mirSkip
    repeat' first
      | with_reducible rfl
      | (simp only [h0, h1, h2, h3, h4, h5, h6, h7, h8, h9, h10, h11, h12, h13, h14, h15, h16, h17, h18, h19, h20, h21, h22, h23, h24, h25, h26, ↓State.mirPass_blank, ↓blank_ite, ↓fst_ite, ite_self, implies_true, ↓ih]; done)
      | split
      | simp only [h0, h1, h2, h3, h4, h5, h6, h7, h8, h9, h10, h11, h12, h13, h14, h15, h16, h17, h18, h19, h20, h21, h22, h23, h24, h25, h26, ↓State.mirPass_blank, ↓blank_ite, ↓fst_ite, ite_self, implies_true, ↓ih]

theorem State.askResync_blank (h0 : bl .out = true) (h1 : bl .freeUse = true) (h2 : bl .fns = true) (h3 : bl .regs = true) (h4 : bl .tb = true) (h5 : bl .rx = true) (h6 : bl .tiles = true) (h7 : bl .mirLanes = true) (h8 : bl .order = true) (h9 : bl .queues = true) (h10 : bl .bellows = true) (h11 : bl .engines = true) (h12 : bl .tdc = true) (h13 : bl .bgs = true) (h14 : bl .field = true) (h15 : bl .hearth = true) (h16 : bl .mem = true) (h17 : bl .trig = true) (h18 : bl .staging = true) (h19 : bl .comps = true) (h20 : bl .jobs = true) (h21 : bl .pair = true) (h22 : bl .host = true) (h23 : bl .ptp = true) (s : State) : State.blank bl (State.askResync s) = State.blank bl s := by
  unfold State.askResync
  repeat' first
    | with_reducible rfl
    | (simp only [h0, h1, h2, h3, h4, h5, h6, h7, h8, h9, h10, h11, h12, h13, h14, h15, h16, h17, h18, h19, h20, h21, h22, h23, ↓State.onPair_blank, ↓State.beginJoin_blank, ↓blank_ite, ↓fst_ite, ite_self, implies_true]; done)
    | split
    | simp only [h0, h1, h2, h3, h4, h5, h6, h7, h8, h9, h10, h11, h12, h13, h14, h15, h16, h17, h18, h19, h20, h21, h22, h23, ↓State.onPair_blank, ↓State.beginJoin_blank, ↓blank_ite, ↓fst_ite, ite_self, implies_true]

theorem State.mirrorDeskew_blank (h0 : bl .out = true) (h1 : bl .freeUse = true) (h2 : bl .fns = true) (h3 : bl .regs = true) (h4 : bl .tb = true) (h5 : bl .rx = true) (h6 : bl .tiles = true) (h7 : bl .mirLanes = true) (h8 : bl .order = true) (h9 : bl .queues = true) (h10 : bl .bellows = true) (h11 : bl .engines = true) (h12 : bl .cores = true) (h13 : bl .tdc = true) (h14 : bl .bgs = true) (h15 : bl .field = true) (h16 : bl .hearth = true) (h17 : bl .mem = true) (h18 : bl .trig = true) (h19 : bl .staging = true) (h20 : bl .comps = true) (h21 : bl .jobs = true) (h22 : bl .pair = true) (h23 : bl .host = true) (h24 : bl .ptp = true) (h25 : bl .kept = true) (h26 : bl .keptBad = true) (s : State) (q : Nat) : State.blank bl (State.mirrorDeskew s q) = State.blank bl s := by
  unfold State.mirrorDeskew
  repeat' first
    | with_reducible rfl
    | (simp only [h0, h1, h2, h3, h4, h5, h6, h7, h8, h9, h10, h11, h12, h13, h14, h15, h16, h17, h18, h19, h20, h21, h22, h23, h24, h25, h26, ↓State.mirDrain_blank, ↓State.mirSkip_blank, ↓State.askResync_blank, ↓blank_ite, ↓fst_ite, ite_self, implies_true]; done)
    | split
    | simp only [h0, h1, h2, h3, h4, h5, h6, h7, h8, h9, h10, h11, h12, h13, h14, h15, h16, h17, h18, h19, h20, h21, h22, h23, h24, h25, h26, ↓State.mirDrain_blank, ↓State.mirSkip_blank, ↓State.askResync_blank, ↓blank_ite, ↓fst_ite, ite_self, implies_true]

theorem deskewTimeout_blank (h0 : bl .out = true) (h1 : bl .freeUse = true) (h2 : bl .fns = true) (h3 : bl .regs = true) (h4 : bl .tb = true) (h5 : bl .rx = true) (h6 : bl .tiles = true) (h7 : bl .mirLanes = true) (h8 : bl .order = true) (h9 : bl .queues = true) (h10 : bl .bellows = true) (h11 : bl .engines = true) (h12 : bl .cores = true) (h13 : bl .tdc = true) (h14 : bl .bgs = true) (h15 : bl .field = true) (h16 : bl .hearth = true) (h17 : bl .mem = true) (h18 : bl .trig = true) (h19 : bl .staging = true) (h20 : bl .comps = true) (h21 : bl .jobs = true) (h22 : bl .pair = true) (h23 : bl .host = true) (h24 : bl .ptp = true) (h25 : bl .kept = true) (h26 : bl .keptBad = true) (d : DeskewAt) (seq : Nat) (s : State) : State.blank bl (deskewTimeout d seq s) = State.blank bl s := by
  unfold deskewTimeout
  repeat' first
    | with_reducible rfl
    | (simp only [h0, h1, h2, h3, h4, h5, h6, h7, h8, h9, h10, h11, h12, h13, h14, h15, h16, h17, h18, h19, h20, h21, h22, h23, h24, h25, h26, ↓State.stripDeskew_blank, ↓State.mirrorDeskew_blank, ↓blank_ite, ↓fst_ite, ite_self, implies_true]; done)
    | split
    | simp only [h0, h1, h2, h3, h4, h5, h6, h7, h8, h9, h10, h11, h12, h13, h14, h15, h16, h17, h18, h19, h20, h21, h22, h23, h24, h25, h26, ↓State.stripDeskew_blank, ↓State.mirrorDeskew_blank, ↓blank_ite, ↓fst_ite, ite_self, implies_true]

theorem State.quenchGlobal_blank (h0 : bl .out = true) (h1 : bl .freeUse = true) (h2 : bl .fns = true) (h3 : bl .regs = true) (h4 : bl .tb = true) (h5 : bl .rx = true) (h6 : bl .tiles = true) (h7 : bl .mirLanes = true) (h8 : bl .order = true) (h9 : bl .queues = true) (h10 : bl .bellows = true) (h11 : bl .engines = true) (h12 : bl .tdc = true) (h13 : bl .bgs = true) (h14 : bl .field = true) (h15 : bl .hearth = true) (h16 : bl .mem = true) (h17 : bl .trig = true) (h18 : bl .staging = true) (h19 : bl .comps = true) (h20 : bl .jobs = true) (h21 : bl .pair = true) (h22 : bl .host = true) (h23 : bl .ptp = true) (s : State) : State.blank bl (State.quenchGlobal s) = State.blank bl s := by
  unfold State.quenchGlobal
  repeat' first
    | with_reducible rfl
    | (simp only [h0, h1, h2, h3, h4, h5, h6, h7, h8, h9, h10, h11, h12, h13, h14, h15, h16, h17, h18, h19, h20, h21, h22, h23, ↓State.quenchFive_blank, ↓State.logDev_blank, ↓State.noteQuenched_blank, ↓State.mirrorSend_blank, ↓blank_ite, ↓fst_ite, ite_self, implies_true]; done)
    | split
    | simp only [h0, h1, h2, h3, h4, h5, h6, h7, h8, h9, h10, h11, h12, h13, h14, h15, h16, h17, h18, h19, h20, h21, h22, h23, ↓State.quenchFive_blank, ↓State.logDev_blank, ↓State.noteQuenched_blank, ↓State.mirrorSend_blank, ↓blank_ite, ↓fst_ite, ite_self, implies_true]

theorem State.fnCmdWrite_blank (h0 : bl .out = true) (h1 : bl .freeUse = true) (h2 : bl .fns = true) (h3 : bl .regs = true) (h4 : bl .tb = true) (h5 : bl .rx = true) (h6 : bl .tiles = true) (h7 : bl .mirLanes = true) (h8 : bl .order = true) (h9 : bl .queues = true) (h10 : bl .bellows = true) (h11 : bl .engines = true) (h12 : bl .cores = true) (h13 : bl .tdc = true) (h14 : bl .bgs = true) (h15 : bl .field = true) (h16 : bl .hearth = true) (h17 : bl .mem = true) (h18 : bl .trig = true) (h19 : bl .staging = true) (h20 : bl .comps = true) (h21 : bl .jobs = true) (h22 : bl .pair = true) (h23 : bl .host = true) (h24 : bl .ptp = true) (s : State) (v : Nat) : State.blank bl (State.fnCmdWrite s v).1 = State.blank bl s := by
  unfold State.fnCmdWrite
  repeat' first
    | with_reducible rfl
    | (simp only [h0, h1, h2, h3, h4, h5, h6, h7, h8, h9, h10, h11, h12, h13, h14, h15, h16, h17, h18, h19, h20, h21, h22, h23, h24, ↓State.quenchGlobal_blank, ↓State.badCmd_blank, ↓State.fnCommand_blank, ↓blank_ite, ↓fst_ite, ite_self, implies_true]; done)
    | split
    | simp only [h0, h1, h2, h3, h4, h5, h6, h7, h8, h9, h10, h11, h12, h13, h14, h15, h16, h17, h18, h19, h20, h21, h22, h23, h24, ↓State.quenchGlobal_blank, ↓State.badCmd_blank, ↓State.fnCommand_blank, ↓blank_ite, ↓fst_ite, ite_self, implies_true]

theorem State.dieRegsReset_blank (h0 : bl .regs = true) (h1 : bl .field = true) (s : State) : State.blank bl (State.dieRegsReset s) = State.blank bl s := by
  unfold State.dieRegsReset
  repeat' first
    | with_reducible rfl
    | (simp only [h0, h1, State.each_blank, ↓State.setReg_blank, ↓State.onField_blank, ↓blank_ite, ↓fst_ite, ite_self, implies_true]; done)
    | split
    | simp only [h0, h1, State.each_blank, ↓State.setReg_blank, ↓State.onField_blank, ↓blank_ite, ↓fst_ite, ite_self, implies_true]
    | refine (State.each_blank _ _ _ ?_).trans ?_
    | intro _

theorem State.fieldOff_blank (h0 : bl .fns = true) (h1 : bl .regs = true) (h2 : bl .tb = true) (h3 : bl .queues = true) (h4 : bl .bellows = true) (h5 : bl .engines = true) (h6 : bl .bgs = true) (h7 : bl .field = true) (h8 : bl .comps = true) (s : State) : State.blank bl (State.fieldOff s) = State.blank bl s := by
  unfold State.fieldOff
  repeat' first
    | with_reducible rfl
    | (simp only [h0, h1, h2, h3, h4, h5, h6, h7, h8, ↓State.setFn_blank, ↓State.onField_blank, ↓State.domainsOff_blank, ↓State.aouOff_blank, ↓blank_ite, ↓fst_ite, ite_self, implies_true]; done)
    | split
    | simp only [h0, h1, h2, h3, h4, h5, h6, h7, h8, ↓State.setFn_blank, ↓State.onField_blank, ↓State.domainsOff_blank, ↓State.aouOff_blank, ↓blank_ite, ↓fst_ite, ite_self, implies_true]

theorem State.setLink_blank (h0 : bl .regs = true) (s : State) (n : Nat) : State.blank bl (State.setLink s n) = State.blank bl s := by
  unfold State.setLink
  repeat' first
    | with_reducible rfl
    | (simp only [h0, ↓State.setFld_blank, ↓blank_ite, ↓fst_ite, ite_self, implies_true]; done)
    | split
    | simp only [h0, ↓State.setFld_blank, ↓blank_ite, ↓fst_ite, ite_self, implies_true]

theorem fieldDieResetAssert_blank (h0 : bl .fns = true) (h1 : bl .regs = true) (h2 : bl .tb = true) (h3 : bl .queues = true) (h4 : bl .bellows = true) (h5 : bl .engines = true) (h6 : bl .bgs = true) (h7 : bl .field = true) (h8 : bl .comps = true) (s : State) : State.blank bl (fieldDieResetAssert s) = State.blank bl s := by
  unfold fieldDieResetAssert
  repeat' first
    | with_reducible rfl
    | (simp only [h0, h1, h2, h3, h4, h5, h6, h7, h8, ↓State.dieRegsReset_blank, ↓State.fieldOff_blank, ↓State.setLink_blank, ↓State.setBit_blank, ↓State.refuseSt_blank, ↓blank_ite, ↓fst_ite, ite_self, implies_true]; done)
    | split
    | simp only [h0, h1, h2, h3, h4, h5, h6, h7, h8, ↓State.dieRegsReset_blank, ↓State.fieldOff_blank, ↓State.setLink_blank, ↓State.setBit_blank, ↓State.refuseSt_blank, ↓blank_ite, ↓fst_ite, ite_self, implies_true]

theorem fieldDieResetRelease_blank (h0 : bl .regs = true) (s : State) : State.blank bl (fieldDieResetRelease s) = State.blank bl s := by
  unfold fieldDieResetRelease
  repeat' first
    | with_reducible rfl
    | (simp only [h0, ↓State.setLink_blank, ↓State.setBit_blank, ↓State.refuseSt_blank, ↓blank_ite, ↓fst_ite, ite_self, implies_true]; done)
    | split
    | simp only [h0, ↓State.setLink_blank, ↓State.setBit_blank, ↓State.refuseSt_blank, ↓blank_ite, ↓fst_ite, ite_self, implies_true]

theorem jobSubmit_blank (h0 : bl .regs = true) (h1 : bl .jobs = true) (s : State) : State.blank bl (jobSubmit s) = State.blank bl s := by
  unfold jobSubmit
  repeat' first
    | with_reducible rfl
    | (simp only [h0, h1, ↓State.setBit_blank, ↓State.onJobs_blank, ↓blank_ite, ↓fst_ite, ite_self, implies_true]; done)
    | split
    | simp only [h0, h1, ↓State.setBit_blank, ↓State.onJobs_blank, ↓blank_ite, ↓fst_ite, ite_self, implies_true]

theorem jobAbort_blank (h0 : bl .out = true) (h1 : bl .freeUse = true) (h2 : bl .regs = true) (h3 : bl .hearth = true) (h4 : bl .mem = true) (h5 : bl .jobs = true) (h6 : bl .host = true) (s : State) : State.blank bl (jobAbort s) = State.blank bl s := by
  unfold jobAbort
  repeat' first
    | with_reducible rfl
    | (simp only [h0, h1, h2, h3, h4, h5, h6, ↓State.jobsAbort_blank, ↓blank_ite, ↓fst_ite, ite_self, implies_true]; done)
    | split
    | simp only [h0, h1, h2, h3, h4, h5, h6, ↓State.jobsAbort_blank, ↓blank_ite, ↓fst_ite, ite_self, implies_true]

theorem pairSwap_blank (h0 : bl .out = true) (h1 : bl .fns = true) (h2 : bl .pair = true) (h : Nat) (_n : Nat) (s : State) : State.blank bl (pairSwap h _n s) = State.blank bl s := by
  unfold pairSwap
  repeat' first
    | with_reducible rfl
    | (simp only [h0, h1, h2, ↓State.lastStatus_blank, ↓State.planHandover_blank, ↓blank_ite, ↓fst_ite, ite_self, implies_true]; done)
    | split
    | simp only [h0, h1, h2, ↓State.lastStatus_blank, ↓State.planHandover_blank, ↓blank_ite, ↓fst_ite, ite_self, implies_true]

theorem State.onSys_blank (h0 : bl .sys = true) (s : State) (g : SysState → SysState) : State.blank bl (State.onSys s g) = State.blank bl s := by
  unfold State.onSys
  repeat' first
    | with_reducible rfl
    | (simp only [h0, ↓State.putSys_blank, ↓blank_ite, ↓fst_ite, ite_self, implies_true]; done)
    | split
    | simp only [h0, ↓State.putSys_blank, ↓blank_ite, ↓fst_ite, ite_self, implies_true]

theorem State.logUpd_blank (h0 : bl .tb = true) (s : State) (idx : Nat) (code : Nat) (fields : List (Nat × Nat × Nat)) : State.blank bl (State.logUpd s idx code fields) = State.blank bl s := by
  unfold State.logUpd
  repeat' first
    | with_reducible rfl
    | (simp only [h0, ↓State.log_blank, ↓blank_ite, ↓fst_ite, ite_self, implies_true]; done)
    | split
    | simp only [h0, ↓State.log_blank, ↓blank_ite, ↓fst_ite, ite_self, implies_true]

theorem State.onNvs_blank (h0 : bl .nvs = true) (s : State) (g : Nvs → Nvs) : State.blank bl (State.onNvs s g) = State.blank bl s := by
  unfold State.onNvs
  repeat' first
    | with_reducible rfl
    | (simp only [h0, ↓State.putNvs_blank, ↓blank_ite, ↓fst_ite, ite_self, implies_true]; done)
    | split
    | simp only [h0, ↓State.putNvs_blank, ↓blank_ite, ↓fst_ite, ite_self, implies_true]

theorem State.writeFields_blank (h0 : bl .regs = true) (s : State) (a : Nat) (v : Nat) : State.blank bl (State.writeFields s a v).1 = State.blank bl s := by
  unfold State.writeFields
  repeat' first
    | with_reducible rfl
    | (simp only [h0, ↓State.setReg_blank, ↓State.refuseSt_blank, ↓blank_ite, ↓fst_ite, ite_self, implies_true]; done)
    | split
    | simp only [h0, ↓State.setReg_blank, ↓State.refuseSt_blank, ↓blank_ite, ↓fst_ite, ite_self, implies_true]

theorem State.glbErrWrite_blank (h0 : bl .regs = true) (s : State) (v : Nat) : State.blank bl (State.glbErrWrite s v) = State.blank bl s := by
  unfold State.glbErrWrite
  repeat' first
    | with_reducible rfl
    | (simp only [h0, ↓State.writeFields_blank, ↓State.setFld_blank, ↓blank_ite, ↓fst_ite, ite_self, implies_true]; done)
    | split
    | simp only [h0, ↓State.writeFields_blank, ↓State.setFld_blank, ↓blank_ite, ↓fst_ite, ite_self, implies_true]

theorem State.segWrite_blank (h0 : bl .regs = true) (h1 : bl .hearth = true) (s : State) (i : Nat) (o : Nat) (v : Nat) : State.blank bl (State.segWrite s i o v).1 = State.blank bl s := by
  unfold State.segWrite
  repeat' first
    | with_reducible rfl
    | (simp only [h0, h1, ↓State.onSeg_blank, ↓State.refuseSt_blank, ↓blank_ite, ↓fst_ite, ite_self, implies_true]; done)
    | split
    | simp only [h0, h1, ↓State.onSeg_blank, ↓State.refuseSt_blank, ↓blank_ite, ↓fst_ite, ite_self, implies_true]

theorem State.writeStored_blank (h0 : bl .regs = true) (h1 : bl .hearth = true) (s : State) (a : Nat) (seg : Nat) (v : Nat) : State.blank bl (State.writeStored s a seg v).1 = State.blank bl s := by
  unfold State.writeStored
  repeat' first
    | with_reducible rfl
    | (simp only [h0, h1, ↓State.glbErrWrite_blank, ↓State.segWrite_blank, ↓State.writeFields_blank, ↓blank_ite, ↓fst_ite, ite_self, implies_true]; done)
    | split
    | simp only [h0, h1, ↓State.glbErrWrite_blank, ↓State.segWrite_blank, ↓State.writeFields_blank, ↓blank_ite, ↓fst_ite, ite_self, implies_true]

theorem State.writeMirrored_blank (h0 : bl .out = true) (h1 : bl .regs = true) (h2 : bl .hearth = true) (h3 : bl .pair = true) (s : State) (a : Nat) (v : Nat) : State.blank bl (State.writeMirrored s a v).1 = State.blank bl s := by
  unfold State.writeMirrored
  repeat' first
    | with_reducible rfl
    | (simp only [h0, h1, h2, h3, ↓State.setBit_blank, ↓State.writeStored_blank, ↓State.tellReg_blank, ↓blank_ite, ↓fst_ite, ite_self, implies_true]; done)
    | split
    | simp only [h0, h1, h2, h3, ↓State.setBit_blank, ↓State.writeStored_blank, ↓State.tellReg_blank, ↓blank_ite, ↓fst_ite, ite_self, implies_true]

theorem State.restoreReg_blank (h0 : bl .regs = true) (s : State) (x : Settings) (a : Nat) : State.blank bl (State.restoreReg s x a) = State.blank bl s := by
  unfold State.restoreReg
  repeat' first
    | with_reducible rfl
    | (simp only [h0, ↓State.setReg_blank, ↓blank_ite, ↓fst_ite, ite_self, implies_true]; done)
    | split
    | simp only [h0, ↓State.setReg_blank, ↓blank_ite, ↓fst_ite, ite_self, implies_true]

theorem State.recallTable_blank (h0 : bl .regs = true) (h1 : bl .tdc = true) (s : State) (x : Settings) (i : Nat) : State.blank bl (State.recallTable s x i) = State.blank bl s := by
  unfold State.recallTable
  repeat' first
    | with_reducible rfl
    | (simp only [h0, h1, ↓State.onTdc_blank, ↓State.onInput_blank, ↓State.setBit_blank, ↓blank_ite, ↓fst_ite, ite_self, implies_true]; done)
    | split
    | simp only [h0, h1, ↓State.onTdc_blank, ↓State.onInput_blank, ↓State.setBit_blank, ↓blank_ite, ↓fst_ite, ite_self, implies_true]

theorem State.runEffect_blank (h0 : bl .out = true) (h1 : bl .regs = true) (h2 : bl .tb = true) (h3 : bl .rx = true) (h4 : bl .tiles = true) (h5 : bl .cmd = true) (h6 : bl .mirLanes = true) (h7 : bl .queues = true) (h8 : bl .bellows = true) (h9 : bl .tdc = true) (h10 : bl .bgs = true) (h11 : bl .field = true) (h12 : bl .hearth = true) (h13 : bl .trig = true) (h14 : bl .comps = true) (h15 : bl .pair = true) (h16 : bl .host = true) (h17 : bl .ptp = true) (s : State) (a1 : Fn) : State.blank bl (State.runEffect s a1) = State.blank bl s := by
  unfold State.runEffect
  repeat' first
    | with_reducible rfl
    | (simp only [h0, h1, h2, h3, h4, h5, h6, h7, h8, h9, h10, h11, h12, h13, h14, h15, h16, h17, ↓State.lnkEnter_blank, ↓State.ingStart_blank, ↓State.hrtStart_blank, ↓State.trgStart_blank, ↓State.cmpStart_blank, ↓State.tdcStart_blank, ↓State.ptpStart_blank, ↓State.auxStart_blank, ↓State.aouStart_blank, ↓State.pairStart_blank, ↓State.hstStart_blank, ↓blank_ite, ↓fst_ite, ite_self, implies_true]; done)
    | split
    | simp only [h0, h1, h2, h3, h4, h5, h6, h7, h8, h9, h10, h11, h12, h13, h14, h15, h16, h17, ↓State.lnkEnter_blank, ↓State.ingStart_blank, ↓State.hrtStart_blank, ↓State.trgStart_blank, ↓State.cmpStart_blank, ↓State.tdcStart_blank, ↓State.ptpStart_blank, ↓State.auxStart_blank, ↓State.aouStart_blank, ↓State.pairStart_blank, ↓State.hstStart_blank, ↓blank_ite, ↓fst_ite, ite_self, implies_true]

theorem startingComplete_blank (h0 : bl .out = true) (h1 : bl .fns = true) (h2 : bl .regs = true) (h3 : bl .tb = true) (h4 : bl .rx = true) (h5 : bl .tiles = true) (h6 : bl .cmd = true) (h7 : bl .mirLanes = true) (h8 : bl .queues = true) (h9 : bl .bellows = true) (h10 : bl .engines = true) (h11 : bl .tdc = true) (h12 : bl .bgs = true) (h13 : bl .field = true) (h14 : bl .hearth = true) (h15 : bl .trig = true) (h16 : bl .comps = true) (h17 : bl .pair = true) (h18 : bl .host = true) (h19 : bl .ptp = true) (f : Fn) (s : State) : State.blank bl (startingComplete f s) = State.blank bl s := by
  unfold startingComplete
  repeat' first
    | with_reducible rfl
    | (simp only [h0, h1, h2, h3, h4, h5, h6, h7, h8, h9, h10, h11, h12, h13, h14, h15, h16, h17, h18, h19, ↓State.faultOut_blank, State.each_blank, ↓State.onEngine_blank, ↓State.ranEffect_blank, ↓State.setFn_blank, ↓State.runEffect_blank, ↓blank_ite, ↓fst_ite, ite_self, implies_true]; done)
    | split
    | simp only [h0, h1, h2, h3, h4, h5, h6, h7, h8, h9, h10, h11, h12, h13, h14, h15, h16, h17, h18, h19, ↓State.faultOut_blank, State.each_blank, ↓State.onEngine_blank, ↓State.ranEffect_blank, ↓State.setFn_blank, ↓State.runEffect_blank, ↓blank_ite, ↓fst_ite, ite_self, implies_true]
    | refine (State.each_blank _ _ _ ?_).trans ?_
    | intro _

theorem State.ownServe_blank (h0 : bl .out = true) (h1 : bl .regs = true) (h2 : bl .tb = true) (h3 : bl .tdc = true) (h4 : bl .field = true) (h5 : bl .hearth = true) (h6 : bl .mem = true) (h7 : bl .trig = true) (h8 : bl .pair = true) (h9 : bl .host = true) (s : State) : State.blank bl (State.ownServe s) = State.blank bl s := by
  unfold State.ownServe
  repeat' first
    | with_reducible rfl
    | (simp only [h0, h1, h2, h3, h4, h5, h6, h7, h8, h9, ↓State.onPair_blank, ↓State.onTrig_blank, State.each_blank, ↓State.applyDecision_blank, ↓blank_ite, ↓fst_ite, ite_self, implies_true]; done)
    | split
    | simp only [h0, h1, h2, h3, h4, h5, h6, h7, h8, h9, ↓State.onPair_blank, ↓State.onTrig_blank, State.each_blank, ↓State.applyDecision_blank, ↓blank_ite, ↓fst_ite, ite_self, implies_true]
    | refine (State.each_blank _ _ _ ?_).trans ?_
    | intro _

theorem tongsTakeHold_blank (h0 : bl .out = true) (h1 : bl .regs = true) (h2 : bl .tb = true) (h3 : bl .tdc = true) (h4 : bl .field = true) (h5 : bl .hearth = true) (h6 : bl .mem = true) (h7 : bl .trig = true) (h8 : bl .pair = true) (h9 : bl .host = true) (s : State) : State.blank bl (tongsTakeHold s) = State.blank bl s := by
  unfold tongsTakeHold
  repeat' first
    | with_reducible rfl
    | (simp only [h0, h1, h2, h3, h4, h5, h6, h7, h8, h9, ↓State.count_blank, ↓State.setBit_blank, ↓State.setRole_blank, ↓State.leaveFollow_blank, ↓State.onPair_blank, ↓State.ownServe_blank, ↓State.logDev_blank, ↓blank_ite, ↓fst_ite, ite_self, implies_true]; done)
    | split
    | simp only [h0, h1, h2, h3, h4, h5, h6, h7, h8, h9, ↓State.count_blank, ↓State.setBit_blank, ↓State.setRole_blank, ↓State.leaveFollow_blank, ↓State.onPair_blank, ↓State.ownServe_blank, ↓State.logDev_blank, ↓blank_ite, ↓fst_ite, ite_self, implies_true]

theorem roleSwapDue_blank (h0 : bl .out = true) (h1 : bl .pair = true) (h : Nat) (_n : Nat) (s : State) : State.blank bl (roleSwapDue h _n s) = State.blank bl s := by
  unfold roleSwapDue
  repeat' first
    | with_reducible rfl
    | (simp only [h0, h1, ↓State.planHandover_blank, ↓State.onPair_blank, ↓blank_ite, ↓fst_ite, ite_self, implies_true]; done)
    | split
    | simp only [h0, h1, ↓State.planHandover_blank, ↓State.onPair_blank, ↓blank_ite, ↓fst_ite, ite_self, implies_true]

theorem timeTx_blank (h0 : bl .out = true) (h1 : bl .pair = true) (s : State) : State.blank bl (timeTx s) = State.blank bl s := by
  unfold timeTx
  repeat' first
    | with_reducible rfl
    | (simp only [h0, h1, State.each_blank, ↓State.mirrorSend_blank, ↓State.onPair_blank, ↓blank_ite, ↓fst_ite, ite_self, implies_true]; done)
    | split
    | simp only [h0, h1, State.each_blank, ↓State.mirrorSend_blank, ↓State.onPair_blank, ↓blank_ite, ↓fst_ite, ite_self, implies_true]
    | refine (State.each_blank _ _ _ ?_).trans ?_
    | intro _

theorem State.jobTake_blank (h0 : bl .jobs = true) (s : State) (op : Nat) (b : List Byte) (t : State) (hx : (State.jobTake s op) = some (b, t)) :
    State.blank bl t = State.blank bl s := by
  unfold State.jobTake at hx
  repeat' first
    | (simp only [reduceCtorEq] at hx; done)
    | (simp only [Option.some.injEq, Prod.mk.injEq] at hx; obtain ⟨_, hx⟩ := hx; subst hx)
    | (simp only [Option.some.injEq] at hx; subst hx)
    | (simp only [h0, ↓State.onJobs_blank, ↓blank_ite, ↓fst_ite, ite_self, implies_true]; done)
    | with_reducible rfl
    | split at hx
    | dsimp only at hx

theorem State.jobResult_blank (h0 : bl .jobs = true) (s : State) (r : JobRun) : State.blank bl (State.jobResult s r) = State.blank bl s := by
  unfold State.jobResult
  repeat' first
    | with_reducible rfl
    | (simp only [h0, ↓State.onJobs_blank, ↓blank_ite, ↓fst_ite, ite_self, implies_true]; done)
    | split
    | simp only [h0, ↓State.onJobs_blank, ↓blank_ite, ↓fst_ite, ite_self, implies_true]

theorem State.jobNote_blank (h0 : bl .regs = true) (h1 : bl .hearth = true) (h2 : bl .mem = true) (s : State) (d : List Byte) (e : MemErrs) : State.blank bl (State.jobNote s d e) = State.blank bl s := by
  unfold State.jobNote
  repeat' first
    | with_reducible rfl
    | (simp only [h0, h1, h2, ↓State.noteErrs_blank, ↓blank_ite, ↓fst_ite, ite_self, implies_true]; done)
    | split
    | simp only [h0, h1, h2, ↓State.noteErrs_blank, ↓blank_ite, ↓fst_ite, ite_self, implies_true]

theorem check_blank (h0 : bl .regs = true) (h1 : bl .hearth = true) (h2 : bl .mem = true) (h3 : bl .jobs = true) (e : MemErrs) (s : State) : State.blank bl (check e s) = State.blank bl s := by
  unfold check
  repeat' first
    | with_reducible rfl
    | (simp only [h0, h1, h2, h3, ↓State.jobResult_blank, ↓State.jobNote_blank, ↓State.count_blank, ↓blank_ite, ↓fst_ite, ite_self, implies_true]; done)
    | split
    | simp only [h0, h1, h2, h3, ↓State.jobResult_blank, ↓State.jobNote_blank, ↓State.count_blank, ↓blank_ite, ↓fst_ite, ite_self, implies_true]
    | refine (State.jobTake_blank (by assumption) _ _ _ _ (by assumption)).trans ?_

theorem State.mirrorIn_blank (h0 : bl .out = true) (h1 : bl .freeUse = true) (h2 : bl .fns = true) (h3 : bl .regs = true) (h4 : bl .tb = true) (h5 : bl .rx = true) (h6 : bl .tiles = true) (h7 : bl .mirLanes = true) (h8 : bl .order = true) (h9 : bl .queues = true) (h10 : bl .bellows = true) (h11 : bl .engines = true) (h12 : bl .cores = true) (h13 : bl .tdc = true) (h14 : bl .bgs = true) (h15 : bl .field = true) (h16 : bl .hearth = true) (h17 : bl .mem = true) (h18 : bl .trig = true) (h19 : bl .staging = true) (h20 : bl .comps = true) (h21 : bl .jobs = true) (h22 : bl .pair = true) (h23 : bl .host = true) (h24 : bl .ptp = true) (h25 : bl .kept = true) (h26 : bl .keptBad = true) (s : State) (q : Nat) (m : MirMsg) : State.blank bl (State.mirrorIn s q m) = State.blank bl s := by
  unfold State.mirrorIn
  repeat' first
    | with_reducible rfl
    | (simp only [h0, h1, h2, h3, h4, h5, h6, h7, h8, h9, h10, h11, h12, h13, h14, h15, h16, h17, h18, h19, h20, h21, h22, h23, h24, h25, h26, ↓State.count_blank, ↓State.mirDrain_blank, ↓State.mirPass_blank, ↓State.onPair_blank, ↓blank_ite, ↓fst_ite, ite_self, implies_true]; done)
    | split
    | simp only [h0, h1, h2, h3, h4, h5, h6, h7, h8, h9, h10, h11, h12, h13, h14, h15, h16, h17, h18, h19, h20, h21, h22, h23, h24, h25, h26, ↓State.count_blank, ↓State.mirDrain_blank, ↓State.mirPass_blank, ↓State.onPair_blank, ↓blank_ite, ↓fst_ite, ite_self, implies_true]

theorem recordRx_blank (h0 : bl .out = true) (h1 : bl .freeUse = true) (h2 : bl .fns = true) (h3 : bl .regs = true) (h4 : bl .tb = true) (h5 : bl .rx = true) (h6 : bl .tiles = true) (h7 : bl .mirLanes = true) (h8 : bl .order = true) (h9 : bl .queues = true) (h10 : bl .bellows = true) (h11 : bl .engines = true) (h12 : bl .cores = true) (h13 : bl .tdc = true) (h14 : bl .bgs = true) (h15 : bl .field = true) (h16 : bl .hearth = true) (h17 : bl .mem = true) (h18 : bl .trig = true) (h19 : bl .staging = true) (h20 : bl .comps = true) (h21 : bl .jobs = true) (h22 : bl .pair = true) (h23 : bl .host = true) (h24 : bl .ptp = true) (h25 : bl .kept = true) (h26 : bl .keptBad = true) (q : Nat) (m : RecordMsg) (meas : List (Nat × Nat)) (s : State) : State.blank bl (recordRx q m meas s) = State.blank bl s := by
  unfold recordRx
  repeat' first
    | with_reducible rfl
    | (simp only [h0, h1, h2, h3, h4, h5, h6, h7, h8, h9, h10, h11, h12, h13, h14, h15, h16, h17, h18, h19, h20, h21, h22, h23, h24, h25, h26, ↓State.mirrorIn_blank, ↓blank_ite, ↓fst_ite, ite_self, implies_true]; done)
    | split
    | simp only [h0, h1, h2, h3, h4, h5, h6, h7, h8, h9, h10, h11, h12, h13, h14, h15, h16, h17, h18, h19, h20, h21, h22, h23, h24, h25, h26, ↓State.mirrorIn_blank, ↓blank_ite, ↓fst_ite, ite_self, implies_true]

theorem wearPageMove_blank (h0 : bl .bgs = true) (h1 : bl .nvs = true) (page : Nat) (target : Nat) (s : State) : State.blank bl (wearPageMove page target s) = State.blank bl s := by
  unfold wearPageMove
  repeat' first
    | with_reducible rfl
    | (simp only [h0, h1, ↓State.onNvs_blank, ↓State.ranAt_blank, ↓blank_ite, ↓fst_ite, ite_self, implies_true]; done)
    | split
    | simp only [h0, h1, ↓State.onNvs_blank, ↓State.ranAt_blank, ↓blank_ite, ↓fst_ite, ite_self, implies_true]

theorem d2dLinkUp_blank (h0 : bl .regs = true) (s : State) : State.blank bl (d2dLinkUp s) = State.blank bl s := by
  unfold d2dLinkUp
  repeat' first
    | with_reducible rfl
    | (simp only [h0, ↓State.setLink_blank, ↓blank_ite, ↓fst_ite, ite_self, implies_true]; done)
    | split
    | simp only [h0, ↓State.setLink_blank, ↓blank_ite, ↓fst_ite, ite_self, implies_true]

theorem heartbeatRx_blank (h0 : bl .out = true) (h1 : bl .freeUse = true) (h2 : bl .fns = true) (h3 : bl .regs = true) (h4 : bl .tb = true) (h5 : bl .rx = true) (h6 : bl .tiles = true) (h7 : bl .cmd = true) (h8 : bl .mirLanes = true) (h9 : bl .order = true) (h10 : bl .queues = true) (h11 : bl .bellows = true) (h12 : bl .engines = true) (h13 : bl .cores = true) (h14 : bl .tdc = true) (h15 : bl .bgs = true) (h16 : bl .field = true) (h17 : bl .hearth = true) (h18 : bl .mem = true) (h19 : bl .trig = true) (h20 : bl .staging = true) (h21 : bl .comps = true) (h22 : bl .jobs = true) (h23 : bl .pair = true) (h24 : bl .host = true) (h25 : bl .ptp = true) (h26 : bl .kept = true) (h27 : bl .keptBad = true) (m : Fin 8) (q : Nat) (h : Heartbeat) (s : State) : State.blank bl (heartbeatRx m q h s) = State.blank bl s := by
  unfold heartbeatRx
  repeat' first
    | with_reducible rfl
    | (simp only [h0, h1, h2, h3, h4, h5, h6, h7, h8, h9, h10, h11, h12, h13, h14, h15, h16, h17, h18, h19, h20, h21, h22, h23, h24, h25, h26, h27, ↓State.riseOrRun_blank, ↓laneOn_blank, ↓State.mirrorIn_blank, ↓blank_ite, ↓fst_ite, ite_self, implies_true]; done)
    | split
    | simp only [h0, h1, h2, h3, h4, h5, h6, h7, h8, h9, h10, h11, h12, h13, h14, h15, h16, h17, h18, h19, h20, h21, h22, h23, h24, h25, h26, h27, ↓State.riseOrRun_blank, ↓laneOn_blank, ↓State.mirrorIn_blank, ↓blank_ite, ↓fst_ite, ite_self, implies_true]

theorem timeRx_blank (h0 : bl .out = true) (h1 : bl .freeUse = true) (h2 : bl .fns = true) (h3 : bl .regs = true) (h4 : bl .tb = true) (h5 : bl .rx = true) (h6 : bl .tiles = true) (h7 : bl .mirLanes = true) (h8 : bl .order = true) (h9 : bl .queues = true) (h10 : bl .bellows = true) (h11 : bl .engines = true) (h12 : bl .cores = true) (h13 : bl .tdc = true) (h14 : bl .bgs = true) (h15 : bl .field = true) (h16 : bl .hearth = true) (h17 : bl .mem = true) (h18 : bl .trig = true) (h19 : bl .staging = true) (h20 : bl .comps = true) (h21 : bl .jobs = true) (h22 : bl .pair = true) (h23 : bl .host = true) (h24 : bl .ptp = true) (h25 : bl .kept = true) (h26 : bl .keptBad = true) (q : Nat) (dep : Nat) (back : Nat) (s : State) : State.blank bl (timeRx q dep back s) = State.blank bl s := by
  unfold timeRx
  repeat' first
    | with_reducible rfl
    | (simp only [h0, h1, h2, h3, h4, h5, h6, h7, h8, h9, h10, h11, h12, h13, h14, h15, h16, h17, h18, h19, h20, h21, h22, h23, h24, h25, h26, ↓State.mirrorIn_blank, ↓blank_ite, ↓fst_ite, ite_self, implies_true]; done)
    | split
    | simp only [h0, h1, h2, h3, h4, h5, h6, h7, h8, h9, h10, h11, h12, h13, h14, h15, h16, h17, h18, h19, h20, h21, h22, h23, h24, h25, h26, ↓State.mirrorIn_blank, ↓blank_ite, ↓fst_ite, ite_self, implies_true]

theorem takebackDue_blank (h0 : bl .out = true) (h1 : bl .pair = true) (s : State) : State.blank bl (takebackDue s) = State.blank bl s := by
  unfold takebackDue
  repeat' first
    | with_reducible rfl
    | (simp only [h0, h1, ↓State.mirrorSend_blank, ↓blank_ite, ↓fst_ite, ite_self, implies_true]; done)
    | split
    | simp only [h0, h1, ↓State.mirrorSend_blank, ↓blank_ite, ↓fst_ite, ite_self, implies_true]

theorem decompress_blank (h0 : bl .freeUse = true) (h1 : bl .regs = true) (h2 : bl .hearth = true) (h3 : bl .mem = true) (h4 : bl .jobs = true) (e : MemErrs) (s : State) : State.blank bl (decompress e s) = State.blank bl s := by
  unfold decompress
  repeat' first
    | with_reducible rfl
    | (simp only [h0, h1, h2, h3, h4, ↓State.jobResult_blank, ↓State.jobNote_blank, ↓State.count_blank, ↓State.scramble_blank, ↓blank_ite, ↓fst_ite, ite_self, implies_true]; done)
    | split
    | simp only [h0, h1, h2, h3, h4, ↓State.jobResult_blank, ↓State.jobNote_blank, ↓State.count_blank, ↓State.scramble_blank, ↓blank_ite, ↓fst_ite, ite_self, implies_true]
    | refine (State.jobTake_blank (by assumption) _ _ _ _ (by assumption)).trans ?_

theorem globalQuench_blank (h0 : bl .out = true) (h1 : bl .freeUse = true) (h2 : bl .fns = true) (h3 : bl .regs = true) (h4 : bl .tb = true) (h5 : bl .rx = true) (h6 : bl .tiles = true) (h7 : bl .mirLanes = true) (h8 : bl .order = true) (h9 : bl .queues = true) (h10 : bl .bellows = true) (h11 : bl .engines = true) (h12 : bl .tdc = true) (h13 : bl .bgs = true) (h14 : bl .field = true) (h15 : bl .hearth = true) (h16 : bl .mem = true) (h17 : bl .trig = true) (h18 : bl .staging = true) (h19 : bl .comps = true) (h20 : bl .jobs = true) (h21 : bl .pair = true) (h22 : bl .host = true) (h23 : bl .ptp = true) (s : State) : State.blank bl (globalQuench s) = State.blank bl s := by
  unfold globalQuench
  repeat' first
    | with_reducible rfl
    | (simp only [h0, h1, h2, h3, h4, h5, h6, h7, h8, h9, h10, h11, h12, h13, h14, h15, h16, h17, h18, h19, h20, h21, h22, h23, ↓State.quenchGlobal_blank, ↓blank_ite, ↓fst_ite, ite_self, implies_true]; done)
    | split
    | simp only [h0, h1, h2, h3, h4, h5, h6, h7, h8, h9, h10, h11, h12, h13, h14, h15, h16, h17, h18, h19, h20, h21, h22, h23, ↓State.quenchGlobal_blank, ↓blank_ite, ↓fst_ite, ite_self, implies_true]

theorem fncmd_blank (h0 : bl .out = true) (h1 : bl .freeUse = true) (h2 : bl .fns = true) (h3 : bl .regs = true) (h4 : bl .tb = true) (h5 : bl .rx = true) (h6 : bl .tiles = true) (h7 : bl .mirLanes = true) (h8 : bl .order = true) (h9 : bl .queues = true) (h10 : bl .bellows = true) (h11 : bl .engines = true) (h12 : bl .cores = true) (h13 : bl .tdc = true) (h14 : bl .bgs = true) (h15 : bl .field = true) (h16 : bl .hearth = true) (h17 : bl .mem = true) (h18 : bl .trig = true) (h19 : bl .staging = true) (h20 : bl .comps = true) (h21 : bl .jobs = true) (h22 : bl .pair = true) (h23 : bl .host = true) (h24 : bl .ptp = true) (src : Src) (s : State) : State.blank bl (fncmd src s) = State.blank bl s := by
  unfold fncmd
  repeat' first
    | with_reducible rfl
    | (simp only [h0, h1, h2, h3, h4, h5, h6, h7, h8, h9, h10, h11, h12, h13, h14, h15, h16, h17, h18, h19, h20, h21, h22, h23, h24, State.serve_blank, ↓State.fnCmdWrite_blank, ↓State.reply_blank, ↓blank_ite, ↓fst_ite, ite_self, implies_true]; done)
    | split
    | simp only [h0, h1, h2, h3, h4, h5, h6, h7, h8, h9, h10, h11, h12, h13, h14, h15, h16, h17, h18, h19, h20, h21, h22, h23, h24, State.serve_blank, ↓State.fnCmdWrite_blank, ↓State.reply_blank, ↓blank_ite, ↓fst_ite, ite_self, implies_true]
    | refine (State.serve_blank _ _ _ _ ?_).trans ?_
    | intro _

theorem heartbeatTimeout_blank (h0 : bl .out = true) (h1 : bl .regs = true) (h2 : bl .tb = true) (h3 : bl .tdc = true) (h4 : bl .field = true) (h5 : bl .hearth = true) (h6 : bl .mem = true) (h7 : bl .trig = true) (h8 : bl .pair = true) (h9 : bl .host = true) (s : State) : State.blank bl (heartbeatTimeout s) = State.blank bl s := by
  unfold heartbeatTimeout
  repeat' first
    | with_reducible rfl
    | (simp only [h0, h1, h2, h3, h4, h5, h6, h7, h8, h9, ↓State.count_blank, ↓State.setRole_blank, ↓State.leaveFollow_blank, ↓State.onPair_blank, ↓State.logDev_blank, ↓State.ownServe_blank, ↓blank_ite, ↓fst_ite, ite_self, implies_true]; done)
    | split
    | simp only [h0, h1, h2, h3, h4, h5, h6, h7, h8, h9, ↓State.count_blank, ↓State.setRole_blank, ↓State.leaveFollow_blank, ↓State.onPair_blank, ↓State.logDev_blank, ↓State.ownServe_blank, ↓blank_ite, ↓fst_ite, ite_self, implies_true]

theorem cmpStopTimeout_blank (h0 : bl .out = true) (h1 : bl .regs = true) (h2 : bl .tb = true) (h3 : bl .order = true) (h4 : bl .hearth = true) (h5 : bl .mem = true) (h6 : bl .trig = true) (h7 : bl .staging = true) (h8 : bl .comps = true) (h9 : bl .pair = true) (h10 : bl .host = true) (s : State) : State.blank bl (cmpStopTimeout s) = State.blank bl s := by
  unfold cmpStopTimeout
  repeat' first
    | with_reducible rfl
    | (simp only [h0, h1, h2, h3, h4, h5, h6, h7, h8, h9, h10, ↓State.cmpDiscard_blank, ↓blank_ite, ↓fst_ite, ite_self, implies_true]; done)
    | split
    | simp only [h0, h1, h2, h3, h4, h5, h6, h7, h8, h9, h10, ↓State.cmpDiscard_blank, ↓blank_ite, ↓fst_ite, ite_self, implies_true]

theorem fieldDieReinitDone_blank (h0 : bl .fns = true) (h1 : bl .regs = true) (h2 : bl .bgs = true) (h3 : bl .field = true) (s : State) : State.blank bl (fieldDieReinitDone s) = State.blank bl s := by
  unfold fieldDieReinitDone
  repeat' first
    | with_reducible rfl
    | (simp only [h0, h1, h2, h3, ↓State.restoreReg_blank, ↓State.domUp_blank, ↓State.setFn_blank, ↓State.aouStop_blank, ↓blank_ite, ↓fst_ite, ite_self, implies_true]; done)
    | split
    | simp only [h0, h1, h2, h3, ↓State.restoreReg_blank, ↓State.domUp_blank, ↓State.setFn_blank, ↓State.aouStop_blank, ↓blank_ite, ↓fst_ite, ite_self, implies_true]

theorem decisionRx_blank (h0 : bl .out = true) (h1 : bl .freeUse = true) (h2 : bl .fns = true) (h3 : bl .regs = true) (h4 : bl .tb = true) (h5 : bl .rx = true) (h6 : bl .tiles = true) (h7 : bl .mirLanes = true) (h8 : bl .order = true) (h9 : bl .queues = true) (h10 : bl .bellows = true) (h11 : bl .engines = true) (h12 : bl .cores = true) (h13 : bl .tdc = true) (h14 : bl .bgs = true) (h15 : bl .field = true) (h16 : bl .hearth = true) (h17 : bl .mem = true) (h18 : bl .trig = true) (h19 : bl .staging = true) (h20 : bl .comps = true) (h21 : bl .jobs = true) (h22 : bl .pair = true) (h23 : bl .host = true) (h24 : bl .ptp = true) (h25 : bl .kept = true) (h26 : bl .keptBad = true) (q : Nat) (d : Option Decision) (k : Option Nat) (s : State) : State.blank bl (decisionRx q d k s) = State.blank bl s := by
  unfold decisionRx
  repeat' first
    | with_reducible rfl
    | (simp only [h0, h1, h2, h3, h4, h5, h6, h7, h8, h9, h10, h11, h12, h13, h14, h15, h16, h17, h18, h19, h20, h21, h22, h23, h24, h25, h26, ↓State.mirrorIn_blank, ↓blank_ite, ↓fst_ite, ite_self, implies_true]; done)
    | split
    | simp only [h0, h1, h2, h3, h4, h5, h6, h7, h8, h9, h10, h11, h12, h13, h14, h15, h16, h17, h18, h19, h20, h21, h22, h23, h24, h25, h26, ↓State.mirrorIn_blank, ↓blank_ite, ↓fst_ite, ite_self, implies_true]

theorem State.stoppedEffect_blank (h0 : bl .out = true) (h1 : bl .regs = true) (h2 : bl .tb = true) (h3 : bl .rx = true) (h4 : bl .mirLanes = true) (h5 : bl .order = true) (h6 : bl .queues = true) (h7 : bl .bellows = true) (h8 : bl .tdc = true) (h9 : bl .bgs = true) (h10 : bl .field = true) (h11 : bl .hearth = true) (h12 : bl .mem = true) (h13 : bl .trig = true) (h14 : bl .pair = true) (h15 : bl .host = true) (s : State) (a1 : Fn) : State.blank bl (State.stoppedEffect s a1) = State.blank bl s := by
  unfold State.stoppedEffect
  repeat' first
    | with_reducible rfl
    | (simp only [h0, h1, h2, h3, h4, h5, h6, h7, h8, h9, h10, h11, h12, h13, h14, h15, ↓State.lnkOff_blank, ↓State.hrtStopped_blank, ↓State.trgStopped_blank, ↓State.auxStopped_blank, ↓State.pairStopped_blank, ↓blank_ite, ↓fst_ite, ite_self, implies_true]; done)
    | split
    | simp only [h0, h1, h2, h3, h4, h5, h6, h7, h8, h9, h10, h11, h12, h13, h14, h15, ↓State.lnkOff_blank, ↓State.hrtStopped_blank, ↓State.trgStopped_blank, ↓State.auxStopped_blank, ↓State.pairStopped_blank, ↓blank_ite, ↓fst_ite, ite_self, implies_true]

theorem stoppingComplete_blank (h0 : bl .out = true) (h1 : bl .fns = true) (h2 : bl .regs = true) (h3 : bl .tb = true) (h4 : bl .rx = true) (h5 : bl .mirLanes = true) (h6 : bl .order = true) (h7 : bl .queues = true) (h8 : bl .bellows = true) (h9 : bl .engines = true) (h10 : bl .tdc = true) (h11 : bl .bgs = true) (h12 : bl .field = true) (h13 : bl .hearth = true) (h14 : bl .mem = true) (h15 : bl .trig = true) (h16 : bl .comps = true) (h17 : bl .pair = true) (h18 : bl .host = true) (f : Fn) (s : State) : State.blank bl (stoppingComplete f s) = State.blank bl s := by
  unfold stoppingComplete
  repeat' first
    | with_reducible rfl
    | (simp only [h0, h1, h2, h3, h4, h5, h6, h7, h8, h9, h10, h11, h12, h13, h14, h15, h16, h17, h18, ↓State.domainsOff_blank, ↓State.setFn_blank, ↓State.stoppedEffect_blank, ↓blank_ite, ↓fst_ite, ite_self, implies_true]; done)
    | split
    | simp only [h0, h1, h2, h3, h4, h5, h6, h7, h8, h9, h10, h11, h12, h13, h14, h15, h16, h17, h18, ↓State.domainsOff_blank, ↓State.setFn_blank, ↓State.stoppedEffect_blank, ↓blank_ite, ↓fst_ite, ite_self, implies_true]

theorem State.recallSegment_blank (h0 : bl .regs = true) (h1 : bl .hearth = true) (s : State) (x : Settings) (i : Nat) : State.blank bl (State.recallSegment s x i) = State.blank bl s := by
  unfold State.recallSegment
  repeat' first
    | with_reducible rfl
    | (simp only [h0, h1, ↓State.refuseSt_blank, ↓State.onSeg_blank, ↓blank_ite, ↓fst_ite, ite_self, implies_true]; done)
    | split
    | simp only [h0, h1, ↓State.refuseSt_blank, ↓State.onSeg_blank, ↓blank_ite, ↓fst_ite, ite_self, implies_true]

theorem State.recallGroup_blank (h0 : bl .out = true) (h1 : bl .regs = true) (h2 : bl .tdc = true) (h3 : bl .hearth = true) (h4 : bl .pair = true) (s : State) (x : Settings) (g : Nat) : State.blank bl (State.recallGroup s x g) = State.blank bl s := by
  unfold State.recallGroup
  repeat' first
    | with_reducible rfl
    | (simp only [h0, h1, h2, h3, h4, State.each_blank, ↓State.tellReg_blank, ↓State.restoreReg_blank, ↓State.sendSegRegs_blank, ↓State.recallSegment_blank, ↓State.recallTable_blank, ↓blank_ite, ↓fst_ite, ite_self, implies_true]; done)
    | split
    | simp only [h0, h1, h2, h3, h4, State.each_blank, ↓State.tellReg_blank, ↓State.restoreReg_blank, ↓State.sendSegRegs_blank, ↓State.recallSegment_blank, ↓State.recallTable_blank, ↓blank_ite, ↓fst_ite, ite_self, implies_true]
    | refine (State.each_blank _ _ _ ?_).trans ?_
    | intro _

theorem quenchRx_blank (h0 : bl .out = true) (h1 : bl .freeUse = true) (h2 : bl .fns = true) (h3 : bl .regs = true) (h4 : bl .tb = true) (h5 : bl .rx = true) (h6 : bl .tiles = true) (h7 : bl .mirLanes = true) (h8 : bl .order = true) (h9 : bl .queues = true) (h10 : bl .bellows = true) (h11 : bl .engines = true) (h12 : bl .cores = true) (h13 : bl .tdc = true) (h14 : bl .bgs = true) (h15 : bl .field = true) (h16 : bl .hearth = true) (h17 : bl .mem = true) (h18 : bl .trig = true) (h19 : bl .staging = true) (h20 : bl .comps = true) (h21 : bl .jobs = true) (h22 : bl .pair = true) (h23 : bl .host = true) (h24 : bl .ptp = true) (h25 : bl .kept = true) (h26 : bl .keptBad = true) (q : Nat) (t : Nat) (s : State) : State.blank bl (quenchRx q t s) = State.blank bl s := by
  unfold quenchRx
  repeat' first
    | with_reducible rfl
    | (simp only [h0, h1, h2, h3, h4, h5, h6, h7, h8, h9, h10, h11, h12, h13, h14, h15, h16, h17, h18, h19, h20, h21, h22, h23, h24, h25, h26, ↓State.mirrorIn_blank, ↓blank_ite, ↓fst_ite, ite_self, implies_true]; done)
    | split
    | simp only [h0, h1, h2, h3, h4, h5, h6, h7, h8, h9, h10, h11, h12, h13, h14, h15, h16, h17, h18, h19, h20, h21, h22, h23, h24, h25, h26, ↓State.mirrorIn_blank, ↓blank_ite, ↓fst_ite, ite_self, implies_true]

theorem jobDone_blank (h0 : bl .out = true) (h1 : bl .regs = true) (h2 : bl .hearth = true) (h3 : bl .mem = true) (h4 : bl .jobs = true) (h5 : bl .host = true) (s : State) : State.blank bl (jobDone s) = State.blank bl s := by
  unfold jobDone
  repeat' first
    | with_reducible rfl
    | (simp only [h0, h1, h2, h3, h4, h5, ↓State.onJobs_blank, ↓State.jobEnd_blank, ↓State.hostWrite_blank, ↓blank_ite, ↓fst_ite, ite_self, implies_true]; done)
    | split
    | simp only [h0, h1, h2, h3, h4, h5, ↓State.onJobs_blank, ↓State.jobEnd_blank, ↓State.hostWrite_blank, ↓blank_ite, ↓fst_ite, ite_self, implies_true]

theorem State.uncompared_blank (h0 : bl .regs = true) (h1 : bl .tb = true) (s : State) (a : Nat) (b : Nat) : State.blank bl (State.uncompared s a b) = State.blank bl s := by
  unfold State.uncompared
  repeat' first
    | with_reducible rfl
    | (simp only [h0, h1, ↓State.logDev_blank, ↓State.count_blank, ↓blank_ite, ↓fst_ite, ite_self, implies_true]; done)
    | split
    | simp only [h0, h1, ↓State.logDev_blank, ↓State.count_blank, ↓blank_ite, ↓fst_ite, ite_self, implies_true]

theorem quench_blank (h0 : bl .out = true) (h1 : bl .freeUse = true) (h2 : bl .fns = true) (h3 : bl .regs = true) (h4 : bl .tb = true) (h5 : bl .rx = true) (h6 : bl .tiles = true) (h7 : bl .mirLanes = true) (h8 : bl .order = true) (h9 : bl .queues = true) (h10 : bl .bellows = true) (h11 : bl .engines = true) (h12 : bl .cores = true) (h13 : bl .tdc = true) (h14 : bl .bgs = true) (h15 : bl .field = true) (h16 : bl .hearth = true) (h17 : bl .mem = true) (h18 : bl .trig = true) (h19 : bl .staging = true) (h20 : bl .comps = true) (h21 : bl .jobs = true) (h22 : bl .pair = true) (h23 : bl .host = true) (h24 : bl .ptp = true) (f : Fn) (s : State) : State.blank bl (quench f s) = State.blank bl s := by
  unfold quench
  repeat' first
    | with_reducible rfl
    | (simp only [h0, h1, h2, h3, h4, h5, h6, h7, h8, h9, h10, h11, h12, h13, h14, h15, h16, h17, h18, h19, h20, h21, h22, h23, h24, ↓State.fnCommand_blank, ↓blank_ite, ↓fst_ite, ite_self, implies_true]; done)
    | split
    | simp only [h0, h1, h2, h3, h4, h5, h6, h7, h8, h9, h10, h11, h12, h13, h14, h15, h16, h17, h18, h19, h20, h21, h22, h23, h24, ↓State.fnCommand_blank, ↓blank_ite, ↓fst_ite, ite_self, implies_true]

theorem spaceRx_blank (h0 : bl .out = true) (h1 : bl .freeUse = true) (h2 : bl .fns = true) (h3 : bl .regs = true) (h4 : bl .tb = true) (h5 : bl .rx = true) (h6 : bl .tiles = true) (h7 : bl .mirLanes = true) (h8 : bl .order = true) (h9 : bl .queues = true) (h10 : bl .bellows = true) (h11 : bl .engines = true) (h12 : bl .cores = true) (h13 : bl .tdc = true) (h14 : bl .bgs = true) (h15 : bl .field = true) (h16 : bl .hearth = true) (h17 : bl .mem = true) (h18 : bl .trig = true) (h19 : bl .staging = true) (h20 : bl .comps = true) (h21 : bl .jobs = true) (h22 : bl .pair = true) (h23 : bl .host = true) (h24 : bl .ptp = true) (h25 : bl .kept = true) (h26 : bl .keptBad = true) (q : Nat) (n : Nat) (s : State) : State.blank bl (spaceRx q n s) = State.blank bl s := by
  unfold spaceRx
  repeat' first
    | with_reducible rfl
    | (simp only [h0, h1, h2, h3, h4, h5, h6, h7, h8, h9, h10, h11, h12, h13, h14, h15, h16, h17, h18, h19, h20, h21, h22, h23, h24, h25, h26, ↓State.mirrorIn_blank, ↓blank_ite, ↓fst_ite, ite_self, implies_true]; done)
    | split
    | simp only [h0, h1, h2, h3, h4, h5, h6, h7, h8, h9, h10, h11, h12, h13, h14, h15, h16, h17, h18, h19, h20, h21, h22, h23, h24, h25, h26, ↓State.mirrorIn_blank, ↓blank_ite, ↓fst_ite, ite_self, implies_true]

theorem heartbeatSilent_blank (h0 : bl .regs = true) (h1 : bl .tb = true) (h2 : bl .pair = true) (s : State) : State.blank bl (heartbeatSilent s) = State.blank bl s := by
  unfold heartbeatSilent
  repeat' first
    | with_reducible rfl
    | (simp only [h0, h1, h2, ↓State.dropTongs_blank, ↓blank_ite, ↓fst_ite, ite_self, implies_true]; done)
    | split
    | simp only [h0, h1, h2, ↓State.dropTongs_blank, ↓blank_ite, ↓fst_ite, ite_self, implies_true]

theorem recallSet_blank (h0 : bl .out = true) (h1 : bl .regs = true) (h2 : bl .cores = true) (h3 : bl .tdc = true) (h4 : bl .hearth = true) (h5 : bl .pair = true) (h6 : bl .host = true) (src : Src) (s : State) : State.blank bl (recallSet src s) = State.blank bl s := by
  unfold recallSet
  repeat' first
    | with_reducible rfl
    | (simp only [h0, h1, h2, h3, h4, h5, h6, State.serve_blank, ↓State.reply_blank, State.each_blank, ↓State.recallGroup_blank, ↓blank_ite, ↓fst_ite, ite_self, implies_true]; done)
    | split
    | simp only [h0, h1, h2, h3, h4, h5, h6, State.serve_blank, ↓State.reply_blank, State.each_blank, ↓State.recallGroup_blank, ↓blank_ite, ↓fst_ite, ite_self, implies_true]
    | refine (State.each_blank _ _ _ ?_).trans ?_
    | intro _
    | refine (State.serve_blank _ _ _ _ ?_).trans ?_
    | intro _

theorem swapRole_blank (h0 : bl .out = true) (h1 : bl .cores = true) (h2 : bl .pair = true) (h3 : bl .host = true) (src : Src) (h : Nat) (_n : Nat) (s : State) : State.blank bl (swapRole src h _n s) = State.blank bl s := by
  unfold swapRole
  repeat' first
    | with_reducible rfl
    | (simp only [h0, h1, h2, h3, State.serve_blank, ↓State.reply_blank, ↓State.planHandover_blank, ↓blank_ite, ↓fst_ite, ite_self, implies_true]; done)
    | split
    | simp only [h0, h1, h2, h3, State.serve_blank, ↓State.reply_blank, ↓State.planHandover_blank, ↓blank_ite, ↓fst_ite, ite_self, implies_true]
    | refine (State.serve_blank _ _ _ _ ?_).trans ?_
    | intro _

theorem State.followTime_blank (h0 : bl .freeUse = true) (h1 : bl .regs = true) (h2 : bl .tb = true) (s : State) : State.blank bl (State.followTime s) = State.blank bl s := by
  unfold State.followTime
  repeat' first
    | with_reducible rfl
    | (simp only [h0, h1, h2, ↓State.enterFollow_blank, ↓State.writeTime_blank, ↓blank_ite, ↓fst_ite, ite_self, implies_true]; done)
    | split
    | simp only [h0, h1, h2, ↓State.enterFollow_blank, ↓State.writeTime_blank, ↓blank_ite, ↓fst_ite, ite_self, implies_true]

theorem State.syncCheck_blank (h0 : bl .regs = true) (h1 : bl .pair = true) (s : State) : State.blank bl (State.syncCheck s) = State.blank bl s := by
  unfold State.syncCheck
  repeat' first
    | with_reducible rfl
    | (simp only [h0, h1, ↓State.onPair_blank, ↓State.setBit_blank, ↓blank_ite, ↓fst_ite, ite_self, implies_true]; done)
    | split
    | simp only [h0, h1, ↓State.onPair_blank, ↓State.setBit_blank, ↓blank_ite, ↓fst_ite, ite_self, implies_true]

theorem heartbeatTx_blank (h0 : bl .out = true) (h1 : bl .regs = true) (h2 : bl .pair = true) (s : State) : State.blank bl (heartbeatTx s) = State.blank bl s := by
  unfold heartbeatTx
  repeat' first
    | with_reducible rfl
    | (simp only [h0, h1, h2, ↓State.syncCheck_blank, ↓State.onPair_blank, ↓State.heartbeat_blank, ↓blank_ite, ↓fst_ite, ite_self, implies_true]; done)
    | split
    | simp only [h0, h1, h2, ↓State.syncCheck_blank, ↓State.onPair_blank, ↓State.heartbeat_blank, ↓blank_ite, ↓fst_ite, ite_self, implies_true]

theorem start_blank (h0 : bl .out = true) (h1 : bl .freeUse = true) (h2 : bl .fns = true) (h3 : bl .regs = true) (h4 : bl .tb = true) (h5 : bl .rx = true) (h6 : bl .tiles = true) (h7 : bl .mirLanes = true) (h8 : bl .order = true) (h9 : bl .queues = true) (h10 : bl .bellows = true) (h11 : bl .engines = true) (h12 : bl .cores = true) (h13 : bl .tdc = true) (h14 : bl .bgs = true) (h15 : bl .field = true) (h16 : bl .hearth = true) (h17 : bl .mem = true) (h18 : bl .trig = true) (h19 : bl .staging = true) (h20 : bl .comps = true) (h21 : bl .jobs = true) (h22 : bl .pair = true) (h23 : bl .host = true) (h24 : bl .ptp = true) (f : Fn) (s : State) : State.blank bl (start f s) = State.blank bl s := by
  unfold start
  repeat' first
    | with_reducible rfl
    | (simp only [h0, h1, h2, h3, h4, h5, h6, h7, h8, h9, h10, h11, h12, h13, h14, h15, h16, h17, h18, h19, h20, h21, h22, h23, h24, ↓State.fnCommand_blank, ↓blank_ite, ↓fst_ite, ite_self, implies_true]; done)
    | split
    | simp only [h0, h1, h2, h3, h4, h5, h6, h7, h8, h9, h10, h11, h12, h13, h14, h15, h16, h17, h18, h19, h20, h21, h22, h23, h24, ↓State.fnCommand_blank, ↓blank_ite, ↓fst_ite, ite_self, implies_true]

theorem mirrorMessageBad_blank (h0 : bl .out = true) (h1 : bl .freeUse = true) (h2 : bl .fns = true) (h3 : bl .regs = true) (h4 : bl .tb = true) (h5 : bl .rx = true) (h6 : bl .tiles = true) (h7 : bl .mirLanes = true) (h8 : bl .order = true) (h9 : bl .queues = true) (h10 : bl .bellows = true) (h11 : bl .engines = true) (h12 : bl .cores = true) (h13 : bl .tdc = true) (h14 : bl .bgs = true) (h15 : bl .field = true) (h16 : bl .hearth = true) (h17 : bl .mem = true) (h18 : bl .trig = true) (h19 : bl .staging = true) (h20 : bl .comps = true) (h21 : bl .jobs = true) (h22 : bl .pair = true) (h23 : bl .host = true) (h24 : bl .ptp = true) (h25 : bl .kept = true) (h26 : bl .keptBad = true) (q : Nat) (type : Nat) (s : State) : State.blank bl (mirrorMessageBad q type s) = State.blank bl s := by
  unfold mirrorMessageBad
  repeat' first
    | with_reducible rfl
    | (simp only [h0, h1, h2, h3, h4, h5, h6, h7, h8, h9, h10, h11, h12, h13, h14, h15, h16, h17, h18, h19, h20, h21, h22, h23, h24, h25, h26, ↓State.count_blank, ↓State.askResync_blank, ↓State.mirrorIn_blank, ↓blank_ite, ↓fst_ite, ite_self, implies_true]; done)
    | split
    | simp only [h0, h1, h2, h3, h4, h5, h6, h7, h8, h9, h10, h11, h12, h13, h14, h15, h16, h17, h18, h19, h20, h21, h22, h23, h24, h25, h26, ↓State.count_blank, ↓State.askResync_blank, ↓State.mirrorIn_blank, ↓blank_ite, ↓fst_ite, ite_self, implies_true]

theorem d2dLinkDown_blank (h0 : bl .fns = true) (h1 : bl .regs = true) (h2 : bl .tb = true) (h3 : bl .queues = true) (h4 : bl .bellows = true) (h5 : bl .engines = true) (h6 : bl .bgs = true) (h7 : bl .field = true) (h8 : bl .comps = true) (s : State) : State.blank bl (d2dLinkDown s) = State.blank bl s := by
  unfold d2dLinkDown
  repeat' first
    | with_reducible rfl
    | (simp only [h0, h1, h2, h3, h4, h5, h6, h7, h8, ↓State.fieldOff_blank, ↓State.setBit_blank, ↓State.setLink_blank, ↓blank_ite, ↓fst_ite, ite_self, implies_true]; done)
    | split
    | simp only [h0, h1, h2, h3, h4, h5, h6, h7, h8, ↓State.fieldOff_blank, ↓State.setBit_blank, ↓State.setLink_blank, ↓blank_ite, ↓fst_ite, ite_self, implies_true]

theorem forwardRx_blank (h0 : bl .out = true) (h1 : bl .freeUse = true) (h2 : bl .fns = true) (h3 : bl .regs = true) (h4 : bl .tb = true) (h5 : bl .rx = true) (h6 : bl .tiles = true) (h7 : bl .mirLanes = true) (h8 : bl .order = true) (h9 : bl .queues = true) (h10 : bl .bellows = true) (h11 : bl .engines = true) (h12 : bl .cores = true) (h13 : bl .tdc = true) (h14 : bl .bgs = true) (h15 : bl .field = true) (h16 : bl .hearth = true) (h17 : bl .mem = true) (h18 : bl .trig = true) (h19 : bl .staging = true) (h20 : bl .comps = true) (h21 : bl .jobs = true) (h22 : bl .pair = true) (h23 : bl .host = true) (h24 : bl .ptp = true) (h25 : bl .kept = true) (h26 : bl .keptBad = true) (q : Nat) (c : ForwardCmd) (s : State) : State.blank bl (forwardRx q c s) = State.blank bl s := by
  unfold forwardRx
  repeat' first
    | with_reducible rfl
    | (simp only [h0, h1, h2, h3, h4, h5, h6, h7, h8, h9, h10, h11, h12, h13, h14, h15, h16, h17, h18, h19, h20, h21, h22, h23, h24, h25, h26, ↓State.mirrorIn_blank, ↓blank_ite, ↓fst_ite, ite_self, implies_true]; done)
    | split
    | simp only [h0, h1, h2, h3, h4, h5, h6, h7, h8, h9, h10, h11, h12, h13, h14, h15, h16, h17, h18, h19, h20, h21, h22, h23, h24, h25, h26, ↓State.mirrorIn_blank, ↓blank_ite, ↓fst_ite, ite_self, implies_true]

theorem store_blank (h0 : bl .out = true) (h1 : bl .tb = true) (h2 : bl .cores = true) (h3 : bl .host = true) (h4 : bl .nvs = true) (h5 : bl .sys = true) (src : Src) (s : State) : State.blank bl (store src s) = State.blank bl s := by
  unfold store
  repeat' first
    | with_reducible rfl
    | (simp only [h0, h1, h2, h3, h4, h5, State.serve_blank, ↓State.reply_blank, ↓State.onSys_blank, ↓State.logUpd_blank, ↓State.onNvs_blank, ↓blank_ite, ↓fst_ite, ite_self, implies_true]; done)
    | split
    | simp only [h0, h1, h2, h3, h4, h5, State.serve_blank, ↓State.reply_blank, ↓State.onSys_blank, ↓State.logUpd_blank, ↓State.onNvs_blank, ↓blank_ite, ↓fst_ite, ite_self, implies_true]
    | refine (State.serve_blank _ _ _ _ ?_).trans ?_
    | intro _

theorem handoverRx_blank (h0 : bl .out = true) (h1 : bl .freeUse = true) (h2 : bl .fns = true) (h3 : bl .regs = true) (h4 : bl .tb = true) (h5 : bl .rx = true) (h6 : bl .tiles = true) (h7 : bl .mirLanes = true) (h8 : bl .order = true) (h9 : bl .queues = true) (h10 : bl .bellows = true) (h11 : bl .engines = true) (h12 : bl .cores = true) (h13 : bl .tdc = true) (h14 : bl .bgs = true) (h15 : bl .field = true) (h16 : bl .hearth = true) (h17 : bl .mem = true) (h18 : bl .trig = true) (h19 : bl .staging = true) (h20 : bl .comps = true) (h21 : bl .jobs = true) (h22 : bl .pair = true) (h23 : bl .host = true) (h24 : bl .ptp = true) (h25 : bl .kept = true) (h26 : bl .keptBad = true) (q : Nat) (h : Nat) (n : Nat) (test : Bool) (s : State) : State.blank bl (handoverRx q h n test s) = State.blank bl s := by
  unfold handoverRx
  repeat' first
    | with_reducible rfl
    | (simp only [h0, h1, h2, h3, h4, h5, h6, h7, h8, h9, h10, h11, h12, h13, h14, h15, h16, h17, h18, h19, h20, h21, h22, h23, h24, h25, h26, ↓State.mirrorIn_blank, ↓blank_ite, ↓fst_ite, ite_self, implies_true]; done)
    | split
    | simp only [h0, h1, h2, h3, h4, h5, h6, h7, h8, h9, h10, h11, h12, h13, h14, h15, h16, h17, h18, h19, h20, h21, h22, h23, h24, h25, h26, ↓State.mirrorIn_blank, ↓blank_ite, ↓fst_ite, ite_self, implies_true]

theorem mboxQuench_blank (h0 : bl .out = true) (h1 : bl .freeUse = true) (h2 : bl .fns = true) (h3 : bl .regs = true) (h4 : bl .tb = true) (h5 : bl .rx = true) (h6 : bl .tiles = true) (h7 : bl .mirLanes = true) (h8 : bl .order = true) (h9 : bl .queues = true) (h10 : bl .bellows = true) (h11 : bl .engines = true) (h12 : bl .cores = true) (h13 : bl .tdc = true) (h14 : bl .bgs = true) (h15 : bl .field = true) (h16 : bl .hearth = true) (h17 : bl .mem = true) (h18 : bl .trig = true) (h19 : bl .staging = true) (h20 : bl .comps = true) (h21 : bl .jobs = true) (h22 : bl .pair = true) (h23 : bl .host = true) (h24 : bl .ptp = true) (src : Src) (s : State) : State.blank bl (mboxQuench src s) = State.blank bl s := by
  unfold mboxQuench
  repeat' first
    | with_reducible rfl
    | (simp only [h0, h1, h2, h3, h4, h5, h6, h7, h8, h9, h10, h11, h12, h13, h14, h15, h16, h17, h18, h19, h20, h21, h22, h23, h24, ↓State.reply_blank, ↓State.quenchGlobal_blank, ↓blank_ite, ↓fst_ite, ite_self, implies_true]; done)
    | split
    | simp only [h0, h1, h2, h3, h4, h5, h6, h7, h8, h9, h10, h11, h12, h13, h14, h15, h16, h17, h18, h19, h20, h21, h22, h23, h24, ↓State.reply_blank, ↓State.quenchGlobal_blank, ↓blank_ite, ↓fst_ite, ite_self, implies_true]

theorem digestRx_blank (h0 : bl .out = true) (h1 : bl .freeUse = true) (h2 : bl .fns = true) (h3 : bl .regs = true) (h4 : bl .tb = true) (h5 : bl .rx = true) (h6 : bl .tiles = true) (h7 : bl .mirLanes = true) (h8 : bl .order = true) (h9 : bl .queues = true) (h10 : bl .bellows = true) (h11 : bl .engines = true) (h12 : bl .cores = true) (h13 : bl .tdc = true) (h14 : bl .bgs = true) (h15 : bl .field = true) (h16 : bl .hearth = true) (h17 : bl .mem = true) (h18 : bl .trig = true) (h19 : bl .staging = true) (h20 : bl .comps = true) (h21 : bl .jobs = true) (h22 : bl .pair = true) (h23 : bl .host = true) (h24 : bl .ptp = true) (h25 : bl .kept = true) (h26 : bl .keptBad = true) (q : Nat) (frame : Nat) (value : Nat) (s : State) : State.blank bl (digestRx q frame value s) = State.blank bl s := by
  unfold digestRx
  repeat' first
    | with_reducible rfl
    | (simp only [h0, h1, h2, h3, h4, h5, h6, h7, h8, h9, h10, h11, h12, h13, h14, h15, h16, h17, h18, h19, h20, h21, h22, h23, h24, h25, h26, ↓State.mirrorIn_blank, ↓blank_ite, ↓fst_ite, ite_self, implies_true]; done)
    | split
    | simp only [h0, h1, h2, h3, h4, h5, h6, h7, h8, h9, h10, h11, h12, h13, h14, h15, h16, h17, h18, h19, h20, h21, h22, h23, h24, h25, h26, ↓State.mirrorIn_blank, ↓blank_ite, ↓fst_ite, ite_self, implies_true]

theorem dieTempThreshold_blank (h0 : bl .regs = true) (h1 : bl .tb = true) (temp : Int) (s : State) : State.blank bl (dieTempThreshold temp s) = State.blank bl s := by
  unfold dieTempThreshold
  repeat' first
    | with_reducible rfl
    | (simp only [h0, h1, ↓State.updateAlarms_blank, ↓State.setBit_blank, ↓blank_ite, ↓fst_ite, ite_self, implies_true]; done)
    | split
    | simp only [h0, h1, ↓State.updateAlarms_blank, ↓State.setBit_blank, ↓blank_ite, ↓fst_ite, ite_self, implies_true]

theorem fdigestRx_blank (h0 : bl .out = true) (h1 : bl .freeUse = true) (h2 : bl .fns = true) (h3 : bl .regs = true) (h4 : bl .tb = true) (h5 : bl .rx = true) (h6 : bl .tiles = true) (h7 : bl .mirLanes = true) (h8 : bl .order = true) (h9 : bl .queues = true) (h10 : bl .bellows = true) (h11 : bl .engines = true) (h12 : bl .cores = true) (h13 : bl .tdc = true) (h14 : bl .bgs = true) (h15 : bl .field = true) (h16 : bl .hearth = true) (h17 : bl .mem = true) (h18 : bl .trig = true) (h19 : bl .staging = true) (h20 : bl .comps = true) (h21 : bl .jobs = true) (h22 : bl .pair = true) (h23 : bl .host = true) (h24 : bl .ptp = true) (h25 : bl .kept = true) (h26 : bl .keptBad = true) (q : Nat) (tile : Fin 48) (frame : Nat) (value : Nat) (s : State) : State.blank bl (fdigestRx q tile frame value s) = State.blank bl s := by
  unfold fdigestRx
  repeat' first
    | with_reducible rfl
    | (simp only [h0, h1, h2, h3, h4, h5, h6, h7, h8, h9, h10, h11, h12, h13, h14, h15, h16, h17, h18, h19, h20, h21, h22, h23, h24, h25, h26, ↓State.mirrorIn_blank, ↓blank_ite, ↓fst_ite, ite_self, implies_true]; done)
    | split
    | simp only [h0, h1, h2, h3, h4, h5, h6, h7, h8, h9, h10, h11, h12, h13, h14, h15, h16, h17, h18, h19, h20, h21, h22, h23, h24, h25, h26, ↓State.mirrorIn_blank, ↓blank_ite, ↓fst_ite, ite_self, implies_true]

theorem stateRx_blank (h0 : bl .out = true) (h1 : bl .freeUse = true) (h2 : bl .fns = true) (h3 : bl .regs = true) (h4 : bl .tb = true) (h5 : bl .rx = true) (h6 : bl .tiles = true) (h7 : bl .mirLanes = true) (h8 : bl .order = true) (h9 : bl .queues = true) (h10 : bl .bellows = true) (h11 : bl .engines = true) (h12 : bl .cores = true) (h13 : bl .tdc = true) (h14 : bl .bgs = true) (h15 : bl .field = true) (h16 : bl .hearth = true) (h17 : bl .mem = true) (h18 : bl .trig = true) (h19 : bl .staging = true) (h20 : bl .comps = true) (h21 : bl .jobs = true) (h22 : bl .pair = true) (h23 : bl .host = true) (h24 : bl .ptp = true) (h25 : bl .kept = true) (h26 : bl .keptBad = true) (q : Nat) (m : StateMsg) (s : State) : State.blank bl (stateRx q m s) = State.blank bl s := by
  unfold stateRx
  repeat' first
    | with_reducible rfl
    | (simp only [h0, h1, h2, h3, h4, h5, h6, h7, h8, h9, h10, h11, h12, h13, h14, h15, h16, h17, h18, h19, h20, h21, h22, h23, h24, h25, h26, ↓State.mirrorIn_blank, ↓blank_ite, ↓fst_ite, ite_self, implies_true]; done)
    | split
    | simp only [h0, h1, h2, h3, h4, h5, h6, h7, h8, h9, h10, h11, h12, h13, h14, h15, h16, h17, h18, h19, h20, h21, h22, h23, h24, h25, h26, ↓State.mirrorIn_blank, ↓blank_ite, ↓fst_ite, ite_self, implies_true]

theorem digestTimeout_blank (h0 : bl .regs = true) (h1 : bl .tb = true) (h2 : bl .hearth = true) (h3 : bl .mem = true) (h4 : bl .pair = true) (s : State) : State.blank bl (digestTimeout s) = State.blank bl s := by
  unfold digestTimeout
  repeat' first
    | with_reducible rfl
    | (simp only [h0, h1, h2, h3, h4, ↓State.onPair_blank, ↓State.logDivergent_blank, ↓State.diverge_blank, ↓State.uncompared_blank, ↓blank_ite, ↓fst_ite, ite_self, implies_true]; done)
    | split
    | simp only [h0, h1, h2, h3, h4, ↓State.onPair_blank, ↓State.logDivergent_blank, ↓State.diverge_blank, ↓State.uncompared_blank, ↓blank_ite, ↓fst_ite, ite_self, implies_true]

theorem stop_blank (h0 : bl .out = true) (h1 : bl .freeUse = true) (h2 : bl .fns = true) (h3 : bl .regs = true) (h4 : bl .tb = true) (h5 : bl .rx = true) (h6 : bl .tiles = true) (h7 : bl .mirLanes = true) (h8 : bl .order = true) (h9 : bl .queues = true) (h10 : bl .bellows = true) (h11 : bl .engines = true) (h12 : bl .cores = true) (h13 : bl .tdc = true) (h14 : bl .bgs = true) (h15 : bl .field = true) (h16 : bl .hearth = true) (h17 : bl .mem = true) (h18 : bl .trig = true) (h19 : bl .staging = true) (h20 : bl .comps = true) (h21 : bl .jobs = true) (h22 : bl .pair = true) (h23 : bl .host = true) (h24 : bl .ptp = true) (f : Fn) (s : State) : State.blank bl (stop f s) = State.blank bl s := by
  unfold stop
  repeat' first
    | with_reducible rfl
    | (simp only [h0, h1, h2, h3, h4, h5, h6, h7, h8, h9, h10, h11, h12, h13, h14, h15, h16, h17, h18, h19, h20, h21, h22, h23, h24, ↓State.fnCommand_blank, ↓blank_ite, ↓fst_ite, ite_self, implies_true]; done)
    | split
    | simp only [h0, h1, h2, h3, h4, h5, h6, h7, h8, h9, h10, h11, h12, h13, h14, h15, h16, h17, h18, h19, h20, h21, h22, h23, h24, ↓State.fnCommand_blank, ↓blank_ite, ↓fst_ite, ite_self, implies_true]

theorem loadRunImage_blank (h0 : bl .out = true) (h1 : bl .regs = true) (h2 : bl .tb = true) (h3 : bl .queues = true) (h4 : bl .bellows = true) (h5 : bl .engines = true) (h6 : bl .cores = true) (h7 : bl .bgs = true) (h8 : bl .hearth = true) (h9 : bl .mem = true) (h10 : bl .trig = true) (h11 : bl .comps = true) (h12 : bl .pair = true) (h13 : bl .host = true) (h14 : bl .kept = true) (h15 : bl .keptBad = true) (src : Src) (e : MemErrs) (meas : List (Nat × Nat)) (s : State) : State.blank bl (loadRunImage src e meas s) = State.blank bl s := by
  unfold loadRunImage
  repeat' first
    | with_reducible rfl
    | (simp only [h0, h1, h2, h3, h4, h5, h6, h7, h8, h9, h10, h11, h12, h13, h14, h15, State.serve_blank, ↓State.reply_blank, ↓State.noteErrs_blank, ↓State.paceWake_blank, ↓State.loadImage_blank, ↓State.tellImage_blank, ↓blank_ite, ↓fst_ite, ite_self, implies_true]; done)
    | split
    | simp only [h0, h1, h2, h3, h4, h5, h6, h7, h8, h9, h10, h11, h12, h13, h14, h15, State.serve_blank, ↓State.reply_blank, ↓State.noteErrs_blank, ↓State.paceWake_blank, ↓State.loadImage_blank, ↓State.tellImage_blank, ↓blank_ite, ↓fst_ite, ite_self, implies_true]
    | refine (State.serve_blank _ _ _ _ ?_).trans ?_
    | intro _

theorem handoverRelease_blank (h0 : bl .regs = true) (h1 : bl .tb = true) (h2 : bl .pair = true) (s : State) : State.blank bl (handoverRelease s) = State.blank bl s := by
  unfold handoverRelease
  repeat' first
    | with_reducible rfl
    | (simp only [h0, h1, h2, ↓State.dropTongs_blank, ↓blank_ite, ↓fst_ite, ite_self, implies_true]; done)
    | split
    | simp only [h0, h1, h2, ↓State.dropTongs_blank, ↓blank_ite, ↓fst_ite, ite_self, implies_true]

theorem compress_blank (h0 : bl .freeUse = true) (h1 : bl .regs = true) (h2 : bl .hearth = true) (h3 : bl .mem = true) (h4 : bl .jobs = true) (bad : List Nat) (e : MemErrs) (s : State) : State.blank bl (compress bad e s) = State.blank bl s := by
  unfold compress
  repeat' first
    | with_reducible rfl
    | (simp only [h0, h1, h2, h3, h4, ↓State.jobResult_blank, ↓State.jobNote_blank, ↓State.scramble_blank, ↓blank_ite, ↓fst_ite, ite_self, implies_true]; done)
    | split
    | simp only [h0, h1, h2, h3, h4, ↓State.jobResult_blank, ↓State.jobNote_blank, ↓State.scramble_blank, ↓blank_ite, ↓fst_ite, ite_self, implies_true]
    | refine (State.jobTake_blank (by assumption) _ _ _ _ (by assumption)).trans ?_

theorem schedRx_blank (h0 : bl .out = true) (h1 : bl .freeUse = true) (h2 : bl .fns = true) (h3 : bl .regs = true) (h4 : bl .tb = true) (h5 : bl .rx = true) (h6 : bl .tiles = true) (h7 : bl .mirLanes = true) (h8 : bl .order = true) (h9 : bl .queues = true) (h10 : bl .bellows = true) (h11 : bl .engines = true) (h12 : bl .cores = true) (h13 : bl .tdc = true) (h14 : bl .bgs = true) (h15 : bl .field = true) (h16 : bl .hearth = true) (h17 : bl .mem = true) (h18 : bl .trig = true) (h19 : bl .staging = true) (h20 : bl .comps = true) (h21 : bl .jobs = true) (h22 : bl .pair = true) (h23 : bl .host = true) (h24 : bl .ptp = true) (h25 : bl .kept = true) (h26 : bl .keptBad = true) (q : Nat) (n : Nat) (t : Nat) (s : State) : State.blank bl (schedRx q n t s) = State.blank bl s := by
  unfold schedRx
  repeat' first
    | with_reducible rfl
    | (simp only [h0, h1, h2, h3, h4, h5, h6, h7, h8, h9, h10, h11, h12, h13, h14, h15, h16, h17, h18, h19, h20, h21, h22, h23, h24, h25, h26, ↓State.mirrorIn_blank, ↓blank_ite, ↓fst_ite, ite_self, implies_true]; done)
    | split
    | simp only [h0, h1, h2, h3, h4, h5, h6, h7, h8, h9, h10, h11, h12, h13, h14, h15, h16, h17, h18, h19, h20, h21, h22, h23, h24, h25, h26, ↓State.mirrorIn_blank, ↓blank_ite, ↓fst_ite, ite_self, implies_true]

theorem joinComplete_blank (h0 : bl .freeUse = true) (h1 : bl .regs = true) (h2 : bl .tb = true) (h3 : bl .field = true) (h4 : bl .hearth = true) (h5 : bl .mem = true) (h6 : bl .trig = true) (h7 : bl .jobs = true) (h8 : bl .pair = true) (s : State) : State.blank bl (joinComplete s) = State.blank bl s := by
  unfold joinComplete
  repeat' first
    | with_reducible rfl
    | (simp only [h0, h1, h2, h3, h4, h5, h6, h7, h8, ↓State.followTime_blank, ↓State.setRole_blank, ↓State.onPair_blank, ↓State.logDev_blank, ↓State.uncompared_blank, ↓State.armRing_blank, ↓State.trigItem_blank, ↓blank_ite, ↓fst_ite, ite_self, implies_true]; done)
    | split
    | simp only [h0, h1, h2, h3, h4, h5, h6, h7, h8, ↓State.followTime_blank, ↓State.setRole_blank, ↓State.onPair_blank, ↓State.logDev_blank, ↓State.uncompared_blank, ↓State.armRing_blank, ↓State.trigItem_blank, ↓blank_ite, ↓fst_ite, ite_self, implies_true]

theorem tongsInChange_blank (h0 : bl .regs = true) (h1 : bl .tb = true) (h2 : bl .pair = true) (asserted : Bool) (s : State) : State.blank bl (tongsInChange asserted s) = State.blank bl s := by
  unfold tongsInChange
  repeat' first
    | with_reducible rfl
    | (simp only [h0, h1, h2, ↓State.setBit_blank, ↓State.onPair_blank, ↓State.logDev_blank, ↓State.setRole_blank, ↓blank_ite, ↓fst_ite, ite_self, implies_true]; done)
    | split
    | simp only [h0, h1, h2, ↓State.setBit_blank, ↓State.onPair_blank, ↓State.logDev_blank, ↓State.setRole_blank, ↓blank_ite, ↓fst_ite, ite_self, implies_true]

end Sys2Proof.Machine
end

