-- ==== Sys2Proof/Laws/BlankBoot.lean ====
section
/-!
SUPPORT. What each operation leaves alone: the parts of the state that it can change are emptied on both sides, and the rest agrees.
The files of Machine/: Update, Boot, Bundle, Bus, Jtag, Tick.
-/

namespace Sys2Proof.Machine

set_option linter.unusedSimpArgs false

variable {bl : Comp → Bool}

theorem State.abandon_blank (h0 : bl .tb = true) (h1 : bl .ptp = true) (s : State) (p : Nat) (o : Nat) (status : Nat) : State.blank bl (State.abandon s p o status) = State.blank bl s := by
  unfold State.abandon
  repeat' first
    | with_reducible rfl
    | (simp only [h0, h1, ↓State.log_blank, ↓State.onPort_blank, ↓blank_ite, ↓fst_ite, ite_self, implies_true]; done)
    | split
    | simp only [h0, h1, ↓State.log_blank, ↓State.onPort_blank, ↓blank_ite, ↓fst_ite, ite_self, implies_true]

theorem State.storeWrite_blank (h0 : bl .regs = true) (h1 : bl .engines = true) (s : State) (o : Nat) (v : Nat) : State.blank bl (State.storeWrite s o v).1 = State.blank bl s := by
  unfold State.storeWrite
  repeat' first
    | with_reducible rfl
    | (simp only [h0, h1, ↓State.onEngine_blank, ↓State.refuseSt_blank, ↓blank_ite, ↓fst_ite, ite_self, implies_true]; done)
    | split
    | simp only [h0, h1, ↓State.onEngine_blank, ↓State.refuseSt_blank, ↓blank_ite, ↓fst_ite, ite_self, implies_true]

theorem dieWrite_blank (h0 : bl .fns = true) (h1 : bl .regs = true) (h2 : bl .tb = true) (h3 : bl .queues = true) (h4 : bl .bellows = true) (h5 : bl .engines = true) (h6 : bl .bgs = true) (h7 : bl .field = true) (h8 : bl .comps = true) (v : Nat) (s : State) : State.blank bl (dieWrite v s) = State.blank bl s := by
  unfold dieWrite
  repeat' first
    | with_reducible rfl
    | (simp only [h0, h1, h2, h3, h4, h5, h6, h7, h8, ↓fieldDieResetAssert_blank, ↓fieldDieResetRelease_blank, ↓blank_ite, ↓fst_ite, ite_self, implies_true]; done)
    | split
    | simp only [h0, h1, h2, h3, h4, h5, h6, h7, h8, ↓fieldDieResetAssert_blank, ↓fieldDieResetRelease_blank, ↓blank_ite, ↓fst_ite, ite_self, implies_true]

theorem ifBit_blank (v i : Nat) (g : State → State) (s : State) (hg : ∀ t, State.blank bl (g t) = State.blank bl t) :
    State.blank bl (ifBit v i g s) = State.blank bl s := by
  unfold ifBit
  split
  · exact hg s
  · rfl

theorem State.supWrite_blank (h0 : bl .out = true) (h1 : bl .cores = true) (h2 : bl .host = true) (s : State) (p : Fin 2) (o : Nat) (v : Nat) : State.blank bl (State.supWrite s p o v) = State.blank bl s := by
  unfold State.supWrite
  repeat' first
    | with_reducible rfl
    | (simp only [h0, h1, h2, ↓State.onMbox_blank, ifBit_blank, ↓mboxGo_blank, ↓mboxAbort_blank, ↓blank_ite, ↓fst_ite, ite_self, implies_true]; done)
    | split
    | simp only [h0, h1, h2, ↓State.onMbox_blank, ifBit_blank, ↓mboxGo_blank, ↓mboxAbort_blank, ↓blank_ite, ↓fst_ite, ite_self, implies_true]

theorem timeCmd_blank (h0 : bl .out = true) (h1 : bl .regs = true) (h2 : bl .tb = true) (h3 : bl .tdc = true) (h4 : bl .field = true) (h5 : bl .hearth = true) (h6 : bl .trig = true) (h7 : bl .pair = true) (a : Nat) (v : Nat) (g : State → State) (hx : (timeCmd a v) = some g) (t : State) :
    State.blank bl (g t) = State.blank bl t := by
  unfold timeCmd at hx
  try dsimp only at hx
  repeat' first
    | (with_reducible refine of_ite hx ?_ ?_ <;> (clear hx; intro hx))
    | (with_reducible refine of_dite hx ?_ ?_ <;> (clear hx; intro _ hx))
    | (with_reducible injection hx with hx; subst hx)
    | (with_reducible injection hx; done)
    | (obtain ⟨_, _, hx⟩ := Option.map_eq_some_iff.mp hx; subst hx)
    | (simp only [h0, h1, h2, h3, h4, h5, h6, h7, ↓tbIncWrite_blank, ifBit_blank, ↓stepGo_blank, ↓stepCancel_blank, ↓tdcSoftwareArm_blank, ↓statisticsClear_blank, ↓hosttrigGo_blank, ↓segcmdRelease_blank, ↓blank_ite, ↓fst_ite, ite_self, implies_true]; done)
    | split at hx

theorem chCmd_blank (h0 : bl .regs = true) (h1 : bl .field = true) (v : Nat) (s : State) : State.blank bl (chCmd v s) = State.blank bl s := by
  unfold chCmd
  repeat' first
    | with_reducible rfl
    | (simp only [h0, h1, ↓chargeAmpReset_blank, ifBit_blank, ↓adcCalibration_blank, ↓rscan_blank, ↓iscan_blank, ↓blank_ite, ↓fst_ite, ite_self, implies_true]; done)
    | split
    | simp only [h0, h1, ↓chargeAmpReset_blank, ifBit_blank, ↓adcCalibration_blank, ↓rscan_blank, ↓iscan_blank, ↓blank_ite, ↓fst_ite, ite_self, implies_true]

theorem queueCmd_blank (h0 : bl .regs = true) (h1 : bl .tb = true) (h2 : bl .order = true) (h3 : bl .queues = true) (h4 : bl .bellows = true) (h5 : bl .engines = true) (h6 : bl .bgs = true) (q : Fin 97) (v : Nat) (s : State) : State.blank bl (queueCmd q v s) = State.blank bl s := by
  unfold queueCmd
  repeat' first
    | with_reducible rfl
    | (simp only [h0, h1, h2, h3, h4, h5, h6, ifBit_blank, ↓clrPeak_blank, ↓queueFlush_blank, ↓blank_ite, ↓fst_ite, ite_self, implies_true]; done)
    | split
    | simp only [h0, h1, h2, h3, h4, h5, h6, ifBit_blank, ↓clrPeak_blank, ↓queueFlush_blank, ↓blank_ite, ↓fst_ite, ite_self, implies_true]

theorem auxCmd_blank (h0 : bl .regs = true) (h1 : bl .tb = true) (h2 : bl .order = true) (h3 : bl .queues = true) (h4 : bl .bellows = true) (h5 : bl .engines = true) (h6 : bl .bgs = true) (h7 : bl .field = true) (a : Nat) (v : Nat) (g : State → State) (hx : (auxCmd a v) = some g) (t : State) :
    State.blank bl (g t) = State.blank bl t := by
  unfold auxCmd at hx
  try dsimp only at hx
  repeat' first
    | (with_reducible refine of_ite hx ?_ ?_ <;> (clear hx; intro hx))
    | (with_reducible refine of_dite hx ?_ ?_ <;> (clear hx; intro _ hx))
    | (with_reducible injection hx with hx; subst hx)
    | (with_reducible injection hx; done)
    | (obtain ⟨_, _, hx⟩ := Option.map_eq_some_iff.mp hx; subst hx)
    | (simp only [h0, h1, h2, h3, h4, h5, h6, h7, ↓excWriteCmd_blank, ↓chCmd_blank, ↓queueCmd_blank, ↓State.aouValWrite_blank, ↓blank_ite, ↓fst_ite, ite_self, implies_true]; done)
    | split at hx

theorem State.msixWrite_blank (h0 : bl .out = true) (h1 : bl .host = true) (s : State) (p : Fin 2) (i : Nat) (v : Nat) : State.blank bl (State.msixWrite s p i v) = State.blank bl s := by
  unfold State.msixWrite
  repeat' first
    | with_reducible rfl
    | (simp only [h0, h1, ↓State.putHost_blank, ↓State.signal_blank, ↓blank_ite, ↓fst_ite, ite_self, implies_true]; done)
    | split
    | simp only [h0, h1, ↓State.putHost_blank, ↓State.signal_blank, ↓blank_ite, ↓fst_ite, ite_self, implies_true]

theorem hstCmd_blank (h0 : bl .out = true) (h1 : bl .regs = true) (h2 : bl .host = true) (port : Option (Fin 2)) (o : Nat) (v : Nat) (g : State → State) (hx : (hstCmd port o v) = some g) (t : State) :
    State.blank bl (g t) = State.blank bl t := by
  unfold hstCmd at hx
  try dsimp only at hx
  repeat' first
    | (with_reducible refine of_ite hx ?_ ?_ <;> (clear hx; intro hx))
    | (with_reducible refine of_dite hx ?_ ?_ <;> (clear hx; intro _ hx))
    | (with_reducible injection hx with hx; subst hx)
    | (with_reducible injection hx; done)
    | (obtain ⟨_, _, hx⟩ := Option.map_eq_some_iff.mp hx; subst hx)
    | (simp only [h0, h1, h2, ↓eqHeadWrite_blank, ↓pvHeadWrite_blank, ↓State.msixWrite_blank, ↓sqDoorbell_blank, ↓cqHeadWrite_blank, ↓blank_ite, ↓fst_ite, ite_self, implies_true]; done)
    | split at hx

theorem State.feMark_blank (h0 : bl .regs = true) (s : State) (o : Nat) (f : Nat) : State.blank bl (State.feMark s o f) = State.blank bl s := by
  unfold State.feMark
  repeat' first
    | with_reducible rfl
    | (simp only [h0, ↓State.setBit_blank, ↓blank_ite, ↓fst_ite, ite_self, implies_true]; done)
    | split
    | simp only [h0, ↓State.setBit_blank, ↓blank_ite, ↓fst_ite, ite_self, implies_true]

theorem State.reloadMark_blank (h0 : bl .regs = true) (s : State) (families : List (Nat × Nat)) : State.blank bl (State.reloadMark s families) = State.blank bl s := by
  unfold State.reloadMark
  repeat' first
    | with_reducible rfl
    | (simp only [h0, State.each_blank, ↓State.setReg_blank, ↓State.feMark_blank, ↓blank_ite, ↓fst_ite, ite_self, implies_true]; done)
    | split
    | simp only [h0, State.each_blank, ↓State.setReg_blank, ↓State.feMark_blank, ↓blank_ite, ↓fst_ite, ite_self, implies_true]
    | refine (State.each_blank _ _ _ ?_).trans ?_
    | intro _

theorem State.broadcast_blank (h0 : bl .out = true) (h1 : bl .rx = true) (h2 : bl .cmd = true) (h3 : bl .mirLanes = true) (s : State) (tiles : List Nat) (p : List Byte) : State.blank bl (State.broadcast s tiles p) = State.blank bl s := by
  unfold State.broadcast
  repeat' first
    | with_reducible rfl
    | (simp only [h0, h1, h2, h3, State.each_blank, ↓State.sendBlock_blank, ↓blank_ite, ↓fst_ite, ite_self, implies_true]; done)
    | split
    | simp only [h0, h1, h2, h3, State.each_blank, ↓State.sendBlock_blank, ↓blank_ite, ↓fst_ite, ite_self, implies_true]
    | refine (State.each_blank _ _ _ ?_).trans ?_
    | intro _

theorem State.retrainTile_blank (h0 : bl .regs = true) (h1 : bl .rx = true) (h2 : bl .mirLanes = true) (s : State) (f : Nat) : State.blank bl (State.retrainTile s f) = State.blank bl s := by
  unfold State.retrainTile
  repeat' first
    | with_reducible rfl
    | (simp only [h0, h1, h2, State.each_blank, ↓retrain_blank, ↓blank_ite, ↓fst_ite, ite_self, implies_true]; done)
    | split
    | simp only [h0, h1, h2, State.each_blank, ↓retrain_blank, ↓blank_ite, ↓fst_ite, ite_self, implies_true]
    | refine (State.each_blank _ _ _ ?_).trans ?_
    | intro _

theorem State.reloadNext_blank (h0 : bl .out = true) (h1 : bl .regs = true) (h2 : bl .tb = true) (h3 : bl .rx = true) (h4 : bl .cmd = true) (h5 : bl .mirLanes = true) (h6 : bl .sys = true) (s : State) (r : FeReload) : State.blank bl (State.reloadNext s r) = State.blank bl s := by
  unfold State.reloadNext
  repeat' first
    | with_reducible rfl
    | (simp only [h0, h1, h2, h3, h4, h5, h6, ↓State.onSys_blank, ↓State.broadcast_blank, ↓State.logUpd_blank, State.each_blank, ↓State.retrainTile_blank, ↓blank_ite, ↓fst_ite, ite_self, implies_true]; done)
    | split
    | simp only [h0, h1, h2, h3, h4, h5, h6, ↓State.onSys_blank, ↓State.broadcast_blank, ↓State.logUpd_blank, State.each_blank, ↓State.retrainTile_blank, ↓blank_ite, ↓fst_ite, ite_self, implies_true]
    | refine (State.each_blank _ _ _ ?_).trans ?_
    | intro _

theorem State.reloadStart_blank (h0 : bl .out = true) (h1 : bl .regs = true) (h2 : bl .tb = true) (h3 : bl .rx = true) (h4 : bl .cmd = true) (h5 : bl .mirLanes = true) (h6 : bl .sys = true) (s : State) (families : List (Nat × Nat)) : State.blank bl (State.reloadStart s families) = State.blank bl s := by
  unfold State.reloadStart
  repeat' first
    | with_reducible rfl
    | (simp only [h0, h1, h2, h3, h4, h5, h6, ↓State.reloadMark_blank, ↓State.reloadNext_blank, ↓blank_ite, ↓fst_ite, ite_self, implies_true]; done)
    | split
    | simp only [h0, h1, h2, h3, h4, h5, h6, ↓State.reloadMark_blank, ↓State.reloadNext_blank, ↓blank_ite, ↓fst_ite, ite_self, implies_true]

theorem fereload_blank (h0 : bl .out = true) (h1 : bl .regs = true) (h2 : bl .tb = true) (h3 : bl .rx = true) (h4 : bl .cmd = true) (h5 : bl .mirLanes = true) (h6 : bl .sys = true) (s : State) : State.blank bl (fereload s) = State.blank bl s := by
  unfold fereload
  repeat' first
    | with_reducible rfl
    | (simp only [h0, h1, h2, h3, h4, h5, h6, ↓State.refuseSt_blank, ↓State.reloadStart_blank, ↓blank_ite, ↓fst_ite, ite_self, implies_true]; done)
    | split
    | simp only [h0, h1, h2, h3, h4, h5, h6, ↓State.refuseSt_blank, ↓State.reloadStart_blank, ↓blank_ite, ↓fst_ite, ite_self, implies_true]

theorem recover_blank (h0 : bl .nvs = true) (s : State) : State.blank bl (recover s) = State.blank bl s := by
  unfold recover
  repeat' first
    | with_reducible rfl
    | (simp only [h0, ↓State.onNvs_blank, ↓blank_ite, ↓fst_ite, ite_self, implies_true]; done)
    | split
    | simp only [h0, ↓State.onNvs_blank, ↓blank_ite, ↓fst_ite, ite_self, implies_true]

theorem State.updEnd_blank (h0 : bl .tb = true) (h1 : bl .sys = true) (s : State) (u : ImgIn) (status : Nat) : State.blank bl (State.updEnd s u status) = State.blank bl s := by
  unfold State.updEnd
  repeat' first
    | with_reducible rfl
    | (simp only [h0, h1, ↓State.onSys_blank, ↓State.logUpd_blank, ↓blank_ite, ↓fst_ite, ite_self, implies_true]; done)
    | split
    | simp only [h0, h1, ↓State.onSys_blank, ↓State.logUpd_blank, ↓blank_ite, ↓fst_ite, ite_self, implies_true]

theorem updateCancel_blank (h0 : bl .tb = true) (h1 : bl .sys = true) (s : State) : State.blank bl (updateCancel s) = State.blank bl s := by
  unfold updateCancel
  repeat' first
    | with_reducible rfl
    | (simp only [h0, h1, ↓State.updEnd_blank, ↓blank_ite, ↓fst_ite, ite_self, implies_true]; done)
    | split
    | simp only [h0, h1, ↓State.updEnd_blank, ↓blank_ite, ↓fst_ite, ite_self, implies_true]

theorem laneCmd_blank (h0 : bl .out = true) (h1 : bl .freeUse = true) (h2 : bl .regs = true) (h3 : bl .rx = true) (h4 : bl .cmd = true) (h5 : bl .mirLanes = true) (l : Fin 96) (r : Nat) (v : Nat) (g : State → State) (hx : (laneCmd l r v) = some g) (t : State) :
    State.blank bl (g t) = State.blank bl t := by
  unfold laneCmd at hx
  try dsimp only at hx
  repeat' first
    | (with_reducible refine of_ite hx ?_ ?_ <;> (clear hx; intro hx))
    | (with_reducible refine of_dite hx ?_ ?_ <;> (clear hx; intro _ hx))
    | (with_reducible injection hx with hx; subst hx)
    | (with_reducible injection hx; done)
    | (obtain ⟨_, _, hx⟩ := Option.map_eq_some_iff.mp hx; subst hx)
    | (simp only [h0, h1, h2, h3, h4, h5, ifBit_blank, ↓retrain_blank, ↓alignDone_blank, ↓clrCeil_blank, ↓slip_blank, ↓prbsInject_blank, ↓blank_ite, ↓fst_ite, ite_self, implies_true]; done)
    | split at hx

theorem cmdLaneCmd_blank (h0 : bl .out = true) (h1 : bl .freeUse = true) (h2 : bl .regs = true) (h3 : bl .rx = true) (h4 : bl .cmd = true) (h5 : bl .mirLanes = true) (f : Fin 48) (r : Nat) (v : Nat) (g : State → State) (hx : (cmdLaneCmd f r v) = some g) (t : State) :
    State.blank bl (g t) = State.blank bl t := by
  unfold cmdLaneCmd at hx
  try dsimp only at hx
  repeat' first
    | (with_reducible refine of_ite hx ?_ ?_ <;> (clear hx; intro hx))
    | (with_reducible refine of_dite hx ?_ ?_ <;> (clear hx; intro _ hx))
    | (with_reducible injection hx with hx; subst hx)
    | (with_reducible injection hx; done)
    | (obtain ⟨_, _, hx⟩ := Option.map_eq_some_iff.mp hx; subst hx)
    | (simp only [h0, h1, h2, h3, h4, h5, ifBit_blank, ↓feAccessGo_blank, ↓prbsInject_blank, ↓blank_ite, ↓fst_ite, ite_self, implies_true]; done)
    | split at hx

theorem sectorCmd_blank (h0 : bl .out = true) (h1 : bl .freeUse = true) (h2 : bl .regs = true) (h3 : bl .tb = true) (h4 : bl .rx = true) (h5 : bl .cmd = true) (h6 : bl .mirLanes = true) (h7 : bl .order = true) (h8 : bl .queues = true) (h9 : bl .bellows = true) (h10 : bl .engines = true) (h11 : bl .bgs = true) (k : Nat) (o : Nat) (v : Nat) (g : State → State) (hx : (sectorCmd k o v) = some g) (t : State) :
    State.blank bl (g t) = State.blank bl t := by
  unfold sectorCmd at hx
  try dsimp only at hx
  repeat' first
    | with_reducible exact laneCmd_blank (by assumption) (by assumption) (by assumption) (by assumption) (by assumption) (by assumption) _ _ _ _ hx t
    | with_reducible exact cmdLaneCmd_blank (by assumption) (by assumption) (by assumption) (by assumption) (by assumption) (by assumption) _ _ _ _ hx t
    | (with_reducible refine of_ite hx ?_ ?_ <;> (clear hx; intro hx))
    | (with_reducible refine of_dite hx ?_ ?_ <;> (clear hx; intro _ hx))
    | (with_reducible injection hx with hx; subst hx)
    | (with_reducible injection hx; done)
    | (obtain ⟨_, _, hx⟩ := Option.map_eq_some_iff.mp hx; subst hx)
    | (simp only [h0, h1, h2, h3, h4, h5, h6, h7, h8, h9, h10, h11, ↓queueCmd_blank, ↓blwForce_blank, ↓blank_ite, ↓fst_ite, ite_self, implies_true]; done)
    | split at hx

theorem busCmd_blank (h0 : bl .out = true) (h1 : bl .freeUse = true) (h2 : bl .fns = true) (h3 : bl .regs = true) (h4 : bl .tb = true) (h5 : bl .rx = true) (h6 : bl .cmd = true) (h7 : bl .mirLanes = true) (h8 : bl .order = true) (h9 : bl .queues = true) (h10 : bl .bellows = true) (h11 : bl .engines = true) (h12 : bl .cores = true) (h13 : bl .tdc = true) (h14 : bl .bgs = true) (h15 : bl .field = true) (h16 : bl .hearth = true) (h17 : bl .mem = true) (h18 : bl .trig = true) (h19 : bl .comps = true) (h20 : bl .jobs = true) (h21 : bl .pair = true) (h22 : bl .host = true) (h23 : bl .nvs = true) (h24 : bl .sys = true) (port : Option (Fin 2)) (a : Nat) (v : Nat) (ho : Nat × Nat) (g : State → State) (hx : (busCmd port a v ho) = some g) (t : State) :
    State.blank bl (g t) = State.blank bl t := by
  unfold busCmd at hx
  try dsimp only at hx
  repeat' first
    | with_reducible exact timeCmd_blank (by assumption) (by assumption) (by assumption) (by assumption) (by assumption) (by assumption) (by assumption) (by assumption) _ _ _ hx t
    | with_reducible exact auxCmd_blank (by assumption) (by assumption) (by assumption) (by assumption) (by assumption) (by assumption) (by assumption) (by assumption) _ _ _ hx t
    | with_reducible exact hstCmd_blank (by assumption) (by assumption) (by assumption) _ _ _ _ hx t
    | with_reducible exact sectorCmd_blank (by assumption) (by assumption) (by assumption) (by assumption) (by assumption) (by assumption) (by assumption) (by assumption) (by assumption) (by assumption) (by assumption) (by assumption) _ _ _ _ hx t
    | (with_reducible refine of_ite hx ?_ ?_ <;> (clear hx; intro hx))
    | (with_reducible refine of_dite hx ?_ ?_ <;> (clear hx; intro _ hx))
    | (with_reducible injection hx with hx; subst hx)
    | (with_reducible injection hx; done)
    | (obtain ⟨_, _, hx⟩ := Option.map_eq_some_iff.mp hx; subst hx)
    | (simp only [h0, h1, h2, h3, h4, h5, h6, h7, h8, h9, h10, h11, h12, h13, h14, h15, h16, h17, h18, h19, h20, h21, h22, h23, h24, ↓dieWrite_blank, ↓State.supWrite_blank, ifBit_blank, ↓jobSubmit_blank, ↓jobAbort_blank, ↓pairSwap_blank, ↓fereload_blank, ↓recover_blank, ↓updateCancel_blank, ↓blank_ite, ↓fst_ite, ite_self, implies_true]; done)
    | split at hx

theorem State.busWrite_blank (h0 : bl .out = true) (h1 : bl .freeUse = true) (h2 : bl .fns = true) (h3 : bl .regs = true) (h4 : bl .tb = true) (h5 : bl .rx = true) (h6 : bl .tiles = true) (h7 : bl .cmd = true) (h8 : bl .mirLanes = true) (h9 : bl .order = true) (h10 : bl .queues = true) (h11 : bl .bellows = true) (h12 : bl .engines = true) (h13 : bl .cores = true) (h14 : bl .tdc = true) (h15 : bl .bgs = true) (h16 : bl .field = true) (h17 : bl .hearth = true) (h18 : bl .mem = true) (h19 : bl .trig = true) (h20 : bl .staging = true) (h21 : bl .comps = true) (h22 : bl .jobs = true) (h23 : bl .pair = true) (h24 : bl .host = true) (h25 : bl .ptp = true) (h26 : bl .nvs = true) (h27 : bl .sys = true) (s : State) (port : Option (Fin 2)) (a : Nat) (v : Nat) (ho : Nat × Nat) : State.blank bl (State.busWrite s port a v ho).1 = State.blank bl s := by
  unfold State.busWrite
  repeat' first
    | with_reducible rfl
    | (simp only [h0, h1, h2, h3, h4, h5, h6, h7, h8, h9, h10, h11, h12, h13, h14, h15, h16, h17, h18, h19, h20, h21, h22, h23, h24, h25, h26, h27, ↓State.fnCmdWrite_blank, ↓State.fnCommand_blank, ↓State.storeWrite_blank, ↓State.writeMirrored_blank, ↓blank_ite, ↓fst_ite, ite_self, implies_true]; done)
    | split
    | simp only [h0, h1, h2, h3, h4, h5, h6, h7, h8, h9, h10, h11, h12, h13, h14, h15, h16, h17, h18, h19, h20, h21, h22, h23, h24, h25, h26, h27, ↓State.fnCmdWrite_blank, ↓State.fnCommand_blank, ↓State.storeWrite_blank, ↓State.writeMirrored_blank, ↓blank_ite, ↓fst_ite, ite_self, implies_true]
    | exact busCmd_blank (by assumption) (by assumption) (by assumption) (by assumption) (by assumption) (by assumption) (by assumption) (by assumption) (by assumption) (by assumption) (by assumption) (by assumption) (by assumption) (by assumption) (by assumption) (by assumption) (by assumption) (by assumption) (by assumption) (by assumption) (by assumption) (by assumption) (by assumption) (by assumption) (by assumption) _ _ _ _ _ (by assumption) _

theorem registerWrite_blank (h0 : bl .out = true) (h1 : bl .freeUse = true) (h2 : bl .fns = true) (h3 : bl .regs = true) (h4 : bl .tb = true) (h5 : bl .rx = true) (h6 : bl .tiles = true) (h7 : bl .cmd = true) (h8 : bl .mirLanes = true) (h9 : bl .order = true) (h10 : bl .queues = true) (h11 : bl .bellows = true) (h12 : bl .engines = true) (h13 : bl .cores = true) (h14 : bl .tdc = true) (h15 : bl .bgs = true) (h16 : bl .field = true) (h17 : bl .hearth = true) (h18 : bl .mem = true) (h19 : bl .trig = true) (h20 : bl .staging = true) (h21 : bl .comps = true) (h22 : bl .jobs = true) (h23 : bl .pair = true) (h24 : bl .host = true) (h25 : bl .ptp = true) (h26 : bl .nvs = true) (h27 : bl .sys = true) (port : Fin 2) (addr : Nat) (be : BitVec 4) (val : Word) (ho : Nat × Nat) (s : State) : State.blank bl (registerWrite port addr be val ho s) = State.blank bl s := by
  unfold registerWrite
  repeat' first
    | with_reducible rfl
    | (simp only [h0, h1, h2, h3, h4, h5, h6, h7, h8, h9, h10, h11, h12, h13, h14, h15, h16, h17, h18, h19, h20, h21, h22, h23, h24, h25, h26, h27, ↓State.busWrite_blank, ↓blank_ite, ↓fst_ite, ite_self, implies_true]; done)
    | split
    | simp only [h0, h1, h2, h3, h4, h5, h6, h7, h8, h9, h10, h11, h12, h13, h14, h15, h16, h17, h18, h19, h20, h21, h22, h23, h24, h25, h26, h27, ↓State.busWrite_blank, ↓blank_ite, ↓fst_ite, ite_self, implies_true]

theorem State.onSlot_blank (h0 : bl .nvs = true) (s : State) (i : Nat) (g : ImgSlot → ImgSlot) : State.blank bl (State.onSlot s i g) = State.blank bl s := by
  unfold State.onSlot
  repeat' first
    | with_reducible rfl
    | (simp only [h0, ↓State.onNvs_blank, ↓blank_ite, ↓fst_ite, ite_self, implies_true]; done)
    | split
    | simp only [h0, ↓State.onNvs_blank, ↓blank_ite, ↓fst_ite, ite_self, implies_true]

theorem State.markSlot_blank (h0 : bl .regs = true) (h1 : bl .nvs = true) (s : State) (i : Nat) (code : Nat) : State.blank bl (State.markSlot s i code) = State.blank bl s := by
  unfold State.markSlot
  repeat' first
    | with_reducible rfl
    | (simp only [h0, h1, ↓State.setBit_blank, ↓State.onSlot_blank, ↓blank_ite, ↓fst_ite, ite_self, implies_true]; done)
    | split
    | simp only [h0, h1, ↓State.setBit_blank, ↓State.onSlot_blank, ↓blank_ite, ↓fst_ite, ite_self, implies_true]

theorem State.trySlots_blank (h0 : bl .regs = true) (h1 : bl .nvs = true) (s : State) (a1 : List Nat) : State.blank bl (State.trySlots s a1).1 = State.blank bl s := by
  induction a1 generalizing s with
  | nil => unfold State.trySlots; first | rfl | (split <;> rfl)
  | cons i is ih =>
    unfold State.trySlots
    repeat' first
      | with_reducible rfl
      | (simp only [h0, h1, ↓State.markSlot_blank, ↓blank_ite, ↓fst_ite, ite_self, implies_true, ↓ih]; done)
      | split
      | simp only [h0, h1, ↓State.markSlot_blank, ↓blank_ite, ↓fst_ite, ite_self, implies_true, ↓ih]

theorem State.chooseSlot_blank (h0 : bl .regs = true) (h1 : bl .nvs = true) (s : State) : State.blank bl (State.chooseSlot s).1 = State.blank bl s := by
  unfold State.chooseSlot
  repeat' first
    | with_reducible rfl
    | (simp only [h0, h1, ↓State.onNvs_blank, State.each_blank, ↓State.markSlot_blank, ↓State.onSlot_blank, ↓State.trySlots_blank, ↓blank_ite, ↓fst_ite, ite_self, implies_true]; done)
    | split
    | simp only [h0, h1, ↓State.onNvs_blank, State.each_blank, ↓State.markSlot_blank, ↓State.onSlot_blank, ↓State.trySlots_blank, ↓blank_ite, ↓fst_ite, ite_self, implies_true]
    | refine (State.each_blank _ _ _ ?_).trans ?_
    | intro _

theorem State.placeFirmware_blank (h0 : bl .mem = true) (s : State) : State.blank bl (State.placeFirmware s) = State.blank bl s := by
  unfold State.placeFirmware
  repeat' first
    | with_reducible rfl
    | (simp only [h0, ↓State.hwrite_blank, ↓blank_ite, ↓fst_ite, ite_self, implies_true]; done)
    | split
    | simp only [h0, ↓State.hwrite_blank, ↓blank_ite, ↓fst_ite, ite_self, implies_true]

theorem State.trainMemory_blank (h0 : bl .regs = true) (s : State) (chans : List (Nat × Nat × Nat)) : State.blank bl (State.trainMemory s chans) = State.blank bl s := by
  unfold State.trainMemory
  repeat' first
    | with_reducible rfl
    | (simp only [h0, ↓State.setReg_blank, ↓blank_ite, ↓fst_ite, ite_self, implies_true]; done)
    | split
    | simp only [h0, ↓State.setReg_blank, ↓blank_ite, ↓fst_ite, ite_self, implies_true]

theorem State.loadSettings_blank (h0 : bl .regs = true) (h1 : bl .tdc = true) (h2 : bl .sys = true) (s : State) : State.blank bl (State.loadSettings s) = State.blank bl s := by
  unfold State.loadSettings
  repeat' first
    | with_reducible rfl
    | (simp only [h0, h1, h2, State.each_blank, ↓State.restoreReg_blank, ↓State.recallTable_blank, ↓State.setReg_blank, ↓State.onSys_blank, ↓blank_ite, ↓fst_ite, ite_self, implies_true]; done)
    | split
    | simp only [h0, h1, h2, State.each_blank, ↓State.restoreReg_blank, ↓State.recallTable_blank, ↓State.setReg_blank, ↓State.onSys_blank, ↓blank_ite, ↓fst_ite, ite_self, implies_true]
    | refine (State.each_blank _ _ _ ?_).trans ?_
    | intro _

theorem State.bootStart_blank (h0 : bl .out = true) (h1 : bl .fns = true) (h2 : bl .regs = true) (h3 : bl .tb = true) (h4 : bl .rx = true) (h5 : bl .tiles = true) (h6 : bl .cmd = true) (h7 : bl .mirLanes = true) (h8 : bl .queues = true) (h9 : bl .bellows = true) (h10 : bl .engines = true) (h11 : bl .cores = true) (h12 : bl .tdc = true) (h13 : bl .bgs = true) (h14 : bl .field = true) (h15 : bl .hearth = true) (h16 : bl .trig = true) (h17 : bl .staging = true) (h18 : bl .comps = true) (h19 : bl .pair = true) (h20 : bl .host = true) (h21 : bl .ptp = true) (s : State) (f : Fn) : State.blank bl (State.bootStart s f) = State.blank bl s := by
  unfold State.bootStart
  repeat' first
    | with_reducible rfl
    | (simp only [h0, h1, h2, h3, h4, h5, h6, h7, h8, h9, h10, h11, h12, h13, h14, h15, h16, h17, h18, h19, h20, h21, ↓startingComplete_blank, ↓State.startFn_blank, ↓blank_ite, ↓fst_ite, ite_self, implies_true]; done)
    | split
    | simp only [h0, h1, h2, h3, h4, h5, h6, h7, h8, h9, h10, h11, h12, h13, h14, h15, h16, h17, h18, h19, h20, h21, ↓startingComplete_blank, ↓State.startFn_blank, ↓blank_ite, ↓fst_ite, ite_self, implies_true]

theorem State.bootOn_blank (h0 : bl .out = true) (h1 : bl .fns = true) (h2 : bl .regs = true) (h3 : bl .tb = true) (h4 : bl .rx = true) (h5 : bl .tiles = true) (h6 : bl .cmd = true) (h7 : bl .mirLanes = true) (h8 : bl .queues = true) (h9 : bl .bellows = true) (h10 : bl .engines = true) (h11 : bl .cores = true) (h12 : bl .tdc = true) (h13 : bl .bgs = true) (h14 : bl .field = true) (h15 : bl .hearth = true) (h16 : bl .mem = true) (h17 : bl .trig = true) (h18 : bl .staging = true) (h19 : bl .comps = true) (h20 : bl .pair = true) (h21 : bl .host = true) (h22 : bl .ptp = true) (h23 : bl .sys = true) (x : BootFacts) (events : List (Nat × Nat)) (s : State) : State.blank bl (State.bootOn x events s) = State.blank bl s := by
  unfold State.bootOn
  repeat' first
    | with_reducible rfl
    | (simp only [h0, h1, h2, h3, h4, h5, h6, h7, h8, h9, h10, h11, h12, h13, h14, h15, h16, h17, h18, h19, h20, h21, h22, h23, ↓State.placeFirmware_blank, ↓State.trainMemory_blank, ↓State.loadSettings_blank, ↓State.putFns_blank, ↓State.aouStop_blank, ↓State.domUp_blank, ↓State.startFwCore_blank, ↓State.bootStart_blank, ↓tongsTakeHold_blank, State.each_blank, ↓State.logUpd_blank, ↓State.onSys_blank, ↓State.reloadMark_blank, ↓State.reloadStart_blank, ↓blank_ite, ↓fst_ite, ite_self, implies_true]; done)
    | split
    | simp only [h0, h1, h2, h3, h4, h5, h6, h7, h8, h9, h10, h11, h12, h13, h14, h15, h16, h17, h18, h19, h20, h21, h22, h23, ↓State.placeFirmware_blank, ↓State.trainMemory_blank, ↓State.loadSettings_blank, ↓State.putFns_blank, ↓State.aouStop_blank, ↓State.domUp_blank, ↓State.startFwCore_blank, ↓State.bootStart_blank, ↓tongsTakeHold_blank, State.each_blank, ↓State.logUpd_blank, ↓State.onSys_blank, ↓State.reloadMark_blank, ↓State.reloadStart_blank, ↓blank_ite, ↓fst_ite, ite_self, implies_true]
    | refine (State.each_blank _ _ _ ?_).trans ?_
    | intro _

theorem State.runFrom_blank (h0 : bl .regs = true) (h1 : bl .nvs = true) (s : State) (i : Nat) : State.blank bl (State.runFrom s i) = State.blank bl s := by
  unfold State.runFrom
  repeat' first
    | with_reducible rfl
    | (simp only [h0, h1, ↓State.setBit_blank, ↓State.onSlot_blank, ↓State.setReg_blank, ↓blank_ite, ↓fst_ite, ite_self, implies_true]; done)
    | split
    | simp only [h0, h1, ↓State.setBit_blank, ↓State.onSlot_blank, ↓State.setReg_blank, ↓blank_ite, ↓fst_ite, ite_self, implies_true]

theorem State.bootNow_blank (h0 : bl .out = true) (h1 : bl .fns = true) (h2 : bl .regs = true) (h3 : bl .tb = true) (h4 : bl .rx = true) (h5 : bl .tiles = true) (h6 : bl .cmd = true) (h7 : bl .mirLanes = true) (h8 : bl .queues = true) (h9 : bl .bellows = true) (h10 : bl .engines = true) (h11 : bl .cores = true) (h12 : bl .tdc = true) (h13 : bl .bgs = true) (h14 : bl .field = true) (h15 : bl .hearth = true) (h16 : bl .mem = true) (h17 : bl .trig = true) (h18 : bl .staging = true) (h19 : bl .comps = true) (h20 : bl .pair = true) (h21 : bl .host = true) (h22 : bl .ptp = true) (h23 : bl .nvs = true) (h24 : bl .sys = true) (x : BootFacts) (s : State) : State.blank bl (State.bootNow x s) = State.blank bl s := by
  unfold State.bootNow
  repeat' first
    | with_reducible rfl
    | (simp only [h0, h1, h2, h3, h4, h5, h6, h7, h8, h9, h10, h11, h12, h13, h14, h15, h16, h17, h18, h19, h20, h21, h22, h23, h24, ↓State.setBit_blank, ↓State.setLink_blank, ↓State.chooseSlot_blank, ↓State.bootOn_blank, ↓State.runFrom_blank, ↓State.onSys_blank, ↓blank_ite, ↓fst_ite, ite_self, implies_true]; done)
    | split
    | simp only [h0, h1, h2, h3, h4, h5, h6, h7, h8, h9, h10, h11, h12, h13, h14, h15, h16, h17, h18, h19, h20, h21, h22, h23, h24, ↓State.setBit_blank, ↓State.setLink_blank, ↓State.chooseSlot_blank, ↓State.bootOn_blank, ↓State.runFrom_blank, ↓State.onSys_blank, ↓blank_ite, ↓fst_ite, ite_self, implies_true]

theorem State.leaveReset_blank (h0 : bl .out = true) (h1 : bl .fns = true) (h2 : bl .regs = true) (h3 : bl .tb = true) (h4 : bl .rx = true) (h5 : bl .tiles = true) (h6 : bl .cmd = true) (h7 : bl .mirLanes = true) (h8 : bl .queues = true) (h9 : bl .bellows = true) (h10 : bl .engines = true) (h11 : bl .cores = true) (h12 : bl .tdc = true) (h13 : bl .bgs = true) (h14 : bl .field = true) (h15 : bl .hearth = true) (h16 : bl .mem = true) (h17 : bl .trig = true) (h18 : bl .staging = true) (h19 : bl .comps = true) (h20 : bl .pair = true) (h21 : bl .host = true) (h22 : bl .ptp = true) (h23 : bl .nvs = true) (h24 : bl .sys = true) (x : BootFacts) (s : State) : State.blank bl (State.leaveReset x s) = State.blank bl s := by
  unfold State.leaveReset
  repeat' first
    | with_reducible rfl
    | (simp only [h0, h1, h2, h3, h4, h5, h6, h7, h8, h9, h10, h11, h12, h13, h14, h15, h16, h17, h18, h19, h20, h21, h22, h23, h24, ↓State.bootNow_blank, ↓blank_ite, ↓fst_ite, ite_self, implies_true]; done)
    | split
    | simp only [h0, h1, h2, h3, h4, h5, h6, h7, h8, h9, h10, h11, h12, h13, h14, h15, h16, h17, h18, h19, h20, h21, h22, h23, h24, ↓State.bootNow_blank, ↓blank_ite, ↓fst_ite, ite_self, implies_true]

theorem State.onTap_blank (h0 : bl .tap = true) (s : State) (g : Tap → Tap) : State.blank bl (State.onTap s g) = State.blank bl s := by
  unfold State.onTap
  repeat' first
    | with_reducible rfl
    | (simp only [h0, ↓State.putTap_blank, ↓blank_ite, ↓fst_ite, ite_self, implies_true]; done)
    | split
    | simp only [h0, ↓State.putTap_blank, ↓blank_ite, ↓fst_ite, ite_self, implies_true]

theorem State.loadIr_blank (h0 : bl .out = true) (h1 : bl .tap = true) (s : State) (ir : Nat) : State.blank bl (State.loadIr s ir) = State.blank bl s := by
  unfold State.loadIr
  repeat' first
    | with_reducible rfl
    | (simp only [h0, h1, ↓State.onTap_blank, ↓State.emit_blank, ↓blank_ite, ↓fst_ite, ite_self, implies_true]; done)
    | split
    | simp only [h0, h1, ↓State.onTap_blank, ↓State.emit_blank, ↓blank_ite, ↓fst_ite, ite_self, implies_true]

theorem dbgChallenge_blank (h0 : bl .out = true) (h1 : bl .sys = true) (h2 : bl .tap = true) (noise : List Byte) (s : State) : State.blank bl (dbgChallenge noise s) = State.blank bl s := by
  unfold dbgChallenge
  repeat' first
    | with_reducible rfl
    | (simp only [h0, h1, h2, ↓State.loadIr_blank, ↓State.emit_blank, ↓State.onSys_blank, ↓blank_ite, ↓fst_ite, ite_self, implies_true]; done)
    | split
    | simp only [h0, h1, h2, ↓State.loadIr_blank, ↓State.emit_blank, ↓State.onSys_blank, ↓blank_ite, ↓fst_ite, ite_self, implies_true]

theorem State.receiving_blank (h0 : bl .nvs = true) (s : State) (slot : Nat) : State.blank bl (State.receiving s slot) = State.blank bl s := by
  unfold State.receiving
  repeat' first
    | with_reducible rfl
    | (simp only [h0, ↓State.onSlot_blank, ↓blank_ite, ↓fst_ite, ite_self, implies_true]; done)
    | split
    | simp only [h0, ↓State.onSlot_blank, ↓blank_ite, ↓fst_ite, ite_self, implies_true]

theorem State.sendAck_blank (h0 : bl .out = true) (h1 : bl .ptp = true) (s : State) (p : Nat) (off : Nat) (status : Nat) : State.blank bl (State.sendAck s p off status) = State.blank bl s := by
  unfold State.sendAck
  repeat' first
    | with_reducible rfl
    | (simp only [h0, h1, ↓State.onPtp_blank, ↓State.rigSend_blank, ↓blank_ite, ↓fst_ite, ite_self, implies_true]; done)
    | split
    | simp only [h0, h1, ↓State.onPtp_blank, ↓State.rigSend_blank, ↓blank_ite, ↓fst_ite, ite_self, implies_true]

theorem State.forgetChain_blank (h0 : bl .ptp = true) (s : State) : State.blank bl (State.forgetChain s) = State.blank bl s := by
  unfold State.forgetChain
  repeat' first
    | with_reducible rfl
    | (simp only [h0, State.each_blank, ↓State.onPort_blank, ↓blank_ite, ↓fst_ite, ite_self, implies_true]; done)
    | split
    | simp only [h0, State.each_blank, ↓State.onPort_blank, ↓blank_ite, ↓fst_ite, ite_self, implies_true]
    | refine (State.each_blank _ _ _ ?_).trans ?_
    | intro _

theorem State.updPiece_blank (h0 : bl .tb = true) (h1 : bl .sys = true) (s : State) (u : ImgIn) (o : Nat) (bs : List Byte) : State.blank bl (State.updPiece s u o bs).1 = State.blank bl s := by
  unfold State.updPiece
  repeat' first
    | with_reducible rfl
    | (simp only [h0, h1, ↓State.onSys_blank, ↓State.updEnd_blank, ↓blank_ite, ↓fst_ite, ite_self, implies_true]; done)
    | split
    | simp only [h0, h1, ↓State.onSys_blank, ↓State.updEnd_blank, ↓blank_ite, ↓fst_ite, ite_self, implies_true]

theorem State.chainPiece_blank (h0 : bl .tb = true) (h1 : bl .ptp = true) (h2 : bl .nvs = true) (h3 : bl .sys = true) (s : State) (p : Nat) (o : Nat) (bs : List Byte) : State.blank bl (State.chainPiece s p o bs).1 = State.blank bl s := by
  unfold State.chainPiece
  repeat' first
    | with_reducible rfl
    | (simp only [h0, h1, h2, h3, ↓State.forgetChain_blank, ↓State.receiving_blank, ↓State.updPiece_blank, ↓State.onSys_blank, ↓State.onPort_blank, ↓blank_ite, ↓fst_ite, ite_self, implies_true]; done)
    | split
    | simp only [h0, h1, h2, h3, ↓State.forgetChain_blank, ↓State.receiving_blank, ↓State.updPiece_blank, ↓State.onSys_blank, ↓State.onPort_blank, ↓blank_ite, ↓fst_ite, ite_self, implies_true]

theorem State.spoilSlot_blank (h0 : bl .nvs = true) (s : State) (u : ImgIn) : State.blank bl (State.spoilSlot s u) = State.blank bl s := by
  unfold State.spoilSlot
  repeat' first
    | with_reducible rfl
    | (simp only [h0, ↓State.onSlot_blank, ↓blank_ite, ↓fst_ite, ite_self, implies_true]; done)
    | split
    | simp only [h0, ↓State.onSlot_blank, ↓blank_ite, ↓fst_ite, ite_self, implies_true]

theorem State.keyOp_blank (h0 : bl .nvs = true) (s : State) (img : List Byte) : State.blank bl (State.keyOp s img) = State.blank bl s := by
  unfold State.keyOp
  repeat' first
    | with_reducible rfl
    | (simp only [h0, ↓State.onNvs_blank, ↓blank_ite, ↓fst_ite, ite_self, implies_true]; done)
    | split
    | simp only [h0, ↓State.onNvs_blank, ↓blank_ite, ↓fst_ite, ite_self, implies_true]

theorem State.installed_blank (h0 : bl .nvs = true) (s : State) (u : ImgIn) (img : List Byte) : State.blank bl (State.installed s u img) = State.blank bl s := by
  unfold State.installed
  repeat' first
    | with_reducible rfl
    | (simp only [h0, ↓State.onSlot_blank, ↓State.onNvs_blank, ↓State.keyOp_blank, ↓blank_ite, ↓fst_ite, ite_self, implies_true]; done)
    | split
    | simp only [h0, ↓State.onSlot_blank, ↓State.onNvs_blank, ↓State.keyOp_blank, ↓blank_ite, ↓fst_ite, ite_self, implies_true]

theorem State.commit_blank (h0 : bl .tb = true) (h1 : bl .nvs = true) (h2 : bl .sys = true) (s : State) (u : ImgIn) (fail : Bool) : State.blank bl (State.commit s u fail).1 = State.blank bl s := by
  unfold State.commit
  repeat' first
    | with_reducible rfl
    | (simp only [h0, h1, h2, ↓State.onNvs_blank, ↓State.onSys_blank, ↓State.updEnd_blank, ↓State.spoilSlot_blank, ↓State.installed_blank, ↓State.logUpd_blank, ↓blank_ite, ↓fst_ite, ite_self, implies_true]; done)
    | split
    | simp only [h0, h1, h2, ↓State.onNvs_blank, ↓State.onSys_blank, ↓State.updEnd_blank, ↓State.spoilSlot_blank, ↓State.installed_blank, ↓State.logUpd_blank, ↓blank_ite, ↓fst_ite, ite_self, implies_true]

theorem State.sendPiece_blank (h0 : bl .out = true) (h1 : bl .ptp = true) (s : State) (p : Nat) (o : Nat) (img : List Byte) : State.blank bl (State.sendPiece s p o img) = State.blank bl s := by
  unfold State.sendPiece
  repeat' first
    | with_reducible rfl
    | (simp only [h0, h1, ↓State.onPtp_blank, ↓State.rigSend_blank, ↓blank_ite, ↓fst_ite, ite_self, implies_true]; done)
    | split
    | simp only [h0, h1, ↓State.onPtp_blank, ↓State.rigSend_blank, ↓blank_ite, ↓fst_ite, ite_self, implies_true]

theorem State.sendMore_blank (h0 : bl .out = true) (h1 : bl .ptp = true) (s : State) (p : Nat) (a2 : Nat) : State.blank bl (State.sendMore s p a2) = State.blank bl s := by
  induction a2 generalizing s with
  | zero => unfold State.sendMore; first | rfl | (split <;> rfl)
  | succ k ih =>
    unfold State.sendMore
    repeat' first
      | with_reducible rfl
      | (simp only [h0, h1, ↓State.sendPiece_blank, ↓State.onPort_blank, ↓blank_ite, ↓fst_ite, ite_self, implies_true, ↓ih]; done)
      | split
      | simp only [h0, h1, ↓State.sendPiece_blank, ↓State.onPort_blank, ↓blank_ite, ↓fst_ite, ite_self, implies_true, ↓ih]

theorem State.chainTo_blank (h0 : bl .ptp = true) (s : State) (img : List Byte) (ports : List Nat) : State.blank bl (State.chainTo s img ports) = State.blank bl s := by
  unfold State.chainTo
  repeat' first
    | with_reducible rfl
    | (simp only [h0, State.each_blank, ↓State.onPort_blank, ↓blank_ite, ↓fst_ite, ite_self, implies_true]; done)
    | split
    | simp only [h0, State.each_blank, ↓State.onPort_blank, ↓blank_ite, ↓fst_ite, ite_self, implies_true]
    | refine (State.each_blank _ _ _ ?_).trans ?_
    | intro _

theorem State.passOn_blank (h0 : bl .out = true) (h1 : bl .ptp = true) (s : State) (img : List Byte) (ports : List Nat) : State.blank bl (State.passOn s img ports) = State.blank bl s := by
  unfold State.passOn
  repeat' first
    | with_reducible rfl
    | (simp only [h0, h1, State.each_blank, ↓State.sendMore_blank, ↓State.chainTo_blank, ↓blank_ite, ↓fst_ite, ite_self, implies_true]; done)
    | split
    | simp only [h0, h1, State.each_blank, ↓State.sendMore_blank, ↓State.chainTo_blank, ↓blank_ite, ↓fst_ite, ite_self, implies_true]
    | refine (State.each_blank _ _ _ ?_).trans ?_
    | intro _

theorem State.chainCommit_blank (h0 : bl .out = true) (h1 : bl .tb = true) (h2 : bl .ptp = true) (h3 : bl .nvs = true) (h4 : bl .sys = true) (s : State) (p : Nat) (len : Nat) (fail : Bool) : State.blank bl (State.chainCommit s p len fail) = State.blank bl s := by
  unfold State.chainCommit
  repeat' first
    | with_reducible rfl
    | (simp only [h0, h1, h2, h3, h4, ↓State.commit_blank, ↓State.onPort_blank, ↓State.passOn_blank, ↓blank_ite, ↓fst_ite, ite_self, implies_true]; done)
    | split
    | simp only [h0, h1, h2, h3, h4, ↓State.commit_blank, ↓State.onPort_blank, ↓State.passOn_blank, ↓blank_ite, ↓fst_ite, ite_self, implies_true]

theorem imgBlockRx_blank (h0 : bl .out = true) (h1 : bl .regs = true) (h2 : bl .tb = true) (h3 : bl .ptp = true) (h4 : bl .nvs = true) (h5 : bl .sys = true) (p : Fin 2) (fcs : Bool) (frame : List Byte) (fail : Bool) (s : State) : State.blank bl (imgBlockRx p fcs frame fail s) = State.blank bl s := by
  unfold imgBlockRx
  repeat' first
    | with_reducible rfl
    | (simp only [h0, h1, h2, h3, h4, h5, State.rigRx_blank, ↓State.sendAck_blank, ↓State.chainPiece_blank, ↓State.chainCommit_blank, ↓blank_ite, ↓fst_ite, ite_self, implies_true]; done)
    | split
    | simp only [h0, h1, h2, h3, h4, h5, State.rigRx_blank, ↓State.sendAck_blank, ↓State.chainPiece_blank, ↓State.chainCommit_blank, ↓blank_ite, ↓fst_ite, ite_self, implies_true]
    | refine (State.rigRx_blank h1 _ _ _ _ _ _ _ ?_).trans ?_
    | intro _

theorem State.confirm_blank (h0 : bl .tb = true) (h1 : bl .nvs = true) (s : State) (idx : Nat) (how : Nat) : State.blank bl (State.confirm s idx how) = State.blank bl s := by
  unfold State.confirm
  repeat' first
    | with_reducible rfl
    | (simp only [h0, h1, ↓State.onSlot_blank, ↓State.logUpd_blank, ↓blank_ite, ↓fst_ite, ite_self, implies_true]; done)
    | split
    | simp only [h0, h1, ↓State.onSlot_blank, ↓State.logUpd_blank, ↓blank_ite, ↓fst_ite, ite_self, implies_true]

theorem trialConfirmTimeout_blank (h0 : bl .tb = true) (h1 : bl .nvs = true) (s : State) : State.blank bl (trialConfirmTimeout s) = State.blank bl s := by
  unfold trialConfirmTimeout
  repeat' first
    | with_reducible rfl
    | (simp only [h0, h1, ↓State.confirm_blank, ↓blank_ite, ↓fst_ite, ite_self, implies_true]; done)
    | split
    | simp only [h0, h1, ↓State.confirm_blank, ↓blank_ite, ↓fst_ite, ite_self, implies_true]

theorem State.emitPreview_blank (h0 : bl .out = true) (h1 : bl .regs = true) (h2 : bl .host = true) (s : State) (e : Nat) (i : StripItem) (xs : List Nat) : State.blank bl (State.emitPreview s e i xs) = State.blank bl s := by
  unfold State.emitPreview
  repeat' first
    | with_reducible rfl
    | (simp only [h0, h1, h2, ↓State.pvPost_blank, ↓State.count_blank, ↓blank_ite, ↓fst_ite, ite_self, implies_true]; done)
    | split
    | simp only [h0, h1, h2, ↓State.pvPost_blank, ↓State.count_blank, ↓blank_ite, ↓fst_ite, ite_self, implies_true]

theorem State.putAux_blank (h0 : bl .regs = true) (h1 : bl .slots = true) (s : State) (e : Nat) (m : Nat) (v : Word) (t : Stamp) : State.blank bl (State.putAux s e m v t) = State.blank bl s := by
  unfold State.putAux
  repeat' first
    | with_reducible rfl
    | (simp only [h0, h1, ↓State.count_blank, ↓State.putSlots_blank, ↓blank_ite, ↓fst_ite, ite_self, implies_true]; done)
    | split
    | simp only [h0, h1, ↓State.count_blank, ↓State.putSlots_blank, ↓blank_ite, ↓fst_ite, ite_self, implies_true]

theorem State.engineEffect_blank (h0 : bl .out = true) (h1 : bl .freeUse = true) (h2 : bl .regs = true) (h3 : bl .tb = true) (h4 : bl .order = true) (h5 : bl .engines = true) (h6 : bl .slots = true) (h7 : bl .trig = true) (h8 : bl .staging = true) (h9 : bl .host = true) (s : State) (e : Nat) (eff : KEffect) : State.blank bl (State.engineEffect s e eff) = State.blank bl s := by
  unfold State.engineEffect
  repeat' first
    | with_reducible rfl
    | (simp only [h0, h1, h2, h3, h4, h5, h6, h7, h8, h9, ↓State.emitFrag_blank, ↓State.emitPreview_blank, ↓State.emitScore_blank, ↓State.putAux_blank, ↓State.engineWait_blank, ↓blank_ite, ↓fst_ite, ite_self, implies_true]; done)
    | split
    | simp only [h0, h1, h2, h3, h4, h5, h6, h7, h8, h9, ↓State.emitFrag_blank, ↓State.emitPreview_blank, ↓State.emitScore_blank, ↓State.putAux_blank, ↓State.engineWait_blank, ↓blank_ite, ↓fst_ite, ite_self, implies_true]

theorem State.engineBundle_blank (h0 : bl .out = true) (h1 : bl .freeUse = true) (h2 : bl .regs = true) (h3 : bl .tb = true) (h4 : bl .order = true) (h5 : bl .queues = true) (h6 : bl .engines = true) (h7 : bl .cores = true) (h8 : bl .postRecs = true) (h9 : bl .slots = true) (h10 : bl .trig = true) (h11 : bl .staging = true) (h12 : bl .host = true) (s : State) (e : Nat) (badFetch : Bool) (badData : Bool) : State.blank bl (State.engineBundle s e badFetch badData) = State.blank bl s := by
  unfold State.engineBundle
  repeat' first
    | with_reducible rfl
    | (simp only [h0, h1, h2, h3, h4, h5, h6, h7, h8, h9, h10, h11, h12, ↓State.engineFault_blank, ↓State.onEngine_blank, ↓State.engineEffect_blank, ↓State.paceCheck_blank, ↓blank_ite, ↓fst_ite, ite_self, implies_true]; done)
    | split
    | simp only [h0, h1, h2, h3, h4, h5, h6, h7, h8, h9, h10, h11, h12, ↓State.engineFault_blank, ↓State.onEngine_blank, ↓State.engineEffect_blank, ↓State.paceCheck_blank, ↓blank_ite, ↓fst_ite, ite_self, implies_true]

theorem State.postStatus_blank (h0 : bl .cores = true) (s : State) (c : Nat) (addr : Nat) (st : Nat) : State.blank bl (State.postStatus s c addr st) = State.blank bl s := by
  unfold State.postStatus
  repeat' first
    | with_reducible rfl
    | (simp only [h0, ↓State.onCore_blank, ↓blank_ite, ↓fst_ite, ite_self, implies_true]; done)
    | split
    | simp only [h0, ↓State.onCore_blank, ↓blank_ite, ↓fst_ite, ite_self, implies_true]

theorem State.recReply_blank (h0 : bl .out = true) (s : State) (status : Nat) : State.blank bl (State.recReply s status) = State.blank bl s := by
  unfold State.recReply
  repeat' first
    | with_reducible rfl
    | (simp only [h0, ↓State.emit_blank, ↓blank_ite, ↓fst_ite, ite_self, implies_true]; done)
    | split
    | simp only [h0, ↓State.emit_blank, ↓blank_ite, ↓fst_ite, ite_self, implies_true]

theorem recoveryStatus_blank (h0 : bl .out = true) (s : State) : State.blank bl (recoveryStatus s) = State.blank bl s := by
  unfold recoveryStatus
  repeat' first
    | with_reducible rfl
    | (simp only [h0, ↓State.recReply_blank, ↓blank_ite, ↓fst_ite, ite_self, implies_true]; done)
    | split
    | simp only [h0, ↓State.recReply_blank, ↓blank_ite, ↓fst_ite, ite_self, implies_true]

theorem pwrOkDeassert_blank (h0 : bl .out = true) (h1 : bl .fns = true) (h2 : bl .regs = true) (h3 : bl .tb = true) (h4 : bl .rx = true) (h5 : bl .tiles = true) (h6 : bl .cmd = true) (h7 : bl .mirLanes = true) (h8 : bl .order = true) (h9 : bl .queues = true) (h10 : bl .bellows = true) (h11 : bl .engines = true) (h12 : bl .cores = true) (h13 : bl .postRecs = true) (h14 : bl .postSeq = true) (h15 : bl .slots = true) (h16 : bl .tdc = true) (h17 : bl .bgs = true) (h18 : bl .field = true) (h19 : bl .hearth = true) (h20 : bl .mem = true) (h21 : bl .trig = true) (h22 : bl .staging = true) (h23 : bl .comps = true) (h24 : bl .jobs = true) (h25 : bl .pair = true) (h26 : bl .host = true) (h27 : bl .ptp = true) (h28 : bl .sys = true) (h29 : bl .tap = true) (h30 : bl .kept = true) (h31 : bl .keptBad = true) (s : State) : State.blank bl (pwrOkDeassert s) = State.blank bl s := by
  unfold pwrOkDeassert
  repeat' first
    | with_reducible rfl
    | (simp only [h0, h1, h2, h3, h4, h5, h6, h7, h8, h9, h10, h11, h12, h13, h14, h15, h16, h17, h18, h19, h20, h21, h22, h23, h24, h25, h26, h27, h28, h29, h30, h31, ↓State.deviceReset_blank, ↓State.onTap_blank, ↓blank_ite, ↓fst_ite, ite_self, implies_true]; done)
    | split
    | simp only [h0, h1, h2, h3, h4, h5, h6, h7, h8, h9, h10, h11, h12, h13, h14, h15, h16, h17, h18, h19, h20, h21, h22, h23, h24, h25, h26, h27, h28, h29, h30, h31, ↓State.deviceReset_blank, ↓State.onTap_blank, ↓blank_ite, ↓fst_ite, ite_self, implies_true]

theorem State.tapHold_blank (h0 : bl .out = true) (h1 : bl .fns = true) (h2 : bl .regs = true) (h3 : bl .tb = true) (h4 : bl .rx = true) (h5 : bl .tiles = true) (h6 : bl .cmd = true) (h7 : bl .mirLanes = true) (h8 : bl .order = true) (h9 : bl .queues = true) (h10 : bl .bellows = true) (h11 : bl .engines = true) (h12 : bl .cores = true) (h13 : bl .postRecs = true) (h14 : bl .postSeq = true) (h15 : bl .slots = true) (h16 : bl .tdc = true) (h17 : bl .bgs = true) (h18 : bl .field = true) (h19 : bl .hearth = true) (h20 : bl .mem = true) (h21 : bl .trig = true) (h22 : bl .staging = true) (h23 : bl .comps = true) (h24 : bl .jobs = true) (h25 : bl .pair = true) (h26 : bl .host = true) (h27 : bl .ptp = true) (h28 : bl .sys = true) (h29 : bl .tap = true) (h30 : bl .kept = true) (h31 : bl .keptBad = true) (s : State) (ir : Nat) : State.blank bl (State.tapHold s ir) = State.blank bl s := by
  unfold State.tapHold
  repeat' first
    | with_reducible rfl
    | (simp only [h0, h1, h2, h3, h4, h5, h6, h7, h8, h9, h10, h11, h12, h13, h14, h15, h16, h17, h18, h19, h20, h21, h22, h23, h24, h25, h26, h27, h28, h29, h30, h31, ↓State.deviceReset_blank, ↓State.onTap_blank, ↓State.loadIr_blank, ↓blank_ite, ↓fst_ite, ite_self, implies_true]; done)
    | split
    | simp only [h0, h1, h2, h3, h4, h5, h6, h7, h8, h9, h10, h11, h12, h13, h14, h15, h16, h17, h18, h19, h20, h21, h22, h23, h24, h25, h26, h27, h28, h29, h30, h31, ↓State.deviceReset_blank, ↓State.onTap_blank, ↓State.loadIr_blank, ↓blank_ite, ↓fst_ite, ite_self, implies_true]

theorem highz_blank (h0 : bl .out = true) (h1 : bl .fns = true) (h2 : bl .regs = true) (h3 : bl .tb = true) (h4 : bl .rx = true) (h5 : bl .tiles = true) (h6 : bl .cmd = true) (h7 : bl .mirLanes = true) (h8 : bl .order = true) (h9 : bl .queues = true) (h10 : bl .bellows = true) (h11 : bl .engines = true) (h12 : bl .cores = true) (h13 : bl .postRecs = true) (h14 : bl .postSeq = true) (h15 : bl .slots = true) (h16 : bl .tdc = true) (h17 : bl .bgs = true) (h18 : bl .field = true) (h19 : bl .hearth = true) (h20 : bl .mem = true) (h21 : bl .trig = true) (h22 : bl .staging = true) (h23 : bl .comps = true) (h24 : bl .jobs = true) (h25 : bl .pair = true) (h26 : bl .host = true) (h27 : bl .ptp = true) (h28 : bl .sys = true) (h29 : bl .tap = true) (h30 : bl .kept = true) (h31 : bl .keptBad = true) (s : State) : State.blank bl (highz s) = State.blank bl s := by
  unfold highz
  repeat' first
    | with_reducible rfl
    | (simp only [h0, h1, h2, h3, h4, h5, h6, h7, h8, h9, h10, h11, h12, h13, h14, h15, h16, h17, h18, h19, h20, h21, h22, h23, h24, h25, h26, h27, h28, h29, h30, h31, ↓State.emit_blank, ↓State.tapHold_blank, ↓blank_ite, ↓fst_ite, ite_self, implies_true]; done)
    | split
    | simp only [h0, h1, h2, h3, h4, h5, h6, h7, h8, h9, h10, h11, h12, h13, h14, h15, h16, h17, h18, h19, h20, h21, h22, h23, h24, h25, h26, h27, h28, h29, h30, h31, ↓State.emit_blank, ↓State.tapHold_blank, ↓blank_ite, ↓fst_ite, ite_self, implies_true]

theorem State.programAt_blank (h0 : bl .nvs = true) (s : State) (u : ImgIn) (lo : Nat) (bs : List Byte) : State.blank bl (State.programAt s u lo bs) = State.blank bl s := by
  unfold State.programAt
  repeat' first
    | with_reducible rfl
    | (simp only [h0, ↓State.onNvs_blank, ↓State.onSlot_blank, ↓blank_ite, ↓fst_ite, ite_self, implies_true]; done)
    | split
    | simp only [h0, ↓State.onNvs_blank, ↓State.onSlot_blank, ↓blank_ite, ↓fst_ite, ite_self, implies_true]

theorem State.programNew_blank (h0 : bl .nvs = true) (s : State) (u : ImgIn) (v : ImgIn) : State.blank bl (State.programNew s u v) = State.blank bl s := by
  unfold State.programNew
  repeat' first
    | with_reducible rfl
    | (simp only [h0, State.each_blank, ↓State.programAt_blank, ↓blank_ite, ↓fst_ite, ite_self, implies_true]; done)
    | split
    | simp only [h0, State.each_blank, ↓State.programAt_blank, ↓blank_ite, ↓fst_ite, ite_self, implies_true]
    | refine (State.each_blank _ _ _ ?_).trans ?_
    | intro _

theorem State.recPiece_blank (h0 : bl .tb = true) (h1 : bl .nvs = true) (h2 : bl .sys = true) (s : State) (u : ImgIn) (o : Nat) (bs : List Byte) : State.blank bl (State.recPiece s u o bs).1 = State.blank bl s := by
  unfold State.recPiece
  repeat' first
    | with_reducible rfl
    | (simp only [h0, h1, h2, ↓State.updPiece_blank, ↓State.programNew_blank, ↓blank_ite, ↓fst_ite, ite_self, implies_true]; done)
    | split
    | simp only [h0, h1, h2, ↓State.updPiece_blank, ↓State.programNew_blank, ↓blank_ite, ↓fst_ite, ite_self, implies_true]

theorem imgLoad_blank (h0 : bl .out = true) (h1 : bl .tb = true) (h2 : bl .nvs = true) (h3 : bl .sys = true) (h4 : bl .tap = true) (w : Word) (s : State) : State.blank bl (imgLoad w s) = State.blank bl s := by
  unfold imgLoad
  repeat' first
    | with_reducible rfl
    | (simp only [h0, h1, h2, h3, h4, ↓State.loadIr_blank, ↓State.emit_blank, ↓State.recPiece_blank, ↓blank_ite, ↓fst_ite, ite_self, implies_true]; done)
    | split
    | simp only [h0, h1, h2, h3, h4, ↓State.loadIr_blank, ↓State.emit_blank, ↓State.recPiece_blank, ↓blank_ite, ↓fst_ite, ite_self, implies_true]

theorem State.tapIdle_blank (h0 : bl .out = true) (h1 : bl .fns = true) (h2 : bl .regs = true) (h3 : bl .tb = true) (h4 : bl .rx = true) (h5 : bl .tiles = true) (h6 : bl .cmd = true) (h7 : bl .mirLanes = true) (h8 : bl .queues = true) (h9 : bl .bellows = true) (h10 : bl .engines = true) (h11 : bl .cores = true) (h12 : bl .tdc = true) (h13 : bl .bgs = true) (h14 : bl .field = true) (h15 : bl .hearth = true) (h16 : bl .mem = true) (h17 : bl .trig = true) (h18 : bl .staging = true) (h19 : bl .comps = true) (h20 : bl .pair = true) (h21 : bl .host = true) (h22 : bl .ptp = true) (h23 : bl .nvs = true) (h24 : bl .sys = true) (h25 : bl .tap = true) (s : State) (x : BootFacts) : State.blank bl (State.tapIdle s x) = State.blank bl s := by
  unfold State.tapIdle
  repeat' first
    | with_reducible rfl
    | (simp only [h0, h1, h2, h3, h4, h5, h6, h7, h8, h9, h10, h11, h12, h13, h14, h15, h16, h17, h18, h19, h20, h21, h22, h23, h24, h25, ↓State.leaveReset_blank, ↓State.onTap_blank, ↓blank_ite, ↓fst_ite, ite_self, implies_true]; done)
    | split
    | simp only [h0, h1, h2, h3, h4, h5, h6, h7, h8, h9, h10, h11, h12, h13, h14, h15, h16, h17, h18, h19, h20, h21, h22, h23, h24, h25, ↓State.leaveReset_blank, ↓State.onTap_blank, ↓blank_ite, ↓fst_ite, ite_self, implies_true]

theorem testLogicResetEntry_blank (h0 : bl .out = true) (h1 : bl .fns = true) (h2 : bl .regs = true) (h3 : bl .tb = true) (h4 : bl .rx = true) (h5 : bl .tiles = true) (h6 : bl .cmd = true) (h7 : bl .mirLanes = true) (h8 : bl .queues = true) (h9 : bl .bellows = true) (h10 : bl .engines = true) (h11 : bl .cores = true) (h12 : bl .tdc = true) (h13 : bl .bgs = true) (h14 : bl .field = true) (h15 : bl .hearth = true) (h16 : bl .mem = true) (h17 : bl .trig = true) (h18 : bl .staging = true) (h19 : bl .comps = true) (h20 : bl .pair = true) (h21 : bl .host = true) (h22 : bl .ptp = true) (h23 : bl .nvs = true) (h24 : bl .sys = true) (h25 : bl .tap = true) (x : BootFacts) (s : State) : State.blank bl (testLogicResetEntry x s) = State.blank bl s := by
  unfold testLogicResetEntry
  repeat' first
    | with_reducible rfl
    | (simp only [h0, h1, h2, h3, h4, h5, h6, h7, h8, h9, h10, h11, h12, h13, h14, h15, h16, h17, h18, h19, h20, h21, h22, h23, h24, h25, ↓State.tapIdle_blank, ↓blank_ite, ↓fst_ite, ite_self, implies_true]; done)
    | split
    | simp only [h0, h1, h2, h3, h4, h5, h6, h7, h8, h9, h10, h11, h12, h13, h14, h15, h16, h17, h18, h19, h20, h21, h22, h23, h24, h25, ↓State.tapIdle_blank, ↓blank_ite, ↓fst_ite, ite_self, implies_true]

theorem bypass_blank (h0 : bl .out = true) (h1 : bl .tap = true) (s : State) : State.blank bl (bypass s) = State.blank bl s := by
  unfold bypass
  repeat' first
    | with_reducible rfl
    | (simp only [h0, h1, ↓State.emit_blank, ↓State.loadIr_blank, ↓blank_ite, ↓fst_ite, ite_self, implies_true]; done)
    | split
    | simp only [h0, h1, ↓State.emit_blank, ↓State.loadIr_blank, ↓blank_ite, ↓fst_ite, ite_self, implies_true]

theorem State.boundaryScan_blank (h0 : bl .out = true) (h1 : bl .tap = true) (s : State) (cells : List Byte) (pins : List Byte) : State.blank bl (State.boundaryScan s cells pins) = State.blank bl s := by
  unfold State.boundaryScan
  repeat' first
    | with_reducible rfl
    | (simp only [h0, h1, ↓State.emit_blank, ↓State.onTap_blank, ↓blank_ite, ↓fst_ite, ite_self, implies_true]; done)
    | split
    | simp only [h0, h1, ↓State.emit_blank, ↓State.onTap_blank, ↓blank_ite, ↓fst_ite, ite_self, implies_true]

theorem State.coreG_blank (h0 : bl .cores = true) (s : State) (c : Nat) (gd : Nat) (st : Nat) : State.blank bl (State.coreG s c gd st) = State.blank bl s := by
  unfold State.coreG
  repeat' first
    | with_reducible rfl
    | (simp only [h0, ↓State.onCore_blank, ↓blank_ite, ↓fst_ite, ite_self, implies_true]; done)
    | split
    | simp only [h0, ↓State.onCore_blank, ↓blank_ite, ↓fst_ite, ite_self, implies_true]

theorem extest_blank (h0 : bl .out = true) (h1 : bl .fns = true) (h2 : bl .regs = true) (h3 : bl .tb = true) (h4 : bl .rx = true) (h5 : bl .tiles = true) (h6 : bl .cmd = true) (h7 : bl .mirLanes = true) (h8 : bl .order = true) (h9 : bl .queues = true) (h10 : bl .bellows = true) (h11 : bl .engines = true) (h12 : bl .cores = true) (h13 : bl .postRecs = true) (h14 : bl .postSeq = true) (h15 : bl .slots = true) (h16 : bl .tdc = true) (h17 : bl .bgs = true) (h18 : bl .field = true) (h19 : bl .hearth = true) (h20 : bl .mem = true) (h21 : bl .trig = true) (h22 : bl .staging = true) (h23 : bl .comps = true) (h24 : bl .jobs = true) (h25 : bl .pair = true) (h26 : bl .host = true) (h27 : bl .ptp = true) (h28 : bl .sys = true) (h29 : bl .tap = true) (h30 : bl .kept = true) (h31 : bl .keptBad = true) (cells : List Byte) (pins : List Byte) (s : State) : State.blank bl (extest cells pins s) = State.blank bl s := by
  unfold extest
  repeat' first
    | with_reducible rfl
    | (simp only [h0, h1, h2, h3, h4, h5, h6, h7, h8, h9, h10, h11, h12, h13, h14, h15, h16, h17, h18, h19, h20, h21, h22, h23, h24, h25, h26, h27, h28, h29, h30, h31, ↓State.boundaryScan_blank, ↓State.tapHold_blank, ↓blank_ite, ↓fst_ite, ite_self, implies_true]; done)
    | split
    | simp only [h0, h1, h2, h3, h4, h5, h6, h7, h8, h9, h10, h11, h12, h13, h14, h15, h16, h17, h18, h19, h20, h21, h22, h23, h24, h25, h26, h27, h28, h29, h30, h31, ↓State.boundaryScan_blank, ↓State.tapHold_blank, ↓blank_ite, ↓fst_ite, ite_self, implies_true]

theorem State.postLs_blank (h0 : bl .regs = true) (h1 : bl .engines = true) (h2 : bl .cores = true) (h3 : bl .postRecs = true) (h4 : bl .postSeq = true) (s : State) (c : Nat) (addr : Nat) (d : List Byte) : State.blank bl (State.postLs s c addr d) = State.blank bl s := by
  unfold State.postLs
  repeat' first
    | with_reducible rfl
    | (simp only [h0, h1, h2, h3, h4, ↓State.postStatus_blank, ↓State.onCore_blank, ↓blank_ite, ↓fst_ite, ite_self, implies_true]; done)
    | split
    | simp only [h0, h1, h2, h3, h4, ↓State.postStatus_blank, ↓State.onCore_blank, ↓blank_ite, ↓fst_ite, ite_self, implies_true]
    | refine (State.postIssue_blank (by assumption) (by assumption) (by assumption) (by assumption) (by assumption) _ _ _ _ _ _ _ _ (by assumption)).trans ?_

theorem State.coreEffect_blank (h0 : bl .out = true) (h1 : bl .regs = true) (h2 : bl .tb = true) (h3 : bl .engines = true) (h4 : bl .cores = true) (h5 : bl .postRecs = true) (h6 : bl .postSeq = true) (h7 : bl .trig = true) (h8 : bl .host = true) (s : State) (c : Fin 4) (old : Proc) (eff : KEffect) : State.blank bl (State.coreEffect s c old eff) = State.blank bl s := by
  unfold State.coreEffect
  repeat' first
    | with_reducible rfl
    | (simp only [h0, h1, h2, h3, h4, h5, h6, h7, h8, ↓State.onCore_blank, ↓State.coreG_blank, ↓State.srcEdge_blank, ↓State.accept_blank, ↓State.postLs_blank, ↓blank_ite, ↓fst_ite, ite_self, implies_true]; done)
    | split
    | simp only [h0, h1, h2, h3, h4, h5, h6, h7, h8, ↓State.onCore_blank, ↓State.coreG_blank, ↓State.srcEdge_blank, ↓State.accept_blank, ↓State.postLs_blank, ↓blank_ite, ↓fst_ite, ite_self, implies_true]

theorem State.coreFault_blank (h0 : bl .out = true) (h1 : bl .fns = true) (h2 : bl .regs = true) (h3 : bl .tb = true) (h4 : bl .rx = true) (h5 : bl .tiles = true) (h6 : bl .cmd = true) (h7 : bl .mirLanes = true) (h8 : bl .order = true) (h9 : bl .queues = true) (h10 : bl .bellows = true) (h11 : bl .engines = true) (h12 : bl .cores = true) (h13 : bl .postRecs = true) (h14 : bl .postSeq = true) (h15 : bl .slots = true) (h16 : bl .tdc = true) (h17 : bl .bgs = true) (h18 : bl .field = true) (h19 : bl .hearth = true) (h20 : bl .mem = true) (h21 : bl .trig = true) (h22 : bl .staging = true) (h23 : bl .comps = true) (h24 : bl .jobs = true) (h25 : bl .pair = true) (h26 : bl .host = true) (h27 : bl .ptp = true) (h28 : bl .sys = true) (h29 : bl .kept = true) (h30 : bl .keptBad = true) (s : State) (c : Nat) (cause : Nat) : State.blank bl (State.coreFault s c cause) = State.blank bl s := by
  unfold State.coreFault
  repeat' first
    | with_reducible rfl
    | (simp only [h0, h1, h2, h3, h4, h5, h6, h7, h8, h9, h10, h11, h12, h13, h14, h15, h16, h17, h18, h19, h20, h21, h22, h23, h24, h25, h26, h27, h28, h29, h30, ↓State.onCore_blank, ↓State.deviceReset_blank, ↓State.putBgs_blank, ↓State.serviceEnd_blank, ↓State.faultFn_blank, ↓State.logDev_blank, ↓State.log_blank, ↓blank_ite, ↓fst_ite, ite_self, implies_true]; done)
    | split
    | simp only [h0, h1, h2, h3, h4, h5, h6, h7, h8, h9, h10, h11, h12, h13, h14, h15, h16, h17, h18, h19, h20, h21, h22, h23, h24, h25, h26, h27, h28, h29, h30, ↓State.onCore_blank, ↓State.deviceReset_blank, ↓State.putBgs_blank, ↓State.serviceEnd_blank, ↓State.faultFn_blank, ↓State.logDev_blank, ↓State.log_blank, ↓blank_ite, ↓fst_ite, ite_self, implies_true]

theorem State.coreBundle_blank (h0 : bl .out = true) (h1 : bl .fns = true) (h2 : bl .regs = true) (h3 : bl .tb = true) (h4 : bl .rx = true) (h5 : bl .tiles = true) (h6 : bl .cmd = true) (h7 : bl .mirLanes = true) (h8 : bl .order = true) (h9 : bl .queues = true) (h10 : bl .bellows = true) (h11 : bl .engines = true) (h12 : bl .cores = true) (h13 : bl .postRecs = true) (h14 : bl .postSeq = true) (h15 : bl .slots = true) (h16 : bl .tdc = true) (h17 : bl .bgs = true) (h18 : bl .field = true) (h19 : bl .hearth = true) (h20 : bl .mem = true) (h21 : bl .trig = true) (h22 : bl .staging = true) (h23 : bl .comps = true) (h24 : bl .jobs = true) (h25 : bl .pair = true) (h26 : bl .host = true) (h27 : bl .ptp = true) (h28 : bl .sys = true) (h29 : bl .kept = true) (h30 : bl .keptBad = true) (s : State) (c : Fin 4) (badFetch : Bool) (badData : Bool) : State.blank bl (State.coreBundle s c badFetch badData) = State.blank bl s := by
  unfold State.coreBundle
  repeat' first
    | with_reducible rfl
    | (simp only [h0, h1, h2, h3, h4, h5, h6, h7, h8, h9, h10, h11, h12, h13, h14, h15, h16, h17, h18, h19, h20, h21, h22, h23, h24, h25, h26, h27, h28, h29, h30, ↓State.coreFault_blank, ↓State.coreEffect_blank, ↓State.onCore_blank, ↓blank_ite, ↓fst_ite, ite_self, implies_true]; done)
    | split
    | simp only [h0, h1, h2, h3, h4, h5, h6, h7, h8, h9, h10, h11, h12, h13, h14, h15, h16, h17, h18, h19, h20, h21, h22, h23, h24, h25, h26, h27, h28, h29, h30, ↓State.coreFault_blank, ↓State.coreEffect_blank, ↓State.onCore_blank, ↓blank_ite, ↓fst_ite, ite_self, implies_true]

theorem bundleIssue_blank (h0 : bl .out = true) (h1 : bl .freeUse = true) (h2 : bl .fns = true) (h3 : bl .regs = true) (h4 : bl .tb = true) (h5 : bl .rx = true) (h6 : bl .tiles = true) (h7 : bl .cmd = true) (h8 : bl .mirLanes = true) (h9 : bl .order = true) (h10 : bl .queues = true) (h11 : bl .bellows = true) (h12 : bl .engines = true) (h13 : bl .cores = true) (h14 : bl .postRecs = true) (h15 : bl .postSeq = true) (h16 : bl .slots = true) (h17 : bl .tdc = true) (h18 : bl .bgs = true) (h19 : bl .field = true) (h20 : bl .hearth = true) (h21 : bl .mem = true) (h22 : bl .trig = true) (h23 : bl .staging = true) (h24 : bl .comps = true) (h25 : bl .jobs = true) (h26 : bl .pair = true) (h27 : bl .host = true) (h28 : bl .ptp = true) (h29 : bl .sys = true) (h30 : bl .kept = true) (h31 : bl .keptBad = true) (p : ProcId) (ecc : LsEcc) (s : State) : State.blank bl (bundleIssue p ecc s) = State.blank bl s := by
  unfold bundleIssue
  repeat' first
    | with_reducible rfl
    | (simp only [h0, h1, h2, h3, h4, h5, h6, h7, h8, h9, h10, h11, h12, h13, h14, h15, h16, h17, h18, h19, h20, h21, h22, h23, h24, h25, h26, h27, h28, h29, h30, h31, ↓State.count_blank, ↓State.engineBundle_blank, ↓State.coreBundle_blank, ↓blank_ite, ↓fst_ite, ite_self, implies_true]; done)
    | split
    | simp only [h0, h1, h2, h3, h4, h5, h6, h7, h8, h9, h10, h11, h12, h13, h14, h15, h16, h17, h18, h19, h20, h21, h22, h23, h24, h25, h26, h27, h28, h29, h30, h31, ↓State.count_blank, ↓State.engineBundle_blank, ↓State.coreBundle_blank, ↓blank_ite, ↓fst_ite, ite_self, implies_true]

theorem idcode_blank (h0 : bl .out = true) (h1 : bl .tap = true) (s : State) : State.blank bl (idcode s) = State.blank bl s := by
  unfold idcode
  repeat' first
    | with_reducible rfl
    | (simp only [h0, h1, ↓State.emit_blank, ↓State.loadIr_blank, ↓blank_ite, ↓fst_ite, ite_self, implies_true]; done)
    | split
    | simp only [h0, h1, ↓State.emit_blank, ↓State.loadIr_blank, ↓blank_ite, ↓fst_ite, ite_self, implies_true]

theorem State.reloadRound_blank (h0 : bl .out = true) (h1 : bl .regs = true) (h2 : bl .tb = true) (h3 : bl .rx = true) (h4 : bl .cmd = true) (h5 : bl .mirLanes = true) (h6 : bl .sys = true) (s : State) (r : FeReload) : State.blank bl (State.reloadRound s r) = State.blank bl s := by
  unfold State.reloadRound
  repeat' first
    | with_reducible rfl
    | (simp only [h0, h1, h2, h3, h4, h5, h6, ↓State.onSys_blank, ↓State.broadcast_blank, State.each_blank, ↓State.feMark_blank, ↓State.reloadNext_blank, ↓blank_ite, ↓fst_ite, ite_self, implies_true]; done)
    | split
    | simp only [h0, h1, h2, h3, h4, h5, h6, ↓State.onSys_blank, ↓State.broadcast_blank, State.each_blank, ↓State.feMark_blank, ↓State.reloadNext_blank, ↓blank_ite, ↓fst_ite, ite_self, implies_true]
    | refine (State.each_blank _ _ _ ?_).trans ?_
    | intro _

theorem State.reloadAnswer_blank (h0 : bl .out = true) (h1 : bl .regs = true) (h2 : bl .tb = true) (h3 : bl .rx = true) (h4 : bl .cmd = true) (h5 : bl .mirLanes = true) (h6 : bl .sys = true) (s : State) (l : Nat) (status : Nat) (data : Nat) : State.blank bl (State.reloadAnswer s l status data) = State.blank bl s := by
  unfold State.reloadAnswer
  repeat' first
    | with_reducible rfl
    | (simp only [h0, h1, h2, h3, h4, h5, h6, ↓State.count_blank, ↓State.reloadRound_blank, ↓blank_ite, ↓fst_ite, ite_self, implies_true]; done)
    | split
    | simp only [h0, h1, h2, h3, h4, h5, h6, ↓State.count_blank, ↓State.reloadRound_blank, ↓blank_ite, ↓fst_ite, ite_self, implies_true]

theorem cfgaRx_blank (h0 : bl .out = true) (h1 : bl .regs = true) (h2 : bl .tb = true) (h3 : bl .rx = true) (h4 : bl .cmd = true) (h5 : bl .mirLanes = true) (h6 : bl .sys = true) (l : Fin 96) (tag : Nat) (status : Nat) (data : Nat) (s : State) : State.blank bl (cfgaRx l tag status data s) = State.blank bl s := by
  unfold cfgaRx
  repeat' first
    | with_reducible rfl
    | (simp only [h0, h1, h2, h3, h4, h5, h6, ↓State.reloadAnswer_blank, ↓State.cfgaAnswer_blank, ↓blank_ite, ↓fst_ite, ite_self, implies_true]; done)
    | split
    | simp only [h0, h1, h2, h3, h4, h5, h6, ↓State.reloadAnswer_blank, ↓State.cfgaAnswer_blank, ↓blank_ite, ↓fst_ite, ite_self, implies_true]

theorem State.beginCommit_blank (h0 : bl .sys = true) (s : State) (u : ImgIn) : State.blank bl (State.beginCommit s u) = State.blank bl s := by
  unfold State.beginCommit
  repeat' first
    | with_reducible rfl
    | (simp only [h0, ↓State.onSys_blank, ↓blank_ite, ↓fst_ite, ite_self, implies_true]; done)
    | split
    | simp only [h0, ↓State.onSys_blank, ↓blank_ite, ↓fst_ite, ite_self, implies_true]

theorem updateCommit_blank (h0 : bl .out = true) (h1 : bl .tb = true) (h2 : bl .cores = true) (h3 : bl .host = true) (h4 : bl .ptp = true) (h5 : bl .nvs = true) (h6 : bl .sys = true) (src : Src) (fail : Bool) (s : State) : State.blank bl (updateCommit src fail s) = State.blank bl s := by
  unfold updateCommit
  repeat' first
    | with_reducible rfl
    | (simp only [h0, h1, h2, h3, h4, h5, h6, State.serve_blank, ↓State.reply_blank, ↓State.beginCommit_blank, ↓State.commit_blank, ↓State.passOn_blank, ↓blank_ite, ↓fst_ite, ite_self, implies_true]; done)
    | split
    | simp only [h0, h1, h2, h3, h4, h5, h6, State.serve_blank, ↓State.reply_blank, ↓State.beginCommit_blank, ↓State.commit_blank, ↓State.passOn_blank, ↓blank_ite, ↓fst_ite, ite_self, implies_true]
    | refine (State.serve_blank _ _ _ _ ?_).trans ?_
    | intro _

theorem waitEventTimeout_blank (h0 : bl .cores = true) (c : Fin 4) (s : State) : State.blank bl (waitEventTimeout c s) = State.blank bl s := by
  unfold waitEventTimeout
  repeat' first
    | with_reducible rfl
    | (simp only [h0, ↓State.onCore_blank, ↓State.coreG_blank, ↓blank_ite, ↓fst_ite, ite_self, implies_true]; done)
    | split
    | simp only [h0, ↓State.onCore_blank, ↓State.coreG_blank, ↓blank_ite, ↓fst_ite, ite_self, implies_true]

theorem recoveryBegin_blank (h0 : bl .out = true) (h1 : bl .nvs = true) (h2 : bl .sys = true) (target : Nat) (s : State) : State.blank bl (recoveryBegin target s) = State.blank bl s := by
  unfold recoveryBegin
  repeat' first
    | with_reducible rfl
    | (simp only [h0, h1, h2, ↓State.recReply_blank, ↓State.onSys_blank, ↓State.receiving_blank, ↓blank_ite, ↓fst_ite, ite_self, implies_true]; done)
    | split
    | simp only [h0, h1, h2, ↓State.recReply_blank, ↓State.onSys_blank, ↓State.receiving_blank, ↓blank_ite, ↓fst_ite, ite_self, implies_true]

theorem feReloadTimeout_blank (h0 : bl .out = true) (h1 : bl .regs = true) (h2 : bl .tb = true) (h3 : bl .rx = true) (h4 : bl .cmd = true) (h5 : bl .mirLanes = true) (h6 : bl .sys = true) (s : State) : State.blank bl (feReloadTimeout s) = State.blank bl s := by
  unfold feReloadTimeout
  repeat' first
    | with_reducible rfl
    | (simp only [h0, h1, h2, h3, h4, h5, h6, ↓State.reloadRound_blank, ↓blank_ite, ↓fst_ite, ite_self, implies_true]; done)
    | split
    | simp only [h0, h1, h2, h3, h4, h5, h6, ↓State.reloadRound_blank, ↓blank_ite, ↓fst_ite, ite_self, implies_true]

theorem updateBegin_blank (h0 : bl .out = true) (h1 : bl .cores = true) (h2 : bl .host = true) (h3 : bl .ptp = true) (h4 : bl .nvs = true) (h5 : bl .sys = true) (src : Src) (s : State) : State.blank bl (updateBegin src s) = State.blank bl s := by
  unfold updateBegin
  repeat' first
    | with_reducible rfl
    | (simp only [h0, h1, h2, h3, h4, h5, State.serve_blank, ↓State.reply_blank, ↓State.forgetChain_blank, ↓State.onSys_blank, ↓State.receiving_blank, ↓blank_ite, ↓fst_ite, ite_self, implies_true]; done)
    | split
    | simp only [h0, h1, h2, h3, h4, h5, State.serve_blank, ↓State.reply_blank, ↓State.forgetChain_blank, ↓State.onSys_blank, ↓State.receiving_blank, ↓blank_ite, ↓fst_ite, ite_self, implies_true]
    | refine (State.serve_blank _ _ _ _ ?_).trans ?_
    | intro _

theorem sysComplete_blank (h0 : bl .cores = true) (c : Fin 4) (s : State) : State.blank bl (sysComplete c s) = State.blank bl s := by
  unfold sysComplete
  repeat' first
    | with_reducible rfl
    | (simp only [h0, ↓State.onCore_blank, ↓blank_ite, ↓fst_ite, ite_self, implies_true]; done)
    | split
    | simp only [h0, ↓State.onCore_blank, ↓blank_ite, ↓fst_ite, ite_self, implies_true]

theorem extestPulse_blank (h0 : bl .out = true) (h1 : bl .fns = true) (h2 : bl .regs = true) (h3 : bl .tb = true) (h4 : bl .rx = true) (h5 : bl .tiles = true) (h6 : bl .cmd = true) (h7 : bl .mirLanes = true) (h8 : bl .order = true) (h9 : bl .queues = true) (h10 : bl .bellows = true) (h11 : bl .engines = true) (h12 : bl .cores = true) (h13 : bl .postRecs = true) (h14 : bl .postSeq = true) (h15 : bl .slots = true) (h16 : bl .tdc = true) (h17 : bl .bgs = true) (h18 : bl .field = true) (h19 : bl .hearth = true) (h20 : bl .mem = true) (h21 : bl .trig = true) (h22 : bl .staging = true) (h23 : bl .comps = true) (h24 : bl .jobs = true) (h25 : bl .pair = true) (h26 : bl .host = true) (h27 : bl .ptp = true) (h28 : bl .sys = true) (h29 : bl .tap = true) (h30 : bl .kept = true) (h31 : bl .keptBad = true) (cells : List Byte) (pins : List Byte) (s : State) : State.blank bl (extestPulse cells pins s) = State.blank bl s := by
  unfold extestPulse
  repeat' first
    | with_reducible rfl
    | (simp only [h0, h1, h2, h3, h4, h5, h6, h7, h8, h9, h10, h11, h12, h13, h14, h15, h16, h17, h18, h19, h20, h21, h22, h23, h24, h25, h26, h27, h28, h29, h30, h31, ↓State.boundaryScan_blank, ↓State.tapHold_blank, ↓blank_ite, ↓fst_ite, ite_self, implies_true]; done)
    | split
    | simp only [h0, h1, h2, h3, h4, h5, h6, h7, h8, h9, h10, h11, h12, h13, h14, h15, h16, h17, h18, h19, h20, h21, h22, h23, h24, h25, h26, h27, h28, h29, h30, h31, ↓State.boundaryScan_blank, ↓State.tapHold_blank, ↓blank_ite, ↓fst_ite, ite_self, implies_true]

theorem State.afterRead_blank (h0 : bl .regs = true) (s : State) (a : Nat) (ce : Bool) : State.blank bl (State.afterRead s a ce) = State.blank bl s := by
  unfold State.afterRead
  repeat' first
    | with_reducible rfl
    | (simp only [h0, ↓State.tbLatch_blank, ↓State.count_blank, ↓State.setReg_blank, ↓blank_ite, ↓fst_ite, ite_self, implies_true]; done)
    | split
    | simp only [h0, ↓State.tbLatch_blank, ↓State.count_blank, ↓State.setReg_blank, ↓blank_ite, ↓fst_ite, ite_self, implies_true]

theorem recoveryReset_blank (h0 : bl .out = true) (h1 : bl .fns = true) (h2 : bl .regs = true) (h3 : bl .tb = true) (h4 : bl .rx = true) (h5 : bl .tiles = true) (h6 : bl .cmd = true) (h7 : bl .mirLanes = true) (h8 : bl .order = true) (h9 : bl .queues = true) (h10 : bl .bellows = true) (h11 : bl .engines = true) (h12 : bl .cores = true) (h13 : bl .postRecs = true) (h14 : bl .postSeq = true) (h15 : bl .slots = true) (h16 : bl .tdc = true) (h17 : bl .bgs = true) (h18 : bl .field = true) (h19 : bl .hearth = true) (h20 : bl .mem = true) (h21 : bl .trig = true) (h22 : bl .staging = true) (h23 : bl .comps = true) (h24 : bl .jobs = true) (h25 : bl .pair = true) (h26 : bl .host = true) (h27 : bl .ptp = true) (h28 : bl .sys = true) (h29 : bl .kept = true) (h30 : bl .keptBad = true) (s : State) : State.blank bl (recoveryReset s) = State.blank bl s := by
  unfold recoveryReset
  repeat' first
    | with_reducible rfl
    | (simp only [h0, h1, h2, h3, h4, h5, h6, h7, h8, h9, h10, h11, h12, h13, h14, h15, h16, h17, h18, h19, h20, h21, h22, h23, h24, h25, h26, h27, h28, h29, h30, ↓State.deviceReset_blank, ↓State.recReply_blank, ↓blank_ite, ↓fst_ite, ite_self, implies_true]; done)
    | split
    | simp only [h0, h1, h2, h3, h4, h5, h6, h7, h8, h9, h10, h11, h12, h13, h14, h15, h16, h17, h18, h19, h20, h21, h22, h23, h24, h25, h26, h27, h28, h29, h30, ↓State.deviceReset_blank, ↓State.recReply_blank, ↓blank_ite, ↓fst_ite, ite_self, implies_true]

theorem State.tickScrub_blank (h0 : bl .bgs = true) (s : State) : State.blank bl (State.tickScrub s) = State.blank bl s := by
  unfold State.tickScrub
  repeat' first
    | with_reducible rfl
    | (simp only [h0, ↓State.putBgs_blank, ↓blank_ite, ↓fst_ite, ite_self, implies_true]; done)
    | split
    | simp only [h0, ↓State.putBgs_blank, ↓blank_ite, ↓fst_ite, ite_self, implies_true]

theorem dbgResponse_blank (h0 : bl .out = true) (h1 : bl .regs = true) (h2 : bl .tap = true) (slot : BitVec 8) (sig : List Byte) (s : State) : State.blank bl (dbgResponse slot sig s) = State.blank bl s := by
  unfold dbgResponse
  repeat' first
    | with_reducible rfl
    | (simp only [h0, h1, h2, ↓State.loadIr_blank, ↓State.setFld_blank, ↓State.setBit_blank, ↓blank_ite, ↓fst_ite, ite_self, implies_true]; done)
    | split
    | simp only [h0, h1, h2, ↓State.loadIr_blank, ↓State.setFld_blank, ↓State.setBit_blank, ↓blank_ite, ↓fst_ite, ite_self, implies_true]

theorem rcCounterRead_blank (h0 : bl .out = true) (h1 : bl .regs = true) (port : Fin 2) (addr : Nat) (ce : Bool) (s : State) : State.blank bl (rcCounterRead port addr ce s) = State.blank bl s := by
  unfold rcCounterRead
  repeat' first
    | with_reducible rfl
    | (simp only [h0, h1, ↓State.emit_blank, ↓State.afterRead_blank, ↓blank_ite, ↓fst_ite, ite_self, implies_true]; done)
    | split
    | simp only [h0, h1, ↓State.emit_blank, ↓State.afterRead_blank, ↓blank_ite, ↓fst_ite, ite_self, implies_true]

theorem resetNAssert_blank (h0 : bl .out = true) (h1 : bl .fns = true) (h2 : bl .regs = true) (h3 : bl .tb = true) (h4 : bl .rx = true) (h5 : bl .tiles = true) (h6 : bl .cmd = true) (h7 : bl .mirLanes = true) (h8 : bl .order = true) (h9 : bl .queues = true) (h10 : bl .bellows = true) (h11 : bl .engines = true) (h12 : bl .cores = true) (h13 : bl .postRecs = true) (h14 : bl .postSeq = true) (h15 : bl .slots = true) (h16 : bl .tdc = true) (h17 : bl .bgs = true) (h18 : bl .field = true) (h19 : bl .hearth = true) (h20 : bl .mem = true) (h21 : bl .trig = true) (h22 : bl .staging = true) (h23 : bl .comps = true) (h24 : bl .jobs = true) (h25 : bl .pair = true) (h26 : bl .host = true) (h27 : bl .ptp = true) (h28 : bl .sys = true) (h29 : bl .tap = true) (h30 : bl .kept = true) (h31 : bl .keptBad = true) (s : State) : State.blank bl (resetNAssert s) = State.blank bl s := by
  unfold resetNAssert
  repeat' first
    | with_reducible rfl
    | (simp only [h0, h1, h2, h3, h4, h5, h6, h7, h8, h9, h10, h11, h12, h13, h14, h15, h16, h17, h18, h19, h20, h21, h22, h23, h24, h25, h26, h27, h28, h29, h30, h31, ↓State.deviceReset_blank, ↓State.onTap_blank, ↓blank_ite, ↓fst_ite, ite_self, implies_true]; done)
    | split
    | simp only [h0, h1, h2, h3, h4, h5, h6, h7, h8, h9, h10, h11, h12, h13, h14, h15, h16, h17, h18, h19, h20, h21, h22, h23, h24, h25, h26, h27, h28, h29, h30, h31, ↓State.deviceReset_blank, ↓State.onTap_blank, ↓blank_ite, ↓fst_ite, ite_self, implies_true]

theorem State.growTime_blank (h0 : bl .regs = true) (s : State) (a : Nat) (n : Nat) : State.blank bl (State.growTime s a n).1 = State.blank bl s := by
  unfold State.growTime
  repeat' first
    | with_reducible rfl
    | (simp only [h0, ↓State.count_blank, ↓blank_ite, ↓fst_ite, ite_self, implies_true]; done)
    | split
    | simp only [h0, ↓State.count_blank, ↓blank_ite, ↓fst_ite, ite_self, implies_true]

theorem State.tickHold_blank (h0 : bl .regs = true) (h1 : bl .hearth = true) (s : State) : State.blank bl (State.tickHold s) = State.blank bl s := by
  unfold State.tickHold
  repeat' first
    | with_reducible rfl
    | (simp only [h0, h1, ↓State.growTime_blank, State.onH_blank, ↓blank_ite, ↓fst_ite, ite_self, implies_true]; done)
    | split
    | simp only [h0, h1, ↓State.growTime_blank, State.onH_blank, ↓blank_ite, ↓fst_ite, ite_self, implies_true]
    | (refine (State.onH_blank h1 _ _ rfl).trans ?_)

theorem updateConfirm_blank (h0 : bl .out = true) (h1 : bl .tb = true) (h2 : bl .cores = true) (h3 : bl .host = true) (h4 : bl .nvs = true) (src : Src) (s : State) : State.blank bl (updateConfirm src s) = State.blank bl s := by
  unfold updateConfirm
  repeat' first
    | with_reducible rfl
    | (simp only [h0, h1, h2, h3, h4, State.serve_blank, ↓State.reply_blank, ↓State.confirm_blank, ↓blank_ite, ↓fst_ite, ite_self, implies_true]; done)
    | split
    | simp only [h0, h1, h2, h3, h4, State.serve_blank, ↓State.reply_blank, ↓State.confirm_blank, ↓blank_ite, ↓fst_ite, ite_self, implies_true]
    | refine (State.serve_blank _ _ _ _ ?_).trans ?_
    | intro _

theorem regWrite_blank (h0 : bl .out = true) (h1 : bl .freeUse = true) (h2 : bl .fns = true) (h3 : bl .regs = true) (h4 : bl .tb = true) (h5 : bl .rx = true) (h6 : bl .tiles = true) (h7 : bl .cmd = true) (h8 : bl .mirLanes = true) (h9 : bl .order = true) (h10 : bl .queues = true) (h11 : bl .bellows = true) (h12 : bl .engines = true) (h13 : bl .cores = true) (h14 : bl .tdc = true) (h15 : bl .bgs = true) (h16 : bl .field = true) (h17 : bl .hearth = true) (h18 : bl .mem = true) (h19 : bl .trig = true) (h20 : bl .staging = true) (h21 : bl .comps = true) (h22 : bl .jobs = true) (h23 : bl .pair = true) (h24 : bl .host = true) (h25 : bl .ptp = true) (h26 : bl .nvs = true) (h27 : bl .sys = true) (src : Src) (ho : Nat × Nat) (s : State) : State.blank bl (regWrite src ho s) = State.blank bl s := by
  unfold regWrite
  repeat' first
    | with_reducible rfl
    | (simp only [h0, h1, h2, h3, h4, h5, h6, h7, h8, h9, h10, h11, h12, h13, h14, h15, h16, h17, h18, h19, h20, h21, h22, h23, h24, h25, h26, h27, State.serve_blank, ↓State.busWrite_blank, ↓State.reply_blank, ↓blank_ite, ↓fst_ite, ite_self, implies_true]; done)
    | split
    | simp only [h0, h1, h2, h3, h4, h5, h6, h7, h8, h9, h10, h11, h12, h13, h14, h15, h16, h17, h18, h19, h20, h21, h22, h23, h24, h25, h26, h27, State.serve_blank, ↓State.busWrite_blank, ↓State.reply_blank, ↓blank_ite, ↓fst_ite, ite_self, implies_true]
    | refine (State.serve_blank _ _ _ _ ?_).trans ?_
    | intro _

theorem regRead_blank (h0 : bl .out = true) (h1 : bl .regs = true) (h2 : bl .cores = true) (h3 : bl .host = true) (src : Src) (ce : Bool) (s : State) : State.blank bl (regRead src ce s) = State.blank bl s := by
  unfold regRead
  repeat' first
    | with_reducible rfl
    | (simp only [h0, h1, h2, h3, State.serve_blank, ↓State.reply_blank, ↓State.afterRead_blank, ↓blank_ite, ↓fst_ite, ite_self, implies_true]; done)
    | split
    | simp only [h0, h1, h2, h3, State.serve_blank, ↓State.reply_blank, ↓State.afterRead_blank, ↓blank_ite, ↓fst_ite, ite_self, implies_true]
    | refine (State.serve_blank _ _ _ _ ?_).trans ?_
    | intro _

theorem samplePreload_blank (h0 : bl .out = true) (h1 : bl .tap = true) (cells : List Byte) (pins : List Byte) (s : State) : State.blank bl (samplePreload cells pins s) = State.blank bl s := by
  unfold samplePreload
  repeat' first
    | with_reducible rfl
    | (simp only [h0, h1, ↓State.boundaryScan_blank, ↓State.loadIr_blank, ↓blank_ite, ↓fst_ite, ite_self, implies_true]; done)
    | split
    | simp only [h0, h1, ↓State.boundaryScan_blank, ↓State.loadIr_blank, ↓blank_ite, ↓fst_ite, ite_self, implies_true]

theorem waitEventReturn_blank (h0 : bl .cores = true) (c : Fin 4) (s : State) : State.blank bl (waitEventReturn c s) = State.blank bl s := by
  unfold waitEventReturn
  repeat' first
    | with_reducible rfl
    | (simp only [h0, ↓State.onCore_blank, ↓blank_ite, ↓fst_ite, ite_self, implies_true]; done)
    | split
    | simp only [h0, ↓State.onCore_blank, ↓blank_ite, ↓fst_ite, ite_self, implies_true]

theorem recoveryBlock_blank (h0 : bl .out = true) (h1 : bl .tb = true) (h2 : bl .nvs = true) (h3 : bl .sys = true) (off : Nat) (bytes : List Byte) (s : State) : State.blank bl (recoveryBlock off bytes s) = State.blank bl s := by
  unfold recoveryBlock
  repeat' first
    | with_reducible rfl
    | (simp only [h0, h1, h2, h3, ↓State.recReply_blank, ↓State.recPiece_blank, ↓blank_ite, ↓fst_ite, ite_self, implies_true]; done)
    | split
    | simp only [h0, h1, h2, h3, ↓State.recReply_blank, ↓State.recPiece_blank, ↓blank_ite, ↓fst_ite, ite_self, implies_true]

theorem updateCommitReset_blank (h0 : bl .out = true) (h1 : bl .fns = true) (h2 : bl .regs = true) (h3 : bl .tb = true) (h4 : bl .rx = true) (h5 : bl .tiles = true) (h6 : bl .cmd = true) (h7 : bl .mirLanes = true) (h8 : bl .order = true) (h9 : bl .queues = true) (h10 : bl .bellows = true) (h11 : bl .engines = true) (h12 : bl .cores = true) (h13 : bl .postRecs = true) (h14 : bl .postSeq = true) (h15 : bl .slots = true) (h16 : bl .tdc = true) (h17 : bl .bgs = true) (h18 : bl .field = true) (h19 : bl .hearth = true) (h20 : bl .mem = true) (h21 : bl .trig = true) (h22 : bl .staging = true) (h23 : bl .comps = true) (h24 : bl .jobs = true) (h25 : bl .pair = true) (h26 : bl .host = true) (h27 : bl .ptp = true) (h28 : bl .nvs = true) (h29 : bl .sys = true) (h30 : bl .kept = true) (h31 : bl .keptBad = true) (src : Src) (fail : Bool) (s : State) : State.blank bl (updateCommitReset src fail s) = State.blank bl s := by
  unfold updateCommitReset
  repeat' first
    | with_reducible rfl
    | (simp only [h0, h1, h2, h3, h4, h5, h6, h7, h8, h9, h10, h11, h12, h13, h14, h15, h16, h17, h18, h19, h20, h21, h22, h23, h24, h25, h26, h27, h28, h29, h30, h31, State.serve_blank, ↓State.reply_blank, ↓State.beginCommit_blank, ↓State.commit_blank, ↓State.passOn_blank, ↓State.deviceReset_blank, ↓blank_ite, ↓fst_ite, ite_self, implies_true]; done)
    | split
    | simp only [h0, h1, h2, h3, h4, h5, h6, h7, h8, h9, h10, h11, h12, h13, h14, h15, h16, h17, h18, h19, h20, h21, h22, h23, h24, h25, h26, h27, h28, h29, h30, h31, State.serve_blank, ↓State.reply_blank, ↓State.beginCommit_blank, ↓State.commit_blank, ↓State.passOn_blank, ↓State.deviceReset_blank, ↓blank_ite, ↓fst_ite, ite_self, implies_true]
    | refine (State.serve_blank _ _ _ _ ?_).trans ?_
    | intro _

theorem updateBlock_blank (h0 : bl .out = true) (h1 : bl .regs = true) (h2 : bl .tb = true) (h3 : bl .cores = true) (h4 : bl .hearth = true) (h5 : bl .mem = true) (h6 : bl .host = true) (h7 : bl .sys = true) (src : Src) (e : MemErrs) (s : State) : State.blank bl (updateBlock src e s) = State.blank bl s := by
  unfold updateBlock
  repeat' first
    | with_reducible rfl
    | (simp only [h0, h1, h2, h3, h4, h5, h6, h7, State.serve_blank, ↓State.reply_blank, ↓State.noteErrs_blank, ↓State.updPiece_blank, ↓blank_ite, ↓fst_ite, ite_self, implies_true]; done)
    | split
    | simp only [h0, h1, h2, h3, h4, h5, h6, h7, State.serve_blank, ↓State.reply_blank, ↓State.noteErrs_blank, ↓State.updPiece_blank, ↓blank_ite, ↓fst_ite, ite_self, implies_true]
    | refine (State.serve_blank _ _ _ _ ?_).trans ?_
    | intro _

theorem clamp_blank (h0 : bl .out = true) (h1 : bl .fns = true) (h2 : bl .regs = true) (h3 : bl .tb = true) (h4 : bl .rx = true) (h5 : bl .tiles = true) (h6 : bl .cmd = true) (h7 : bl .mirLanes = true) (h8 : bl .order = true) (h9 : bl .queues = true) (h10 : bl .bellows = true) (h11 : bl .engines = true) (h12 : bl .cores = true) (h13 : bl .postRecs = true) (h14 : bl .postSeq = true) (h15 : bl .slots = true) (h16 : bl .tdc = true) (h17 : bl .bgs = true) (h18 : bl .field = true) (h19 : bl .hearth = true) (h20 : bl .mem = true) (h21 : bl .trig = true) (h22 : bl .staging = true) (h23 : bl .comps = true) (h24 : bl .jobs = true) (h25 : bl .pair = true) (h26 : bl .host = true) (h27 : bl .ptp = true) (h28 : bl .sys = true) (h29 : bl .tap = true) (h30 : bl .kept = true) (h31 : bl .keptBad = true) (s : State) : State.blank bl (clamp s) = State.blank bl s := by
  unfold clamp
  repeat' first
    | with_reducible rfl
    | (simp only [h0, h1, h2, h3, h4, h5, h6, h7, h8, h9, h10, h11, h12, h13, h14, h15, h16, h17, h18, h19, h20, h21, h22, h23, h24, h25, h26, h27, h28, h29, h30, h31, ↓State.emit_blank, ↓State.tapHold_blank, ↓blank_ite, ↓fst_ite, ite_self, implies_true]; done)
    | split
    | simp only [h0, h1, h2, h3, h4, h5, h6, h7, h8, h9, h10, h11, h12, h13, h14, h15, h16, h17, h18, h19, h20, h21, h22, h23, h24, h25, h26, h27, h28, h29, h30, h31, ↓State.emit_blank, ↓State.tapHold_blank, ↓blank_ite, ↓fst_ite, ite_self, implies_true]

theorem State.tickBellows_blank (h0 : bl .regs = true) (h1 : bl .bellows = true) (s : State) (k : Nat) : State.blank bl (State.tickBellows s k) = State.blank bl s := by
  unfold State.tickBellows
  repeat' first
    | with_reducible rfl
    | (simp only [h0, h1, ↓State.growTime_blank, ↓State.onBellows_blank, ↓blank_ite, ↓fst_ite, ite_self, implies_true]; done)
    | split
    | simp only [h0, h1, ↓State.growTime_blank, ↓State.onBellows_blank, ↓blank_ite, ↓fst_ite, ite_self, implies_true]

theorem State.tickEngine_blank (h0 : bl .regs = true) (h1 : bl .engines = true) (s : State) (e : Nat) : State.blank bl (State.tickEngine s e) = State.blank bl s := by
  unfold State.tickEngine
  repeat' first
    | with_reducible rfl
    | (simp only [h0, h1, ↓State.growTime_blank, ↓State.onEngine_blank, ↓blank_ite, ↓fst_ite, ite_self, implies_true]; done)
    | split
    | simp only [h0, h1, ↓State.growTime_blank, ↓State.onEngine_blank, ↓blank_ite, ↓fst_ite, ite_self, implies_true]

theorem State.tickComp_blank (h0 : bl .regs = true) (h1 : bl .comps = true) (s : State) (k : Nat) : State.blank bl (State.tickComp s k) = State.blank bl s := by
  unfold State.tickComp
  repeat' first
    | with_reducible rfl
    | (simp only [h0, h1, ↓State.growTime_blank, ↓State.onComp_blank, ↓blank_ite, ↓fst_ite, ite_self, implies_true]; done)
    | split
    | simp only [h0, h1, ↓State.growTime_blank, ↓State.onComp_blank, ↓blank_ite, ↓fst_ite, ite_self, implies_true]

theorem idleTick_blank (h0 : bl .out = true) (h1 : bl .regs = true) (h2 : bl .tb = true) (h3 : bl .rx = true) (h4 : bl .cmd = true) (h5 : bl .mirLanes = true) (h6 : bl .bellows = true) (h7 : bl .engines = true) (h8 : bl .tdc = true) (h9 : bl .bgs = true) (h10 : bl .field = true) (h11 : bl .hearth = true) (h12 : bl .trig = true) (h13 : bl .comps = true) (s : State) : State.blank bl (idleTick s) = State.blank bl s := by
  unfold idleTick
  repeat' first
    | with_reducible rfl
    | (simp only [h0, h1, h2, h3, h4, h5, h6, h7, h8, h9, h10, h11, h12, h13, ↓State.tickHold_blank, ↓State.tickScrub_blank, ↓State.tbTick_blank, State.each_blank, ↓State.tickBellows_blank, ↓State.tickEngine_blank, ↓State.tickComp_blank, ↓State.tickCmd_blank, ↓State.tickMir_blank, ↓State.tickOutput_blank, ↓State.tickDue_blank, ↓State.tickPort_blank, ↓State.checkStrobes_blank, ↓State.tdcSettle_blank, ↓blank_ite, ↓fst_ite, ite_self, implies_true]; done)
    | split
    | simp only [h0, h1, h2, h3, h4, h5, h6, h7, h8, h9, h10, h11, h12, h13, ↓State.tickHold_blank, ↓State.tickScrub_blank, ↓State.tbTick_blank, State.each_blank, ↓State.tickBellows_blank, ↓State.tickEngine_blank, ↓State.tickComp_blank, ↓State.tickCmd_blank, ↓State.tickMir_blank, ↓State.tickOutput_blank, ↓State.tickDue_blank, ↓State.tickPort_blank, ↓State.checkStrobes_blank, ↓State.tdcSettle_blank, ↓blank_ite, ↓fst_ite, ite_self, implies_true]
    | refine (State.each_blank _ _ _ ?_).trans ?_
    | intro _

theorem resetRelease_blank (h0 : bl .out = true) (h1 : bl .fns = true) (h2 : bl .regs = true) (h3 : bl .tb = true) (h4 : bl .rx = true) (h5 : bl .tiles = true) (h6 : bl .cmd = true) (h7 : bl .mirLanes = true) (h8 : bl .queues = true) (h9 : bl .bellows = true) (h10 : bl .engines = true) (h11 : bl .cores = true) (h12 : bl .tdc = true) (h13 : bl .bgs = true) (h14 : bl .field = true) (h15 : bl .hearth = true) (h16 : bl .mem = true) (h17 : bl .trig = true) (h18 : bl .staging = true) (h19 : bl .comps = true) (h20 : bl .pair = true) (h21 : bl .host = true) (h22 : bl .ptp = true) (h23 : bl .nvs = true) (h24 : bl .sys = true) (h25 : bl .tap = true) (x : BootFacts) (s : State) : State.blank bl (resetRelease x s) = State.blank bl s := by
  unfold resetRelease
  repeat' first
    | with_reducible rfl
    | (simp only [h0, h1, h2, h3, h4, h5, h6, h7, h8, h9, h10, h11, h12, h13, h14, h15, h16, h17, h18, h19, h20, h21, h22, h23, h24, h25, ↓State.leaveReset_blank, ↓State.onTap_blank, ↓blank_ite, ↓fst_ite, ite_self, implies_true]; done)
    | split
    | simp only [h0, h1, h2, h3, h4, h5, h6, h7, h8, h9, h10, h11, h12, h13, h14, h15, h16, h17, h18, h19, h20, h21, h22, h23, h24, h25, ↓State.leaveReset_blank, ↓State.onTap_blank, ↓blank_ite, ↓fst_ite, ite_self, implies_true]

theorem imgResendTimeout_blank (h0 : bl .out = true) (h1 : bl .tb = true) (h2 : bl .ptp = true) (p : Fin 2) (off : Nat) (s : State) : State.blank bl (imgResendTimeout p off s) = State.blank bl s := by
  unfold imgResendTimeout
  repeat' first
    | with_reducible rfl
    | (simp only [h0, h1, h2, ↓State.abandon_blank, ↓State.sendPiece_blank, ↓State.onPort_blank, ↓blank_ite, ↓fst_ite, ite_self, implies_true]; done)
    | split
    | simp only [h0, h1, h2, ↓State.abandon_blank, ↓State.sendPiece_blank, ↓State.onPort_blank, ↓blank_ite, ↓fst_ite, ite_self, implies_true]

theorem recoveryCommit_blank (h0 : bl .out = true) (h1 : bl .tb = true) (h2 : bl .nvs = true) (h3 : bl .sys = true) (fail : Bool) (s : State) : State.blank bl (recoveryCommit fail s) = State.blank bl s := by
  unfold recoveryCommit
  repeat' first
    | with_reducible rfl
    | (simp only [h0, h1, h2, h3, ↓State.commit_blank, ↓State.recReply_blank, ↓blank_ite, ↓fst_ite, ite_self, implies_true]; done)
    | split
    | simp only [h0, h1, h2, h3, ↓State.commit_blank, ↓State.recReply_blank, ↓blank_ite, ↓fst_ite, ite_self, implies_true]

theorem imgAckRx_blank (h0 : bl .out = true) (h1 : bl .regs = true) (h2 : bl .tb = true) (h3 : bl .ptp = true) (p : Fin 2) (fcs : Bool) (frame : List Byte) (raw : Nat) (s : State) : State.blank bl (imgAckRx p fcs frame raw s) = State.blank bl s := by
  unfold imgAckRx
  repeat' first
    | with_reducible rfl
    | (simp only [h0, h1, h2, h3, State.rigRx_blank, ↓State.count_blank, ↓State.abandon_blank, ↓State.onPort_blank, ↓State.sendMore_blank, ↓blank_ite, ↓fst_ite, ite_self, implies_true]; done)
    | split
    | simp only [h0, h1, h2, h3, State.rigRx_blank, ↓State.count_blank, ↓State.abandon_blank, ↓State.onPort_blank, ↓State.sendMore_blank, ↓blank_ite, ↓fst_ite, ite_self, implies_true]
    | refine (State.rigRx_blank h1 _ _ _ _ _ _ _ ?_).trans ?_
    | intro _

theorem tapReset_blank (h0 : bl .out = true) (h1 : bl .fns = true) (h2 : bl .regs = true) (h3 : bl .tb = true) (h4 : bl .rx = true) (h5 : bl .tiles = true) (h6 : bl .cmd = true) (h7 : bl .mirLanes = true) (h8 : bl .queues = true) (h9 : bl .bellows = true) (h10 : bl .engines = true) (h11 : bl .cores = true) (h12 : bl .tdc = true) (h13 : bl .bgs = true) (h14 : bl .field = true) (h15 : bl .hearth = true) (h16 : bl .mem = true) (h17 : bl .trig = true) (h18 : bl .staging = true) (h19 : bl .comps = true) (h20 : bl .pair = true) (h21 : bl .host = true) (h22 : bl .ptp = true) (h23 : bl .nvs = true) (h24 : bl .sys = true) (h25 : bl .tap = true) (x : BootFacts) (s : State) : State.blank bl (tapReset x s) = State.blank bl s := by
  unfold tapReset
  repeat' first
    | with_reducible rfl
    | (simp only [h0, h1, h2, h3, h4, h5, h6, h7, h8, h9, h10, h11, h12, h13, h14, h15, h16, h17, h18, h19, h20, h21, h22, h23, h24, h25, ↓State.tapIdle_blank, ↓blank_ite, ↓fst_ite, ite_self, implies_true]; done)
    | split
    | simp only [h0, h1, h2, h3, h4, h5, h6, h7, h8, h9, h10, h11, h12, h13, h14, h15, h16, h17, h18, h19, h20, h21, h22, h23, h24, h25, ↓State.tapIdle_blank, ↓blank_ite, ↓fst_ite, ite_self, implies_true]

theorem dbgAccess_blank (h0 : bl .out = true) (h1 : bl .freeUse = true) (h2 : bl .fns = true) (h3 : bl .regs = true) (h4 : bl .tb = true) (h5 : bl .rx = true) (h6 : bl .tiles = true) (h7 : bl .cmd = true) (h8 : bl .mirLanes = true) (h9 : bl .order = true) (h10 : bl .queues = true) (h11 : bl .bellows = true) (h12 : bl .engines = true) (h13 : bl .cores = true) (h14 : bl .tdc = true) (h15 : bl .bgs = true) (h16 : bl .field = true) (h17 : bl .hearth = true) (h18 : bl .mem = true) (h19 : bl .trig = true) (h20 : bl .staging = true) (h21 : bl .comps = true) (h22 : bl .jobs = true) (h23 : bl .pair = true) (h24 : bl .host = true) (h25 : bl .ptp = true) (h26 : bl .nvs = true) (h27 : bl .sys = true) (h28 : bl .tap = true) (w : BitVec 64) (ho : Nat × Nat) (ce : Bool) (s : State) : State.blank bl (dbgAccess w ho ce s) = State.blank bl s := by
  unfold dbgAccess
  repeat' first
    | with_reducible rfl
    | (simp only [h0, h1, h2, h3, h4, h5, h6, h7, h8, h9, h10, h11, h12, h13, h14, h15, h16, h17, h18, h19, h20, h21, h22, h23, h24, h25, h26, h27, h28, ↓State.loadIr_blank, ↓State.emit_blank, ↓State.busWrite_blank, ↓State.onTap_blank, ↓State.afterRead_blank, ↓blank_ite, ↓fst_ite, ite_self, implies_true]; done)
    | split
    | simp only [h0, h1, h2, h3, h4, h5, h6, h7, h8, h9, h10, h11, h12, h13, h14, h15, h16, h17, h18, h19, h20, h21, h22, h23, h24, h25, h26, h27, h28, ↓State.loadIr_blank, ↓State.emit_blank, ↓State.busWrite_blank, ↓State.onTap_blank, ↓State.afterRead_blank, ↓blank_ite, ↓fst_ite, ite_self, implies_true]

theorem extestTrain_blank (h0 : bl .out = true) (h1 : bl .fns = true) (h2 : bl .regs = true) (h3 : bl .tb = true) (h4 : bl .rx = true) (h5 : bl .tiles = true) (h6 : bl .cmd = true) (h7 : bl .mirLanes = true) (h8 : bl .order = true) (h9 : bl .queues = true) (h10 : bl .bellows = true) (h11 : bl .engines = true) (h12 : bl .cores = true) (h13 : bl .postRecs = true) (h14 : bl .postSeq = true) (h15 : bl .slots = true) (h16 : bl .tdc = true) (h17 : bl .bgs = true) (h18 : bl .field = true) (h19 : bl .hearth = true) (h20 : bl .mem = true) (h21 : bl .trig = true) (h22 : bl .staging = true) (h23 : bl .comps = true) (h24 : bl .jobs = true) (h25 : bl .pair = true) (h26 : bl .host = true) (h27 : bl .ptp = true) (h28 : bl .sys = true) (h29 : bl .tap = true) (h30 : bl .kept = true) (h31 : bl .keptBad = true) (cells : List Byte) (pins : List Byte) (s : State) : State.blank bl (extestTrain cells pins s) = State.blank bl s := by
  unfold extestTrain
  repeat' first
    | with_reducible rfl
    | (simp only [h0, h1, h2, h3, h4, h5, h6, h7, h8, h9, h10, h11, h12, h13, h14, h15, h16, h17, h18, h19, h20, h21, h22, h23, h24, h25, h26, h27, h28, h29, h30, h31, ↓State.boundaryScan_blank, ↓State.tapHold_blank, ↓blank_ite, ↓fst_ite, ite_self, implies_true]; done)
    | split
    | simp only [h0, h1, h2, h3, h4, h5, h6, h7, h8, h9, h10, h11, h12, h13, h14, h15, h16, h17, h18, h19, h20, h21, h22, h23, h24, h25, h26, h27, h28, h29, h30, h31, ↓State.boundaryScan_blank, ↓State.tapHold_blank, ↓blank_ite, ↓fst_ite, ite_self, implies_true]

end Sys2Proof.Machine
end

