-- ==== Sys2Proof/Laws/Absent.lean ====
section
/-!
SUPPORT. A function in ABSENT stays there (R30): through every operation that changes the states of functions; every other operation
leaves them alone (Laws/Blank*.lean).
-/

namespace Sys2Proof.Machine

set_option linter.unusedSimpArgs false

/-- The mask that empties all but one part. -/
def notFns : Comp → Bool
  | .fns => false
  | _ => true

theorem notFns_out : notFns .out = true := by decide
theorem notFns_freeUse : notFns .freeUse = true := by decide
theorem notFns_regs : notFns .regs = true := by decide
theorem notFns_tb : notFns .tb = true := by decide
theorem notFns_rx : notFns .rx = true := by decide
theorem notFns_tiles : notFns .tiles = true := by decide
theorem notFns_cmd : notFns .cmd = true := by decide
theorem notFns_mirLanes : notFns .mirLanes = true := by decide
theorem notFns_order : notFns .order = true := by decide
theorem notFns_queues : notFns .queues = true := by decide
theorem notFns_bellows : notFns .bellows = true := by decide
theorem notFns_engines : notFns .engines = true := by decide
theorem notFns_cores : notFns .cores = true := by decide
theorem notFns_postRecs : notFns .postRecs = true := by decide
theorem notFns_postSeq : notFns .postSeq = true := by decide
theorem notFns_slots : notFns .slots = true := by decide
theorem notFns_tdc : notFns .tdc = true := by decide
theorem notFns_bgs : notFns .bgs = true := by decide
theorem notFns_field : notFns .field = true := by decide
theorem notFns_hearth : notFns .hearth = true := by decide
theorem notFns_mem : notFns .mem = true := by decide
theorem notFns_trig : notFns .trig = true := by decide
theorem notFns_staging : notFns .staging = true := by decide
theorem notFns_comps : notFns .comps = true := by decide
theorem notFns_jobs : notFns .jobs = true := by decide
theorem notFns_pair : notFns .pair = true := by decide
theorem notFns_host : notFns .host = true := by decide
theorem notFns_ptp : notFns .ptp = true := by decide
theorem notFns_nvs : notFns .nvs = true := by decide
theorem notFns_sys : notFns .sys = true := by decide
theorem notFns_tap : notFns .tap = true := by decide
theorem notFns_kept : notFns .kept = true := by decide
theorem notFns_keptBad : notFns .keptBad = true := by decide

variable {fq : Fn}

theorem absent_iff (s : State) : State.fnState (State.blank notFns s) fq = FnState.absent ↔ s.fnState fq = .absent := by
  simp [State.fnState, State.fn, State.blank, notFns]

theorem absent_of_blank {s t : State} (h : State.blank notFns t = State.blank notFns s) (hs : State.fnState (State.blank notFns s) fq = FnState.absent) : State.fnState (State.blank notFns t) fq = FnState.absent := by
  rw [h]; exact hs

theorem absent_of_ite {c : Prop} [Decidable c] {a b : State} (ha : c → State.fnState (State.blank notFns a) fq = FnState.absent) (hb : ¬c → State.fnState (State.blank notFns b) fq = FnState.absent) :
    State.fnState (State.blank notFns (if c then a else b)) fq = FnState.absent := by
  split
  · exact ha (by assumption)
  · exact hb (by assumption)

theorem absent_of_fst_ite {α : Type} {c : Prop} [Decidable c] {a b : State × α} (ha : c → State.fnState (State.blank notFns a.1) fq = FnState.absent) (hb : ¬c → State.fnState (State.blank notFns b.1) fq = FnState.absent) :
    State.fnState (State.blank notFns (if c then a else b).1) fq = FnState.absent := by
  split
  · exact ha (by assumption)
  · exact hb (by assumption)

theorem State.each_absent {α : Type} (s : State) (xs : List α) (g : State → α → State)
    (hg : ∀ t x, State.fnState (State.blank notFns t) fq = FnState.absent → State.fnState (State.blank notFns (g t x)) fq = FnState.absent)
    (hs : State.fnState (State.blank notFns s) fq = FnState.absent) : State.fnState (State.blank notFns (s.each xs g)) fq = FnState.absent := by
  unfold State.each
  induction xs generalizing s with
  | nil => exact hs
  | cons x xs ih => exact ih (g s x) (hg s x hs)

theorem State.serve_absent (s : State) (src : Src) (code : Nat) (g : FwCmd → State → State)
    (hg : ∀ c, State.fnState (State.blank notFns s) fq = FnState.absent → State.fnState (State.blank notFns (g c s)) fq = FnState.absent)
    (hs : State.fnState (State.blank notFns s) fq = FnState.absent) : State.fnState (State.blank notFns (s.serve src code g)) fq = FnState.absent := by
  unfold State.serve
  split
  · exact hg _ hs
  · exact hs

theorem ifBit_absent (v i : Nat) (g : State → State) (s : State)
    (hg : ∀ t, State.fnState (State.blank notFns t) fq = FnState.absent → State.fnState (State.blank notFns (g t)) fq = FnState.absent) (hs : State.fnState (State.blank notFns s) fq = FnState.absent) :
    State.fnState (State.blank notFns (ifBit v i g s)) fq = FnState.absent := by
  unfold ifBit
  split
  · exact hg s hs
  · exact hs

theorem State.onFn_absent (s : State) (f : Fn) (g : FnInfo → FnInfo) (hs : State.fnState (State.blank notFns s) fq = FnState.absent) :
    State.fnState (State.blank notFns (s.onFn f g)) fq = FnState.absent := by
  rw [absent_iff] at hs ⊢
  simp only [State.fnState] at hs ⊢
  have hp : (s.onFn f g).part = s.part := rfl
  rw [hp]
  by_cases hk : s.part.lacks fq = true
  · simp only [hk, if_true]
  simp only [hk, Bool.false_eq_true, if_false, State.fn, State.onFn, State.putFns] at hs ⊢
  by_cases h : f = fq
  · subst h
    have hl : f.num < 14 := by cases f <;> decide
    simp only [Vector.getElem?_setIfInBounds_self, hl, if_true, Option.getD_some, hs]
  · have hn : f.num ≠ fq.num := by
      intro hn
      apply h
      revert hn
      cases f <;> cases fq <;> decide
    rw [Vector.getElem?_setIfInBounds_ne hn]
    exact hs

/-- Every function of a list of records that is ABSENT stays so under a change that keeps ABSENT. -/
theorem State.mapFns_absent (s : State) (g : FnInfo → FnInfo) (hg : ∀ i, i.state = .absent → (g i).state = .absent)
    (hs : State.fnState (State.blank notFns s) fq = FnState.absent) :
    State.fnState (State.blank notFns (s.putFns (s.fns.map g))) fq = FnState.absent := by
  rw [absent_iff] at hs ⊢
  simp only [State.fnState] at hs ⊢
  have hp : (s.putFns (s.fns.map g)).part = s.part := rfl
  rw [hp]
  by_cases hk : s.part.lacks fq = true
  · simp only [hk, if_true]
  simp only [hk, Bool.false_eq_true, if_false, State.fn, State.putFns, Vector.getElem?_map] at hs ⊢
  revert hs
  cases s.fns[fq.num]? with
  | none => exact id
  | some i => exact hg i


theorem State.faultFn_absent  (s : State) (f : Fn) (code : Nat) (hs : State.fnState (State.blank notFns s) fq = FnState.absent) : State.fnState (State.blank notFns (State.faultFn s f code)) fq = FnState.absent := by
  unfold State.faultFn
  repeat' first
    | with_reducible exact hs
    | with_reducible refine State.onFn_absent _ _ _ ?_
    | with_reducible refine absent_of_ite (fun _ => ?_) (fun _ => ?_)
    | with_reducible refine absent_of_fst_ite (fun _ => ?_) (fun _ => ?_)
    | simp only [implies_true]
    | split

theorem State.faultOut_absent  (s : State) (f : Fn) (code : Nat) (hs : State.fnState (State.blank notFns s) fq = FnState.absent) : State.fnState (State.blank notFns (State.faultOut s f code)) fq = FnState.absent := by
  unfold State.faultOut
  repeat' first
    | with_reducible exact hs
    | with_reducible refine State.faultFn_absent _ _ _ ?_
    | with_reducible refine absent_of_ite (fun _ => ?_) (fun _ => ?_)
    | with_reducible refine absent_of_fst_ite (fun _ => ?_) (fun _ => ?_)
    | simp only [↓State.dropTongs_blank, notFns_regs, notFns_tb, notFns_pair, implies_true]
    | split

theorem State.ranEffect_absent  (s : State) (a1 : Fn) (hs : State.fnState (State.blank notFns s) fq = FnState.absent) : State.fnState (State.blank notFns (State.ranEffect s a1)) fq = FnState.absent := by
  unfold State.ranEffect
  repeat' first
    | with_reducible exact hs
    | with_reducible refine State.faultOut_absent _ _ _ ?_
    | with_reducible refine absent_of_ite (fun _ => ?_) (fun _ => ?_)
    | with_reducible refine absent_of_fst_ite (fun _ => ?_) (fun _ => ?_)
    | simp only [↓State.auxRunning_blank, notFns_regs, notFns_tb, notFns_field, notFns_pair, implies_true]
    | split

theorem State.pairFaultNow_absent  (s : State) (code : Nat) (hs : State.fnState (State.blank notFns s) fq = FnState.absent) : State.fnState (State.blank notFns (State.pairFaultNow s code)) fq = FnState.absent := by
  unfold State.pairFaultNow
  repeat' first
    | with_reducible exact hs
    | with_reducible refine State.faultFn_absent _ _ _ ?_
    | with_reducible refine absent_of_ite (fun _ => ?_) (fun _ => ?_)
    | with_reducible refine absent_of_fst_ite (fun _ => ?_) (fun _ => ?_)
    | simp only [↓State.pairForget_blank, ↓State.leaveFollow_blank, ↓State.mirrorOff_blank, ↓State.setRole_blank, notFns_regs, notFns_tb, notFns_rx, notFns_mirLanes, notFns_pair, implies_true]
    | split

theorem State.lastStatus_absent  (s : State) (f : Fn) (st : Nat) (hs : State.fnState (State.blank notFns s) fq = FnState.absent) : State.fnState (State.blank notFns (State.lastStatus s f st)) fq = FnState.absent := by
  unfold State.lastStatus
  repeat' first
    | with_reducible exact hs
    | with_reducible refine State.onFn_absent _ _ _ ?_
    | with_reducible refine absent_of_ite (fun _ => ?_) (fun _ => ?_)
    | with_reducible refine absent_of_fst_ite (fun _ => ?_) (fun _ => ?_)
    | simp only [implies_true]
    | split

theorem State.setFn_absent  (s : State) (f : Fn) (x : FnState) (hs : State.fnState (State.blank notFns s) fq = FnState.absent) : State.fnState (State.blank notFns (State.setFn s f x)) fq = FnState.absent := by
  unfold State.setFn
  repeat' first
    | with_reducible exact hs
    | with_reducible refine State.onFn_absent _ _ _ ?_
    | with_reducible refine absent_of_ite (fun _ => ?_) (fun _ => ?_)
    | with_reducible refine absent_of_fst_ite (fun _ => ?_) (fun _ => ?_)
    | simp only [implies_true]
    | split

theorem State.quenchNow_absent  (s : State) (f : Fn) (global : Bool) (hs : State.fnState (State.blank notFns s) fq = FnState.absent) : State.fnState (State.blank notFns (State.quenchNow s f global)) fq = FnState.absent := by
  unfold State.quenchNow
  repeat' first
    | with_reducible exact hs
    | with_reducible refine State.lastStatus_absent _ _ _ ?_
    | with_reducible refine State.setFn_absent _ _ _ ?_
    | with_reducible refine absent_of_ite (fun _ => ?_) (fun _ => ?_)
    | with_reducible refine absent_of_fst_ite (fun _ => ?_) (fun _ => ?_)
    | simp only [↓State.quenchEffect_blank, ↓State.faultLeft_blank, notFns_out, notFns_freeUse, notFns_regs, notFns_tb, notFns_rx, notFns_tiles, notFns_mirLanes, notFns_order, notFns_queues, notFns_bellows, notFns_engines, notFns_tdc, notFns_bgs, notFns_field, notFns_hearth, notFns_mem, notFns_trig, notFns_staging, notFns_comps, notFns_jobs, notFns_pair, notFns_host, notFns_ptp, implies_true]
    | split

theorem State.quenchFive_absent  (s : State) (hs : State.fnState (State.blank notFns s) fq = FnState.absent) : State.fnState (State.blank notFns (State.quenchFive s).1) fq = FnState.absent := by
  unfold State.quenchFive
  repeat' first
    | with_reducible exact hs
    | with_reducible refine State.quenchNow_absent _ _ _ ?_
    | with_reducible refine State.each_absent _ _ _ (fun t x hs => ?_) ?_
    | with_reducible refine absent_of_ite (fun _ => ?_) (fun _ => ?_)
    | with_reducible refine absent_of_fst_ite (fun _ => ?_) (fun _ => ?_)
    | simp only [↓State.domainsOff_blank, notFns_out, notFns_freeUse, notFns_regs, notFns_tb, notFns_rx, notFns_tiles, notFns_mirLanes, notFns_order, notFns_queues, notFns_bellows, notFns_engines, notFns_tdc, notFns_bgs, notFns_field, notFns_hearth, notFns_mem, notFns_trig, notFns_staging, notFns_comps, notFns_jobs, notFns_pair, notFns_host, notFns_ptp, implies_true]
    | split

theorem State.beginJoin_absent  (s : State) (hs : State.fnState (State.blank notFns s) fq = FnState.absent) : State.fnState (State.blank notFns (State.beginJoin s)) fq = FnState.absent := by
  unfold State.beginJoin
  repeat' first
    | with_reducible exact hs
    | with_reducible refine State.quenchFive_absent _ ?_
    | with_reducible refine absent_of_ite (fun _ => ?_) (fun _ => ?_)
    | with_reducible refine absent_of_fst_ite (fun _ => ?_) (fun _ => ?_)
    | simp only [↓State.onPair_blank, ↓State.pairForget_blank, ↓State.setRole_blank, notFns_out, notFns_freeUse, notFns_regs, notFns_tb, notFns_rx, notFns_tiles, notFns_mirLanes, notFns_order, notFns_queues, notFns_bellows, notFns_engines, notFns_tdc, notFns_bgs, notFns_field, notFns_hearth, notFns_mem, notFns_trig, notFns_staging, notFns_comps, notFns_jobs, notFns_pair, notFns_host, notFns_ptp, implies_true]
    | split

theorem State.otherHears_absent  (s : State) (h : Heartbeat) (hs : State.fnState (State.blank notFns s) fq = FnState.absent) : State.fnState (State.blank notFns (State.otherHears s h)) fq = FnState.absent := by
  unfold State.otherHears
  repeat' first
    | with_reducible exact hs
    | with_reducible refine State.beginJoin_absent _ ?_
    | with_reducible refine absent_of_ite (fun _ => ?_) (fun _ => ?_)
    | with_reducible refine absent_of_fst_ite (fun _ => ?_) (fun _ => ?_)
    | simp only [notFns_out, notFns_freeUse, notFns_regs, notFns_tb, notFns_rx, notFns_tiles, notFns_mirLanes, notFns_order, notFns_queues, notFns_bellows, notFns_engines, notFns_tdc, notFns_bgs, notFns_field, notFns_hearth, notFns_mem, notFns_trig, notFns_staging, notFns_comps, notFns_jobs, notFns_pair, notFns_host, notFns_ptp, implies_true]
    | split

theorem State.takeHeartbeat_absent  (s : State) (h : Heartbeat) (t : Stamp) (hs : State.fnState (State.blank notFns s) fq = FnState.absent) : State.fnState (State.blank notFns (State.takeHeartbeat s h t)) fq = FnState.absent := by
  unfold State.takeHeartbeat
  repeat' first
    | with_reducible exact hs
    | with_reducible refine State.pairFaultNow_absent _ _ ?_
    | with_reducible refine State.otherHears_absent _ _ ?_
    | with_reducible refine absent_of_ite (fun _ => ?_) (fun _ => ?_)
    | with_reducible refine absent_of_fst_ite (fun _ => ?_) (fun _ => ?_)
    | simp only [↓State.count_blank, ↓State.onPair_blank, ↓State.holderHears_blank, notFns_out, notFns_freeUse, notFns_regs, notFns_tb, notFns_rx, notFns_tiles, notFns_mirLanes, notFns_order, notFns_queues, notFns_bellows, notFns_engines, notFns_tdc, notFns_bgs, notFns_field, notFns_hearth, notFns_mem, notFns_trig, notFns_staging, notFns_comps, notFns_jobs, notFns_pair, notFns_host, notFns_ptp, implies_true]
    | split

theorem State.ignored_absent  (s : State) (f : Fn) (hs : State.fnState (State.blank notFns s) fq = FnState.absent) : State.fnState (State.blank notFns (State.ignored s f).1) fq = FnState.absent := by
  unfold State.ignored
  repeat' first
    | with_reducible exact hs
    | with_reducible refine State.lastStatus_absent _ _ _ ?_
    | with_reducible refine absent_of_ite (fun _ => ?_) (fun _ => ?_)
    | with_reducible refine absent_of_fst_ite (fun _ => ?_) (fun _ => ?_)
    | simp only [↓State.badCmd_blank, notFns_regs, implies_true]
    | split

theorem State.startFn_absent  (s : State) (f : Fn) (hs : State.fnState (State.blank notFns s) fq = FnState.absent) : State.fnState (State.blank notFns (State.startFn s f).1) fq = FnState.absent := by
  unfold State.startFn
  repeat' first
    | with_reducible exact hs
    | with_reducible refine State.ignored_absent _ _ ?_
    | with_reducible refine State.lastStatus_absent _ _ _ ?_
    | with_reducible refine State.onFn_absent _ _ _ ?_
    | with_reducible refine absent_of_ite (fun _ => ?_) (fun _ => ?_)
    | with_reducible refine absent_of_fst_ite (fun _ => ?_) (fun _ => ?_)
    | simp only [↓State.startEffect_blank, notFns_regs, notFns_tb, notFns_engines, notFns_cores, notFns_staging, implies_true]
    | split

theorem State.stopFn_absent  (s : State) (f : Fn) (hs : State.fnState (State.blank notFns s) fq = FnState.absent) : State.fnState (State.blank notFns (State.stopFn s f).1) fq = FnState.absent := by
  unfold State.stopFn
  repeat' first
    | with_reducible exact hs
    | with_reducible refine State.lastStatus_absent _ _ _ ?_
    | with_reducible refine State.setFn_absent _ _ _ ?_
    | with_reducible refine State.ignored_absent _ _ ?_
    | with_reducible refine absent_of_ite (fun _ => ?_) (fun _ => ?_)
    | with_reducible refine absent_of_fst_ite (fun _ => ?_) (fun _ => ?_)
    | simp only [↓State.stopEffect_blank, ↓State.faultLeft_blank, notFns_out, notFns_freeUse, notFns_regs, notFns_tb, notFns_order, notFns_queues, notFns_engines, notFns_tdc, notFns_field, notFns_hearth, notFns_mem, notFns_trig, notFns_staging, notFns_comps, notFns_jobs, notFns_pair, notFns_host, notFns_ptp, implies_true]
    | split

theorem State.quenchFn_absent  (s : State) (f : Fn) (hs : State.fnState (State.blank notFns s) fq = FnState.absent) : State.fnState (State.blank notFns (State.quenchFn s f).1) fq = FnState.absent := by
  unfold State.quenchFn
  repeat' first
    | with_reducible exact hs
    | with_reducible refine State.quenchNow_absent _ _ _ ?_
    | with_reducible refine State.ignored_absent _ _ ?_
    | with_reducible refine absent_of_ite (fun _ => ?_) (fun _ => ?_)
    | with_reducible refine absent_of_fst_ite (fun _ => ?_) (fun _ => ?_)
    | simp only [↓State.domainsOff_blank, notFns_out, notFns_freeUse, notFns_regs, notFns_tb, notFns_rx, notFns_tiles, notFns_mirLanes, notFns_order, notFns_queues, notFns_bellows, notFns_engines, notFns_tdc, notFns_bgs, notFns_field, notFns_hearth, notFns_mem, notFns_trig, notFns_staging, notFns_comps, notFns_jobs, notFns_pair, notFns_host, notFns_ptp, implies_true]
    | split

theorem State.fnCommand_absent  (s : State) (f : Fn) (cmd : Nat) (hs : State.fnState (State.blank notFns s) fq = FnState.absent) : State.fnState (State.blank notFns (State.fnCommand s f cmd).1) fq = FnState.absent := by
  unfold State.fnCommand
  repeat' first
    | with_reducible exact hs
    | with_reducible refine State.startFn_absent _ _ ?_
    | with_reducible refine State.stopFn_absent _ _ ?_
    | with_reducible refine State.quenchFn_absent _ _ ?_
    | with_reducible refine absent_of_ite (fun _ => ?_) (fun _ => ?_)
    | with_reducible refine absent_of_fst_ite (fun _ => ?_) (fun _ => ?_)
    | simp only [↓State.tellFn_blank, notFns_out, notFns_freeUse, notFns_regs, notFns_tb, notFns_rx, notFns_tiles, notFns_mirLanes, notFns_order, notFns_queues, notFns_bellows, notFns_engines, notFns_cores, notFns_tdc, notFns_bgs, notFns_field, notFns_hearth, notFns_mem, notFns_trig, notFns_staging, notFns_comps, notFns_jobs, notFns_pair, notFns_host, notFns_ptp, implies_true]
    | split

theorem State.takeState_absent  (s : State) (m : StateMsg) (hs : State.fnState (State.blank notFns s) fq = FnState.absent) : State.fnState (State.blank notFns (State.takeState s m)) fq = FnState.absent := by
  unfold State.takeState
  repeat' first
    | with_reducible exact hs
    | with_reducible refine State.fnCommand_absent _ _ _ ?_
    | with_reducible refine absent_of_ite (fun _ => ?_) (fun _ => ?_)
    | with_reducible refine absent_of_fst_ite (fun _ => ?_) (fun _ => ?_)
    | simp only [↓State.imagePiece_blank, ↓State.storeMirrored_blank, ↓State.onPair_blank, ↓State.copySegment_blank, ↓State.onTrig_blank, ↓State.requestStep_blank, notFns_out, notFns_freeUse, notFns_regs, notFns_tb, notFns_rx, notFns_tiles, notFns_mirLanes, notFns_order, notFns_queues, notFns_bellows, notFns_engines, notFns_cores, notFns_tdc, notFns_bgs, notFns_field, notFns_hearth, notFns_mem, notFns_trig, notFns_staging, notFns_comps, notFns_jobs, notFns_pair, notFns_host, notFns_ptp, notFns_kept, notFns_keptBad, implies_true]
    | split

theorem State.takeQuench_absent  (s : State) (t : Nat) (hs : State.fnState (State.blank notFns s) fq = FnState.absent) : State.fnState (State.blank notFns (State.takeQuench s t)) fq = FnState.absent := by
  unfold State.takeQuench
  repeat' first
    | with_reducible exact hs
    | with_reducible refine State.quenchFive_absent _ ?_
    | with_reducible refine absent_of_ite (fun _ => ?_) (fun _ => ?_)
    | with_reducible refine absent_of_fst_ite (fun _ => ?_) (fun _ => ?_)
    | simp only [↓State.log_blank, ↓State.noteQuenched_blank, notFns_out, notFns_freeUse, notFns_regs, notFns_tb, notFns_rx, notFns_tiles, notFns_mirLanes, notFns_order, notFns_queues, notFns_bellows, notFns_engines, notFns_tdc, notFns_bgs, notFns_field, notFns_hearth, notFns_mem, notFns_trig, notFns_staging, notFns_comps, notFns_jobs, notFns_pair, notFns_host, notFns_ptp, implies_true]
    | split

theorem State.mirApply_absent  (s : State) (a1 : MirMsg) (hs : State.fnState (State.blank notFns s) fq = FnState.absent) : State.fnState (State.blank notFns (State.mirApply s a1)) fq = FnState.absent := by
  unfold State.mirApply
  repeat' first
    | with_reducible exact hs
    | with_reducible refine State.takeHeartbeat_absent _ _ _ ?_
    | with_reducible refine State.takeState_absent _ _ ?_
    | with_reducible refine State.takeQuench_absent _ _ ?_
    | with_reducible refine absent_of_ite (fun _ => ?_) (fun _ => ?_)
    | with_reducible refine absent_of_fst_ite (fun _ => ?_) (fun _ => ?_)
    | simp only [↓State.takeSched_blank, ↓State.takeDecision_blank, ↓State.takeRecord_blank, ↓State.takeTime_blank, ↓State.theirDigest_blank, ↓State.takeSpace_blank, ↓State.takeForward_blank, ↓State.takeHandover_blank, notFns_out, notFns_freeUse, notFns_regs, notFns_tb, notFns_rx, notFns_tiles, notFns_mirLanes, notFns_order, notFns_queues, notFns_bellows, notFns_engines, notFns_cores, notFns_tdc, notFns_bgs, notFns_field, notFns_hearth, notFns_mem, notFns_trig, notFns_staging, notFns_comps, notFns_jobs, notFns_pair, notFns_host, notFns_ptp, notFns_kept, notFns_keptBad, implies_true]
    | split

theorem State.mirPass_absent  (s : State) (q : Nat) (m : MirMsg) (hs : State.fnState (State.blank notFns s) fq = FnState.absent) : State.fnState (State.blank notFns (State.mirPass s q m)) fq = FnState.absent := by
  unfold State.mirPass
  repeat' first
    | with_reducible exact hs
    | with_reducible refine State.mirApply_absent _ _ ?_
    | with_reducible refine absent_of_ite (fun _ => ?_) (fun _ => ?_)
    | with_reducible refine absent_of_fst_ite (fun _ => ?_) (fun _ => ?_)
    | simp only [↓State.onPair_blank, notFns_out, notFns_freeUse, notFns_regs, notFns_tb, notFns_rx, notFns_tiles, notFns_mirLanes, notFns_order, notFns_queues, notFns_bellows, notFns_engines, notFns_cores, notFns_tdc, notFns_bgs, notFns_field, notFns_hearth, notFns_mem, notFns_trig, notFns_staging, notFns_comps, notFns_jobs, notFns_pair, notFns_host, notFns_ptp, notFns_kept, notFns_keptBad, implies_true]
    | split

theorem State.mirDrain_absent  (a0 : Nat) (a1 : State) (hs : State.fnState (State.blank notFns a1) fq = FnState.absent) : State.fnState (State.blank notFns (State.mirDrain a0 a1)) fq = FnState.absent := by
  induction a0 generalizing a1 with
  | zero => unfold State.mirDrain; first | exact hs | (split <;> exact hs)
  | succ k ih =>
    unfold State.mirDrain
    repeat' first
      | with_reducible exact hs
      | with_reducible refine State.mirPass_absent _ _ _ ?_
      | with_reducible refine ih _ ?_
      | with_reducible refine absent_of_ite (fun _ => ?_) (fun _ => ?_)
      | with_reducible refine absent_of_fst_ite (fun _ => ?_) (fun _ => ?_)
      | simp only [notFns_out, notFns_freeUse, notFns_regs, notFns_tb, notFns_rx, notFns_tiles, notFns_mirLanes, notFns_order, notFns_queues, notFns_bellows, notFns_engines, notFns_cores, notFns_tdc, notFns_bgs, notFns_field, notFns_hearth, notFns_mem, notFns_trig, notFns_staging, notFns_comps, notFns_jobs, notFns_pair, notFns_host, notFns_ptp, notFns_kept, notFns_keptBad, implies_true]
      | split

theorem State.mirSkip_absent  (a0 : Nat) (a1 : Nat) (a2 : State) (hs : State.fnState (State.blank notFns a2) fq = FnState.absent) : State.fnState (State.blank notFns (State.mirSkip a0 a1 a2)) fq = FnState.absent := by
  induction a0 generalizing a2 with
  | zero => unfold State.mirSkip; first | exact hs | (split <;> exact hs)
  | succ k ih =>
    unfold State.mirSkip
    repeat' first
      | with_reducible exact hs
      | with_reducible refine State.mirPass_absent _ _ _ ?_
      | with_reducible refine ih _ ?_
      | with_reducible refine absent_of_ite (fun _ => ?_) (fun _ => ?_)
      | with_reducible refine absent_of_fst_ite (fun _ => ?_) (fun _ => ?_)
      | simp only [notFns_out, notFns_freeUse, notFns_regs, notFns_tb, notFns_rx, notFns_tiles, notFns_mirLanes, notFns_order, notFns_queues, notFns_bellows, notFns_engines, notFns_cores, notFns_tdc, notFns_bgs, notFns_field, notFns_hearth, notFns_mem, notFns_trig, notFns_staging, notFns_comps, notFns_jobs, notFns_pair, notFns_host, notFns_ptp, notFns_kept, notFns_keptBad, implies_true]
      | split

theorem State.askResync_absent  (s : State) (hs : State.fnState (State.blank notFns s) fq = FnState.absent) : State.fnState (State.blank notFns (State.askResync s)) fq = FnState.absent := by
  unfold State.askResync
  repeat' first
    | with_reducible exact hs
    | with_reducible refine State.beginJoin_absent _ ?_
    | with_reducible refine absent_of_ite (fun _ => ?_) (fun _ => ?_)
    | with_reducible refine absent_of_fst_ite (fun _ => ?_) (fun _ => ?_)
    | simp only [↓State.onPair_blank, notFns_out, notFns_freeUse, notFns_regs, notFns_tb, notFns_rx, notFns_tiles, notFns_mirLanes, notFns_order, notFns_queues, notFns_bellows, notFns_engines, notFns_tdc, notFns_bgs, notFns_field, notFns_hearth, notFns_mem, notFns_trig, notFns_staging, notFns_comps, notFns_jobs, notFns_pair, notFns_host, notFns_ptp, implies_true]
    | split

theorem State.mirrorDeskew_absent  (s : State) (q : Nat) (hs : State.fnState (State.blank notFns s) fq = FnState.absent) : State.fnState (State.blank notFns (State.mirrorDeskew s q)) fq = FnState.absent := by
  unfold State.mirrorDeskew
  repeat' first
    | with_reducible exact hs
    | with_reducible refine State.mirDrain_absent _ _ ?_
    | with_reducible refine State.mirSkip_absent _ _ _ ?_
    | with_reducible refine State.askResync_absent _ ?_
    | with_reducible refine absent_of_ite (fun _ => ?_) (fun _ => ?_)
    | with_reducible refine absent_of_fst_ite (fun _ => ?_) (fun _ => ?_)
    | simp only [notFns_out, notFns_freeUse, notFns_regs, notFns_tb, notFns_rx, notFns_tiles, notFns_mirLanes, notFns_order, notFns_queues, notFns_bellows, notFns_engines, notFns_cores, notFns_tdc, notFns_bgs, notFns_field, notFns_hearth, notFns_mem, notFns_trig, notFns_staging, notFns_comps, notFns_jobs, notFns_pair, notFns_host, notFns_ptp, notFns_kept, notFns_keptBad, implies_true]
    | split

theorem deskewTimeout_absent  (d : DeskewAt) (seq : Nat) (s : State) (hs : State.fnState (State.blank notFns s) fq = FnState.absent) : State.fnState (State.blank notFns (deskewTimeout d seq s)) fq = FnState.absent := by
  unfold deskewTimeout
  repeat' first
    | with_reducible exact hs
    | with_reducible refine State.mirrorDeskew_absent _ _ ?_
    | with_reducible refine absent_of_ite (fun _ => ?_) (fun _ => ?_)
    | with_reducible refine absent_of_fst_ite (fun _ => ?_) (fun _ => ?_)
    | simp only [↓State.stripDeskew_blank, notFns_out, notFns_freeUse, notFns_regs, notFns_tb, notFns_rx, notFns_tiles, notFns_mirLanes, notFns_order, notFns_queues, notFns_bellows, notFns_engines, notFns_cores, notFns_tdc, notFns_bgs, notFns_field, notFns_hearth, notFns_mem, notFns_trig, notFns_staging, notFns_comps, notFns_jobs, notFns_pair, notFns_host, notFns_ptp, notFns_kept, notFns_keptBad, implies_true]
    | split

theorem State.quenchGlobal_absent  (s : State) (hs : State.fnState (State.blank notFns s) fq = FnState.absent) : State.fnState (State.blank notFns (State.quenchGlobal s)) fq = FnState.absent := by
  unfold State.quenchGlobal
  repeat' first
    | with_reducible exact hs
    | with_reducible refine State.quenchFive_absent _ ?_
    | with_reducible refine absent_of_ite (fun _ => ?_) (fun _ => ?_)
    | with_reducible refine absent_of_fst_ite (fun _ => ?_) (fun _ => ?_)
    | simp only [↓State.logDev_blank, ↓State.noteQuenched_blank, ↓State.mirrorSend_blank, notFns_out, notFns_freeUse, notFns_regs, notFns_tb, notFns_rx, notFns_tiles, notFns_mirLanes, notFns_order, notFns_queues, notFns_bellows, notFns_engines, notFns_tdc, notFns_bgs, notFns_field, notFns_hearth, notFns_mem, notFns_trig, notFns_staging, notFns_comps, notFns_jobs, notFns_pair, notFns_host, notFns_ptp, implies_true]
    | split

theorem State.fnCmdWrite_absent  (s : State) (v : Nat) (hs : State.fnState (State.blank notFns s) fq = FnState.absent) : State.fnState (State.blank notFns (State.fnCmdWrite s v).1) fq = FnState.absent := by
  unfold State.fnCmdWrite
  repeat' first
    | with_reducible exact hs
    | with_reducible refine State.quenchGlobal_absent _ ?_
    | with_reducible refine State.fnCommand_absent _ _ _ ?_
    | with_reducible refine absent_of_ite (fun _ => ?_) (fun _ => ?_)
    | with_reducible refine absent_of_fst_ite (fun _ => ?_) (fun _ => ?_)
    | simp only [↓State.badCmd_blank, notFns_out, notFns_freeUse, notFns_regs, notFns_tb, notFns_rx, notFns_tiles, notFns_mirLanes, notFns_order, notFns_queues, notFns_bellows, notFns_engines, notFns_cores, notFns_tdc, notFns_bgs, notFns_field, notFns_hearth, notFns_mem, notFns_trig, notFns_staging, notFns_comps, notFns_jobs, notFns_pair, notFns_host, notFns_ptp, implies_true]
    | split

theorem State.fieldOff_absent  (s : State) (hs : State.fnState (State.blank notFns s) fq = FnState.absent) : State.fnState (State.blank notFns (State.fieldOff s)) fq = FnState.absent := by
  unfold State.fieldOff
  repeat' first
    | with_reducible exact hs
    | with_reducible refine State.setFn_absent _ _ _ ?_
    | with_reducible refine absent_of_ite (fun _ => ?_) (fun _ => ?_)
    | with_reducible refine absent_of_fst_ite (fun _ => ?_) (fun _ => ?_)
    | simp only [↓State.onField_blank, ↓State.domainsOff_blank, ↓State.aouOff_blank, notFns_regs, notFns_tb, notFns_queues, notFns_bellows, notFns_engines, notFns_bgs, notFns_field, notFns_comps, implies_true]
    | split

theorem fieldDieResetAssert_absent  (s : State) (hs : State.fnState (State.blank notFns s) fq = FnState.absent) : State.fnState (State.blank notFns (fieldDieResetAssert s)) fq = FnState.absent := by
  unfold fieldDieResetAssert
  repeat' first
    | with_reducible exact hs
    | with_reducible refine State.fieldOff_absent _ ?_
    | with_reducible refine absent_of_ite (fun _ => ?_) (fun _ => ?_)
    | with_reducible refine absent_of_fst_ite (fun _ => ?_) (fun _ => ?_)
    | simp only [↓State.dieRegsReset_blank, ↓State.setLink_blank, ↓State.setBit_blank, ↓State.refuseSt_blank, notFns_regs, notFns_tb, notFns_queues, notFns_bellows, notFns_engines, notFns_bgs, notFns_field, notFns_comps, implies_true]
    | split

theorem dieWrite_absent  (v : Nat) (s : State) (hs : State.fnState (State.blank notFns s) fq = FnState.absent) : State.fnState (State.blank notFns (dieWrite v s)) fq = FnState.absent := by
  unfold dieWrite
  repeat' first
    | with_reducible exact hs
    | with_reducible refine fieldDieResetAssert_absent _ ?_
    | with_reducible refine absent_of_ite (fun _ => ?_) (fun _ => ?_)
    | with_reducible refine absent_of_fst_ite (fun _ => ?_) (fun _ => ?_)
    | simp only [↓fieldDieResetRelease_blank, notFns_regs, notFns_tb, notFns_queues, notFns_bellows, notFns_engines, notFns_bgs, notFns_field, notFns_comps, implies_true]
    | split

theorem pairSwap_absent  (h : Nat) (_n : Nat) (s : State) (hs : State.fnState (State.blank notFns s) fq = FnState.absent) : State.fnState (State.blank notFns (pairSwap h _n s)) fq = FnState.absent := by
  unfold pairSwap
  repeat' first
    | with_reducible exact hs
    | with_reducible refine State.lastStatus_absent _ _ _ ?_
    | with_reducible refine absent_of_ite (fun _ => ?_) (fun _ => ?_)
    | with_reducible refine absent_of_fst_ite (fun _ => ?_) (fun _ => ?_)
    | simp only [↓State.planHandover_blank, notFns_out, notFns_pair, implies_true]
    | split

theorem busCmd_absent  (port : Option (Fin 2)) (a : Nat) (v : Nat) (ho : Nat × Nat) (g : State → State) (hx : (busCmd port a v ho) = some g) (t : State) (hs : State.fnState (State.blank notFns t) fq = FnState.absent) : State.fnState (State.blank notFns (g t)) fq = FnState.absent := by
  unfold busCmd at hx
  try dsimp only at hx
  repeat' first
    | with_reducible exact absent_of_blank (timeCmd_blank notFns_out notFns_regs notFns_tb notFns_tdc notFns_field notFns_hearth notFns_trig notFns_pair _ _ _ hx t) hs
    | with_reducible exact absent_of_blank (auxCmd_blank notFns_regs notFns_tb notFns_order notFns_queues notFns_bellows notFns_engines notFns_bgs notFns_field _ _ _ hx t) hs
    | with_reducible exact absent_of_blank (hstCmd_blank notFns_out notFns_regs notFns_host _ _ _ _ hx t) hs
    | with_reducible exact absent_of_blank (sectorCmd_blank notFns_out notFns_freeUse notFns_regs notFns_tb notFns_rx notFns_cmd notFns_mirLanes notFns_order notFns_queues notFns_bellows notFns_engines notFns_bgs _ _ _ _ hx t) hs
    | with_reducible refine dieWrite_absent _ _ ?_
    | with_reducible refine pairSwap_absent _ _ _ ?_
    | with_reducible refine ifBit_absent _ _ _ _ (fun t hs => ?_) ?_
    | with_reducible refine absent_of_ite (fun _ => ?_) (fun _ => ?_)
    | with_reducible refine absent_of_fst_ite (fun _ => ?_) (fun _ => ?_)
    | with_reducible exact hs
    | (with_reducible refine of_ite hx ?_ ?_ <;> (clear hx; intro hx))
    | (with_reducible refine of_dite hx ?_ ?_ <;> (clear hx; intro _ hx))
    | (with_reducible injection hx with hx; subst hx)
    | (with_reducible injection hx; done)
    | (obtain ⟨_, _, hx⟩ := Option.map_eq_some_iff.mp hx; subst hx)
    | simp only [↓State.supWrite_blank, ↓jobSubmit_blank, ↓jobAbort_blank, ↓fereload_blank, ↓recover_blank, ↓updateCancel_blank, notFns_out, notFns_freeUse, notFns_regs, notFns_tb, notFns_rx, notFns_cmd, notFns_mirLanes, notFns_order, notFns_queues, notFns_bellows, notFns_engines, notFns_cores, notFns_tdc, notFns_bgs, notFns_field, notFns_hearth, notFns_mem, notFns_trig, notFns_comps, notFns_jobs, notFns_pair, notFns_host, notFns_nvs, notFns_sys, implies_true]
    | split at hx

theorem State.busWrite_absent  (s : State) (port : Option (Fin 2)) (a : Nat) (v : Nat) (ho : Nat × Nat) (hs : State.fnState (State.blank notFns s) fq = FnState.absent) : State.fnState (State.blank notFns (State.busWrite s port a v ho).1) fq = FnState.absent := by
  unfold State.busWrite
  repeat' first
    | with_reducible exact hs
    | with_reducible refine State.fnCmdWrite_absent _ _ ?_
    | with_reducible refine State.fnCommand_absent _ _ _ ?_
    | with_reducible refine busCmd_absent _ _ _ _ _ (by assumption) _ ?_
    | with_reducible refine absent_of_ite (fun _ => ?_) (fun _ => ?_)
    | with_reducible refine absent_of_fst_ite (fun _ => ?_) (fun _ => ?_)
    | simp only [↓State.storeWrite_blank, ↓State.writeMirrored_blank, notFns_out, notFns_freeUse, notFns_regs, notFns_tb, notFns_rx, notFns_tiles, notFns_cmd, notFns_mirLanes, notFns_order, notFns_queues, notFns_bellows, notFns_engines, notFns_cores, notFns_tdc, notFns_bgs, notFns_field, notFns_hearth, notFns_mem, notFns_trig, notFns_staging, notFns_comps, notFns_jobs, notFns_pair, notFns_host, notFns_ptp, notFns_nvs, notFns_sys, implies_true]
    | split

theorem registerWrite_absent  (port : Fin 2) (addr : Nat) (be : BitVec 4) (val : Word) (ho : Nat × Nat) (s : State) (hs : State.fnState (State.blank notFns s) fq = FnState.absent) : State.fnState (State.blank notFns (registerWrite port addr be val ho s)) fq = FnState.absent := by
  unfold registerWrite
  repeat' first
    | with_reducible exact hs
    | with_reducible refine State.busWrite_absent _ _ _ _ _ ?_
    | with_reducible refine absent_of_ite (fun _ => ?_) (fun _ => ?_)
    | with_reducible refine absent_of_fst_ite (fun _ => ?_) (fun _ => ?_)
    | simp only [notFns_out, notFns_freeUse, notFns_regs, notFns_tb, notFns_rx, notFns_tiles, notFns_cmd, notFns_mirLanes, notFns_order, notFns_queues, notFns_bellows, notFns_engines, notFns_cores, notFns_tdc, notFns_bgs, notFns_field, notFns_hearth, notFns_mem, notFns_trig, notFns_staging, notFns_comps, notFns_jobs, notFns_pair, notFns_host, notFns_ptp, notFns_nvs, notFns_sys, implies_true]
    | split

theorem startingComplete_absent  (f : Fn) (s : State) (hs : State.fnState (State.blank notFns s) fq = FnState.absent) : State.fnState (State.blank notFns (startingComplete f s)) fq = FnState.absent := by
  unfold startingComplete
  repeat' first
    | with_reducible exact hs
    | with_reducible refine State.faultOut_absent _ _ _ ?_
    | with_reducible refine State.ranEffect_absent _ _ ?_
    | with_reducible refine State.setFn_absent _ _ _ ?_
    | with_reducible refine State.each_absent _ _ _ (fun t x hs => ?_) ?_
    | with_reducible refine absent_of_ite (fun _ => ?_) (fun _ => ?_)
    | with_reducible refine absent_of_fst_ite (fun _ => ?_) (fun _ => ?_)
    | simp only [↓State.onEngine_blank, ↓State.runEffect_blank, notFns_out, notFns_regs, notFns_tb, notFns_rx, notFns_tiles, notFns_cmd, notFns_mirLanes, notFns_queues, notFns_bellows, notFns_engines, notFns_tdc, notFns_bgs, notFns_field, notFns_hearth, notFns_trig, notFns_comps, notFns_pair, notFns_host, notFns_ptp, implies_true]
    | split

theorem State.bootStart_absent  (s : State) (f : Fn) (hs : State.fnState (State.blank notFns s) fq = FnState.absent) : State.fnState (State.blank notFns (State.bootStart s f)) fq = FnState.absent := by
  unfold State.bootStart
  repeat' first
    | with_reducible exact hs
    | with_reducible refine startingComplete_absent _ _ ?_
    | with_reducible refine State.startFn_absent _ _ ?_
    | with_reducible refine absent_of_ite (fun _ => ?_) (fun _ => ?_)
    | with_reducible refine absent_of_fst_ite (fun _ => ?_) (fun _ => ?_)
    | simp only [notFns_out, notFns_regs, notFns_tb, notFns_rx, notFns_tiles, notFns_cmd, notFns_mirLanes, notFns_queues, notFns_bellows, notFns_engines, notFns_cores, notFns_tdc, notFns_bgs, notFns_field, notFns_hearth, notFns_trig, notFns_staging, notFns_comps, notFns_pair, notFns_host, notFns_ptp, implies_true]
    | split

theorem State.bootOn_absent  (x : BootFacts) (events : List (Nat × Nat)) (s : State) (hs : State.fnState (State.blank notFns s) fq = FnState.absent) : State.fnState (State.blank notFns (State.bootOn x events s)) fq = FnState.absent := by
  unfold State.bootOn
  repeat' first
    | with_reducible exact hs
    | with_reducible refine State.mapFns_absent _ _ (fun i hi => by simp only [hi, if_true]) ?_
    | with_reducible refine State.bootStart_absent _ _ ?_
    | with_reducible refine State.each_absent _ _ _ (fun t x hs => ?_) ?_
    | with_reducible refine absent_of_ite (fun _ => ?_) (fun _ => ?_)
    | with_reducible refine absent_of_fst_ite (fun _ => ?_) (fun _ => ?_)
    | simp only [↓State.placeFirmware_blank, ↓State.trainMemory_blank, ↓State.loadSettings_blank, ↓State.aouStop_blank, ↓State.domUp_blank, ↓State.startFwCore_blank, ↓tongsTakeHold_blank, ↓State.logUpd_blank, ↓State.onSys_blank, ↓State.reloadMark_blank, ↓State.reloadStart_blank, notFns_out, notFns_regs, notFns_tb, notFns_rx, notFns_tiles, notFns_cmd, notFns_mirLanes, notFns_queues, notFns_bellows, notFns_engines, notFns_cores, notFns_tdc, notFns_bgs, notFns_field, notFns_hearth, notFns_mem, notFns_trig, notFns_staging, notFns_comps, notFns_pair, notFns_host, notFns_ptp, notFns_sys, implies_true]
    | split

theorem State.bootNow_absent  (x : BootFacts) (s : State) (hs : State.fnState (State.blank notFns s) fq = FnState.absent) : State.fnState (State.blank notFns (State.bootNow x s)) fq = FnState.absent := by
  unfold State.bootNow
  repeat' first
    | with_reducible exact hs
    | with_reducible refine State.bootOn_absent _ _ _ ?_
    | with_reducible refine absent_of_ite (fun _ => ?_) (fun _ => ?_)
    | with_reducible refine absent_of_fst_ite (fun _ => ?_) (fun _ => ?_)
    | simp only [↓State.setBit_blank, ↓State.setLink_blank, ↓State.chooseSlot_blank, ↓State.runFrom_blank, ↓State.onSys_blank, notFns_out, notFns_regs, notFns_tb, notFns_rx, notFns_tiles, notFns_cmd, notFns_mirLanes, notFns_queues, notFns_bellows, notFns_engines, notFns_cores, notFns_tdc, notFns_bgs, notFns_field, notFns_hearth, notFns_mem, notFns_trig, notFns_staging, notFns_comps, notFns_pair, notFns_host, notFns_ptp, notFns_nvs, notFns_sys, implies_true]
    | split

theorem State.leaveReset_absent  (x : BootFacts) (s : State) (hs : State.fnState (State.blank notFns s) fq = FnState.absent) : State.fnState (State.blank notFns (State.leaveReset x s)) fq = FnState.absent := by
  unfold State.leaveReset
  repeat' first
    | with_reducible exact hs
    | with_reducible refine State.bootNow_absent _ _ ?_
    | with_reducible refine absent_of_ite (fun _ => ?_) (fun _ => ?_)
    | with_reducible refine absent_of_fst_ite (fun _ => ?_) (fun _ => ?_)
    | simp only [notFns_out, notFns_regs, notFns_tb, notFns_rx, notFns_tiles, notFns_cmd, notFns_mirLanes, notFns_queues, notFns_bellows, notFns_engines, notFns_cores, notFns_tdc, notFns_bgs, notFns_field, notFns_hearth, notFns_mem, notFns_trig, notFns_staging, notFns_comps, notFns_pair, notFns_host, notFns_ptp, notFns_nvs, notFns_sys, implies_true]
    | split

theorem State.mirrorIn_absent  (s : State) (q : Nat) (m : MirMsg) (hs : State.fnState (State.blank notFns s) fq = FnState.absent) : State.fnState (State.blank notFns (State.mirrorIn s q m)) fq = FnState.absent := by
  unfold State.mirrorIn
  repeat' first
    | with_reducible exact hs
    | with_reducible refine State.mirDrain_absent _ _ ?_
    | with_reducible refine State.mirPass_absent _ _ _ ?_
    | with_reducible refine absent_of_ite (fun _ => ?_) (fun _ => ?_)
    | with_reducible refine absent_of_fst_ite (fun _ => ?_) (fun _ => ?_)
    | simp only [↓State.count_blank, ↓State.onPair_blank, notFns_out, notFns_freeUse, notFns_regs, notFns_tb, notFns_rx, notFns_tiles, notFns_mirLanes, notFns_order, notFns_queues, notFns_bellows, notFns_engines, notFns_cores, notFns_tdc, notFns_bgs, notFns_field, notFns_hearth, notFns_mem, notFns_trig, notFns_staging, notFns_comps, notFns_jobs, notFns_pair, notFns_host, notFns_ptp, notFns_kept, notFns_keptBad, implies_true]
    | split

theorem recordRx_absent  (q : Nat) (m : RecordMsg) (meas : List (Nat × Nat)) (s : State) (hs : State.fnState (State.blank notFns s) fq = FnState.absent) : State.fnState (State.blank notFns (recordRx q m meas s)) fq = FnState.absent := by
  unfold recordRx
  repeat' first
    | with_reducible exact hs
    | with_reducible refine State.mirrorIn_absent _ _ _ ?_
    | with_reducible refine absent_of_ite (fun _ => ?_) (fun _ => ?_)
    | with_reducible refine absent_of_fst_ite (fun _ => ?_) (fun _ => ?_)
    | simp only [notFns_out, notFns_freeUse, notFns_regs, notFns_tb, notFns_rx, notFns_tiles, notFns_mirLanes, notFns_order, notFns_queues, notFns_bellows, notFns_engines, notFns_cores, notFns_tdc, notFns_bgs, notFns_field, notFns_hearth, notFns_mem, notFns_trig, notFns_staging, notFns_comps, notFns_jobs, notFns_pair, notFns_host, notFns_ptp, notFns_kept, notFns_keptBad, implies_true]
    | split

theorem State.deviceReset_absent  (s : State) (hs : State.fnState (State.blank notFns s) fq = FnState.absent) : State.fnState (State.blank notFns (State.deviceReset s)) fq = FnState.absent := by
  unfold State.deviceReset
  simp only [↓State.setBit_blank, notFns_regs]
  refine (absent_iff _).mpr ?_
  have h := (absent_iff s).mp hs
  simp only [State.fnState] at h ⊢
  by_cases hk : s.part.lacks fq = true
  · simp only [hk, if_true]
  simp only [hk, Bool.false_eq_true, if_false, State.fn, Vector.getElem?_map] at h ⊢
  revert h
  cases s.fns[fq.num]? with
  | none => exact id
  | some i => intro h; simp only [Option.map_some, Option.getD_some] at h ⊢; rw [if_pos h]; exact h

theorem pwrOkDeassert_absent  (s : State) (hs : State.fnState (State.blank notFns s) fq = FnState.absent) : State.fnState (State.blank notFns (pwrOkDeassert s)) fq = FnState.absent := by
  unfold pwrOkDeassert
  repeat' first
    | with_reducible exact hs
    | with_reducible refine State.deviceReset_absent _ ?_
    | with_reducible refine absent_of_ite (fun _ => ?_) (fun _ => ?_)
    | with_reducible refine absent_of_fst_ite (fun _ => ?_) (fun _ => ?_)
    | simp only [↓State.onTap_blank, notFns_out, notFns_regs, notFns_tb, notFns_rx, notFns_tiles, notFns_cmd, notFns_mirLanes, notFns_order, notFns_queues, notFns_bellows, notFns_engines, notFns_cores, notFns_postRecs, notFns_postSeq, notFns_slots, notFns_tdc, notFns_bgs, notFns_field, notFns_hearth, notFns_mem, notFns_trig, notFns_staging, notFns_comps, notFns_jobs, notFns_pair, notFns_host, notFns_ptp, notFns_sys, notFns_tap, notFns_kept, notFns_keptBad, implies_true]
    | split

theorem State.tapHold_absent  (s : State) (ir : Nat) (hs : State.fnState (State.blank notFns s) fq = FnState.absent) : State.fnState (State.blank notFns (State.tapHold s ir)) fq = FnState.absent := by
  unfold State.tapHold
  repeat' first
    | with_reducible exact hs
    | with_reducible refine State.deviceReset_absent _ ?_
    | with_reducible refine absent_of_ite (fun _ => ?_) (fun _ => ?_)
    | with_reducible refine absent_of_fst_ite (fun _ => ?_) (fun _ => ?_)
    | simp only [↓State.onTap_blank, ↓State.loadIr_blank, notFns_out, notFns_regs, notFns_tb, notFns_rx, notFns_tiles, notFns_cmd, notFns_mirLanes, notFns_order, notFns_queues, notFns_bellows, notFns_engines, notFns_cores, notFns_postRecs, notFns_postSeq, notFns_slots, notFns_tdc, notFns_bgs, notFns_field, notFns_hearth, notFns_mem, notFns_trig, notFns_staging, notFns_comps, notFns_jobs, notFns_pair, notFns_host, notFns_ptp, notFns_sys, notFns_tap, notFns_kept, notFns_keptBad, implies_true]
    | split

theorem highz_absent  (s : State) (hs : State.fnState (State.blank notFns s) fq = FnState.absent) : State.fnState (State.blank notFns (highz s)) fq = FnState.absent := by
  unfold highz
  repeat' first
    | with_reducible exact hs
    | with_reducible refine State.tapHold_absent _ _ ?_
    | with_reducible refine absent_of_ite (fun _ => ?_) (fun _ => ?_)
    | with_reducible refine absent_of_fst_ite (fun _ => ?_) (fun _ => ?_)
    | simp only [↓State.emit_blank, notFns_out, notFns_regs, notFns_tb, notFns_rx, notFns_tiles, notFns_cmd, notFns_mirLanes, notFns_order, notFns_queues, notFns_bellows, notFns_engines, notFns_cores, notFns_postRecs, notFns_postSeq, notFns_slots, notFns_tdc, notFns_bgs, notFns_field, notFns_hearth, notFns_mem, notFns_trig, notFns_staging, notFns_comps, notFns_jobs, notFns_pair, notFns_host, notFns_ptp, notFns_sys, notFns_tap, notFns_kept, notFns_keptBad, implies_true]
    | split

theorem State.tapIdle_absent  (s : State) (x : BootFacts) (hs : State.fnState (State.blank notFns s) fq = FnState.absent) : State.fnState (State.blank notFns (State.tapIdle s x)) fq = FnState.absent := by
  unfold State.tapIdle
  repeat' first
    | with_reducible exact hs
    | with_reducible refine State.leaveReset_absent _ _ ?_
    | with_reducible refine absent_of_ite (fun _ => ?_) (fun _ => ?_)
    | with_reducible refine absent_of_fst_ite (fun _ => ?_) (fun _ => ?_)
    | simp only [↓State.onTap_blank, notFns_out, notFns_regs, notFns_tb, notFns_rx, notFns_tiles, notFns_cmd, notFns_mirLanes, notFns_queues, notFns_bellows, notFns_engines, notFns_cores, notFns_tdc, notFns_bgs, notFns_field, notFns_hearth, notFns_mem, notFns_trig, notFns_staging, notFns_comps, notFns_pair, notFns_host, notFns_ptp, notFns_nvs, notFns_sys, notFns_tap, implies_true]
    | split

theorem testLogicResetEntry_absent  (x : BootFacts) (s : State) (hs : State.fnState (State.blank notFns s) fq = FnState.absent) : State.fnState (State.blank notFns (testLogicResetEntry x s)) fq = FnState.absent := by
  unfold testLogicResetEntry
  repeat' first
    | with_reducible exact hs
    | with_reducible refine State.tapIdle_absent _ _ ?_
    | with_reducible refine absent_of_ite (fun _ => ?_) (fun _ => ?_)
    | with_reducible refine absent_of_fst_ite (fun _ => ?_) (fun _ => ?_)
    | simp only [notFns_out, notFns_regs, notFns_tb, notFns_rx, notFns_tiles, notFns_cmd, notFns_mirLanes, notFns_queues, notFns_bellows, notFns_engines, notFns_cores, notFns_tdc, notFns_bgs, notFns_field, notFns_hearth, notFns_mem, notFns_trig, notFns_staging, notFns_comps, notFns_pair, notFns_host, notFns_ptp, notFns_nvs, notFns_sys, notFns_tap, implies_true]
    | split

theorem heartbeatRx_absent  (m : Fin 8) (q : Nat) (h : Heartbeat) (s : State) (hs : State.fnState (State.blank notFns s) fq = FnState.absent) : State.fnState (State.blank notFns (heartbeatRx m q h s)) fq = FnState.absent := by
  unfold heartbeatRx
  repeat' first
    | with_reducible exact hs
    | with_reducible refine State.mirrorIn_absent _ _ _ ?_
    | with_reducible refine absent_of_ite (fun _ => ?_) (fun _ => ?_)
    | with_reducible refine absent_of_fst_ite (fun _ => ?_) (fun _ => ?_)
    | simp only [↓State.riseOrRun_blank, ↓laneOn_blank, notFns_out, notFns_freeUse, notFns_regs, notFns_tb, notFns_rx, notFns_tiles, notFns_cmd, notFns_mirLanes, notFns_order, notFns_queues, notFns_bellows, notFns_engines, notFns_cores, notFns_tdc, notFns_bgs, notFns_field, notFns_hearth, notFns_mem, notFns_trig, notFns_staging, notFns_comps, notFns_jobs, notFns_pair, notFns_host, notFns_ptp, notFns_kept, notFns_keptBad, implies_true]
    | split

theorem timeRx_absent  (q : Nat) (dep : Nat) (back : Nat) (s : State) (hs : State.fnState (State.blank notFns s) fq = FnState.absent) : State.fnState (State.blank notFns (timeRx q dep back s)) fq = FnState.absent := by
  unfold timeRx
  repeat' first
    | with_reducible exact hs
    | with_reducible refine State.mirrorIn_absent _ _ _ ?_
    | with_reducible refine absent_of_ite (fun _ => ?_) (fun _ => ?_)
    | with_reducible refine absent_of_fst_ite (fun _ => ?_) (fun _ => ?_)
    | simp only [notFns_out, notFns_freeUse, notFns_regs, notFns_tb, notFns_rx, notFns_tiles, notFns_mirLanes, notFns_order, notFns_queues, notFns_bellows, notFns_engines, notFns_cores, notFns_tdc, notFns_bgs, notFns_field, notFns_hearth, notFns_mem, notFns_trig, notFns_staging, notFns_comps, notFns_jobs, notFns_pair, notFns_host, notFns_ptp, notFns_kept, notFns_keptBad, implies_true]
    | split

theorem globalQuench_absent  (s : State) (hs : State.fnState (State.blank notFns s) fq = FnState.absent) : State.fnState (State.blank notFns (globalQuench s)) fq = FnState.absent := by
  unfold globalQuench
  repeat' first
    | with_reducible exact hs
    | with_reducible refine State.quenchGlobal_absent _ ?_
    | with_reducible refine absent_of_ite (fun _ => ?_) (fun _ => ?_)
    | with_reducible refine absent_of_fst_ite (fun _ => ?_) (fun _ => ?_)
    | simp only [notFns_out, notFns_freeUse, notFns_regs, notFns_tb, notFns_rx, notFns_tiles, notFns_mirLanes, notFns_order, notFns_queues, notFns_bellows, notFns_engines, notFns_tdc, notFns_bgs, notFns_field, notFns_hearth, notFns_mem, notFns_trig, notFns_staging, notFns_comps, notFns_jobs, notFns_pair, notFns_host, notFns_ptp, implies_true]
    | split

theorem fncmd_absent  (src : Src) (s : State) (hs : State.fnState (State.blank notFns s) fq = FnState.absent) : State.fnState (State.blank notFns (fncmd src s)) fq = FnState.absent := by
  unfold fncmd
  repeat' first
    | with_reducible exact hs
    | with_reducible refine State.fnCmdWrite_absent _ _ ?_
    | with_reducible refine State.serve_absent _ _ _ _ (fun c hs => ?_) ?_
    | with_reducible refine absent_of_ite (fun _ => ?_) (fun _ => ?_)
    | with_reducible refine absent_of_fst_ite (fun _ => ?_) (fun _ => ?_)
    | simp only [↓State.reply_blank, notFns_out, notFns_freeUse, notFns_regs, notFns_tb, notFns_rx, notFns_tiles, notFns_mirLanes, notFns_order, notFns_queues, notFns_bellows, notFns_engines, notFns_cores, notFns_tdc, notFns_bgs, notFns_field, notFns_hearth, notFns_mem, notFns_trig, notFns_staging, notFns_comps, notFns_jobs, notFns_pair, notFns_host, notFns_ptp, implies_true]
    | split

theorem extest_absent  (cells : List Byte) (pins : List Byte) (s : State) (hs : State.fnState (State.blank notFns s) fq = FnState.absent) : State.fnState (State.blank notFns (extest cells pins s)) fq = FnState.absent := by
  unfold extest
  repeat' first
    | with_reducible exact hs
    | with_reducible refine State.tapHold_absent _ _ ?_
    | with_reducible refine absent_of_ite (fun _ => ?_) (fun _ => ?_)
    | with_reducible refine absent_of_fst_ite (fun _ => ?_) (fun _ => ?_)
    | simp only [↓State.boundaryScan_blank, notFns_out, notFns_regs, notFns_tb, notFns_rx, notFns_tiles, notFns_cmd, notFns_mirLanes, notFns_order, notFns_queues, notFns_bellows, notFns_engines, notFns_cores, notFns_postRecs, notFns_postSeq, notFns_slots, notFns_tdc, notFns_bgs, notFns_field, notFns_hearth, notFns_mem, notFns_trig, notFns_staging, notFns_comps, notFns_jobs, notFns_pair, notFns_host, notFns_ptp, notFns_sys, notFns_tap, notFns_kept, notFns_keptBad, implies_true]
    | split

theorem State.coreFault_absent  (s : State) (c : Nat) (cause : Nat) (hs : State.fnState (State.blank notFns s) fq = FnState.absent) : State.fnState (State.blank notFns (State.coreFault s c cause)) fq = FnState.absent := by
  unfold State.coreFault
  repeat' first
    | with_reducible exact hs
    | with_reducible refine State.deviceReset_absent _ ?_
    | with_reducible refine State.faultFn_absent _ _ _ ?_
    | with_reducible refine absent_of_ite (fun _ => ?_) (fun _ => ?_)
    | with_reducible refine absent_of_fst_ite (fun _ => ?_) (fun _ => ?_)
    | simp only [↓State.onCore_blank, ↓State.putBgs_blank, ↓State.serviceEnd_blank, ↓State.logDev_blank, ↓State.log_blank, notFns_out, notFns_regs, notFns_tb, notFns_rx, notFns_tiles, notFns_cmd, notFns_mirLanes, notFns_order, notFns_queues, notFns_bellows, notFns_engines, notFns_cores, notFns_postRecs, notFns_postSeq, notFns_slots, notFns_tdc, notFns_bgs, notFns_field, notFns_hearth, notFns_mem, notFns_trig, notFns_staging, notFns_comps, notFns_jobs, notFns_pair, notFns_host, notFns_ptp, notFns_sys, notFns_kept, notFns_keptBad, implies_true]
    | split

theorem State.coreBundle_absent  (s : State) (c : Fin 4) (badFetch : Bool) (badData : Bool) (hs : State.fnState (State.blank notFns s) fq = FnState.absent) : State.fnState (State.blank notFns (State.coreBundle s c badFetch badData)) fq = FnState.absent := by
  unfold State.coreBundle
  repeat' first
    | with_reducible exact hs
    | with_reducible refine State.coreFault_absent _ _ _ ?_
    | with_reducible refine absent_of_ite (fun _ => ?_) (fun _ => ?_)
    | with_reducible refine absent_of_fst_ite (fun _ => ?_) (fun _ => ?_)
    | simp only [↓State.coreEffect_blank, ↓State.onCore_blank, notFns_out, notFns_regs, notFns_tb, notFns_rx, notFns_tiles, notFns_cmd, notFns_mirLanes, notFns_order, notFns_queues, notFns_bellows, notFns_engines, notFns_cores, notFns_postRecs, notFns_postSeq, notFns_slots, notFns_tdc, notFns_bgs, notFns_field, notFns_hearth, notFns_mem, notFns_trig, notFns_staging, notFns_comps, notFns_jobs, notFns_pair, notFns_host, notFns_ptp, notFns_sys, notFns_kept, notFns_keptBad, implies_true]
    | split

theorem bundleIssue_absent  (p : ProcId) (ecc : LsEcc) (s : State) (hs : State.fnState (State.blank notFns s) fq = FnState.absent) : State.fnState (State.blank notFns (bundleIssue p ecc s)) fq = FnState.absent := by
  unfold bundleIssue
  repeat' first
    | with_reducible exact hs
    | with_reducible refine State.coreBundle_absent _ _ _ _ ?_
    | with_reducible refine absent_of_ite (fun _ => ?_) (fun _ => ?_)
    | with_reducible refine absent_of_fst_ite (fun _ => ?_) (fun _ => ?_)
    | simp only [↓State.count_blank, ↓State.engineBundle_blank, notFns_out, notFns_freeUse, notFns_regs, notFns_tb, notFns_rx, notFns_tiles, notFns_cmd, notFns_mirLanes, notFns_order, notFns_queues, notFns_bellows, notFns_engines, notFns_cores, notFns_postRecs, notFns_postSeq, notFns_slots, notFns_tdc, notFns_bgs, notFns_field, notFns_hearth, notFns_mem, notFns_trig, notFns_staging, notFns_comps, notFns_jobs, notFns_pair, notFns_host, notFns_ptp, notFns_sys, notFns_kept, notFns_keptBad, implies_true]
    | split

theorem fieldDieReinitDone_absent  (s : State) (hs : State.fnState (State.blank notFns s) fq = FnState.absent) : State.fnState (State.blank notFns (fieldDieReinitDone s)) fq = FnState.absent := by
  unfold fieldDieReinitDone
  repeat' first
    | with_reducible exact hs
    | with_reducible refine State.setFn_absent _ _ _ ?_
    | with_reducible refine absent_of_ite (fun _ => ?_) (fun _ => ?_)
    | with_reducible refine absent_of_fst_ite (fun _ => ?_) (fun _ => ?_)
    | simp only [↓State.restoreReg_blank, ↓State.domUp_blank, ↓State.aouStop_blank, notFns_regs, notFns_bgs, notFns_field, implies_true]
    | split

theorem decisionRx_absent  (q : Nat) (d : Option Decision) (k : Option Nat) (s : State) (hs : State.fnState (State.blank notFns s) fq = FnState.absent) : State.fnState (State.blank notFns (decisionRx q d k s)) fq = FnState.absent := by
  unfold decisionRx
  repeat' first
    | with_reducible exact hs
    | with_reducible refine State.mirrorIn_absent _ _ _ ?_
    | with_reducible refine absent_of_ite (fun _ => ?_) (fun _ => ?_)
    | with_reducible refine absent_of_fst_ite (fun _ => ?_) (fun _ => ?_)
    | simp only [notFns_out, notFns_freeUse, notFns_regs, notFns_tb, notFns_rx, notFns_tiles, notFns_mirLanes, notFns_order, notFns_queues, notFns_bellows, notFns_engines, notFns_cores, notFns_tdc, notFns_bgs, notFns_field, notFns_hearth, notFns_mem, notFns_trig, notFns_staging, notFns_comps, notFns_jobs, notFns_pair, notFns_host, notFns_ptp, notFns_kept, notFns_keptBad, implies_true]
    | split

theorem stoppingComplete_absent  (f : Fn) (s : State) (hs : State.fnState (State.blank notFns s) fq = FnState.absent) : State.fnState (State.blank notFns (stoppingComplete f s)) fq = FnState.absent := by
  unfold stoppingComplete
  repeat' first
    | with_reducible exact hs
    | with_reducible refine State.setFn_absent _ _ _ ?_
    | with_reducible refine absent_of_ite (fun _ => ?_) (fun _ => ?_)
    | with_reducible refine absent_of_fst_ite (fun _ => ?_) (fun _ => ?_)
    | simp only [↓State.domainsOff_blank, ↓State.stoppedEffect_blank, notFns_out, notFns_regs, notFns_tb, notFns_rx, notFns_mirLanes, notFns_order, notFns_queues, notFns_bellows, notFns_engines, notFns_tdc, notFns_bgs, notFns_field, notFns_hearth, notFns_mem, notFns_trig, notFns_comps, notFns_pair, notFns_host, implies_true]
    | split

theorem quenchRx_absent  (q : Nat) (t : Nat) (s : State) (hs : State.fnState (State.blank notFns s) fq = FnState.absent) : State.fnState (State.blank notFns (quenchRx q t s)) fq = FnState.absent := by
  unfold quenchRx
  repeat' first
    | with_reducible exact hs
    | with_reducible refine State.mirrorIn_absent _ _ _ ?_
    | with_reducible refine absent_of_ite (fun _ => ?_) (fun _ => ?_)
    | with_reducible refine absent_of_fst_ite (fun _ => ?_) (fun _ => ?_)
    | simp only [notFns_out, notFns_freeUse, notFns_regs, notFns_tb, notFns_rx, notFns_tiles, notFns_mirLanes, notFns_order, notFns_queues, notFns_bellows, notFns_engines, notFns_cores, notFns_tdc, notFns_bgs, notFns_field, notFns_hearth, notFns_mem, notFns_trig, notFns_staging, notFns_comps, notFns_jobs, notFns_pair, notFns_host, notFns_ptp, notFns_kept, notFns_keptBad, implies_true]
    | split

theorem mirrorLaneFault_absent  (s : State) (hs : State.fnState (State.blank notFns s) fq = FnState.absent) : State.fnState (State.blank notFns (mirrorLaneFault s)) fq = FnState.absent := by
  unfold mirrorLaneFault
  repeat' first
    | with_reducible exact hs
    | with_reducible refine State.pairFaultNow_absent _ _ ?_
    | with_reducible refine absent_of_ite (fun _ => ?_) (fun _ => ?_)
    | with_reducible refine absent_of_fst_ite (fun _ => ?_) (fun _ => ?_)
    | simp only [notFns_regs, notFns_tb, notFns_rx, notFns_mirLanes, notFns_pair, implies_true]
    | split

theorem extestPulse_absent  (cells : List Byte) (pins : List Byte) (s : State) (hs : State.fnState (State.blank notFns s) fq = FnState.absent) : State.fnState (State.blank notFns (extestPulse cells pins s)) fq = FnState.absent := by
  unfold extestPulse
  repeat' first
    | with_reducible exact hs
    | with_reducible refine State.tapHold_absent _ _ ?_
    | with_reducible refine absent_of_ite (fun _ => ?_) (fun _ => ?_)
    | with_reducible refine absent_of_fst_ite (fun _ => ?_) (fun _ => ?_)
    | simp only [↓State.boundaryScan_blank, notFns_out, notFns_regs, notFns_tb, notFns_rx, notFns_tiles, notFns_cmd, notFns_mirLanes, notFns_order, notFns_queues, notFns_bellows, notFns_engines, notFns_cores, notFns_postRecs, notFns_postSeq, notFns_slots, notFns_tdc, notFns_bgs, notFns_field, notFns_hearth, notFns_mem, notFns_trig, notFns_staging, notFns_comps, notFns_jobs, notFns_pair, notFns_host, notFns_ptp, notFns_sys, notFns_tap, notFns_kept, notFns_keptBad, implies_true]
    | split

theorem recoveryReset_absent  (s : State) (hs : State.fnState (State.blank notFns s) fq = FnState.absent) : State.fnState (State.blank notFns (recoveryReset s)) fq = FnState.absent := by
  unfold recoveryReset
  repeat' first
    | with_reducible exact hs
    | with_reducible refine State.deviceReset_absent _ ?_
    | with_reducible refine absent_of_ite (fun _ => ?_) (fun _ => ?_)
    | with_reducible refine absent_of_fst_ite (fun _ => ?_) (fun _ => ?_)
    | simp only [↓State.recReply_blank, notFns_out, notFns_regs, notFns_tb, notFns_rx, notFns_tiles, notFns_cmd, notFns_mirLanes, notFns_order, notFns_queues, notFns_bellows, notFns_engines, notFns_cores, notFns_postRecs, notFns_postSeq, notFns_slots, notFns_tdc, notFns_bgs, notFns_field, notFns_hearth, notFns_mem, notFns_trig, notFns_staging, notFns_comps, notFns_jobs, notFns_pair, notFns_host, notFns_ptp, notFns_sys, notFns_kept, notFns_keptBad, implies_true]
    | split

theorem quench_absent  (f : Fn) (s : State) (hs : State.fnState (State.blank notFns s) fq = FnState.absent) : State.fnState (State.blank notFns (quench f s)) fq = FnState.absent := by
  unfold quench
  repeat' first
    | with_reducible exact hs
    | with_reducible refine State.fnCommand_absent _ _ _ ?_
    | with_reducible refine absent_of_ite (fun _ => ?_) (fun _ => ?_)
    | with_reducible refine absent_of_fst_ite (fun _ => ?_) (fun _ => ?_)
    | simp only [notFns_out, notFns_freeUse, notFns_regs, notFns_tb, notFns_rx, notFns_tiles, notFns_mirLanes, notFns_order, notFns_queues, notFns_bellows, notFns_engines, notFns_cores, notFns_tdc, notFns_bgs, notFns_field, notFns_hearth, notFns_mem, notFns_trig, notFns_staging, notFns_comps, notFns_jobs, notFns_pair, notFns_host, notFns_ptp, implies_true]
    | split

theorem spaceRx_absent  (q : Nat) (n : Nat) (s : State) (hs : State.fnState (State.blank notFns s) fq = FnState.absent) : State.fnState (State.blank notFns (spaceRx q n s)) fq = FnState.absent := by
  unfold spaceRx
  repeat' first
    | with_reducible exact hs
    | with_reducible refine State.mirrorIn_absent _ _ _ ?_
    | with_reducible refine absent_of_ite (fun _ => ?_) (fun _ => ?_)
    | with_reducible refine absent_of_fst_ite (fun _ => ?_) (fun _ => ?_)
    | simp only [notFns_out, notFns_freeUse, notFns_regs, notFns_tb, notFns_rx, notFns_tiles, notFns_mirLanes, notFns_order, notFns_queues, notFns_bellows, notFns_engines, notFns_cores, notFns_tdc, notFns_bgs, notFns_field, notFns_hearth, notFns_mem, notFns_trig, notFns_staging, notFns_comps, notFns_jobs, notFns_pair, notFns_host, notFns_ptp, notFns_kept, notFns_keptBad, implies_true]
    | split

theorem State.lnkFault_absent  (s : State) (code : Nat) (hs : State.fnState (State.blank notFns s) fq = FnState.absent) : State.fnState (State.blank notFns (State.lnkFault s code)) fq = FnState.absent := by
  unfold State.lnkFault
  repeat' first
    | with_reducible exact hs
    | with_reducible refine State.faultFn_absent _ _ _ ?_
    | with_reducible refine absent_of_ite (fun _ => ?_) (fun _ => ?_)
    | with_reducible refine absent_of_fst_ite (fun _ => ?_) (fun _ => ?_)
    | simp only [↓State.lnkOff_blank, notFns_out, notFns_regs, notFns_rx, notFns_mirLanes, implies_true]
    | split

theorem txGroupPllLoss_absent  (s : State) (hs : State.fnState (State.blank notFns s) fq = FnState.absent) : State.fnState (State.blank notFns (txGroupPllLoss s)) fq = FnState.absent := by
  unfold txGroupPllLoss
  repeat' first
    | with_reducible exact hs
    | with_reducible refine State.lnkFault_absent _ _ ?_
    | with_reducible refine absent_of_ite (fun _ => ?_) (fun _ => ?_)
    | with_reducible refine absent_of_fst_ite (fun _ => ?_) (fun _ => ?_)
    | simp only [notFns_out, notFns_regs, notFns_rx, notFns_mirLanes, implies_true]
    | split

theorem resetNAssert_absent  (s : State) (hs : State.fnState (State.blank notFns s) fq = FnState.absent) : State.fnState (State.blank notFns (resetNAssert s)) fq = FnState.absent := by
  unfold resetNAssert
  repeat' first
    | with_reducible exact hs
    | with_reducible refine State.deviceReset_absent _ ?_
    | with_reducible refine absent_of_ite (fun _ => ?_) (fun _ => ?_)
    | with_reducible refine absent_of_fst_ite (fun _ => ?_) (fun _ => ?_)
    | simp only [↓State.onTap_blank, notFns_out, notFns_regs, notFns_tb, notFns_rx, notFns_tiles, notFns_cmd, notFns_mirLanes, notFns_order, notFns_queues, notFns_bellows, notFns_engines, notFns_cores, notFns_postRecs, notFns_postSeq, notFns_slots, notFns_tdc, notFns_bgs, notFns_field, notFns_hearth, notFns_mem, notFns_trig, notFns_staging, notFns_comps, notFns_jobs, notFns_pair, notFns_host, notFns_ptp, notFns_sys, notFns_tap, notFns_kept, notFns_keptBad, implies_true]
    | split

theorem start_absent  (f : Fn) (s : State) (hs : State.fnState (State.blank notFns s) fq = FnState.absent) : State.fnState (State.blank notFns (start f s)) fq = FnState.absent := by
  unfold start
  repeat' first
    | with_reducible exact hs
    | with_reducible refine State.fnCommand_absent _ _ _ ?_
    | with_reducible refine absent_of_ite (fun _ => ?_) (fun _ => ?_)
    | with_reducible refine absent_of_fst_ite (fun _ => ?_) (fun _ => ?_)
    | simp only [notFns_out, notFns_freeUse, notFns_regs, notFns_tb, notFns_rx, notFns_tiles, notFns_mirLanes, notFns_order, notFns_queues, notFns_bellows, notFns_engines, notFns_cores, notFns_tdc, notFns_bgs, notFns_field, notFns_hearth, notFns_mem, notFns_trig, notFns_staging, notFns_comps, notFns_jobs, notFns_pair, notFns_host, notFns_ptp, implies_true]
    | split

theorem mirrorMessageBad_absent  (q : Nat) (type : Nat) (s : State) (hs : State.fnState (State.blank notFns s) fq = FnState.absent) : State.fnState (State.blank notFns (mirrorMessageBad q type s)) fq = FnState.absent := by
  unfold mirrorMessageBad
  repeat' first
    | with_reducible exact hs
    | with_reducible refine State.askResync_absent _ ?_
    | with_reducible refine State.mirrorIn_absent _ _ _ ?_
    | with_reducible refine absent_of_ite (fun _ => ?_) (fun _ => ?_)
    | with_reducible refine absent_of_fst_ite (fun _ => ?_) (fun _ => ?_)
    | simp only [↓State.count_blank, notFns_out, notFns_freeUse, notFns_regs, notFns_tb, notFns_rx, notFns_tiles, notFns_mirLanes, notFns_order, notFns_queues, notFns_bellows, notFns_engines, notFns_cores, notFns_tdc, notFns_bgs, notFns_field, notFns_hearth, notFns_mem, notFns_trig, notFns_staging, notFns_comps, notFns_jobs, notFns_pair, notFns_host, notFns_ptp, notFns_kept, notFns_keptBad, implies_true]
    | split

theorem d2dLinkDown_absent  (s : State) (hs : State.fnState (State.blank notFns s) fq = FnState.absent) : State.fnState (State.blank notFns (d2dLinkDown s)) fq = FnState.absent := by
  unfold d2dLinkDown
  repeat' first
    | with_reducible exact hs
    | with_reducible refine State.fieldOff_absent _ ?_
    | with_reducible refine absent_of_ite (fun _ => ?_) (fun _ => ?_)
    | with_reducible refine absent_of_fst_ite (fun _ => ?_) (fun _ => ?_)
    | simp only [↓State.setBit_blank, ↓State.setLink_blank, notFns_regs, notFns_tb, notFns_queues, notFns_bellows, notFns_engines, notFns_bgs, notFns_field, notFns_comps, implies_true]
    | split

theorem forwardRx_absent  (q : Nat) (c : ForwardCmd) (s : State) (hs : State.fnState (State.blank notFns s) fq = FnState.absent) : State.fnState (State.blank notFns (forwardRx q c s)) fq = FnState.absent := by
  unfold forwardRx
  repeat' first
    | with_reducible exact hs
    | with_reducible refine State.mirrorIn_absent _ _ _ ?_
    | with_reducible refine absent_of_ite (fun _ => ?_) (fun _ => ?_)
    | with_reducible refine absent_of_fst_ite (fun _ => ?_) (fun _ => ?_)
    | simp only [notFns_out, notFns_freeUse, notFns_regs, notFns_tb, notFns_rx, notFns_tiles, notFns_mirLanes, notFns_order, notFns_queues, notFns_bellows, notFns_engines, notFns_cores, notFns_tdc, notFns_bgs, notFns_field, notFns_hearth, notFns_mem, notFns_trig, notFns_staging, notFns_comps, notFns_jobs, notFns_pair, notFns_host, notFns_ptp, notFns_kept, notFns_keptBad, implies_true]
    | split

theorem handoverRx_absent  (q : Nat) (h : Nat) (n : Nat) (test : Bool) (s : State) (hs : State.fnState (State.blank notFns s) fq = FnState.absent) : State.fnState (State.blank notFns (handoverRx q h n test s)) fq = FnState.absent := by
  unfold handoverRx
  repeat' first
    | with_reducible exact hs
    | with_reducible refine State.mirrorIn_absent _ _ _ ?_
    | with_reducible refine absent_of_ite (fun _ => ?_) (fun _ => ?_)
    | with_reducible refine absent_of_fst_ite (fun _ => ?_) (fun _ => ?_)
    | simp only [notFns_out, notFns_freeUse, notFns_regs, notFns_tb, notFns_rx, notFns_tiles, notFns_mirLanes, notFns_order, notFns_queues, notFns_bellows, notFns_engines, notFns_cores, notFns_tdc, notFns_bgs, notFns_field, notFns_hearth, notFns_mem, notFns_trig, notFns_staging, notFns_comps, notFns_jobs, notFns_pair, notFns_host, notFns_ptp, notFns_kept, notFns_keptBad, implies_true]
    | split

theorem regWrite_absent  (src : Src) (ho : Nat × Nat) (s : State) (hs : State.fnState (State.blank notFns s) fq = FnState.absent) : State.fnState (State.blank notFns (regWrite src ho s)) fq = FnState.absent := by
  unfold regWrite
  repeat' first
    | with_reducible exact hs
    | with_reducible refine State.busWrite_absent _ _ _ _ _ ?_
    | with_reducible refine State.serve_absent _ _ _ _ (fun c hs => ?_) ?_
    | with_reducible refine absent_of_ite (fun _ => ?_) (fun _ => ?_)
    | with_reducible refine absent_of_fst_ite (fun _ => ?_) (fun _ => ?_)
    | simp only [↓State.reply_blank, notFns_out, notFns_freeUse, notFns_regs, notFns_tb, notFns_rx, notFns_tiles, notFns_cmd, notFns_mirLanes, notFns_order, notFns_queues, notFns_bellows, notFns_engines, notFns_cores, notFns_tdc, notFns_bgs, notFns_field, notFns_hearth, notFns_mem, notFns_trig, notFns_staging, notFns_comps, notFns_jobs, notFns_pair, notFns_host, notFns_ptp, notFns_nvs, notFns_sys, implies_true]
    | split

theorem mboxQuench_absent  (src : Src) (s : State) (hs : State.fnState (State.blank notFns s) fq = FnState.absent) : State.fnState (State.blank notFns (mboxQuench src s)) fq = FnState.absent := by
  unfold mboxQuench
  repeat' first
    | with_reducible exact hs
    | with_reducible refine State.quenchGlobal_absent _ ?_
    | with_reducible refine absent_of_ite (fun _ => ?_) (fun _ => ?_)
    | with_reducible refine absent_of_fst_ite (fun _ => ?_) (fun _ => ?_)
    | simp only [↓State.reply_blank, notFns_out, notFns_freeUse, notFns_regs, notFns_tb, notFns_rx, notFns_tiles, notFns_mirLanes, notFns_order, notFns_queues, notFns_bellows, notFns_engines, notFns_cores, notFns_tdc, notFns_bgs, notFns_field, notFns_hearth, notFns_mem, notFns_trig, notFns_staging, notFns_comps, notFns_jobs, notFns_pair, notFns_host, notFns_ptp, implies_true]
    | split

theorem digestRx_absent  (q : Nat) (frame : Nat) (value : Nat) (s : State) (hs : State.fnState (State.blank notFns s) fq = FnState.absent) : State.fnState (State.blank notFns (digestRx q frame value s)) fq = FnState.absent := by
  unfold digestRx
  repeat' first
    | with_reducible exact hs
    | with_reducible refine State.mirrorIn_absent _ _ _ ?_
    | with_reducible refine absent_of_ite (fun _ => ?_) (fun _ => ?_)
    | with_reducible refine absent_of_fst_ite (fun _ => ?_) (fun _ => ?_)
    | simp only [notFns_out, notFns_freeUse, notFns_regs, notFns_tb, notFns_rx, notFns_tiles, notFns_mirLanes, notFns_order, notFns_queues, notFns_bellows, notFns_engines, notFns_cores, notFns_tdc, notFns_bgs, notFns_field, notFns_hearth, notFns_mem, notFns_trig, notFns_staging, notFns_comps, notFns_jobs, notFns_pair, notFns_host, notFns_ptp, notFns_kept, notFns_keptBad, implies_true]
    | split

theorem fdigestRx_absent  (q : Nat) (tile : Fin 48) (frame : Nat) (value : Nat) (s : State) (hs : State.fnState (State.blank notFns s) fq = FnState.absent) : State.fnState (State.blank notFns (fdigestRx q tile frame value s)) fq = FnState.absent := by
  unfold fdigestRx
  repeat' first
    | with_reducible exact hs
    | with_reducible refine State.mirrorIn_absent _ _ _ ?_
    | with_reducible refine absent_of_ite (fun _ => ?_) (fun _ => ?_)
    | with_reducible refine absent_of_fst_ite (fun _ => ?_) (fun _ => ?_)
    | simp only [notFns_out, notFns_freeUse, notFns_regs, notFns_tb, notFns_rx, notFns_tiles, notFns_mirLanes, notFns_order, notFns_queues, notFns_bellows, notFns_engines, notFns_cores, notFns_tdc, notFns_bgs, notFns_field, notFns_hearth, notFns_mem, notFns_trig, notFns_staging, notFns_comps, notFns_jobs, notFns_pair, notFns_host, notFns_ptp, notFns_kept, notFns_keptBad, implies_true]
    | split

theorem updateCommitReset_absent  (src : Src) (fail : Bool) (s : State) (hs : State.fnState (State.blank notFns s) fq = FnState.absent) : State.fnState (State.blank notFns (updateCommitReset src fail s)) fq = FnState.absent := by
  unfold updateCommitReset
  repeat' first
    | with_reducible exact hs
    | with_reducible refine State.deviceReset_absent _ ?_
    | with_reducible refine State.serve_absent _ _ _ _ (fun c hs => ?_) ?_
    | with_reducible refine absent_of_ite (fun _ => ?_) (fun _ => ?_)
    | with_reducible refine absent_of_fst_ite (fun _ => ?_) (fun _ => ?_)
    | simp only [↓State.reply_blank, ↓State.beginCommit_blank, ↓State.commit_blank, ↓State.passOn_blank, notFns_out, notFns_regs, notFns_tb, notFns_rx, notFns_tiles, notFns_cmd, notFns_mirLanes, notFns_order, notFns_queues, notFns_bellows, notFns_engines, notFns_cores, notFns_postRecs, notFns_postSeq, notFns_slots, notFns_tdc, notFns_bgs, notFns_field, notFns_hearth, notFns_mem, notFns_trig, notFns_staging, notFns_comps, notFns_jobs, notFns_pair, notFns_host, notFns_ptp, notFns_nvs, notFns_sys, notFns_kept, notFns_keptBad, implies_true]
    | split

theorem stateRx_absent  (q : Nat) (m : StateMsg) (s : State) (hs : State.fnState (State.blank notFns s) fq = FnState.absent) : State.fnState (State.blank notFns (stateRx q m s)) fq = FnState.absent := by
  unfold stateRx
  repeat' first
    | with_reducible exact hs
    | with_reducible refine State.mirrorIn_absent _ _ _ ?_
    | with_reducible refine absent_of_ite (fun _ => ?_) (fun _ => ?_)
    | with_reducible refine absent_of_fst_ite (fun _ => ?_) (fun _ => ?_)
    | simp only [notFns_out, notFns_freeUse, notFns_regs, notFns_tb, notFns_rx, notFns_tiles, notFns_mirLanes, notFns_order, notFns_queues, notFns_bellows, notFns_engines, notFns_cores, notFns_tdc, notFns_bgs, notFns_field, notFns_hearth, notFns_mem, notFns_trig, notFns_staging, notFns_comps, notFns_jobs, notFns_pair, notFns_host, notFns_ptp, notFns_kept, notFns_keptBad, implies_true]
    | split

theorem clamp_absent  (s : State) (hs : State.fnState (State.blank notFns s) fq = FnState.absent) : State.fnState (State.blank notFns (clamp s)) fq = FnState.absent := by
  unfold clamp
  repeat' first
    | with_reducible exact hs
    | with_reducible refine State.tapHold_absent _ _ ?_
    | with_reducible refine absent_of_ite (fun _ => ?_) (fun _ => ?_)
    | with_reducible refine absent_of_fst_ite (fun _ => ?_) (fun _ => ?_)
    | simp only [↓State.emit_blank, notFns_out, notFns_regs, notFns_tb, notFns_rx, notFns_tiles, notFns_cmd, notFns_mirLanes, notFns_order, notFns_queues, notFns_bellows, notFns_engines, notFns_cores, notFns_postRecs, notFns_postSeq, notFns_slots, notFns_tdc, notFns_bgs, notFns_field, notFns_hearth, notFns_mem, notFns_trig, notFns_staging, notFns_comps, notFns_jobs, notFns_pair, notFns_host, notFns_ptp, notFns_sys, notFns_tap, notFns_kept, notFns_keptBad, implies_true]
    | split

theorem stop_absent  (f : Fn) (s : State) (hs : State.fnState (State.blank notFns s) fq = FnState.absent) : State.fnState (State.blank notFns (stop f s)) fq = FnState.absent := by
  unfold stop
  repeat' first
    | with_reducible exact hs
    | with_reducible refine State.fnCommand_absent _ _ _ ?_
    | with_reducible refine absent_of_ite (fun _ => ?_) (fun _ => ?_)
    | with_reducible refine absent_of_fst_ite (fun _ => ?_) (fun _ => ?_)
    | simp only [notFns_out, notFns_freeUse, notFns_regs, notFns_tb, notFns_rx, notFns_tiles, notFns_mirLanes, notFns_order, notFns_queues, notFns_bellows, notFns_engines, notFns_cores, notFns_tdc, notFns_bgs, notFns_field, notFns_hearth, notFns_mem, notFns_trig, notFns_staging, notFns_comps, notFns_jobs, notFns_pair, notFns_host, notFns_ptp, implies_true]
    | split

theorem resetRelease_absent  (x : BootFacts) (s : State) (hs : State.fnState (State.blank notFns s) fq = FnState.absent) : State.fnState (State.blank notFns (resetRelease x s)) fq = FnState.absent := by
  unfold resetRelease
  repeat' first
    | with_reducible exact hs
    | with_reducible refine State.leaveReset_absent _ _ ?_
    | with_reducible refine absent_of_ite (fun _ => ?_) (fun _ => ?_)
    | with_reducible refine absent_of_fst_ite (fun _ => ?_) (fun _ => ?_)
    | simp only [↓State.onTap_blank, notFns_out, notFns_regs, notFns_tb, notFns_rx, notFns_tiles, notFns_cmd, notFns_mirLanes, notFns_queues, notFns_bellows, notFns_engines, notFns_cores, notFns_tdc, notFns_bgs, notFns_field, notFns_hearth, notFns_mem, notFns_trig, notFns_staging, notFns_comps, notFns_pair, notFns_host, notFns_ptp, notFns_nvs, notFns_sys, notFns_tap, implies_true]
    | split

theorem lanePllLoss_absent  (s : State) (hs : State.fnState (State.blank notFns s) fq = FnState.absent) : State.fnState (State.blank notFns (lanePllLoss s)) fq = FnState.absent := by
  unfold lanePllLoss
  repeat' first
    | with_reducible exact hs
    | with_reducible refine State.lnkFault_absent _ _ ?_
    | with_reducible refine absent_of_ite (fun _ => ?_) (fun _ => ?_)
    | with_reducible refine absent_of_fst_ite (fun _ => ?_) (fun _ => ?_)
    | simp only [notFns_out, notFns_regs, notFns_rx, notFns_mirLanes, implies_true]
    | split

theorem tapReset_absent  (x : BootFacts) (s : State) (hs : State.fnState (State.blank notFns s) fq = FnState.absent) : State.fnState (State.blank notFns (tapReset x s)) fq = FnState.absent := by
  unfold tapReset
  repeat' first
    | with_reducible exact hs
    | with_reducible refine State.tapIdle_absent _ _ ?_
    | with_reducible refine absent_of_ite (fun _ => ?_) (fun _ => ?_)
    | with_reducible refine absent_of_fst_ite (fun _ => ?_) (fun _ => ?_)
    | simp only [notFns_out, notFns_regs, notFns_tb, notFns_rx, notFns_tiles, notFns_cmd, notFns_mirLanes, notFns_queues, notFns_bellows, notFns_engines, notFns_cores, notFns_tdc, notFns_bgs, notFns_field, notFns_hearth, notFns_mem, notFns_trig, notFns_staging, notFns_comps, notFns_pair, notFns_host, notFns_ptp, notFns_nvs, notFns_sys, notFns_tap, implies_true]
    | split

theorem dbgAccess_absent  (w : BitVec 64) (ho : Nat × Nat) (ce : Bool) (s : State) (hs : State.fnState (State.blank notFns s) fq = FnState.absent) : State.fnState (State.blank notFns (dbgAccess w ho ce s)) fq = FnState.absent := by
  unfold dbgAccess
  repeat' first
    | with_reducible exact hs
    | with_reducible refine State.busWrite_absent _ _ _ _ _ ?_
    | with_reducible refine absent_of_ite (fun _ => ?_) (fun _ => ?_)
    | with_reducible refine absent_of_fst_ite (fun _ => ?_) (fun _ => ?_)
    | simp only [↓State.loadIr_blank, ↓State.emit_blank, ↓State.onTap_blank, ↓State.afterRead_blank, notFns_out, notFns_freeUse, notFns_regs, notFns_tb, notFns_rx, notFns_tiles, notFns_cmd, notFns_mirLanes, notFns_order, notFns_queues, notFns_bellows, notFns_engines, notFns_cores, notFns_tdc, notFns_bgs, notFns_field, notFns_hearth, notFns_mem, notFns_trig, notFns_staging, notFns_comps, notFns_jobs, notFns_pair, notFns_host, notFns_ptp, notFns_nvs, notFns_sys, notFns_tap, implies_true]
    | split

theorem schedRx_absent  (q : Nat) (n : Nat) (t : Nat) (s : State) (hs : State.fnState (State.blank notFns s) fq = FnState.absent) : State.fnState (State.blank notFns (schedRx q n t s)) fq = FnState.absent := by
  unfold schedRx
  repeat' first
    | with_reducible exact hs
    | with_reducible refine State.mirrorIn_absent _ _ _ ?_
    | with_reducible refine absent_of_ite (fun _ => ?_) (fun _ => ?_)
    | with_reducible refine absent_of_fst_ite (fun _ => ?_) (fun _ => ?_)
    | simp only [notFns_out, notFns_freeUse, notFns_regs, notFns_tb, notFns_rx, notFns_tiles, notFns_mirLanes, notFns_order, notFns_queues, notFns_bellows, notFns_engines, notFns_cores, notFns_tdc, notFns_bgs, notFns_field, notFns_hearth, notFns_mem, notFns_trig, notFns_staging, notFns_comps, notFns_jobs, notFns_pair, notFns_host, notFns_ptp, notFns_kept, notFns_keptBad, implies_true]
    | split

theorem extestTrain_absent  (cells : List Byte) (pins : List Byte) (s : State) (hs : State.fnState (State.blank notFns s) fq = FnState.absent) : State.fnState (State.blank notFns (extestTrain cells pins s)) fq = FnState.absent := by
  unfold extestTrain
  repeat' first
    | with_reducible exact hs
    | with_reducible refine State.tapHold_absent _ _ ?_
    | with_reducible refine absent_of_ite (fun _ => ?_) (fun _ => ?_)
    | with_reducible refine absent_of_fst_ite (fun _ => ?_) (fun _ => ?_)
    | simp only [↓State.boundaryScan_blank, notFns_out, notFns_regs, notFns_tb, notFns_rx, notFns_tiles, notFns_cmd, notFns_mirLanes, notFns_order, notFns_queues, notFns_bellows, notFns_engines, notFns_cores, notFns_postRecs, notFns_postSeq, notFns_slots, notFns_tdc, notFns_bgs, notFns_field, notFns_hearth, notFns_mem, notFns_trig, notFns_staging, notFns_comps, notFns_jobs, notFns_pair, notFns_host, notFns_ptp, notFns_sys, notFns_tap, notFns_kept, notFns_keptBad, implies_true]
    | split

end Sys2Proof.Machine
end

