-- ==== Sys2Proof/Laws/Frame.lean ====
section
/-!
SUPPORT. From the blanked form to a frame (Safety.lean): two states whose blanked forms agree are the same but for the parts the
mask names; a command's answer is the state its meaning leaves, because no meaning touches the queue.
-/

namespace Sys2Proof

open Sys2Proof.Machine

theorem sameBut_of_blank {l : List Comp} {s t : Machine.State}
    (h : State.blank (fun c => decide (c ∈ l)) t = State.blank (fun c => decide (c ∈ l)) s) : SameBut l s t := by
  refine ⟨congrArg (fun x => x.pending) h, congrArg (fun x => x.part) h, congrArg (fun x => x.stepping) h, ?_, ?_, ?_, ?_, ?_, ?_, ?_, ?_, ?_, ?_, ?_, ?_, ?_, ?_, ?_, ?_, ?_, ?_, ?_, ?_, ?_, ?_, ?_, ?_, ?_, ?_, ?_, ?_, ?_, ?_, ?_, ?_, ?_, ?_⟩
  · intro hn
    have := congrArg (fun x => x.out) h
    simpa [State.blank, hn] using this
  · intro hn
    have := congrArg (fun x => x.freeUse) h
    simpa [State.blank, hn] using this
  · intro hn
    have := congrArg (fun x => x.fns) h
    simpa [State.blank, hn] using this
  · intro hn
    have := congrArg (fun x => x.regs) h
    simpa [State.blank, hn] using this
  · intro hn
    have := congrArg (fun x => x.tb) h
    simpa [State.blank, hn] using this
  · intro hn
    have := congrArg (fun x => x.rx) h
    simpa [State.blank, hn] using this
  · intro hn
    have := congrArg (fun x => x.tiles) h
    simpa [State.blank, hn] using this
  · intro hn
    have := congrArg (fun x => x.cmd) h
    simpa [State.blank, hn] using this
  · intro hn
    have := congrArg (fun x => x.mirLanes) h
    simpa [State.blank, hn] using this
  · intro hn
    have := congrArg (fun x => x.order) h
    simpa [State.blank, hn] using this
  · intro hn
    have := congrArg (fun x => x.queues) h
    simpa [State.blank, hn] using this
  · intro hn
    have := congrArg (fun x => x.bellows) h
    simpa [State.blank, hn] using this
  · intro hn
    have := congrArg (fun x => x.engines) h
    simpa [State.blank, hn] using this
  · intro hn
    have := congrArg (fun x => x.cores) h
    simpa [State.blank, hn] using this
  · intro hn
    have := congrArg (fun x => x.postRecs) h
    simpa [State.blank, hn] using this
  · intro hn
    have := congrArg (fun x => x.postSeq) h
    simpa [State.blank, hn] using this
  · intro hn
    have := congrArg (fun x => x.slots) h
    simpa [State.blank, hn] using this
  · intro hn
    have := congrArg (fun x => x.tdc) h
    simpa [State.blank, hn] using this
  · intro hn
    have := congrArg (fun x => x.bgs) h
    simpa [State.blank, hn] using this
  · intro hn
    have := congrArg (fun x => x.field) h
    simpa [State.blank, hn] using this
  · intro hn
    have := congrArg (fun x => { x.hearth with mem := [] }) h
    simpa [State.blank, hn] using this
  · intro hn
    have := congrArg (fun x => x.hearth.mem) h
    simpa [State.blank, hn] using this
  · intro hn
    have := congrArg (fun x => x.trig) h
    simpa [State.blank, hn] using this
  · intro hn
    have := congrArg (fun x => x.staging) h
    simpa [State.blank, hn] using this
  · intro hn
    have := congrArg (fun x => x.comps) h
    simpa [State.blank, hn] using this
  · intro hn
    have := congrArg (fun x => x.jobs) h
    simpa [State.blank, hn] using this
  · intro hn
    have := congrArg (fun x => x.pair) h
    simpa [State.blank, hn] using this
  · intro hn
    have := congrArg (fun x => x.host) h
    simpa [State.blank, hn] using this
  · intro hn
    have := congrArg (fun x => x.ptp) h
    simpa [State.blank, hn] using this
  · intro hn
    have := congrArg (fun x => x.nvs) h
    simpa [State.blank, hn] using this
  · intro hn
    have := congrArg (fun x => x.sys) h
    simpa [State.blank, hn] using this
  · intro hn
    have := congrArg (fun x => x.tap) h
    simpa [State.blank, hn] using this
  · intro hn
    have := congrArg (fun x => x.kept) h
    simpa [State.blank, hn] using this
  · intro hn
    have := congrArg (fun x => x.keptBad) h
    simpa [State.blank, hn] using this

/-- An answer whose state keeps the queue is that state. -/
theorem answer_of_blank {m : Comp → Bool} {s t : Machine.State} (h : State.blank m t = State.blank m s) :
    Machine.State.answer s t = .next t := by
  have hp : t.pending = s.pending := congrArg (fun x => x.pending) h
  unfold Machine.State.answer
  rw [← hp]

/-- A frame, from the blanked form of what a command's meaning leaves. -/
theorem frame_of_blank {l : List Comp} {s t : Machine.State}
    (h : State.blank (fun c => decide (c ∈ l)) t = State.blank (fun c => decide (c ∈ l)) s) :
    Machine.State.answer s t = .next t ∧ SameBut l s t := ⟨answer_of_blank h, sameBut_of_blank h⟩

/-- A command whose meaning leaves t does what holds of t. -/
theorem does_of_blank {c : Instr} {s t : Machine.State} {P : Machine.State → Prop} {m : Comp → Bool}
    (he : Machine.exec c s = Machine.State.answer s t) (hb : State.blank m t = State.blank m s) (hp : P t) : Does c s P :=
  ⟨t, by rw [he, answer_of_blank hb], hp⟩

/-! ### One part, from the blanked form -/

variable {m : Comp → Bool} {s t : Machine.State}

theorem out_of_blank (h : State.blank m t = State.blank m s) (hm : m .out = false) : t.out = s.out := by
  have := congrArg (fun x => x.out) h
  simpa [State.blank, hm] using this

theorem freeUse_of_blank (h : State.blank m t = State.blank m s) (hm : m .freeUse = false) : t.freeUse = s.freeUse := by
  have := congrArg (fun x => x.freeUse) h
  simpa [State.blank, hm] using this

theorem fns_of_blank (h : State.blank m t = State.blank m s) (hm : m .fns = false) : t.fns = s.fns := by
  have := congrArg (fun x => x.fns) h
  simpa [State.blank, hm] using this

theorem regs_of_blank (h : State.blank m t = State.blank m s) (hm : m .regs = false) : t.regs = s.regs := by
  have := congrArg (fun x => x.regs) h
  simpa [State.blank, hm] using this

theorem tb_of_blank (h : State.blank m t = State.blank m s) (hm : m .tb = false) : t.tb = s.tb := by
  have := congrArg (fun x => x.tb) h
  simpa [State.blank, hm] using this

theorem rx_of_blank (h : State.blank m t = State.blank m s) (hm : m .rx = false) : t.rx = s.rx := by
  have := congrArg (fun x => x.rx) h
  simpa [State.blank, hm] using this

theorem tiles_of_blank (h : State.blank m t = State.blank m s) (hm : m .tiles = false) : t.tiles = s.tiles := by
  have := congrArg (fun x => x.tiles) h
  simpa [State.blank, hm] using this

theorem cmd_of_blank (h : State.blank m t = State.blank m s) (hm : m .cmd = false) : t.cmd = s.cmd := by
  have := congrArg (fun x => x.cmd) h
  simpa [State.blank, hm] using this

theorem mirLanes_of_blank (h : State.blank m t = State.blank m s) (hm : m .mirLanes = false) : t.mirLanes = s.mirLanes := by
  have := congrArg (fun x => x.mirLanes) h
  simpa [State.blank, hm] using this

theorem order_of_blank (h : State.blank m t = State.blank m s) (hm : m .order = false) : t.order = s.order := by
  have := congrArg (fun x => x.order) h
  simpa [State.blank, hm] using this

theorem queues_of_blank (h : State.blank m t = State.blank m s) (hm : m .queues = false) : t.queues = s.queues := by
  have := congrArg (fun x => x.queues) h
  simpa [State.blank, hm] using this

theorem bellows_of_blank (h : State.blank m t = State.blank m s) (hm : m .bellows = false) : t.bellows = s.bellows := by
  have := congrArg (fun x => x.bellows) h
  simpa [State.blank, hm] using this

theorem engines_of_blank (h : State.blank m t = State.blank m s) (hm : m .engines = false) : t.engines = s.engines := by
  have := congrArg (fun x => x.engines) h
  simpa [State.blank, hm] using this

theorem cores_of_blank (h : State.blank m t = State.blank m s) (hm : m .cores = false) : t.cores = s.cores := by
  have := congrArg (fun x => x.cores) h
  simpa [State.blank, hm] using this

theorem postRecs_of_blank (h : State.blank m t = State.blank m s) (hm : m .postRecs = false) : t.postRecs = s.postRecs := by
  have := congrArg (fun x => x.postRecs) h
  simpa [State.blank, hm] using this

theorem postSeq_of_blank (h : State.blank m t = State.blank m s) (hm : m .postSeq = false) : t.postSeq = s.postSeq := by
  have := congrArg (fun x => x.postSeq) h
  simpa [State.blank, hm] using this

theorem slots_of_blank (h : State.blank m t = State.blank m s) (hm : m .slots = false) : t.slots = s.slots := by
  have := congrArg (fun x => x.slots) h
  simpa [State.blank, hm] using this

theorem tdc_of_blank (h : State.blank m t = State.blank m s) (hm : m .tdc = false) : t.tdc = s.tdc := by
  have := congrArg (fun x => x.tdc) h
  simpa [State.blank, hm] using this

theorem bgs_of_blank (h : State.blank m t = State.blank m s) (hm : m .bgs = false) : t.bgs = s.bgs := by
  have := congrArg (fun x => x.bgs) h
  simpa [State.blank, hm] using this

theorem field_of_blank (h : State.blank m t = State.blank m s) (hm : m .field = false) : t.field = s.field := by
  have := congrArg (fun x => x.field) h
  simpa [State.blank, hm] using this

theorem hearth_of_blank (h : State.blank m t = State.blank m s) (hm : m .hearth = false) (hn : m .mem = false) :
    t.hearth = s.hearth := by
  have h1 := congrArg (fun x => x.hearth) h
  simp only [State.blank, hm, hn, Bool.false_eq_true, if_false] at h1
  exact h1

theorem mem_of_blank (h : State.blank m t = State.blank m s) (hm : m .mem = false) : t.hearth.mem = s.hearth.mem := by
  have := congrArg (fun x => x.hearth.mem) h
  simpa [State.blank, hm] using this

theorem trig_of_blank (h : State.blank m t = State.blank m s) (hm : m .trig = false) : t.trig = s.trig := by
  have := congrArg (fun x => x.trig) h
  simpa [State.blank, hm] using this

theorem staging_of_blank (h : State.blank m t = State.blank m s) (hm : m .staging = false) : t.staging = s.staging := by
  have := congrArg (fun x => x.staging) h
  simpa [State.blank, hm] using this

theorem comps_of_blank (h : State.blank m t = State.blank m s) (hm : m .comps = false) : t.comps = s.comps := by
  have := congrArg (fun x => x.comps) h
  simpa [State.blank, hm] using this

theorem jobs_of_blank (h : State.blank m t = State.blank m s) (hm : m .jobs = false) : t.jobs = s.jobs := by
  have := congrArg (fun x => x.jobs) h
  simpa [State.blank, hm] using this

theorem pair_of_blank (h : State.blank m t = State.blank m s) (hm : m .pair = false) : t.pair = s.pair := by
  have := congrArg (fun x => x.pair) h
  simpa [State.blank, hm] using this

theorem host_of_blank (h : State.blank m t = State.blank m s) (hm : m .host = false) : t.host = s.host := by
  have := congrArg (fun x => x.host) h
  simpa [State.blank, hm] using this

theorem ptp_of_blank (h : State.blank m t = State.blank m s) (hm : m .ptp = false) : t.ptp = s.ptp := by
  have := congrArg (fun x => x.ptp) h
  simpa [State.blank, hm] using this

theorem nvs_of_blank (h : State.blank m t = State.blank m s) (hm : m .nvs = false) : t.nvs = s.nvs := by
  have := congrArg (fun x => x.nvs) h
  simpa [State.blank, hm] using this

theorem sys_of_blank (h : State.blank m t = State.blank m s) (hm : m .sys = false) : t.sys = s.sys := by
  have := congrArg (fun x => x.sys) h
  simpa [State.blank, hm] using this

theorem tap_of_blank (h : State.blank m t = State.blank m s) (hm : m .tap = false) : t.tap = s.tap := by
  have := congrArg (fun x => x.tap) h
  simpa [State.blank, hm] using this

theorem kept_of_blank (h : State.blank m t = State.blank m s) (hm : m .kept = false) : t.kept = s.kept := by
  have := congrArg (fun x => x.kept) h
  simpa [State.blank, hm] using this

theorem keptBad_of_blank (h : State.blank m t = State.blank m s) (hm : m .keptBad = false) : t.keptBad = s.keptBad := by
  have := congrArg (fun x => x.keptBad) h
  simpa [State.blank, hm] using this

theorem part_of_blank (h : State.blank m t = State.blank m s) : t.part = s.part := congrArg (fun x => x.part) h

theorem fn_of_blank (h : State.blank m t = State.blank m s) (hm : m .fns = false) (f : Fn) : t.fn f = s.fn f := by
  unfold Machine.State.fn
  rw [fns_of_blank h hm]

theorem fnState_of_blank (h : State.blank m t = State.blank m s) (hm : m .fns = false) (f : Fn) : t.fnState f = s.fnState f := by
  unfold Machine.State.fnState
  rw [fn_of_blank h hm, part_of_blank h]

theorem reg_of_blank (h : State.blank m t = State.blank m s) (hm : m .regs = false) (a : Nat) : t.reg a = s.reg a := by
  unfold Machine.State.reg Machine.State.rst Machine.State.present
  rw [regs_of_blank h hm, part_of_blank h]

end Sys2Proof
end

