-- ==== Sys2Proof/Laws/MemOk.lean ====
section
/-!
SUPPORT. The capture memory's canonical form (Safety.lean, memOk) through every operation that can write it; every other operation
leaves the memory alone (Laws/Blank*.lean).
-/

namespace Sys2Proof.Machine

set_option linter.unusedSimpArgs false

/-- The mask that empties all but one part. -/
def notMem : Comp → Bool
  | .mem => false
  | _ => true

theorem notMem_out : notMem .out = true := by decide
theorem notMem_freeUse : notMem .freeUse = true := by decide
theorem notMem_fns : notMem .fns = true := by decide
theorem notMem_regs : notMem .regs = true := by decide
theorem notMem_tb : notMem .tb = true := by decide
theorem notMem_rx : notMem .rx = true := by decide
theorem notMem_tiles : notMem .tiles = true := by decide
theorem notMem_cmd : notMem .cmd = true := by decide
theorem notMem_mirLanes : notMem .mirLanes = true := by decide
theorem notMem_order : notMem .order = true := by decide
theorem notMem_queues : notMem .queues = true := by decide
theorem notMem_bellows : notMem .bellows = true := by decide
theorem notMem_engines : notMem .engines = true := by decide
theorem notMem_cores : notMem .cores = true := by decide
theorem notMem_postRecs : notMem .postRecs = true := by decide
theorem notMem_postSeq : notMem .postSeq = true := by decide
theorem notMem_slots : notMem .slots = true := by decide
theorem notMem_tdc : notMem .tdc = true := by decide
theorem notMem_bgs : notMem .bgs = true := by decide
theorem notMem_field : notMem .field = true := by decide
theorem notMem_hearth : notMem .hearth = true := by decide
theorem notMem_trig : notMem .trig = true := by decide
theorem notMem_staging : notMem .staging = true := by decide
theorem notMem_comps : notMem .comps = true := by decide
theorem notMem_jobs : notMem .jobs = true := by decide
theorem notMem_pair : notMem .pair = true := by decide
theorem notMem_host : notMem .host = true := by decide
theorem notMem_ptp : notMem .ptp = true := by decide
theorem notMem_nvs : notMem .nvs = true := by decide
theorem notMem_sys : notMem .sys = true := by decide
theorem notMem_tap : notMem .tap = true := by decide
theorem notMem_kept : notMem .kept = true := by decide
theorem notMem_keptBad : notMem .keptBad = true := by decide

theorem memOk_iff (s : State) : State.memOk (State.blank notMem s) ↔ State.memOk s := by
  simp [State.memOk, State.blank, notMem]

theorem memOk_of_blank {s t : State} (h : State.blank notMem t = State.blank notMem s) (hs : State.memOk (State.blank notMem s)) : State.memOk (State.blank notMem t) := by
  rw [h]; exact hs

theorem memOk_of_ite {c : Prop} [Decidable c] {a b : State} (ha : c → State.memOk (State.blank notMem a)) (hb : ¬c → State.memOk (State.blank notMem b)) :
    State.memOk (State.blank notMem (if c then a else b)) := by
  split
  · exact ha (by assumption)
  · exact hb (by assumption)

theorem memOk_of_fst_ite {α : Type} {c : Prop} [Decidable c] {a b : State × α} (ha : c → State.memOk (State.blank notMem a.1)) (hb : ¬c → State.memOk (State.blank notMem b.1)) :
    State.memOk (State.blank notMem (if c then a else b).1) := by
  split
  · exact ha (by assumption)
  · exact hb (by assumption)

theorem State.each_memOk {α : Type} (s : State) (xs : List α) (g : State → α → State)
    (hg : ∀ t x, State.memOk (State.blank notMem t) → State.memOk (State.blank notMem (g t x)))
    (hs : State.memOk (State.blank notMem s)) : State.memOk (State.blank notMem (s.each xs g)) := by
  unfold State.each
  induction xs generalizing s with
  | nil => exact hs
  | cons x xs ih => exact ih (g s x) (hg s x hs)

theorem State.serve_memOk (s : State) (src : Src) (code : Nat) (g : FwCmd → State → State)
    (hg : ∀ c, State.memOk (State.blank notMem s) → State.memOk (State.blank notMem (g c s)))
    (hs : State.memOk (State.blank notMem s)) : State.memOk (State.blank notMem (s.serve src code g)) := by
  unfold State.serve
  split
  · exact hg _ hs
  · exact hs

theorem ifBit_memOk (v i : Nat) (g : State → State) (s : State)
    (hg : ∀ t, State.memOk (State.blank notMem t) → State.memOk (State.blank notMem (g t))) (hs : State.memOk (State.blank notMem s)) :
    State.memOk (State.blank notMem (ifBit v i g s)) := by
  unfold ifBit
  split
  · exact hg s hs
  · exact hs

theorem State.putMem_memOk (s : State) (m : Memory) (h : Memory.wf m = true) : State.memOk (State.blank notMem (s.putMem m)) := by
  simp [State.memOk, State.blank, notMem, State.putMem, h]

theorem State.hwrite_memOk (s : State) (a : Nat) (bs : List Byte) (hs : State.memOk (State.blank notMem s)) :
    State.memOk (State.blank notMem (s.hwrite a bs)) :=
  State.putMem_memOk _ _ (Memory.write_wf ((memOk_iff s).mp hs))


theorem State.hostWrite_memOk  (s : State) (a : Nat) (bs : List Byte) (hs : State.memOk (State.blank notMem s)) : State.memOk (State.blank notMem (State.hostWrite s a bs)) := by
  unfold State.hostWrite
  repeat' first
    | with_reducible exact hs
    | with_reducible refine State.hwrite_memOk _ _ _ ?_
    | with_reducible refine memOk_of_ite (fun _ => ?_) (fun _ => ?_)
    | with_reducible refine memOk_of_fst_ite (fun _ => ?_) (fun _ => ?_)
    | simp only [State.onH_blank, notMem_hearth, implies_true]
    | split
    | (with_reducible refine memOk_of_blank (State.onH_blank notMem_hearth _ _ ?_) ?_) <;> first | with_reducible rfl | rfl | skip

theorem State.scramble_memOk  (s : State) (a : Nat) (n : Nat) (hs : State.memOk (State.blank notMem s)) : State.memOk (State.blank notMem (State.scramble s a n)) := by
  unfold State.scramble
  repeat' first
    | with_reducible exact hs
    | with_reducible refine State.hostWrite_memOk _ _ _ ?_
    | with_reducible refine memOk_of_ite (fun _ => ?_) (fun _ => ?_)
    | with_reducible refine memOk_of_fst_ite (fun _ => ?_) (fun _ => ?_)
    | simp only [↓State.useFree_blank, notMem_freeUse, notMem_hearth, implies_true]
    | split

theorem State.jobsAbort_memOk  (s : State) (hs : State.memOk (State.blank notMem s)) : State.memOk (State.blank notMem (State.jobsAbort s)) := by
  unfold State.jobsAbort
  repeat' first
    | with_reducible exact hs
    | with_reducible refine State.scramble_memOk _ _ _ ?_
    | with_reducible refine State.each_memOk _ _ _ (fun t x hs => ?_) ?_
    | with_reducible refine memOk_of_ite (fun _ => ?_) (fun _ => ?_)
    | with_reducible refine memOk_of_fst_ite (fun _ => ?_) (fun _ => ?_)
    | simp only [↓State.onJobs_blank, ↓State.jobEnd_blank, notMem_out, notMem_freeUse, notMem_regs, notMem_hearth, notMem_jobs, notMem_host, implies_true]
    | split

theorem State.slotPatch_memOk  (s : State) (i : Nat) (g : List Byte → List Byte) (hs : State.memOk (State.blank notMem s)) : State.memOk (State.blank notMem (State.slotPatch s i g)) := by
  unfold State.slotPatch
  repeat' first
    | with_reducible exact hs
    | with_reducible refine State.hwrite_memOk _ _ _ ?_
    | with_reducible refine memOk_of_ite (fun _ => ?_) (fun _ => ?_)
    | with_reducible refine memOk_of_fst_ite (fun _ => ?_) (fun _ => ?_)
    | simp only [implies_true]
    | split

theorem State.slotMark_memOk  (s : State) (i : Nat) (m : MaskKind) (f : Nat) (flags : Nat) (hs : State.memOk (State.blank notMem s)) : State.memOk (State.blank notMem (State.slotMark s i m f flags)) := by
  unfold State.slotMark
  repeat' first
    | with_reducible exact hs
    | with_reducible refine State.slotPatch_memOk _ _ _ ?_
    | with_reducible refine memOk_of_ite (fun _ => ?_) (fun _ => ?_)
    | with_reducible refine memOk_of_fst_ite (fun _ => ?_) (fun _ => ?_)
    | simp only [implies_true]
    | split

theorem State.markFrame_memOk  (s : State) (n : Nat) (m : MaskKind) (f : Nat) (flags : Nat) (hs : State.memOk (State.blank notMem s)) : State.memOk (State.blank notMem (State.markFrame s n m f flags)) := by
  unfold State.markFrame
  repeat' first
    | with_reducible exact hs
    | with_reducible refine State.slotMark_memOk _ _ _ _ _ ?_
    | with_reducible refine memOk_of_ite (fun _ => ?_) (fun _ => ?_)
    | with_reducible refine memOk_of_fst_ite (fun _ => ?_) (fun _ => ?_)
    | simp only [State.onH_blank, notMem_hearth, implies_true]
    | split
    | (with_reducible refine memOk_of_blank (State.onH_blank notMem_hearth _ _ ?_) ?_) <;> first | with_reducible rfl | rfl | skip

theorem State.gapRange_memOk  (s : State) (tile : Nat) (x : Nat) (y : Nat) (quench : Bool) (hs : State.memOk (State.blank notMem s)) : State.memOk (State.blank notMem (State.gapRange s tile x y quench)) := by
  unfold State.gapRange
  repeat' first
    | with_reducible exact hs
    | with_reducible refine State.markFrame_memOk _ _ _ _ _ ?_
    | with_reducible refine State.each_memOk _ _ _ (fun t x hs => ?_) ?_
    | with_reducible refine memOk_of_ite (fun _ => ?_) (fun _ => ?_)
    | with_reducible refine memOk_of_fst_ite (fun _ => ?_) (fun _ => ?_)
    | simp only [State.onH_blank, notMem_hearth, implies_true]
    | split
    | (with_reducible refine memOk_of_blank (State.onH_blank notMem_hearth _ _ ?_) ?_) <;> first | with_reducible rfl | rfl | skip

theorem State.gapNoid_memOk  (s : State) (tile : Nat) (quench : Bool) (hs : State.memOk (State.blank notMem s)) : State.memOk (State.blank notMem (State.gapNoid s tile quench)) := by
  unfold State.gapNoid
  repeat' first
    | with_reducible exact hs
    | with_reducible refine State.markFrame_memOk _ _ _ _ _ ?_
    | with_reducible refine memOk_of_ite (fun _ => ?_) (fun _ => ?_)
    | with_reducible refine memOk_of_fst_ite (fun _ => ?_) (fun _ => ?_)
    | simp only [State.onH_blank, notMem_hearth, implies_true]
    | split
    | (with_reducible refine memOk_of_blank (State.onH_blank notMem_hearth _ _ ?_) ?_) <;> first | with_reducible rfl | rfl | skip

theorem State.gapMarks_memOk  (s : State) (tile : Nat) (range : Option (Nat × Nat)) (noid : Bool) (quench : Bool) (hs : State.memOk (State.blank notMem s)) : State.memOk (State.blank notMem (State.gapMarks s tile range noid quench)) := by
  unfold State.gapMarks
  repeat' first
    | with_reducible exact hs
    | with_reducible refine State.gapRange_memOk _ _ _ _ _ ?_
    | with_reducible refine State.gapNoid_memOk _ _ _ ?_
    | with_reducible refine memOk_of_ite (fun _ => ?_) (fun _ => ?_)
    | with_reducible refine memOk_of_fst_ite (fun _ => ?_) (fun _ => ?_)
    | simp only [notMem_hearth, implies_true]
    | split

theorem State.gapReport_memOk  (s : State) (lane : Nat) (tile : Nat) (frame : Nat) (cause : Nat) (t : Option (Stamp × StampMark)) (hs : State.memOk (State.blank notMem s)) : State.memOk (State.blank notMem (State.gapReport s lane tile frame cause t)) := by
  unfold State.gapReport
  repeat' first
    | with_reducible exact hs
    | with_reducible refine State.gapMarks_memOk _ _ _ _ _ ?_
    | with_reducible refine memOk_of_ite (fun _ => ?_) (fun _ => ?_)
    | with_reducible refine memOk_of_fst_ite (fun _ => ?_) (fun _ => ?_)
    | simp only [↓State.logMarked_blank, notMem_tb, notMem_hearth, implies_true]
    | split

theorem State.diverge_memOk  (s : State) (n : Nat) (hs : State.memOk (State.blank notMem s)) : State.memOk (State.blank notMem (State.diverge s n)) := by
  unfold State.diverge
  repeat' first
    | with_reducible exact hs
    | with_reducible refine State.markFrame_memOk _ _ _ _ _ ?_
    | with_reducible refine memOk_of_ite (fun _ => ?_) (fun _ => ?_)
    | with_reducible refine memOk_of_fst_ite (fun _ => ?_) (fun _ => ?_)
    | simp only [↓State.count_blank, notMem_regs, notMem_hearth, implies_true]
    | split

theorem State.compareDigest_memOk  (s : State) (a : DigestNote) (b : DigestNote) (hs : State.memOk (State.blank notMem s)) : State.memOk (State.blank notMem (State.compareDigest s a b)) := by
  unfold State.compareDigest
  repeat' first
    | with_reducible exact hs
    | with_reducible refine State.diverge_memOk _ _ ?_
    | with_reducible refine memOk_of_ite (fun _ => ?_) (fun _ => ?_)
    | with_reducible refine memOk_of_fst_ite (fun _ => ?_) (fun _ => ?_)
    | simp only [↓State.logDivergent_blank, ↓State.putPair_blank, notMem_regs, notMem_tb, notMem_hearth, notMem_pair, implies_true]
    | split

theorem State.ownDigest_memOk  (s : State) (d : DigestNote) (hs : State.memOk (State.blank notMem s)) : State.memOk (State.blank notMem (State.ownDigest s d)) := by
  unfold State.ownDigest
  repeat' first
    | with_reducible exact hs
    | with_reducible refine State.compareDigest_memOk _ _ _ ?_
    | with_reducible refine memOk_of_ite (fun _ => ?_) (fun _ => ?_)
    | with_reducible refine memOk_of_fst_ite (fun _ => ?_) (fun _ => ?_)
    | simp only [↓State.mirrorSend_blank, ↓State.putPair_blank, notMem_out, notMem_regs, notMem_tb, notMem_hearth, notMem_pair, implies_true]
    | split

theorem State.tfClose_memOk  (s : State) (f : Nat) (n : Nat) (hs : State.memOk (State.blank notMem s)) : State.memOk (State.blank notMem (State.tfClose s f n)) := by
  unfold State.tfClose
  repeat' first
    | with_reducible exact hs
    | with_reducible refine State.markFrame_memOk _ _ _ _ _ ?_
    | with_reducible refine State.ownDigest_memOk _ _ ?_
    | with_reducible refine memOk_of_ite (fun _ => ?_) (fun _ => ?_)
    | with_reducible refine memOk_of_fst_ite (fun _ => ?_) (fun _ => ?_)
    | simp only [↓State.onOpen_blank, State.onH_blank, notMem_out, notMem_regs, notMem_tb, notMem_hearth, notMem_pair, implies_true]
    | split
    | (with_reducible refine memOk_of_blank (State.onH_blank notMem_hearth _ _ ?_) ?_) <;> first | with_reducible rfl | rfl | skip

theorem State.takeNoid_memOk  (s : State) (f : Nat) (n : Nat) (hs : State.memOk (State.blank notMem s)) : State.memOk (State.blank notMem (State.takeNoid s f n)) := by
  unfold State.takeNoid
  repeat' first
    | with_reducible exact hs
    | with_reducible refine State.markFrame_memOk _ _ _ _ _ ?_
    | with_reducible refine memOk_of_ite (fun _ => ?_) (fun _ => ?_)
    | with_reducible refine memOk_of_fst_ite (fun _ => ?_) (fun _ => ?_)
    | simp only [State.onH_blank, notMem_hearth, implies_true]
    | split
    | (with_reducible refine memOk_of_blank (State.onH_blank notMem_hearth _ _ ?_) ?_) <;> first | with_reducible rfl | rfl | skip

theorem State.writeDir_memOk  (s : State) (seg : Nat) (r : Record) (hs : State.memOk (State.blank notMem s)) : State.memOk (State.blank notMem (State.writeDir s seg r)) := by
  unfold State.writeDir
  repeat' first
    | with_reducible exact hs
    | with_reducible refine State.hwrite_memOk _ _ _ ?_
    | with_reducible refine memOk_of_ite (fun _ => ?_) (fun _ => ?_)
    | with_reducible refine memOk_of_fst_ite (fun _ => ?_) (fun _ => ?_)
    | simp only [implies_true]
    | split

theorem State.closeRecord_memOk  (s : State) (a : Active) (p : PostInfo) (aborted : Bool) (quench : Bool) (hs : State.memOk (State.blank notMem s)) : State.memOk (State.blank notMem (State.closeRecord s a p aborted quench)) := by
  unfold State.closeRecord
  repeat' first
    | with_reducible exact hs
    | with_reducible refine State.slotPatch_memOk _ _ _ ?_
    | with_reducible refine State.writeDir_memOk _ _ _ ?_
    | with_reducible refine memOk_of_ite (fun _ => ?_) (fun _ => ?_)
    | with_reducible refine memOk_of_fst_ite (fun _ => ?_) (fun _ => ?_)
    | simp only [↓State.putPair_blank, ↓State.unplaceOpens_blank, ↓State.onSeg_blank, State.onH_blank, ↓State.count_blank, ↓State.eqPost_blank, ↓State.tellRecord_blank, ↓State.trigItem_blank, ↓State.putTrig_blank, notMem_out, notMem_regs, notMem_hearth, notMem_trig, notMem_pair, notMem_host, implies_true]
    | split
    | (with_reducible refine memOk_of_blank (State.onH_blank notMem_hearth _ _ ?_) ?_) <;> first | with_reducible rfl | rfl | skip

theorem State.maybeClose_memOk  (s : State) (hs : State.memOk (State.blank notMem s)) : State.memOk (State.blank notMem (State.maybeClose s)) := by
  unfold State.maybeClose
  repeat' first
    | with_reducible exact hs
    | with_reducible refine State.closeRecord_memOk _ _ _ _ _ ?_
    | with_reducible refine memOk_of_ite (fun _ => ?_) (fun _ => ?_)
    | with_reducible refine memOk_of_fst_ite (fun _ => ?_) (fun _ => ?_)
    | simp only [notMem_out, notMem_regs, notMem_hearth, notMem_trig, notMem_pair, notMem_host, implies_true]
    | split

theorem State.evictOne_memOk  (s : State) (hs : State.memOk (State.blank notMem s)) : State.memOk (State.blank notMem (State.evictOne s)) := by
  unfold State.evictOne
  repeat' first
    | with_reducible exact hs
    | with_reducible refine State.slotPatch_memOk _ _ _ ?_
    | with_reducible refine memOk_of_ite (fun _ => ?_) (fun _ => ?_)
    | with_reducible refine memOk_of_fst_ite (fun _ => ?_) (fun _ => ?_)
    | simp only [State.onH_blank, notMem_hearth, implies_true]
    | split
    | (with_reducible refine memOk_of_blank (State.onH_blank notMem_hearth _ _ ?_) ?_) <;> first | with_reducible rfl | rfl | skip

theorem State.takeSlot_memOk  (s : State) (a : Active) (ending : Bool) (a3 : Nat) (t : State) (hx : (State.takeSlot s a ending a3) = some t) (hs : State.memOk (State.blank notMem s)) : State.memOk (State.blank notMem t) := by
  induction a3 generalizing s with
  | zero => simp only [State.takeSlot, Option.some.injEq] at hx; rw [← hx]; exact hs
  | succ k ih =>
    unfold State.takeSlot at hx
    dsimp only at hx
    split at hx
    · split at hx
      · split at hx
        · exact ih _ hx (State.evictOne_memOk _ hs)
        · exact absurd hx (by simp)
      · injection hx with hx; rw [← hx]; exact hs
    · injection hx with hx; rw [← hx]; exact hs

theorem State.storeFrame_memOk  (s : State) (a : Active) (fr : Frame) (hs : State.memOk (State.blank notMem s)) : State.memOk (State.blank notMem (State.storeFrame s a fr)) := by
  unfold State.storeFrame
  repeat' first
    | with_reducible exact hs
    | with_reducible refine State.hwrite_memOk _ _ _ ?_
    | with_reducible refine State.ownDigest_memOk _ _ ?_
    | with_reducible refine memOk_of_ite (fun _ => ?_) (fun _ => ?_)
    | with_reducible refine memOk_of_fst_ite (fun _ => ?_) (fun _ => ?_)
    | simp only [State.onH_blank, ↓State.count_blank, notMem_out, notMem_regs, notMem_tb, notMem_hearth, notMem_pair, implies_true]
    | split
    | (with_reducible refine memOk_of_blank (State.onH_blank notMem_hearth _ _ ?_) ?_) <;> first | with_reducible rfl | rfl | skip

theorem State.closeFrames_memOk  (s : State) (ending : Bool) (a2 : Nat) (hs : State.memOk (State.blank notMem s)) : State.memOk (State.blank notMem (State.closeFrames s ending a2)) := by
  induction a2 generalizing s with
  | zero => unfold State.closeFrames; first | exact hs | (split <;> exact hs)
  | succ k ih =>
    unfold State.closeFrames
    repeat' first
      | with_reducible exact hs
      | with_reducible refine State.storeFrame_memOk _ _ _ ?_
      | with_reducible refine State.maybeClose_memOk _ ?_
      | with_reducible refine ih _ ?_
      | with_reducible refine State.takeSlot_memOk _ _ _ _ _ (by assumption) ?_
      | with_reducible refine memOk_of_ite (fun _ => ?_) (fun _ => ?_)
      | with_reducible refine memOk_of_fst_ite (fun _ => ?_) (fun _ => ?_)
      | simp only [↓State.logDivergent_blank, ↓State.count_blank, State.onH_blank, notMem_out, notMem_regs, notMem_tb, notMem_hearth, notMem_trig, notMem_pair, notMem_host, implies_true]
      | split
      | (with_reducible refine memOk_of_blank (State.onH_blank notMem_hearth _ _ ?_) ?_) <;> first | with_reducible rfl | rfl | skip

theorem State.settleFrames_memOk  (s : State) (hs : State.memOk (State.blank notMem s)) : State.memOk (State.blank notMem (State.settleFrames s)) := by
  unfold State.settleFrames
  repeat' first
    | with_reducible exact hs
    | with_reducible refine State.maybeClose_memOk _ ?_
    | with_reducible refine State.closeFrames_memOk _ _ _ ?_
    | with_reducible refine memOk_of_ite (fun _ => ?_) (fun _ => ?_)
    | with_reducible refine memOk_of_fst_ite (fun _ => ?_) (fun _ => ?_)
    | simp only [notMem_out, notMem_regs, notMem_tb, notMem_hearth, notMem_trig, notMem_pair, notMem_host, implies_true]
    | split

theorem State.settleTile_memOk  (s : State) (f : Nat) (hs : State.memOk (State.blank notMem s)) : State.memOk (State.blank notMem (State.settleTile s f)) := by
  unfold State.settleTile
  repeat' first
    | with_reducible exact hs
    | with_reducible refine State.settleFrames_memOk _ ?_
    | with_reducible refine State.tfClose_memOk _ _ _ ?_
    | with_reducible refine State.each_memOk _ _ _ (fun t x hs => ?_) ?_
    | with_reducible refine memOk_of_ite (fun _ => ?_) (fun _ => ?_)
    | with_reducible refine memOk_of_fst_ite (fun _ => ?_) (fun _ => ?_)
    | simp only [notMem_out, notMem_regs, notMem_tb, notMem_hearth, notMem_trig, notMem_pair, notMem_host, implies_true]
    | split

theorem State.tfOpen_memOk  (s : State) (f : Nat) (n : Nat) (hs : State.memOk (State.blank notMem s)) : State.memOk (State.blank notMem (State.tfOpen s f n)) := by
  unfold State.tfOpen
  repeat' first
    | with_reducible exact hs
    | with_reducible refine State.tfClose_memOk _ _ _ ?_
    | with_reducible refine State.takeNoid_memOk _ _ _ ?_
    | with_reducible refine State.settleTile_memOk _ _ ?_
    | with_reducible refine State.each_memOk _ _ _ (fun t x hs => ?_) ?_
    | with_reducible refine memOk_of_ite (fun _ => ?_) (fun _ => ?_)
    | with_reducible refine memOk_of_fst_ite (fun _ => ?_) (fun _ => ?_)
    | simp only [↓State.learnFrame_blank, ↓State.onOpen_blank, notMem_out, notMem_freeUse, notMem_regs, notMem_tb, notMem_hearth, notMem_trig, notMem_pair, notMem_host, implies_true]
    | split

theorem State.tfFlushed_memOk  (s : State) (f : Nat) (n : Nat) (hs : State.memOk (State.blank notMem s)) : State.memOk (State.blank notMem (State.tfFlushed s f n)) := by
  unfold State.tfFlushed
  repeat' first
    | with_reducible exact hs
    | with_reducible refine State.settleTile_memOk _ _ ?_
    | with_reducible refine memOk_of_ite (fun _ => ?_) (fun _ => ?_)
    | with_reducible refine memOk_of_fst_ite (fun _ => ?_) (fun _ => ?_)
    | simp only [↓State.onOpen_blank, notMem_out, notMem_regs, notMem_tb, notMem_hearth, notMem_trig, notMem_pair, notMem_host, implies_true]
    | split

theorem State.enterFragment_memOk  (s : State) (e : Nat) (g : Fragment) (hs : State.memOk (State.blank notMem s)) : State.memOk (State.blank notMem (State.enterFragment s e g)) := by
  unfold State.enterFragment
  repeat' first
    | with_reducible exact hs
    | with_reducible refine State.gapReport_memOk _ _ _ _ _ _ ?_
    | with_reducible refine State.tfOpen_memOk _ _ _ ?_
    | with_reducible refine State.markFrame_memOk _ _ _ _ _ ?_
    | with_reducible refine State.tfFlushed_memOk _ _ _ ?_
    | with_reducible refine memOk_of_ite (fun _ => ?_) (fun _ => ?_)
    | with_reducible refine memOk_of_fst_ite (fun _ => ?_) (fun _ => ?_)
    | simp only [↓State.setStaging_blank, ↓State.count_blank, ↓State.endBlock_blank, ↓State.onOpen_blank, ↓State.appendPixels_blank, ↓State.countKib_blank, ↓State.settle_blank, notMem_out, notMem_freeUse, notMem_regs, notMem_tb, notMem_order, notMem_hearth, notMem_trig, notMem_staging, notMem_comps, notMem_pair, notMem_host, implies_true]
    | split

theorem State.drainStaging_memOk  (s : State) (a1 : Nat) (hs : State.memOk (State.blank notMem s)) : State.memOk (State.blank notMem (State.drainStaging s a1)) := by
  induction a1 generalizing s with
  | zero => unfold State.drainStaging; first | exact hs | (split <;> exact hs)
  | succ k ih =>
    unfold State.drainStaging
    repeat' first
      | with_reducible exact hs
      | with_reducible refine State.enterFragment_memOk _ _ _ ?_
      | with_reducible refine ih _ ?_
      | with_reducible refine memOk_of_ite (fun _ => ?_) (fun _ => ?_)
      | with_reducible refine memOk_of_fst_ite (fun _ => ?_) (fun _ => ?_)
      | simp only [notMem_out, notMem_freeUse, notMem_regs, notMem_tb, notMem_order, notMem_hearth, notMem_trig, notMem_staging, notMem_comps, notMem_pair, notMem_host, implies_true]
      | split

theorem State.cmpStop_memOk  (s : State) (hs : State.memOk (State.blank notMem s)) : State.memOk (State.blank notMem (State.cmpStop s)) := by
  unfold State.cmpStop
  repeat' first
    | with_reducible exact hs
    | with_reducible refine State.drainStaging_memOk _ _ ?_
    | with_reducible refine State.each_memOk _ _ _ (fun t x hs => ?_) ?_
    | with_reducible refine memOk_of_ite (fun _ => ?_) (fun _ => ?_)
    | with_reducible refine memOk_of_fst_ite (fun _ => ?_) (fun _ => ?_)
    | simp only [↓State.endBlock_blank, notMem_out, notMem_freeUse, notMem_regs, notMem_tb, notMem_order, notMem_hearth, notMem_trig, notMem_staging, notMem_comps, notMem_pair, notMem_host, implies_true]
    | split

theorem State.dmaCut_memOk  (s : State) (o : DmaOp) (hs : State.memOk (State.blank notMem s)) : State.memOk (State.blank notMem (State.dmaCut s o)) := by
  unfold State.dmaCut
  repeat' first
    | with_reducible exact hs
    | with_reducible refine State.scramble_memOk _ _ _ ?_
    | with_reducible refine memOk_of_ite (fun _ => ?_) (fun _ => ?_)
    | with_reducible refine memOk_of_fst_ite (fun _ => ?_) (fun _ => ?_)
    | simp only [notMem_freeUse, notMem_hearth, implies_true]
    | split

theorem State.hstStop_memOk  (s : State) (hs : State.memOk (State.blank notMem s)) : State.memOk (State.blank notMem (State.hstStop s)) := by
  unfold State.hstStop
  repeat' first
    | with_reducible exact hs
    | with_reducible refine State.dmaCut_memOk _ _ ?_
    | with_reducible refine State.each_memOk _ _ _ (fun t x hs => ?_) ?_
    | with_reducible refine memOk_of_ite (fun _ => ?_) (fun _ => ?_)
    | with_reducible refine memOk_of_fst_ite (fun _ => ?_) (fun _ => ?_)
    | simp only [↓State.dmaComplete_blank, ↓State.dmaResult_blank, notMem_out, notMem_freeUse, notMem_hearth, notMem_host, implies_true]
    | split

theorem State.stopEffect_memOk  (s : State) (a1 : Fn) (hs : State.memOk (State.blank notMem s)) : State.memOk (State.blank notMem (State.stopEffect s a1)) := by
  unfold State.stopEffect
  repeat' first
    | with_reducible exact hs
    | with_reducible refine State.jobsAbort_memOk _ ?_
    | with_reducible refine State.cmpStop_memOk _ ?_
    | with_reducible refine State.hstStop_memOk _ ?_
    | with_reducible refine memOk_of_ite (fun _ => ?_) (fun _ => ?_)
    | with_reducible refine memOk_of_fst_ite (fun _ => ?_) (fun _ => ?_)
    | simp only [↓State.ingStop_blank, ↓State.anvStop_blank, ↓State.trgStop_blank, ↓State.tbStop_blank, ↓State.tdcStop_blank, ↓State.ptpStop_blank, ↓State.aouStop_blank, ↓State.heartbeat_blank, ↓State.bgsStop_blank, notMem_out, notMem_freeUse, notMem_regs, notMem_tb, notMem_order, notMem_queues, notMem_engines, notMem_tdc, notMem_field, notMem_hearth, notMem_trig, notMem_staging, notMem_comps, notMem_jobs, notMem_pair, notMem_host, notMem_ptp, implies_true]
    | split

theorem State.publish_memOk  (s : State) (e : LogPend) (hs : State.memOk (State.blank notMem s)) : State.memOk (State.blank notMem (State.publish s e)) := by
  unfold State.publish
  repeat' first
    | with_reducible exact hs
    | with_reducible refine State.hwrite_memOk _ _ _ ?_
    | with_reducible refine memOk_of_ite (fun _ => ?_) (fun _ => ?_)
    | with_reducible refine memOk_of_fst_ite (fun _ => ?_) (fun _ => ?_)
    | simp only [↓State.putTb_blank, ↓State.setReg_blank, ↓State.count_blank, ↓State.eqLog_blank, notMem_out, notMem_regs, notMem_tb, notMem_host, implies_true]
    | split

theorem State.publishWindow_memOk  (s : State) (es : List LogPend) (hs : State.memOk (State.blank notMem s)) : State.memOk (State.blank notMem (State.publishWindow s es)) := by
  unfold State.publishWindow
  repeat' first
    | with_reducible exact hs
    | with_reducible refine State.publish_memOk _ _ ?_
    | with_reducible refine State.each_memOk _ _ _ (fun t x hs => ?_) ?_
    | with_reducible refine memOk_of_ite (fun _ => ?_) (fun _ => ?_)
    | with_reducible refine memOk_of_fst_ite (fun _ => ?_) (fun _ => ?_)
    | simp only [↓State.count_blank, notMem_out, notMem_regs, notMem_tb, notMem_host, implies_true]
    | split

theorem State.closeWindow_memOk  (s : State) (e : Nat) (k : Nat) (hs : State.memOk (State.blank notMem s)) : State.memOk (State.blank notMem (State.closeWindow s e k)) := by
  unfold State.closeWindow
  repeat' first
    | with_reducible exact hs
    | with_reducible refine State.publishWindow_memOk _ _ ?_
    | with_reducible refine memOk_of_ite (fun _ => ?_) (fun _ => ?_)
    | with_reducible refine memOk_of_fst_ite (fun _ => ?_) (fun _ => ?_)
    | simp only [↓State.putTb_blank, notMem_out, notMem_regs, notMem_tb, notMem_host, implies_true]
    | split

theorem State.closeWindows_memOk  (s : State) (e : Nat) (k : Nat) (a3 : Nat) (hs : State.memOk (State.blank notMem s)) : State.memOk (State.blank notMem (State.closeWindows s e k a3)) := by
  induction a3 generalizing s with
  | zero => unfold State.closeWindows; first | exact hs | (split <;> exact hs)
  | succ k ih =>
    unfold State.closeWindows
    repeat' first
      | with_reducible exact hs
      | with_reducible refine State.closeWindow_memOk _ _ _ ?_
      | with_reducible refine ih _ ?_
      | with_reducible refine memOk_of_ite (fun _ => ?_) (fun _ => ?_)
      | with_reducible refine memOk_of_fst_ite (fun _ => ?_) (fun _ => ?_)
      | simp only [notMem_out, notMem_regs, notMem_tb, notMem_host, implies_true]
      | split

theorem State.streamWrite_memOk  (s : State) (g : Segment) (f : Nat) (pos : Nat) (bs : List Byte) (hs : State.memOk (State.blank notMem s)) : State.memOk (State.blank notMem (State.streamWrite s g f pos bs)) := by
  unfold State.streamWrite
  repeat' first
    | with_reducible exact hs
    | with_reducible refine State.hwrite_memOk _ _ _ ?_
    | with_reducible refine memOk_of_ite (fun _ => ?_) (fun _ => ?_)
    | with_reducible refine memOk_of_fst_ite (fun _ => ?_) (fun _ => ?_)
    | simp only [implies_true]
    | split

theorem State.placeBytes_memOk  (s : State) (a : Active) (f : Nat) (n : Nat) (bs : List Byte) (hs : State.memOk (State.blank notMem s)) : State.memOk (State.blank notMem (State.placeBytes s a f n bs)) := by
  unfold State.placeBytes
  repeat' first
    | with_reducible exact hs
    | with_reducible refine State.streamWrite_memOk _ _ _ _ _ ?_
    | with_reducible refine memOk_of_ite (fun _ => ?_) (fun _ => ?_)
    | with_reducible refine memOk_of_fst_ite (fun _ => ?_) (fun _ => ?_)
    | simp only [↓State.onOpen_blank, State.onH_blank, notMem_hearth, implies_true]
    | split
    | (with_reducible refine memOk_of_blank (State.onH_blank notMem_hearth _ _ ?_) ?_) <;> first | with_reducible rfl | rfl | skip

theorem State.armSegment_memOk  (s : State) (seg : Nat) (f0 : Nat) (hs : State.memOk (State.blank notMem s)) : State.memOk (State.blank notMem (State.armSegment s seg f0)) := by
  unfold State.armSegment
  repeat' first
    | with_reducible exact hs
    | with_reducible refine State.placeBytes_memOk _ _ _ _ _ ?_
    | with_reducible refine State.each_memOk _ _ _ (fun t x hs => ?_) ?_
    | with_reducible refine memOk_of_ite (fun _ => ?_) (fun _ => ?_)
    | with_reducible refine memOk_of_fst_ite (fun _ => ?_) (fun _ => ?_)
    | simp only [↓State.cutJob_blank, State.onH_blank, ↓State.onSeg_blank, ↓State.onOpen_blank, notMem_hearth, notMem_jobs, implies_true]
    | split
    | (with_reducible refine memOk_of_blank (State.onH_blank notMem_hearth _ _ ?_) ?_) <;> first | with_reducible rfl | rfl | skip

theorem State.armRing_memOk  (s : State) (seg : Nat) (f0 : Nat) (hs : State.memOk (State.blank notMem s)) : State.memOk (State.blank notMem (State.armRing s seg f0)) := by
  unfold State.armRing
  repeat' first
    | with_reducible exact hs
    | with_reducible refine State.armSegment_memOk _ _ _ ?_
    | with_reducible refine memOk_of_ite (fun _ => ?_) (fun _ => ?_)
    | with_reducible refine memOk_of_fst_ite (fun _ => ?_) (fun _ => ?_)
    | simp only [↓State.setReg_blank, ↓State.chargeTestEnd_blank, ↓State.onTrig_blank, notMem_regs, notMem_field, notMem_hearth, notMem_trig, notMem_jobs, implies_true]
    | split

theorem State.engineQuench_memOk  (s : State) (e : Nat) (hs : State.memOk (State.blank notMem s)) : State.memOk (State.blank notMem (State.engineQuench s e)) := by
  unfold State.engineQuench
  repeat' first
    | with_reducible exact hs
    | with_reducible refine State.gapReport_memOk _ _ _ _ _ _ ?_
    | with_reducible refine State.each_memOk _ _ _ (fun t x hs => ?_) ?_
    | with_reducible refine memOk_of_ite (fun _ => ?_) (fun _ => ?_)
    | with_reducible refine memOk_of_fst_ite (fun _ => ?_) (fun _ => ?_)
    | simp only [↓State.stageEnd_blank, ↓State.dropPartial_blank, ↓State.onEngine_blank, notMem_tb, notMem_order, notMem_engines, notMem_hearth, notMem_staging, implies_true]
    | split

theorem State.anvQuench_memOk  (s : State) (hs : State.memOk (State.blank notMem s)) : State.memOk (State.blank notMem (State.anvQuench s)) := by
  unfold State.anvQuench
  repeat' first
    | with_reducible exact hs
    | with_reducible refine State.engineQuench_memOk _ _ ?_
    | with_reducible refine State.each_memOk _ _ _ (fun t x hs => ?_) ?_
    | with_reducible refine memOk_of_ite (fun _ => ?_) (fun _ => ?_)
    | with_reducible refine memOk_of_fst_ite (fun _ => ?_) (fun _ => ?_)
    | simp only [↓State.cancelCopies_blank, notMem_tb, notMem_order, notMem_queues, notMem_engines, notMem_hearth, notMem_staging, implies_true]
    | split

theorem State.closeOpens_memOk  (s : State) (quench : Bool) (hs : State.memOk (State.blank notMem s)) : State.memOk (State.blank notMem (State.closeOpens s quench)) := by
  unfold State.closeOpens
  repeat' first
    | with_reducible exact hs
    | with_reducible refine State.markFrame_memOk _ _ _ _ _ ?_
    | with_reducible refine State.tfClose_memOk _ _ _ ?_
    | with_reducible refine State.each_memOk _ _ _ (fun t x hs => ?_) ?_
    | with_reducible refine memOk_of_ite (fun _ => ?_) (fun _ => ?_)
    | with_reducible refine memOk_of_fst_ite (fun _ => ?_) (fun _ => ?_)
    | simp only [State.onH_blank, notMem_out, notMem_regs, notMem_tb, notMem_hearth, notMem_pair, implies_true]
    | split
    | (with_reducible refine memOk_of_blank (State.onH_blank notMem_hearth _ _ ?_) ?_) <;> first | with_reducible rfl | rfl | skip

theorem State.hrtQuench_memOk  (s : State) (hs : State.memOk (State.blank notMem s)) : State.memOk (State.blank notMem (State.hrtQuench s)) := by
  unfold State.hrtQuench
  repeat' first
    | with_reducible exact hs
    | with_reducible refine State.closeOpens_memOk _ _ ?_
    | with_reducible refine State.closeFrames_memOk _ _ _ ?_
    | with_reducible refine memOk_of_ite (fun _ => ?_) (fun _ => ?_)
    | with_reducible refine memOk_of_fst_ite (fun _ => ?_) (fun _ => ?_)
    | simp only [↓State.onSeg_blank, ↓State.trigItem_blank, State.onH_blank, ↓State.setBit_blank, notMem_out, notMem_regs, notMem_tb, notMem_hearth, notMem_trig, notMem_pair, notMem_host, implies_true]
    | split
    | (with_reducible refine memOk_of_blank (State.onH_blank notMem_hearth _ _ ?_) ?_) <;> first | with_reducible rfl | rfl | skip

theorem State.enterPost_memOk  (s : State) (t : Nat) (tfrac : Nat) (tstamp : Stamp) (pact : Nat) (hs : State.memOk (State.blank notMem s)) : State.memOk (State.blank notMem (State.enterPost s t tfrac tstamp pact)) := by
  unfold State.enterPost
  repeat' first
    | with_reducible exact hs
    | with_reducible refine State.slotPatch_memOk _ _ _ ?_
    | with_reducible refine State.settleFrames_memOk _ ?_
    | with_reducible refine State.each_memOk _ _ _ (fun t x hs => ?_) ?_
    | with_reducible refine memOk_of_ite (fun _ => ?_) (fun _ => ?_)
    | with_reducible refine memOk_of_fst_ite (fun _ => ?_) (fun _ => ?_)
    | simp only [↓State.onSeg_blank, State.onH_blank, ↓State.unplaceOpens_blank, ↓State.tellRecord_blank, notMem_out, notMem_regs, notMem_tb, notMem_hearth, notMem_trig, notMem_pair, notMem_host, implies_true]
    | split
    | (with_reducible refine memOk_of_blank (State.onH_blank notMem_hearth _ _ ?_) ?_) <;> first | with_reducible rfl | rfl | skip

theorem State.applyTrigger_memOk  (s : State) (d : Decision) (pact : Nat) (kind : Nat) (hs : State.memOk (State.blank notMem s)) : State.memOk (State.blank notMem (State.applyTrigger s d pact kind)) := by
  unfold State.applyTrigger
  repeat' first
    | with_reducible exact hs
    | with_reducible refine State.enterPost_memOk _ _ _ _ _ ?_
    | with_reducible refine memOk_of_ite (fun _ => ?_) (fun _ => ?_)
    | with_reducible refine memOk_of_fst_ite (fun _ => ?_) (fun _ => ?_)
    | simp only [↓State.setReg_blank, ↓State.trgLog_blank, ↓State.ringFirst_blank, ↓State.serviceEnd_blank, ↓State.levelDemand_blank, ↓State.pulseMode_blank, ↓State.tellDecision_blank, notMem_out, notMem_regs, notMem_tb, notMem_tdc, notMem_field, notMem_hearth, notMem_trig, notMem_pair, notMem_host, implies_true]
    | split

theorem State.judgeTrigger_memOk  (s : State) (seg : Nat) (u : Stamp) (src : Nat) (forced : Bool) (hs : State.memOk (State.blank notMem s)) : State.memOk (State.blank notMem (State.judgeTrigger s seg u src forced)) := by
  unfold State.judgeTrigger
  repeat' first
    | with_reducible exact hs
    | with_reducible refine State.applyTrigger_memOk _ _ _ _ ?_
    | with_reducible refine memOk_of_ite (fun _ => ?_) (fun _ => ?_)
    | with_reducible refine memOk_of_fst_ite (fun _ => ?_) (fun _ => ?_)
    | simp only [↓State.trgLog_blank, ↓State.onTrig_blank, ↓State.ownDecision_blank, notMem_out, notMem_regs, notMem_tb, notMem_tdc, notMem_field, notMem_hearth, notMem_trig, notMem_pair, notMem_host, implies_true]
    | split

theorem State.decideTrigger_memOk  (s : State) (u : Stamp) (src : Nat) (forced : Bool) (hs : State.memOk (State.blank notMem s)) : State.memOk (State.blank notMem (State.decideTrigger s u src forced)) := by
  unfold State.decideTrigger
  repeat' first
    | with_reducible exact hs
    | with_reducible refine State.judgeTrigger_memOk _ _ _ _ _ ?_
    | with_reducible refine memOk_of_ite (fun _ => ?_) (fun _ => ?_)
    | with_reducible refine memOk_of_fst_ite (fun _ => ?_) (fun _ => ?_)
    | simp only [↓State.trgLog_blank, notMem_out, notMem_regs, notMem_tb, notMem_tdc, notMem_field, notMem_hearth, notMem_trig, notMem_pair, notMem_host, implies_true]
    | split

theorem State.evalAt_memOk  (s : State) (u : Stamp) (hs : State.memOk (State.blank notMem s)) : State.memOk (State.blank notMem (State.evalAt s u)) := by
  unfold State.evalAt
  repeat' first
    | with_reducible exact hs
    | with_reducible refine State.decideTrigger_memOk _ _ _ _ ?_
    | with_reducible refine State.each_memOk _ _ _ (fun t x hs => ?_) ?_
    | with_reducible refine memOk_of_ite (fun _ => ?_) (fun _ => ?_)
    | with_reducible refine memOk_of_fst_ite (fun _ => ?_) (fun _ => ?_)
    | simp only [↓State.onTrig_blank, ↓State.applyPhase_blank, ↓State.applyItem_blank, notMem_out, notMem_regs, notMem_tb, notMem_tdc, notMem_field, notMem_hearth, notMem_trig, notMem_pair, notMem_host, implies_true]
    | split

theorem State.evalAll_memOk  (s : State) (limit : Stamp) (a2 : Nat) (hs : State.memOk (State.blank notMem s)) : State.memOk (State.blank notMem (State.evalAll s limit a2)) := by
  induction a2 generalizing s with
  | zero => unfold State.evalAll; first | exact hs | (split <;> exact hs)
  | succ k ih =>
    unfold State.evalAll
    repeat' first
      | with_reducible exact hs
      | with_reducible refine State.evalAt_memOk _ _ ?_
      | with_reducible refine ih _ ?_
      | with_reducible refine memOk_of_ite (fun _ => ?_) (fun _ => ?_)
      | with_reducible refine memOk_of_fst_ite (fun _ => ?_) (fun _ => ?_)
      | simp only [notMem_out, notMem_regs, notMem_tb, notMem_tdc, notMem_field, notMem_hearth, notMem_trig, notMem_pair, notMem_host, implies_true]
      | split

theorem State.endSegment_memOk  (s : State) (hs : State.memOk (State.blank notMem s)) : State.memOk (State.blank notMem (State.endSegment s)) := by
  unfold State.endSegment
  repeat' first
    | with_reducible exact hs
    | with_reducible refine State.settleFrames_memOk _ ?_
    | with_reducible refine memOk_of_ite (fun _ => ?_) (fun _ => ?_)
    | with_reducible refine memOk_of_fst_ite (fun _ => ?_) (fun _ => ?_)
    | simp only [↓State.tellRecord_blank, State.onH_blank, ↓State.disarmSegment_blank, notMem_out, notMem_regs, notMem_tb, notMem_hearth, notMem_trig, notMem_pair, notMem_host, implies_true]
    | split
    | (with_reducible refine memOk_of_blank (State.onH_blank notMem_hearth _ _ ?_) ?_) <;> first | with_reducible rfl | rfl | skip

theorem State.trgQuench_memOk  (s : State) (global : Bool) (hs : State.memOk (State.blank notMem s)) : State.memOk (State.blank notMem (State.trgQuench s global)) := by
  unfold State.trgQuench
  repeat' first
    | with_reducible exact hs
    | with_reducible refine State.evalAll_memOk _ _ _ ?_
    | with_reducible refine State.endSegment_memOk _ ?_
    | with_reducible refine memOk_of_ite (fun _ => ?_) (fun _ => ?_)
    | with_reducible refine memOk_of_fst_ite (fun _ => ?_) (fun _ => ?_)
    | simp only [↓State.seqStop_blank, ↓State.dropPending_blank, ↓State.onTrig_blank, ↓State.outputsIdle_blank, notMem_out, notMem_regs, notMem_tb, notMem_tdc, notMem_field, notMem_hearth, notMem_trig, notMem_pair, notMem_host, implies_true]
    | split

theorem State.cmpDiscard_memOk  (s : State) (hs : State.memOk (State.blank notMem s)) : State.memOk (State.blank notMem (State.cmpDiscard s)) := by
  unfold State.cmpDiscard
  repeat' first
    | with_reducible exact hs
    | with_reducible refine State.gapReport_memOk _ _ _ _ _ _ ?_
    | with_reducible refine State.settleTile_memOk _ _ ?_
    | with_reducible refine State.each_memOk _ _ _ (fun t x hs => ?_) ?_
    | with_reducible refine memOk_of_ite (fun _ => ?_) (fun _ => ?_)
    | with_reducible refine memOk_of_fst_ite (fun _ => ?_) (fun _ => ?_)
    | simp only [↓State.putStaging_blank, ↓State.onComp_blank, ↓State.settle_blank, notMem_out, notMem_regs, notMem_tb, notMem_order, notMem_hearth, notMem_trig, notMem_staging, notMem_comps, notMem_pair, notMem_host, implies_true]
    | split

theorem State.dmaAbandon_memOk  (s : State) (q : Nat) (hs : State.memOk (State.blank notMem s)) : State.memOk (State.blank notMem (State.dmaAbandon s q)) := by
  unfold State.dmaAbandon
  repeat' first
    | with_reducible exact hs
    | with_reducible refine State.dmaCut_memOk _ _ ?_
    | with_reducible refine memOk_of_ite (fun _ => ?_) (fun _ => ?_)
    | with_reducible refine memOk_of_fst_ite (fun _ => ?_) (fun _ => ?_)
    | simp only [↓State.onDma_blank, ↓State.setReg_blank, notMem_freeUse, notMem_regs, notMem_hearth, notMem_host, implies_true]
    | split

theorem State.hstQuench_memOk  (s : State) (hs : State.memOk (State.blank notMem s)) : State.memOk (State.blank notMem (State.hstQuench s)) := by
  unfold State.hstQuench
  repeat' first
    | with_reducible exact hs
    | with_reducible refine State.dmaAbandon_memOk _ _ ?_
    | with_reducible refine State.each_memOk _ _ _ (fun t x hs => ?_) ?_
    | with_reducible refine memOk_of_ite (fun _ => ?_) (fun _ => ?_)
    | with_reducible refine memOk_of_fst_ite (fun _ => ?_) (fun _ => ?_)
    | simp only [notMem_freeUse, notMem_regs, notMem_hearth, notMem_host, implies_true]
    | split

theorem State.quenchEffect_memOk  (s : State) (global : Bool) (a2 : Fn) (hs : State.memOk (State.blank notMem s)) : State.memOk (State.blank notMem (State.quenchEffect s global a2)) := by
  unfold State.quenchEffect
  repeat' first
    | with_reducible exact hs
    | with_reducible refine State.anvQuench_memOk _ ?_
    | with_reducible refine State.hrtQuench_memOk _ ?_
    | with_reducible refine State.trgQuench_memOk _ _ ?_
    | with_reducible refine State.jobsAbort_memOk _ ?_
    | with_reducible refine State.cmpDiscard_memOk _ ?_
    | with_reducible refine State.hstQuench_memOk _ ?_
    | with_reducible refine memOk_of_ite (fun _ => ?_) (fun _ => ?_)
    | with_reducible refine memOk_of_fst_ite (fun _ => ?_) (fun _ => ?_)
    | simp only [↓State.lnkOff_blank, ↓State.ingQuench_blank, ↓State.tbStop_blank, ↓State.tdcQuench_blank, ↓State.ptpStop_blank, ↓State.auxQuench_blank, ↓State.aouStop_blank, ↓State.pairStopped_blank, ↓State.bgsStop_blank, notMem_out, notMem_freeUse, notMem_regs, notMem_tb, notMem_rx, notMem_tiles, notMem_mirLanes, notMem_order, notMem_queues, notMem_bellows, notMem_engines, notMem_tdc, notMem_bgs, notMem_field, notMem_hearth, notMem_trig, notMem_staging, notMem_comps, notMem_jobs, notMem_pair, notMem_host, notMem_ptp, implies_true]
    | split

theorem State.quenchNow_memOk  (s : State) (f : Fn) (global : Bool) (hs : State.memOk (State.blank notMem s)) : State.memOk (State.blank notMem (State.quenchNow s f global)) := by
  unfold State.quenchNow
  repeat' first
    | with_reducible exact hs
    | with_reducible refine State.quenchEffect_memOk _ _ _ ?_
    | with_reducible refine memOk_of_ite (fun _ => ?_) (fun _ => ?_)
    | with_reducible refine memOk_of_fst_ite (fun _ => ?_) (fun _ => ?_)
    | simp only [↓State.lastStatus_blank, ↓State.setFn_blank, ↓State.faultLeft_blank, notMem_out, notMem_freeUse, notMem_fns, notMem_regs, notMem_tb, notMem_rx, notMem_tiles, notMem_mirLanes, notMem_order, notMem_queues, notMem_bellows, notMem_engines, notMem_tdc, notMem_bgs, notMem_field, notMem_hearth, notMem_trig, notMem_staging, notMem_comps, notMem_jobs, notMem_pair, notMem_host, notMem_ptp, implies_true]
    | split

theorem State.quenchFive_memOk  (s : State) (hs : State.memOk (State.blank notMem s)) : State.memOk (State.blank notMem (State.quenchFive s).1) := by
  unfold State.quenchFive
  repeat' first
    | with_reducible exact hs
    | with_reducible refine State.quenchNow_memOk _ _ _ ?_
    | with_reducible refine State.each_memOk _ _ _ (fun t x hs => ?_) ?_
    | with_reducible refine memOk_of_ite (fun _ => ?_) (fun _ => ?_)
    | with_reducible refine memOk_of_fst_ite (fun _ => ?_) (fun _ => ?_)
    | simp only [↓State.domainsOff_blank, notMem_out, notMem_freeUse, notMem_fns, notMem_regs, notMem_tb, notMem_rx, notMem_tiles, notMem_mirLanes, notMem_order, notMem_queues, notMem_bellows, notMem_engines, notMem_tdc, notMem_bgs, notMem_field, notMem_hearth, notMem_trig, notMem_staging, notMem_comps, notMem_jobs, notMem_pair, notMem_host, notMem_ptp, implies_true]
    | split

theorem State.beginJoin_memOk  (s : State) (hs : State.memOk (State.blank notMem s)) : State.memOk (State.blank notMem (State.beginJoin s)) := by
  unfold State.beginJoin
  repeat' first
    | with_reducible exact hs
    | with_reducible refine State.quenchFive_memOk _ ?_
    | with_reducible refine memOk_of_ite (fun _ => ?_) (fun _ => ?_)
    | with_reducible refine memOk_of_fst_ite (fun _ => ?_) (fun _ => ?_)
    | simp only [↓State.onPair_blank, ↓State.pairForget_blank, ↓State.setRole_blank, notMem_out, notMem_freeUse, notMem_fns, notMem_regs, notMem_tb, notMem_rx, notMem_tiles, notMem_mirLanes, notMem_order, notMem_queues, notMem_bellows, notMem_engines, notMem_tdc, notMem_bgs, notMem_field, notMem_hearth, notMem_trig, notMem_staging, notMem_comps, notMem_jobs, notMem_pair, notMem_host, notMem_ptp, implies_true]
    | split

theorem State.otherHears_memOk  (s : State) (h : Heartbeat) (hs : State.memOk (State.blank notMem s)) : State.memOk (State.blank notMem (State.otherHears s h)) := by
  unfold State.otherHears
  repeat' first
    | with_reducible exact hs
    | with_reducible refine State.beginJoin_memOk _ ?_
    | with_reducible refine memOk_of_ite (fun _ => ?_) (fun _ => ?_)
    | with_reducible refine memOk_of_fst_ite (fun _ => ?_) (fun _ => ?_)
    | simp only [notMem_out, notMem_freeUse, notMem_fns, notMem_regs, notMem_tb, notMem_rx, notMem_tiles, notMem_mirLanes, notMem_order, notMem_queues, notMem_bellows, notMem_engines, notMem_tdc, notMem_bgs, notMem_field, notMem_hearth, notMem_trig, notMem_staging, notMem_comps, notMem_jobs, notMem_pair, notMem_host, notMem_ptp, implies_true]
    | split

theorem State.takeHeartbeat_memOk  (s : State) (h : Heartbeat) (t : Stamp) (hs : State.memOk (State.blank notMem s)) : State.memOk (State.blank notMem (State.takeHeartbeat s h t)) := by
  unfold State.takeHeartbeat
  repeat' first
    | with_reducible exact hs
    | with_reducible refine State.otherHears_memOk _ _ ?_
    | with_reducible refine memOk_of_ite (fun _ => ?_) (fun _ => ?_)
    | with_reducible refine memOk_of_fst_ite (fun _ => ?_) (fun _ => ?_)
    | simp only [↓State.count_blank, ↓State.pairFaultNow_blank, ↓State.onPair_blank, ↓State.holderHears_blank, notMem_out, notMem_freeUse, notMem_fns, notMem_regs, notMem_tb, notMem_rx, notMem_tiles, notMem_mirLanes, notMem_order, notMem_queues, notMem_bellows, notMem_engines, notMem_tdc, notMem_bgs, notMem_field, notMem_hearth, notMem_trig, notMem_staging, notMem_comps, notMem_jobs, notMem_pair, notMem_host, notMem_ptp, implies_true]
    | split

theorem State.stopFn_memOk  (s : State) (f : Fn) (hs : State.memOk (State.blank notMem s)) : State.memOk (State.blank notMem (State.stopFn s f).1) := by
  unfold State.stopFn
  repeat' first
    | with_reducible exact hs
    | with_reducible refine State.stopEffect_memOk _ _ ?_
    | with_reducible refine memOk_of_ite (fun _ => ?_) (fun _ => ?_)
    | with_reducible refine memOk_of_fst_ite (fun _ => ?_) (fun _ => ?_)
    | simp only [↓State.lastStatus_blank, ↓State.setFn_blank, ↓State.faultLeft_blank, ↓State.ignored_blank, notMem_out, notMem_freeUse, notMem_fns, notMem_regs, notMem_tb, notMem_order, notMem_queues, notMem_engines, notMem_tdc, notMem_field, notMem_hearth, notMem_trig, notMem_staging, notMem_comps, notMem_jobs, notMem_pair, notMem_host, notMem_ptp, implies_true]
    | split

theorem State.quenchFn_memOk  (s : State) (f : Fn) (hs : State.memOk (State.blank notMem s)) : State.memOk (State.blank notMem (State.quenchFn s f).1) := by
  unfold State.quenchFn
  repeat' first
    | with_reducible exact hs
    | with_reducible refine State.quenchNow_memOk _ _ _ ?_
    | with_reducible refine memOk_of_ite (fun _ => ?_) (fun _ => ?_)
    | with_reducible refine memOk_of_fst_ite (fun _ => ?_) (fun _ => ?_)
    | simp only [↓State.domainsOff_blank, ↓State.ignored_blank, notMem_out, notMem_freeUse, notMem_fns, notMem_regs, notMem_tb, notMem_rx, notMem_tiles, notMem_mirLanes, notMem_order, notMem_queues, notMem_bellows, notMem_engines, notMem_tdc, notMem_bgs, notMem_field, notMem_hearth, notMem_trig, notMem_staging, notMem_comps, notMem_jobs, notMem_pair, notMem_host, notMem_ptp, implies_true]
    | split

theorem State.fnCommand_memOk  (s : State) (f : Fn) (cmd : Nat) (hs : State.memOk (State.blank notMem s)) : State.memOk (State.blank notMem (State.fnCommand s f cmd).1) := by
  unfold State.fnCommand
  repeat' first
    | with_reducible exact hs
    | with_reducible refine State.stopFn_memOk _ _ ?_
    | with_reducible refine State.quenchFn_memOk _ _ ?_
    | with_reducible refine memOk_of_ite (fun _ => ?_) (fun _ => ?_)
    | with_reducible refine memOk_of_fst_ite (fun _ => ?_) (fun _ => ?_)
    | simp only [↓State.startFn_blank, ↓State.tellFn_blank, notMem_out, notMem_freeUse, notMem_fns, notMem_regs, notMem_tb, notMem_rx, notMem_tiles, notMem_mirLanes, notMem_order, notMem_queues, notMem_bellows, notMem_engines, notMem_cores, notMem_tdc, notMem_bgs, notMem_field, notMem_hearth, notMem_trig, notMem_staging, notMem_comps, notMem_jobs, notMem_pair, notMem_host, notMem_ptp, implies_true]
    | split

theorem State.takeState_memOk  (s : State) (m : StateMsg) (hs : State.memOk (State.blank notMem s)) : State.memOk (State.blank notMem (State.takeState s m)) := by
  unfold State.takeState
  repeat' first
    | with_reducible exact hs
    | with_reducible refine State.fnCommand_memOk _ _ _ ?_
    | with_reducible refine memOk_of_ite (fun _ => ?_) (fun _ => ?_)
    | with_reducible refine memOk_of_fst_ite (fun _ => ?_) (fun _ => ?_)
    | simp only [↓State.imagePiece_blank, ↓State.storeMirrored_blank, ↓State.onPair_blank, ↓State.copySegment_blank, ↓State.onTrig_blank, ↓State.requestStep_blank, notMem_out, notMem_freeUse, notMem_fns, notMem_regs, notMem_tb, notMem_rx, notMem_tiles, notMem_mirLanes, notMem_order, notMem_queues, notMem_bellows, notMem_engines, notMem_cores, notMem_tdc, notMem_bgs, notMem_field, notMem_hearth, notMem_trig, notMem_staging, notMem_comps, notMem_jobs, notMem_pair, notMem_host, notMem_ptp, notMem_kept, notMem_keptBad, implies_true]
    | split

theorem State.applyDecision_memOk  (s : State) (d : Decision) (hs : State.memOk (State.blank notMem s)) : State.memOk (State.blank notMem (State.applyDecision s d)) := by
  unfold State.applyDecision
  repeat' first
    | with_reducible exact hs
    | with_reducible refine State.applyTrigger_memOk _ _ _ _ ?_
    | with_reducible refine memOk_of_ite (fun _ => ?_) (fun _ => ?_)
    | with_reducible refine memOk_of_fst_ite (fun _ => ?_) (fun _ => ?_)
    | simp only [↓State.onTrig_blank, notMem_out, notMem_regs, notMem_tb, notMem_tdc, notMem_field, notMem_hearth, notMem_trig, notMem_pair, notMem_host, implies_true]
    | split

theorem State.takeDecision_memOk  (s : State) (d : Option Decision) (k : Option Nat) (hs : State.memOk (State.blank notMem s)) : State.memOk (State.blank notMem (State.takeDecision s d k)) := by
  unfold State.takeDecision
  repeat' first
    | with_reducible exact hs
    | with_reducible refine State.applyDecision_memOk _ _ ?_
    | with_reducible refine State.each_memOk _ _ _ (fun t x hs => ?_) ?_
    | with_reducible refine memOk_of_ite (fun _ => ?_) (fun _ => ?_)
    | with_reducible refine memOk_of_fst_ite (fun _ => ?_) (fun _ => ?_)
    | simp only [↓State.onPair_blank, ↓State.decMismatch_blank, ↓State.onTrig_blank, notMem_out, notMem_regs, notMem_tb, notMem_tdc, notMem_field, notMem_hearth, notMem_trig, notMem_pair, notMem_host, implies_true]
    | split

theorem State.armNow_memOk  (s : State) (seg : Nat) (f0 : Nat) (again : Bool) (hs : State.memOk (State.blank notMem s)) : State.memOk (State.blank notMem (State.armNow s seg f0 again)) := by
  unfold State.armNow
  repeat' first
    | with_reducible exact hs
    | with_reducible refine State.armRing_memOk _ _ _ ?_
    | with_reducible refine memOk_of_ite (fun _ => ?_) (fun _ => ?_)
    | with_reducible refine memOk_of_fst_ite (fun _ => ?_) (fun _ => ?_)
    | simp only [↓State.onTrig_blank, ↓State.trigItem_blank, ↓State.tellRecord_blank, ↓State.setBit_blank, ↓State.putPair_blank, ↓State.levelDemand_blank, notMem_out, notMem_regs, notMem_tb, notMem_field, notMem_hearth, notMem_trig, notMem_jobs, notMem_pair, implies_true]
    | split

theorem State.copyArm_memOk  (s : State) (seg : Nat) (f0 : Nat) (again : Bool) (meas : List (Nat × Nat)) (hs : State.memOk (State.blank notMem s)) : State.memOk (State.blank notMem (State.copyArm s seg f0 again meas)) := by
  unfold State.copyArm
  repeat' first
    | with_reducible exact hs
    | with_reducible refine State.armNow_memOk _ _ _ _ ?_
    | with_reducible refine memOk_of_ite (fun _ => ?_) (fun _ => ?_)
    | with_reducible refine memOk_of_fst_ite (fun _ => ?_) (fun _ => ?_)
    | simp only [↓State.tellArmCheck_blank, ↓State.wakeHeld_blank, ↓State.paceWake_blank, ↓State.logPace_blank, ↓State.onTrig_blank, ↓State.armResets_blank, ↓State.renumber_blank, notMem_out, notMem_regs, notMem_tb, notMem_bgs, notMem_field, notMem_hearth, notMem_trig, notMem_comps, notMem_jobs, notMem_pair, implies_true]
    | split

theorem State.disarmAll_memOk  (s : State) (hs : State.memOk (State.blank notMem s)) : State.memOk (State.blank notMem (State.disarmAll s)) := by
  unfold State.disarmAll
  repeat' first
    | with_reducible exact hs
    | with_reducible refine State.endSegment_memOk _ ?_
    | with_reducible refine memOk_of_ite (fun _ => ?_) (fun _ => ?_)
    | with_reducible refine memOk_of_fst_ite (fun _ => ?_) (fun _ => ?_)
    | simp only [↓State.seqStop_blank, ↓State.onTrig_blank, ↓State.trigItem_blank, notMem_out, notMem_regs, notMem_tb, notMem_hearth, notMem_trig, notMem_pair, notMem_host, implies_true]
    | split

theorem State.patchClosed_memOk  (s : State) (seg : Nat) (qact : Nat) (flags : Nat) (cstamp : Stamp) (hs : State.memOk (State.blank notMem s)) : State.memOk (State.blank notMem (State.patchClosed s seg qact flags cstamp)) := by
  unfold State.patchClosed
  repeat' first
    | with_reducible exact hs
    | with_reducible refine State.writeDir_memOk _ _ _ ?_
    | with_reducible refine memOk_of_ite (fun _ => ?_) (fun _ => ?_)
    | with_reducible refine memOk_of_fst_ite (fun _ => ?_) (fun _ => ?_)
    | simp only [↓State.onSeg_blank, notMem_hearth, implies_true]
    | split

theorem State.copyClose_memOk  (s : State) (seg : Nat) (qact : Nat) (flags : Nat) (cstamp : Stamp) (hs : State.memOk (State.blank notMem s)) : State.memOk (State.blank notMem (State.copyClose s seg qact flags cstamp)) := by
  unfold State.copyClose
  repeat' first
    | with_reducible exact hs
    | with_reducible refine State.settleFrames_memOk _ ?_
    | with_reducible refine State.patchClosed_memOk _ _ _ _ _ ?_
    | with_reducible refine memOk_of_ite (fun _ => ?_) (fun _ => ?_)
    | with_reducible refine memOk_of_fst_ite (fun _ => ?_) (fun _ => ?_)
    | simp only [↓State.onPair_blank, State.onH_blank, notMem_out, notMem_regs, notMem_tb, notMem_hearth, notMem_trig, notMem_pair, notMem_host, implies_true]
    | split
    | (with_reducible refine memOk_of_blank (State.onH_blank notMem_hearth _ _ ?_) ?_) <;> first | with_reducible rfl | rfl | skip

theorem State.takeRecord_memOk  (s : State) (m : RecordMsg) (meas : List (Nat × Nat)) (hs : State.memOk (State.blank notMem s)) : State.memOk (State.blank notMem (State.takeRecord s m meas)) := by
  unfold State.takeRecord
  repeat' first
    | with_reducible exact hs
    | with_reducible refine State.copyArm_memOk _ _ _ _ _ ?_
    | with_reducible refine State.disarmAll_memOk _ ?_
    | with_reducible refine State.copyClose_memOk _ _ _ _ _ ?_
    | with_reducible refine State.each_memOk _ _ _ (fun t x hs => ?_) ?_
    | with_reducible refine memOk_of_ite (fun _ => ?_) (fun _ => ?_)
    | with_reducible refine memOk_of_fst_ite (fun _ => ?_) (fun _ => ?_)
    | simp only [↓State.onPair_blank, ↓State.onSeg_blank, ↓State.cutJob_blank, ↓State.copyRecno_blank, ↓State.releaseSegment_blank, notMem_out, notMem_regs, notMem_tb, notMem_bgs, notMem_field, notMem_hearth, notMem_trig, notMem_comps, notMem_jobs, notMem_pair, notMem_host, implies_true]
    | split

theorem State.theirDigest_memOk  (s : State) (d : DigestNote) (hs : State.memOk (State.blank notMem s)) : State.memOk (State.blank notMem (State.theirDigest s d)) := by
  unfold State.theirDigest
  repeat' first
    | with_reducible exact hs
    | with_reducible refine State.compareDigest_memOk _ _ _ ?_
    | with_reducible refine memOk_of_ite (fun _ => ?_) (fun _ => ?_)
    | with_reducible refine memOk_of_fst_ite (fun _ => ?_) (fun _ => ?_)
    | simp only [↓State.count_blank, ↓State.onPair_blank, notMem_regs, notMem_tb, notMem_hearth, notMem_pair, implies_true]
    | split

theorem State.truncate_memOk  (s : State) (n : Nat) (own : Bool) (hs : State.memOk (State.blank notMem s)) : State.memOk (State.blank notMem (State.truncate s n own)) := by
  unfold State.truncate
  repeat' first
    | with_reducible exact hs
    | with_reducible refine State.slotPatch_memOk _ _ _ ?_
    | with_reducible refine State.each_memOk _ _ _ (fun t x hs => ?_) ?_
    | with_reducible refine memOk_of_ite (fun _ => ?_) (fun _ => ?_)
    | with_reducible refine memOk_of_fst_ite (fun _ => ?_) (fun _ => ?_)
    | simp only [State.onH_blank, ↓State.mirrorSend_blank, ↓State.logDev_blank, notMem_out, notMem_tb, notMem_hearth, notMem_pair, implies_true]
    | split
    | (with_reducible refine memOk_of_blank (State.onH_blank notMem_hearth _ _ ?_) ?_) <;> first | with_reducible rfl | rfl | skip

theorem State.truncateClosed_memOk  (s : State) (n : Nat) (hs : State.memOk (State.blank notMem s)) : State.memOk (State.blank notMem (State.truncateClosed s n)) := by
  unfold State.truncateClosed
  repeat' first
    | with_reducible exact hs
    | with_reducible refine State.slotPatch_memOk _ _ _ ?_
    | with_reducible refine State.writeDir_memOk _ _ _ ?_
    | with_reducible refine State.each_memOk _ _ _ (fun t x hs => ?_) ?_
    | with_reducible refine memOk_of_ite (fun _ => ?_) (fun _ => ?_)
    | with_reducible refine memOk_of_fst_ite (fun _ => ?_) (fun _ => ?_)
    | simp only [↓State.onSeg_blank, ↓State.count_blank, ↓State.logDev_blank, notMem_regs, notMem_tb, notMem_hearth, implies_true]
    | split

theorem State.takeSpace_memOk  (s : State) (n : Nat) (hs : State.memOk (State.blank notMem s)) : State.memOk (State.blank notMem (State.takeSpace s n)) := by
  unfold State.takeSpace
  repeat' first
    | with_reducible exact hs
    | with_reducible refine State.truncate_memOk _ _ _ ?_
    | with_reducible refine State.truncateClosed_memOk _ _ ?_
    | with_reducible refine memOk_of_ite (fun _ => ?_) (fun _ => ?_)
    | with_reducible refine memOk_of_fst_ite (fun _ => ?_) (fun _ => ?_)
    | simp only [notMem_out, notMem_regs, notMem_tb, notMem_hearth, notMem_pair, implies_true]
    | split

theorem State.takeQuench_memOk  (s : State) (t : Nat) (hs : State.memOk (State.blank notMem s)) : State.memOk (State.blank notMem (State.takeQuench s t)) := by
  unfold State.takeQuench
  repeat' first
    | with_reducible exact hs
    | with_reducible refine State.quenchFive_memOk _ ?_
    | with_reducible refine memOk_of_ite (fun _ => ?_) (fun _ => ?_)
    | with_reducible refine memOk_of_fst_ite (fun _ => ?_) (fun _ => ?_)
    | simp only [↓State.log_blank, ↓State.noteQuenched_blank, notMem_out, notMem_freeUse, notMem_fns, notMem_regs, notMem_tb, notMem_rx, notMem_tiles, notMem_mirLanes, notMem_order, notMem_queues, notMem_bellows, notMem_engines, notMem_tdc, notMem_bgs, notMem_field, notMem_hearth, notMem_trig, notMem_staging, notMem_comps, notMem_jobs, notMem_pair, notMem_host, notMem_ptp, implies_true]
    | split

theorem State.mirApply_memOk  (s : State) (a1 : MirMsg) (hs : State.memOk (State.blank notMem s)) : State.memOk (State.blank notMem (State.mirApply s a1)) := by
  unfold State.mirApply
  repeat' first
    | with_reducible exact hs
    | with_reducible refine State.takeHeartbeat_memOk _ _ _ ?_
    | with_reducible refine State.takeState_memOk _ _ ?_
    | with_reducible refine State.takeDecision_memOk _ _ _ ?_
    | with_reducible refine State.takeRecord_memOk _ _ _ ?_
    | with_reducible refine State.theirDigest_memOk _ _ ?_
    | with_reducible refine State.takeSpace_memOk _ _ ?_
    | with_reducible refine State.takeQuench_memOk _ _ ?_
    | with_reducible refine memOk_of_ite (fun _ => ?_) (fun _ => ?_)
    | with_reducible refine memOk_of_fst_ite (fun _ => ?_) (fun _ => ?_)
    | simp only [↓State.takeSched_blank, ↓State.takeTime_blank, ↓State.takeForward_blank, ↓State.takeHandover_blank, notMem_out, notMem_freeUse, notMem_fns, notMem_regs, notMem_tb, notMem_rx, notMem_tiles, notMem_mirLanes, notMem_order, notMem_queues, notMem_bellows, notMem_engines, notMem_cores, notMem_tdc, notMem_bgs, notMem_field, notMem_hearth, notMem_trig, notMem_staging, notMem_comps, notMem_jobs, notMem_pair, notMem_host, notMem_ptp, notMem_kept, notMem_keptBad, implies_true]
    | split

theorem State.mirPass_memOk  (s : State) (q : Nat) (m : MirMsg) (hs : State.memOk (State.blank notMem s)) : State.memOk (State.blank notMem (State.mirPass s q m)) := by
  unfold State.mirPass
  repeat' first
    | with_reducible exact hs
    | with_reducible refine State.mirApply_memOk _ _ ?_
    | with_reducible refine memOk_of_ite (fun _ => ?_) (fun _ => ?_)
    | with_reducible refine memOk_of_fst_ite (fun _ => ?_) (fun _ => ?_)
    | simp only [↓State.onPair_blank, notMem_out, notMem_freeUse, notMem_fns, notMem_regs, notMem_tb, notMem_rx, notMem_tiles, notMem_mirLanes, notMem_order, notMem_queues, notMem_bellows, notMem_engines, notMem_cores, notMem_tdc, notMem_bgs, notMem_field, notMem_hearth, notMem_trig, notMem_staging, notMem_comps, notMem_jobs, notMem_pair, notMem_host, notMem_ptp, notMem_kept, notMem_keptBad, implies_true]
    | split

theorem State.mirDrain_memOk  (a0 : Nat) (a1 : State) (hs : State.memOk (State.blank notMem a1)) : State.memOk (State.blank notMem (State.mirDrain a0 a1)) := by
  induction a0 generalizing a1 with
  | zero => unfold State.mirDrain; first | exact hs | (split <;> exact hs)
  | succ k ih =>
    unfold State.mirDrain
    repeat' first
      | with_reducible exact hs
      | with_reducible refine State.mirPass_memOk _ _ _ ?_
      | with_reducible refine ih _ ?_
      | with_reducible refine memOk_of_ite (fun _ => ?_) (fun _ => ?_)
      | with_reducible refine memOk_of_fst_ite (fun _ => ?_) (fun _ => ?_)
      | simp only [notMem_out, notMem_freeUse, notMem_fns, notMem_regs, notMem_tb, notMem_rx, notMem_tiles, notMem_mirLanes, notMem_order, notMem_queues, notMem_bellows, notMem_engines, notMem_cores, notMem_tdc, notMem_bgs, notMem_field, notMem_hearth, notMem_trig, notMem_staging, notMem_comps, notMem_jobs, notMem_pair, notMem_host, notMem_ptp, notMem_kept, notMem_keptBad, implies_true]
      | split

theorem State.mirSkip_memOk  (a0 : Nat) (a1 : Nat) (a2 : State) (hs : State.memOk (State.blank notMem a2)) : State.memOk (State.blank notMem (State.mirSkip a0 a1 a2)) := by
  induction a0 generalizing a2 with
  | zero => unfold State.mirSkip; first | exact hs | (split <;> exact hs)
  | succ k ih =>
    unfold State.mirSkip
    repeat' first
      | with_reducible exact hs
      | with_reducible refine State.mirPass_memOk _ _ _ ?_
      | with_reducible refine ih _ ?_
      | with_reducible refine memOk_of_ite (fun _ => ?_) (fun _ => ?_)
      | with_reducible refine memOk_of_fst_ite (fun _ => ?_) (fun _ => ?_)
      | simp only [notMem_out, notMem_freeUse, notMem_fns, notMem_regs, notMem_tb, notMem_rx, notMem_tiles, notMem_mirLanes, notMem_order, notMem_queues, notMem_bellows, notMem_engines, notMem_cores, notMem_tdc, notMem_bgs, notMem_field, notMem_hearth, notMem_trig, notMem_staging, notMem_comps, notMem_jobs, notMem_pair, notMem_host, notMem_ptp, notMem_kept, notMem_keptBad, implies_true]
      | split

theorem State.askResync_memOk  (s : State) (hs : State.memOk (State.blank notMem s)) : State.memOk (State.blank notMem (State.askResync s)) := by
  unfold State.askResync
  repeat' first
    | with_reducible exact hs
    | with_reducible refine State.beginJoin_memOk _ ?_
    | with_reducible refine memOk_of_ite (fun _ => ?_) (fun _ => ?_)
    | with_reducible refine memOk_of_fst_ite (fun _ => ?_) (fun _ => ?_)
    | simp only [↓State.onPair_blank, notMem_out, notMem_freeUse, notMem_fns, notMem_regs, notMem_tb, notMem_rx, notMem_tiles, notMem_mirLanes, notMem_order, notMem_queues, notMem_bellows, notMem_engines, notMem_tdc, notMem_bgs, notMem_field, notMem_hearth, notMem_trig, notMem_staging, notMem_comps, notMem_jobs, notMem_pair, notMem_host, notMem_ptp, implies_true]
    | split

theorem State.mirrorDeskew_memOk  (s : State) (q : Nat) (hs : State.memOk (State.blank notMem s)) : State.memOk (State.blank notMem (State.mirrorDeskew s q)) := by
  unfold State.mirrorDeskew
  repeat' first
    | with_reducible exact hs
    | with_reducible refine State.mirDrain_memOk _ _ ?_
    | with_reducible refine State.mirSkip_memOk _ _ _ ?_
    | with_reducible refine State.askResync_memOk _ ?_
    | with_reducible refine memOk_of_ite (fun _ => ?_) (fun _ => ?_)
    | with_reducible refine memOk_of_fst_ite (fun _ => ?_) (fun _ => ?_)
    | simp only [notMem_out, notMem_freeUse, notMem_fns, notMem_regs, notMem_tb, notMem_rx, notMem_tiles, notMem_mirLanes, notMem_order, notMem_queues, notMem_bellows, notMem_engines, notMem_cores, notMem_tdc, notMem_bgs, notMem_field, notMem_hearth, notMem_trig, notMem_staging, notMem_comps, notMem_jobs, notMem_pair, notMem_host, notMem_ptp, notMem_kept, notMem_keptBad, implies_true]
    | split

theorem deskewTimeout_memOk  (d : DeskewAt) (seq : Nat) (s : State) (hs : State.memOk (State.blank notMem s)) : State.memOk (State.blank notMem (deskewTimeout d seq s)) := by
  unfold deskewTimeout
  repeat' first
    | with_reducible exact hs
    | with_reducible refine State.mirrorDeskew_memOk _ _ ?_
    | with_reducible refine memOk_of_ite (fun _ => ?_) (fun _ => ?_)
    | with_reducible refine memOk_of_fst_ite (fun _ => ?_) (fun _ => ?_)
    | simp only [↓State.stripDeskew_blank, notMem_out, notMem_freeUse, notMem_fns, notMem_regs, notMem_tb, notMem_rx, notMem_tiles, notMem_mirLanes, notMem_order, notMem_queues, notMem_bellows, notMem_engines, notMem_cores, notMem_tdc, notMem_bgs, notMem_field, notMem_hearth, notMem_trig, notMem_staging, notMem_comps, notMem_jobs, notMem_pair, notMem_host, notMem_ptp, notMem_kept, notMem_keptBad, implies_true]
    | split

theorem State.quenchGlobal_memOk  (s : State) (hs : State.memOk (State.blank notMem s)) : State.memOk (State.blank notMem (State.quenchGlobal s)) := by
  unfold State.quenchGlobal
  repeat' first
    | with_reducible exact hs
    | with_reducible refine State.quenchFive_memOk _ ?_
    | with_reducible refine memOk_of_ite (fun _ => ?_) (fun _ => ?_)
    | with_reducible refine memOk_of_fst_ite (fun _ => ?_) (fun _ => ?_)
    | simp only [↓State.logDev_blank, ↓State.noteQuenched_blank, ↓State.mirrorSend_blank, notMem_out, notMem_freeUse, notMem_fns, notMem_regs, notMem_tb, notMem_rx, notMem_tiles, notMem_mirLanes, notMem_order, notMem_queues, notMem_bellows, notMem_engines, notMem_tdc, notMem_bgs, notMem_field, notMem_hearth, notMem_trig, notMem_staging, notMem_comps, notMem_jobs, notMem_pair, notMem_host, notMem_ptp, implies_true]
    | split

theorem State.fnCmdWrite_memOk  (s : State) (v : Nat) (hs : State.memOk (State.blank notMem s)) : State.memOk (State.blank notMem (State.fnCmdWrite s v).1) := by
  unfold State.fnCmdWrite
  repeat' first
    | with_reducible exact hs
    | with_reducible refine State.quenchGlobal_memOk _ ?_
    | with_reducible refine State.fnCommand_memOk _ _ _ ?_
    | with_reducible refine memOk_of_ite (fun _ => ?_) (fun _ => ?_)
    | with_reducible refine memOk_of_fst_ite (fun _ => ?_) (fun _ => ?_)
    | simp only [↓State.badCmd_blank, notMem_out, notMem_freeUse, notMem_fns, notMem_regs, notMem_tb, notMem_rx, notMem_tiles, notMem_mirLanes, notMem_order, notMem_queues, notMem_bellows, notMem_engines, notMem_cores, notMem_tdc, notMem_bgs, notMem_field, notMem_hearth, notMem_trig, notMem_staging, notMem_comps, notMem_jobs, notMem_pair, notMem_host, notMem_ptp, implies_true]
    | split

theorem jobAbort_memOk  (s : State) (hs : State.memOk (State.blank notMem s)) : State.memOk (State.blank notMem (jobAbort s)) := by
  unfold jobAbort
  repeat' first
    | with_reducible exact hs
    | with_reducible refine State.jobsAbort_memOk _ ?_
    | with_reducible refine memOk_of_ite (fun _ => ?_) (fun _ => ?_)
    | with_reducible refine memOk_of_fst_ite (fun _ => ?_) (fun _ => ?_)
    | simp only [notMem_out, notMem_freeUse, notMem_regs, notMem_hearth, notMem_jobs, notMem_host, implies_true]
    | split

theorem busCmd_memOk  (port : Option (Fin 2)) (a : Nat) (v : Nat) (ho : Nat × Nat) (g : State → State) (hx : (busCmd port a v ho) = some g) (t : State) (hs : State.memOk (State.blank notMem t)) : State.memOk (State.blank notMem (g t)) := by
  unfold busCmd at hx
  try dsimp only at hx
  repeat' first
    | with_reducible exact memOk_of_blank (timeCmd_blank notMem_out notMem_regs notMem_tb notMem_tdc notMem_field notMem_hearth notMem_trig notMem_pair _ _ _ hx t) hs
    | with_reducible exact memOk_of_blank (auxCmd_blank notMem_regs notMem_tb notMem_order notMem_queues notMem_bellows notMem_engines notMem_bgs notMem_field _ _ _ hx t) hs
    | with_reducible exact memOk_of_blank (hstCmd_blank notMem_out notMem_regs notMem_host _ _ _ _ hx t) hs
    | with_reducible exact memOk_of_blank (sectorCmd_blank notMem_out notMem_freeUse notMem_regs notMem_tb notMem_rx notMem_cmd notMem_mirLanes notMem_order notMem_queues notMem_bellows notMem_engines notMem_bgs _ _ _ _ hx t) hs
    | with_reducible refine jobAbort_memOk _ ?_
    | with_reducible refine ifBit_memOk _ _ _ _ (fun t hs => ?_) ?_
    | with_reducible refine memOk_of_ite (fun _ => ?_) (fun _ => ?_)
    | with_reducible refine memOk_of_fst_ite (fun _ => ?_) (fun _ => ?_)
    | with_reducible exact hs
    | (with_reducible refine of_ite hx ?_ ?_ <;> (clear hx; intro hx))
    | (with_reducible refine of_dite hx ?_ ?_ <;> (clear hx; intro _ hx))
    | (with_reducible injection hx with hx; subst hx)
    | (with_reducible injection hx; done)
    | (obtain ⟨_, _, hx⟩ := Option.map_eq_some_iff.mp hx; subst hx)
    | simp only [↓dieWrite_blank, ↓State.supWrite_blank, ↓jobSubmit_blank, ↓pairSwap_blank, ↓fereload_blank, ↓recover_blank, ↓updateCancel_blank, notMem_out, notMem_freeUse, notMem_fns, notMem_regs, notMem_tb, notMem_rx, notMem_cmd, notMem_mirLanes, notMem_order, notMem_queues, notMem_bellows, notMem_engines, notMem_cores, notMem_tdc, notMem_bgs, notMem_field, notMem_hearth, notMem_trig, notMem_comps, notMem_jobs, notMem_pair, notMem_host, notMem_nvs, notMem_sys, implies_true]
    | split at hx

theorem State.busWrite_memOk  (s : State) (port : Option (Fin 2)) (a : Nat) (v : Nat) (ho : Nat × Nat) (hs : State.memOk (State.blank notMem s)) : State.memOk (State.blank notMem (State.busWrite s port a v ho).1) := by
  unfold State.busWrite
  repeat' first
    | with_reducible exact hs
    | with_reducible refine State.fnCmdWrite_memOk _ _ ?_
    | with_reducible refine State.fnCommand_memOk _ _ _ ?_
    | with_reducible refine busCmd_memOk _ _ _ _ _ (by assumption) _ ?_
    | with_reducible refine memOk_of_ite (fun _ => ?_) (fun _ => ?_)
    | with_reducible refine memOk_of_fst_ite (fun _ => ?_) (fun _ => ?_)
    | simp only [↓State.storeWrite_blank, ↓State.writeMirrored_blank, notMem_out, notMem_freeUse, notMem_fns, notMem_regs, notMem_tb, notMem_rx, notMem_tiles, notMem_cmd, notMem_mirLanes, notMem_order, notMem_queues, notMem_bellows, notMem_engines, notMem_cores, notMem_tdc, notMem_bgs, notMem_field, notMem_hearth, notMem_trig, notMem_staging, notMem_comps, notMem_jobs, notMem_pair, notMem_host, notMem_ptp, notMem_nvs, notMem_sys, implies_true]
    | split

theorem registerWrite_memOk  (port : Fin 2) (addr : Nat) (be : BitVec 4) (val : Word) (ho : Nat × Nat) (s : State) (hs : State.memOk (State.blank notMem s)) : State.memOk (State.blank notMem (registerWrite port addr be val ho s)) := by
  unfold registerWrite
  repeat' first
    | with_reducible exact hs
    | with_reducible refine State.busWrite_memOk _ _ _ _ _ ?_
    | with_reducible refine memOk_of_ite (fun _ => ?_) (fun _ => ?_)
    | with_reducible refine memOk_of_fst_ite (fun _ => ?_) (fun _ => ?_)
    | simp only [notMem_out, notMem_freeUse, notMem_fns, notMem_regs, notMem_tb, notMem_rx, notMem_tiles, notMem_cmd, notMem_mirLanes, notMem_order, notMem_queues, notMem_bellows, notMem_engines, notMem_cores, notMem_tdc, notMem_bgs, notMem_field, notMem_hearth, notMem_trig, notMem_staging, notMem_comps, notMem_jobs, notMem_pair, notMem_host, notMem_ptp, notMem_nvs, notMem_sys, implies_true]
    | split

theorem rearm_memOk  (s : State) (hs : State.memOk (State.blank notMem s)) : State.memOk (State.blank notMem (rearm s)) := by
  unfold rearm
  repeat' first
    | with_reducible exact hs
    | with_reducible refine State.armNow_memOk _ _ _ _ ?_
    | with_reducible refine memOk_of_ite (fun _ => ?_) (fun _ => ?_)
    | with_reducible refine memOk_of_fst_ite (fun _ => ?_) (fun _ => ?_)
    | simp only [↓State.onTrig_blank, ↓State.trigItem_blank, ↓State.logDev_blank, notMem_out, notMem_regs, notMem_tb, notMem_field, notMem_hearth, notMem_trig, notMem_jobs, notMem_pair, implies_true]
    | split

theorem State.placeFirmware_memOk  (s : State) (hs : State.memOk (State.blank notMem s)) : State.memOk (State.blank notMem (State.placeFirmware s)) := by
  unfold State.placeFirmware
  repeat' first
    | with_reducible exact hs
    | with_reducible refine State.hwrite_memOk _ _ _ ?_
    | with_reducible refine memOk_of_ite (fun _ => ?_) (fun _ => ?_)
    | with_reducible refine memOk_of_fst_ite (fun _ => ?_) (fun _ => ?_)
    | simp only [implies_true]
    | split

theorem State.ownServe_memOk  (s : State) (hs : State.memOk (State.blank notMem s)) : State.memOk (State.blank notMem (State.ownServe s)) := by
  unfold State.ownServe
  repeat' first
    | with_reducible exact hs
    | with_reducible refine State.applyDecision_memOk _ _ ?_
    | with_reducible refine State.each_memOk _ _ _ (fun t x hs => ?_) ?_
    | with_reducible refine memOk_of_ite (fun _ => ?_) (fun _ => ?_)
    | with_reducible refine memOk_of_fst_ite (fun _ => ?_) (fun _ => ?_)
    | simp only [↓State.onPair_blank, ↓State.onTrig_blank, notMem_out, notMem_regs, notMem_tb, notMem_tdc, notMem_field, notMem_hearth, notMem_trig, notMem_pair, notMem_host, implies_true]
    | split

theorem tongsTakeHold_memOk  (s : State) (hs : State.memOk (State.blank notMem s)) : State.memOk (State.blank notMem (tongsTakeHold s)) := by
  unfold tongsTakeHold
  repeat' first
    | with_reducible exact hs
    | with_reducible refine State.ownServe_memOk _ ?_
    | with_reducible refine memOk_of_ite (fun _ => ?_) (fun _ => ?_)
    | with_reducible refine memOk_of_fst_ite (fun _ => ?_) (fun _ => ?_)
    | simp only [↓State.count_blank, ↓State.setBit_blank, ↓State.setRole_blank, ↓State.leaveFollow_blank, ↓State.onPair_blank, ↓State.logDev_blank, notMem_out, notMem_regs, notMem_tb, notMem_tdc, notMem_field, notMem_hearth, notMem_trig, notMem_pair, notMem_host, implies_true]
    | split

theorem State.bootOn_memOk  (x : BootFacts) (events : List (Nat × Nat)) (s : State) (hs : State.memOk (State.blank notMem s)) : State.memOk (State.blank notMem (State.bootOn x events s)) := by
  unfold State.bootOn
  repeat' first
    | with_reducible exact hs
    | with_reducible refine State.placeFirmware_memOk _ ?_
    | with_reducible refine tongsTakeHold_memOk _ ?_
    | with_reducible refine State.each_memOk _ _ _ (fun t x hs => ?_) ?_
    | with_reducible refine memOk_of_ite (fun _ => ?_) (fun _ => ?_)
    | with_reducible refine memOk_of_fst_ite (fun _ => ?_) (fun _ => ?_)
    | simp only [↓State.trainMemory_blank, ↓State.loadSettings_blank, ↓State.putFns_blank, ↓State.aouStop_blank, ↓State.domUp_blank, ↓State.startFwCore_blank, ↓State.bootStart_blank, ↓State.logUpd_blank, ↓State.onSys_blank, ↓State.reloadMark_blank, ↓State.reloadStart_blank, notMem_out, notMem_fns, notMem_regs, notMem_tb, notMem_rx, notMem_tiles, notMem_cmd, notMem_mirLanes, notMem_queues, notMem_bellows, notMem_engines, notMem_cores, notMem_tdc, notMem_bgs, notMem_field, notMem_hearth, notMem_trig, notMem_staging, notMem_comps, notMem_pair, notMem_host, notMem_ptp, notMem_sys, implies_true]
    | split

theorem State.bootNow_memOk  (x : BootFacts) (s : State) (hs : State.memOk (State.blank notMem s)) : State.memOk (State.blank notMem (State.bootNow x s)) := by
  unfold State.bootNow
  repeat' first
    | with_reducible exact hs
    | with_reducible refine State.bootOn_memOk _ _ _ ?_
    | with_reducible refine memOk_of_ite (fun _ => ?_) (fun _ => ?_)
    | with_reducible refine memOk_of_fst_ite (fun _ => ?_) (fun _ => ?_)
    | simp only [↓State.setBit_blank, ↓State.setLink_blank, ↓State.chooseSlot_blank, ↓State.runFrom_blank, ↓State.onSys_blank, notMem_out, notMem_fns, notMem_regs, notMem_tb, notMem_rx, notMem_tiles, notMem_cmd, notMem_mirLanes, notMem_queues, notMem_bellows, notMem_engines, notMem_cores, notMem_tdc, notMem_bgs, notMem_field, notMem_hearth, notMem_trig, notMem_staging, notMem_comps, notMem_pair, notMem_host, notMem_ptp, notMem_nvs, notMem_sys, implies_true]
    | split

theorem State.leaveReset_memOk  (x : BootFacts) (s : State) (hs : State.memOk (State.blank notMem s)) : State.memOk (State.blank notMem (State.leaveReset x s)) := by
  unfold State.leaveReset
  repeat' first
    | with_reducible exact hs
    | with_reducible refine State.bootNow_memOk _ _ ?_
    | with_reducible refine memOk_of_ite (fun _ => ?_) (fun _ => ?_)
    | with_reducible refine memOk_of_fst_ite (fun _ => ?_) (fun _ => ?_)
    | simp only [notMem_out, notMem_fns, notMem_regs, notMem_tb, notMem_rx, notMem_tiles, notMem_cmd, notMem_mirLanes, notMem_queues, notMem_bellows, notMem_engines, notMem_cores, notMem_tdc, notMem_bgs, notMem_field, notMem_hearth, notMem_trig, notMem_staging, notMem_comps, notMem_pair, notMem_host, notMem_ptp, notMem_nvs, notMem_sys, implies_true]
    | split

theorem State.slagReport_memOk  (s : State) (q : Nat) (cause : Nat) (noid : Bool) (first : Option Ident) (last : Option Ident) (hs : State.memOk (State.blank notMem s)) : State.memOk (State.blank notMem (State.slagReport s q cause noid first last)) := by
  unfold State.slagReport
  repeat' first
    | with_reducible exact hs
    | with_reducible refine State.gapMarks_memOk _ _ _ _ _ ?_
    | with_reducible refine memOk_of_ite (fun _ => ?_) (fun _ => ?_)
    | with_reducible refine memOk_of_fst_ite (fun _ => ?_) (fun _ => ?_)
    | simp only [↓State.logMarked_blank, notMem_tb, notMem_hearth, implies_true]
    | split

theorem State.slagDelivered_memOk  (s : State) (l : Nat) (w : Slag) (hs : State.memOk (State.blank notMem s)) : State.memOk (State.blank notMem (State.slagDelivered s l w)) := by
  unfold State.slagDelivered
  repeat' first
    | with_reducible exact hs
    | with_reducible refine State.slagReport_memOk _ _ _ _ _ _ ?_
    | with_reducible refine memOk_of_ite (fun _ => ?_) (fun _ => ?_)
    | with_reducible refine memOk_of_fst_ite (fun _ => ?_) (fun _ => ?_)
    | simp only [notMem_tb, notMem_hearth, implies_true]
    | split

theorem State.markStored_memOk  (s : State) (slot : Nat) (flag : Nat) (hs : State.memOk (State.blank notMem s)) : State.memOk (State.blank notMem (State.markStored s slot flag)) := by
  unfold State.markStored
  repeat' first
    | with_reducible exact hs
    | with_reducible refine State.slotPatch_memOk _ _ _ ?_
    | with_reducible refine State.writeDir_memOk _ _ _ ?_
    | with_reducible refine memOk_of_ite (fun _ => ?_) (fun _ => ?_)
    | with_reducible refine memOk_of_fst_ite (fun _ => ?_) (fun _ => ?_)
    | simp only [↓State.onSeg_blank, notMem_hearth, implies_true]
    | split

theorem State.markData_memOk  (s : State) (a : Nat) (hs : State.memOk (State.blank notMem s)) : State.memOk (State.blank notMem (State.markData s a)) := by
  unfold State.markData
  repeat' first
    | with_reducible exact hs
    | with_reducible refine State.markStored_memOk _ _ _ ?_
    | with_reducible refine State.markFrame_memOk _ _ _ _ _ ?_
    | with_reducible refine State.each_memOk _ _ _ (fun t x hs => ?_) ?_
    | with_reducible refine memOk_of_ite (fun _ => ?_) (fun _ => ?_)
    | with_reducible refine memOk_of_fst_ite (fun _ => ?_) (fun _ => ?_)
    | simp only [notMem_hearth, implies_true]
    | split

theorem State.readUE_memOk  (s : State) (a : Nat) (hs : State.memOk (State.blank notMem s)) : State.memOk (State.blank notMem (State.readUE s a)) := by
  unfold State.readUE
  repeat' first
    | with_reducible exact hs
    | with_reducible refine State.markStored_memOk _ _ _ ?_
    | with_reducible refine State.markData_memOk _ _ ?_
    | with_reducible refine memOk_of_ite (fun _ => ?_) (fun _ => ?_)
    | with_reducible refine memOk_of_fst_ite (fun _ => ?_) (fun _ => ?_)
    | simp only [↓State.countUE_blank, notMem_regs, notMem_hearth, implies_true]
    | split

theorem State.noteErrs_memOk  (s : State) (e : MemErrs) (a : Nat) (n : Nat) (hs : State.memOk (State.blank notMem s)) : State.memOk (State.blank notMem (State.noteErrs s e a n)) := by
  unfold State.noteErrs
  repeat' first
    | with_reducible exact hs
    | with_reducible refine State.readUE_memOk _ _ ?_
    | with_reducible refine State.each_memOk _ _ _ (fun t x hs => ?_) ?_
    | with_reducible refine memOk_of_ite (fun _ => ?_) (fun _ => ?_)
    | with_reducible refine memOk_of_fst_ite (fun _ => ?_) (fun _ => ?_)
    | simp only [↓State.countCE_blank, notMem_regs, notMem_hearth, implies_true]
    | split

theorem State.readFrames_memOk  (s : State) (q : Nat) (d : List Byte) (e : MemErrs) (decoded : Bool) (hs : State.memOk (State.blank notMem s)) : State.memOk (State.blank notMem (State.readFrames s q d e decoded)) := by
  unfold State.readFrames
  repeat' first
    | with_reducible exact hs
    | with_reducible refine State.noteErrs_memOk _ _ _ _ ?_
    | with_reducible refine State.markStored_memOk _ _ _ ?_
    | with_reducible refine State.each_memOk _ _ _ (fun t x hs => ?_) ?_
    | with_reducible refine memOk_of_ite (fun _ => ?_) (fun _ => ?_)
    | with_reducible refine memOk_of_fst_ite (fun _ => ?_) (fun _ => ?_)
    | simp only [↓State.dmaBad_blank, ↓State.count_blank, ↓State.dmaResult_blank, ↓State.deliver_blank, notMem_out, notMem_regs, notMem_hearth, notMem_host, implies_true]
    | split

theorem State.jobNote_memOk  (s : State) (d : List Byte) (e : MemErrs) (hs : State.memOk (State.blank notMem s)) : State.memOk (State.blank notMem (State.jobNote s d e)) := by
  unfold State.jobNote
  repeat' first
    | with_reducible exact hs
    | with_reducible refine State.noteErrs_memOk _ _ _ _ ?_
    | with_reducible refine memOk_of_ite (fun _ => ?_) (fun _ => ?_)
    | with_reducible refine memOk_of_fst_ite (fun _ => ?_) (fun _ => ?_)
    | simp only [notMem_regs, notMem_hearth, implies_true]
    | split

theorem check_memOk  (e : MemErrs) (s : State) (hs : State.memOk (State.blank notMem s)) : State.memOk (State.blank notMem (check e s)) := by
  unfold check
  repeat' first
    | with_reducible exact hs
    | with_reducible refine State.jobNote_memOk _ _ _ ?_
    | with_reducible refine memOk_of_blank (State.jobTake_blank notMem_jobs _ _ _ _ (by assumption)) ?_
    | with_reducible refine memOk_of_ite (fun _ => ?_) (fun _ => ?_)
    | with_reducible refine memOk_of_fst_ite (fun _ => ?_) (fun _ => ?_)
    | simp only [↓State.jobResult_blank, ↓State.count_blank, notMem_regs, notMem_hearth, notMem_jobs, implies_true]
    | split

theorem State.mirrorIn_memOk  (s : State) (q : Nat) (m : MirMsg) (hs : State.memOk (State.blank notMem s)) : State.memOk (State.blank notMem (State.mirrorIn s q m)) := by
  unfold State.mirrorIn
  repeat' first
    | with_reducible exact hs
    | with_reducible refine State.mirDrain_memOk _ _ ?_
    | with_reducible refine State.mirPass_memOk _ _ _ ?_
    | with_reducible refine memOk_of_ite (fun _ => ?_) (fun _ => ?_)
    | with_reducible refine memOk_of_fst_ite (fun _ => ?_) (fun _ => ?_)
    | simp only [↓State.count_blank, ↓State.onPair_blank, notMem_out, notMem_freeUse, notMem_fns, notMem_regs, notMem_tb, notMem_rx, notMem_tiles, notMem_mirLanes, notMem_order, notMem_queues, notMem_bellows, notMem_engines, notMem_cores, notMem_tdc, notMem_bgs, notMem_field, notMem_hearth, notMem_trig, notMem_staging, notMem_comps, notMem_jobs, notMem_pair, notMem_host, notMem_ptp, notMem_kept, notMem_keptBad, implies_true]
    | split

theorem recordRx_memOk  (q : Nat) (m : RecordMsg) (meas : List (Nat × Nat)) (s : State) (hs : State.memOk (State.blank notMem s)) : State.memOk (State.blank notMem (recordRx q m meas s)) := by
  unfold recordRx
  repeat' first
    | with_reducible exact hs
    | with_reducible refine State.mirrorIn_memOk _ _ _ ?_
    | with_reducible refine memOk_of_ite (fun _ => ?_) (fun _ => ?_)
    | with_reducible refine memOk_of_fst_ite (fun _ => ?_) (fun _ => ?_)
    | simp only [notMem_out, notMem_freeUse, notMem_fns, notMem_regs, notMem_tb, notMem_rx, notMem_tiles, notMem_mirLanes, notMem_order, notMem_queues, notMem_bellows, notMem_engines, notMem_cores, notMem_tdc, notMem_bgs, notMem_field, notMem_hearth, notMem_trig, notMem_staging, notMem_comps, notMem_jobs, notMem_pair, notMem_host, notMem_ptp, notMem_kept, notMem_keptBad, implies_true]
    | split

theorem State.ringWrite_memOk  (s : State) (rec_ : List Byte) (hs : State.memOk (State.blank notMem s)) : State.memOk (State.blank notMem (State.ringWrite s rec_)) := by
  unfold State.ringWrite
  repeat' first
    | with_reducible exact hs
    | with_reducible refine State.hwrite_memOk _ _ _ ?_
    | with_reducible refine memOk_of_ite (fun _ => ?_) (fun _ => ?_)
    | with_reducible refine memOk_of_fst_ite (fun _ => ?_) (fun _ => ?_)
    | simp only [↓State.onField_blank, notMem_field, implies_true]
    | split

theorem State.ringResume_memOk  (s : State) (hs : State.memOk (State.blank notMem s)) : State.memOk (State.blank notMem (State.ringResume s)) := by
  unfold State.ringResume
  repeat' first
    | with_reducible exact hs
    | with_reducible refine State.ringWrite_memOk _ _ ?_
    | with_reducible refine memOk_of_ite (fun _ => ?_) (fun _ => ?_)
    | with_reducible refine memOk_of_fst_ite (fun _ => ?_) (fun _ => ?_)
    | simp only [↓State.logField_blank, ↓State.onField_blank, notMem_tb, notMem_field, implies_true]
    | split

theorem State.ringSample_memOk  (s : State) (b : List Byte) (hs : State.memOk (State.blank notMem s)) : State.memOk (State.blank notMem (State.ringSample s b)) := by
  unfold State.ringSample
  repeat' first
    | with_reducible exact hs
    | with_reducible refine State.ringResume_memOk _ ?_
    | with_reducible refine State.ringWrite_memOk _ _ ?_
    | with_reducible refine memOk_of_ite (fun _ => ?_) (fun _ => ?_)
    | with_reducible refine memOk_of_fst_ite (fun _ => ?_) (fun _ => ?_)
    | simp only [↓State.count_blank, ↓State.ringSkip_blank, notMem_regs, notMem_tb, notMem_field, implies_true]
    | split

theorem State.routeSample_memOk  (s : State) (b : List Byte) (hs : State.memOk (State.blank notMem s)) : State.memOk (State.blank notMem (State.routeSample s b)) := by
  unfold State.routeSample
  repeat' first
    | with_reducible exact hs
    | with_reducible refine State.ringSample_memOk _ _ ?_
    | with_reducible refine memOk_of_ite (fun _ => ?_) (fun _ => ?_)
    | with_reducible refine memOk_of_fst_ite (fun _ => ?_) (fun _ => ?_)
    | simp only [↓State.streamAdd_blank, notMem_regs, notMem_tb, notMem_field, notMem_trig, implies_true]
    | split

theorem State.ringLoss_memOk  (s : State) (t : Stamp) (n : Nat) (hs : State.memOk (State.blank notMem s)) : State.memOk (State.blank notMem (State.ringLoss s t n)) := by
  unfold State.ringLoss
  repeat' first
    | with_reducible exact hs
    | with_reducible refine State.ringResume_memOk _ ?_
    | with_reducible refine State.ringWrite_memOk _ _ ?_
    | with_reducible refine memOk_of_ite (fun _ => ?_) (fun _ => ?_)
    | with_reducible refine memOk_of_fst_ite (fun _ => ?_) (fun _ => ?_)
    | simp only [↓State.ringSkip_blank, notMem_tb, notMem_field, implies_true]
    | split

theorem State.routeSlag_memOk  (s : State) (w : Slag) (hs : State.memOk (State.blank notMem s)) : State.memOk (State.blank notMem (State.routeSlag s w)) := by
  unfold State.routeSlag
  repeat' first
    | with_reducible exact hs
    | with_reducible refine State.ringLoss_memOk _ _ _ ?_
    | with_reducible refine State.each_memOk _ _ _ (fun t x hs => ?_) ?_
    | with_reducible refine memOk_of_ite (fun _ => ?_) (fun _ => ?_)
    | with_reducible refine memOk_of_fst_ite (fun _ => ?_) (fun _ => ?_)
    | simp only [↓State.streamAdd_blank, notMem_tb, notMem_field, notMem_trig, implies_true]
    | split

theorem State.routeFront_memOk  (s : State) (ecc : QueueEcc) (hs : State.memOk (State.blank notMem s)) : State.memOk (State.blank notMem (State.routeFront s ecc)) := by
  unfold State.routeFront
  repeat' first
    | with_reducible exact hs
    | with_reducible refine State.routeSample_memOk _ _ ?_
    | with_reducible refine State.routeSlag_memOk _ _ ?_
    | with_reducible refine State.each_memOk _ _ _ (fun t x hs => ?_) ?_
    | with_reducible refine memOk_of_ite (fun _ => ?_) (fun _ => ?_)
    | with_reducible refine memOk_of_fst_ite (fun _ => ?_) (fun _ => ?_)
    | simp only [↓State.count_blank, ↓State.auxDiscard_blank, ↓State.popItem_blank, notMem_regs, notMem_tb, notMem_queues, notMem_bellows, notMem_bgs, notMem_field, notMem_trig, implies_true]
    | split

theorem State.auxStopped_memOk  (s : State) (hs : State.memOk (State.blank notMem s)) : State.memOk (State.blank notMem (State.auxStopped s)) := by
  unfold State.auxStopped
  repeat' first
    | with_reducible exact hs
    | with_reducible refine State.routeFront_memOk _ _ ?_
    | with_reducible refine State.each_memOk _ _ _ (fun t x hs => ?_) ?_
    | with_reducible refine memOk_of_ite (fun _ => ?_) (fun _ => ?_)
    | with_reducible refine memOk_of_fst_ite (fun _ => ?_) (fun _ => ?_)
    | simp only [↓State.packClose_blank, ↓State.forward_blank, ↓State.onField_blank, notMem_regs, notMem_tb, notMem_order, notMem_queues, notMem_bellows, notMem_bgs, notMem_field, notMem_trig, implies_true]
    | split

theorem State.makeRoom_memOk  (s : State) (f : Nat) (n : Nat) (a3 : Nat) (hs : State.memOk (State.blank notMem s)) : State.memOk (State.blank notMem (State.makeRoom s f n a3)) := by
  induction a3 generalizing s with
  | zero => unfold State.makeRoom; first | exact hs | (split <;> exact hs)
  | succ k ih =>
    unfold State.makeRoom
    repeat' first
      | with_reducible exact hs
      | with_reducible refine State.evictOne_memOk _ ?_
      | with_reducible refine ih _ ?_
      | with_reducible refine memOk_of_ite (fun _ => ?_) (fun _ => ?_)
      | with_reducible refine memOk_of_fst_ite (fun _ => ?_) (fun _ => ?_)
      | simp only [↓State.evictOpen_blank, notMem_hearth, implies_true]
      | split

theorem State.acceptBytes_memOk  (s : State) (f : Nat) (n : Nat) (bs : List Byte) (t : State) (hx : (State.acceptBytes s f n bs) = some t) (hs : State.memOk (State.blank notMem s)) : State.memOk (State.blank notMem t) := by
  unfold State.acceptBytes at hx
  repeat' first
    | (simp only [reduceCtorEq] at hx; done)
    | (simp only [Option.some.injEq, Prod.mk.injEq] at hx; obtain ⟨_, hx⟩ := hx; subst hx)
    | (simp only [Option.some.injEq] at hx; subst hx)
    | with_reducible exact hs
    | split at hx
    | dsimp only at hx
    | with_reducible refine State.makeRoom_memOk _ _ _ _ ?_
    | with_reducible refine State.placeBytes_memOk _ _ _ _ _ ?_
    | with_reducible refine State.truncate_memOk _ _ _ ?_
    | with_reducible refine memOk_of_ite (fun _ => ?_) (fun _ => ?_)
    | with_reducible refine memOk_of_fst_ite (fun _ => ?_) (fun _ => ?_)
    | simp only [↓State.holdBytes_blank, notMem_out, notMem_tb, notMem_hearth, notMem_pair, implies_true]

theorem State.commitBlock_memOk  (s : State) (k : Nat) (hs : State.memOk (State.blank notMem s)) : State.memOk (State.blank notMem (State.commitBlock s k)) := by
  unfold State.commitBlock
  repeat' first
    | with_reducible exact hs
    | with_reducible refine State.settleTile_memOk _ _ ?_
    | with_reducible refine State.acceptBytes_memOk _ _ _ _ _ (by assumption) ?_
    | with_reducible refine memOk_of_ite (fun _ => ?_) (fun _ => ?_)
    | with_reducible refine memOk_of_fst_ite (fun _ => ?_) (fun _ => ?_)
    | simp only [↓State.onComp_blank, ↓State.countKib_blank, ↓State.count_blank, notMem_out, notMem_regs, notMem_tb, notMem_hearth, notMem_trig, notMem_comps, notMem_pair, notMem_host, implies_true]
    | split

theorem hearthWriteResume_memOk  (k : Fin 12) (s : State) (hs : State.memOk (State.blank notMem s)) : State.memOk (State.blank notMem (hearthWriteResume k s)) := by
  unfold hearthWriteResume
  repeat' first
    | with_reducible exact hs
    | with_reducible refine State.commitBlock_memOk _ _ ?_
    | with_reducible refine memOk_of_ite (fun _ => ?_) (fun _ => ?_)
    | with_reducible refine memOk_of_fst_ite (fun _ => ?_) (fun _ => ?_)
    | simp only [notMem_out, notMem_regs, notMem_tb, notMem_hearth, notMem_trig, notMem_comps, notMem_pair, notMem_host, implies_true]
    | split

theorem State.deviceReset_memOk  (s : State) (hs : State.memOk (State.blank notMem s)) : State.memOk (State.blank notMem (State.deviceReset s)) := by
  unfold State.deviceReset
  simp only [↓State.setBit_blank, notMem_regs]
  rfl

theorem pwrOkDeassert_memOk  (s : State) (hs : State.memOk (State.blank notMem s)) : State.memOk (State.blank notMem (pwrOkDeassert s)) := by
  unfold pwrOkDeassert
  repeat' first
    | with_reducible exact hs
    | with_reducible refine State.deviceReset_memOk _ ?_
    | with_reducible refine memOk_of_ite (fun _ => ?_) (fun _ => ?_)
    | with_reducible refine memOk_of_fst_ite (fun _ => ?_) (fun _ => ?_)
    | simp only [↓State.onTap_blank, notMem_out, notMem_fns, notMem_regs, notMem_tb, notMem_rx, notMem_tiles, notMem_cmd, notMem_mirLanes, notMem_order, notMem_queues, notMem_bellows, notMem_engines, notMem_cores, notMem_postRecs, notMem_postSeq, notMem_slots, notMem_tdc, notMem_bgs, notMem_field, notMem_hearth, notMem_trig, notMem_staging, notMem_comps, notMem_jobs, notMem_pair, notMem_host, notMem_ptp, notMem_sys, notMem_tap, notMem_kept, notMem_keptBad, implies_true]
    | split

theorem slotWriteResume_memOk  (s : State) (hs : State.memOk (State.blank notMem s)) : State.memOk (State.blank notMem (slotWriteResume s)) := by
  unfold slotWriteResume
  repeat' first
    | with_reducible exact hs
    | with_reducible refine State.settleFrames_memOk _ ?_
    | with_reducible refine memOk_of_ite (fun _ => ?_) (fun _ => ?_)
    | with_reducible refine memOk_of_fst_ite (fun _ => ?_) (fun _ => ?_)
    | simp only [notMem_out, notMem_regs, notMem_tb, notMem_hearth, notMem_trig, notMem_pair, notMem_host, implies_true]
    | split

theorem State.tapHold_memOk  (s : State) (ir : Nat) (hs : State.memOk (State.blank notMem s)) : State.memOk (State.blank notMem (State.tapHold s ir)) := by
  unfold State.tapHold
  repeat' first
    | with_reducible exact hs
    | with_reducible refine State.deviceReset_memOk _ ?_
    | with_reducible refine memOk_of_ite (fun _ => ?_) (fun _ => ?_)
    | with_reducible refine memOk_of_fst_ite (fun _ => ?_) (fun _ => ?_)
    | simp only [↓State.onTap_blank, ↓State.loadIr_blank, notMem_out, notMem_fns, notMem_regs, notMem_tb, notMem_rx, notMem_tiles, notMem_cmd, notMem_mirLanes, notMem_order, notMem_queues, notMem_bellows, notMem_engines, notMem_cores, notMem_postRecs, notMem_postSeq, notMem_slots, notMem_tdc, notMem_bgs, notMem_field, notMem_hearth, notMem_trig, notMem_staging, notMem_comps, notMem_jobs, notMem_pair, notMem_host, notMem_ptp, notMem_sys, notMem_tap, notMem_kept, notMem_keptBad, implies_true]
    | split

theorem highz_memOk  (s : State) (hs : State.memOk (State.blank notMem s)) : State.memOk (State.blank notMem (highz s)) := by
  unfold highz
  repeat' first
    | with_reducible exact hs
    | with_reducible refine State.tapHold_memOk _ _ ?_
    | with_reducible refine memOk_of_ite (fun _ => ?_) (fun _ => ?_)
    | with_reducible refine memOk_of_fst_ite (fun _ => ?_) (fun _ => ?_)
    | simp only [↓State.emit_blank, notMem_out, notMem_fns, notMem_regs, notMem_tb, notMem_rx, notMem_tiles, notMem_cmd, notMem_mirLanes, notMem_order, notMem_queues, notMem_bellows, notMem_engines, notMem_cores, notMem_postRecs, notMem_postSeq, notMem_slots, notMem_tdc, notMem_bgs, notMem_field, notMem_hearth, notMem_trig, notMem_staging, notMem_comps, notMem_jobs, notMem_pair, notMem_host, notMem_ptp, notMem_sys, notMem_tap, notMem_kept, notMem_keptBad, implies_true]
    | split

theorem State.tapIdle_memOk  (s : State) (x : BootFacts) (hs : State.memOk (State.blank notMem s)) : State.memOk (State.blank notMem (State.tapIdle s x)) := by
  unfold State.tapIdle
  repeat' first
    | with_reducible exact hs
    | with_reducible refine State.leaveReset_memOk _ _ ?_
    | with_reducible refine memOk_of_ite (fun _ => ?_) (fun _ => ?_)
    | with_reducible refine memOk_of_fst_ite (fun _ => ?_) (fun _ => ?_)
    | simp only [↓State.onTap_blank, notMem_out, notMem_fns, notMem_regs, notMem_tb, notMem_rx, notMem_tiles, notMem_cmd, notMem_mirLanes, notMem_queues, notMem_bellows, notMem_engines, notMem_cores, notMem_tdc, notMem_bgs, notMem_field, notMem_hearth, notMem_trig, notMem_staging, notMem_comps, notMem_pair, notMem_host, notMem_ptp, notMem_nvs, notMem_sys, notMem_tap, implies_true]
    | split

theorem testLogicResetEntry_memOk  (x : BootFacts) (s : State) (hs : State.memOk (State.blank notMem s)) : State.memOk (State.blank notMem (testLogicResetEntry x s)) := by
  unfold testLogicResetEntry
  repeat' first
    | with_reducible exact hs
    | with_reducible refine State.tapIdle_memOk _ _ ?_
    | with_reducible refine memOk_of_ite (fun _ => ?_) (fun _ => ?_)
    | with_reducible refine memOk_of_fst_ite (fun _ => ?_) (fun _ => ?_)
    | simp only [notMem_out, notMem_fns, notMem_regs, notMem_tb, notMem_rx, notMem_tiles, notMem_cmd, notMem_mirLanes, notMem_queues, notMem_bellows, notMem_engines, notMem_cores, notMem_tdc, notMem_bgs, notMem_field, notMem_hearth, notMem_trig, notMem_staging, notMem_comps, notMem_pair, notMem_host, notMem_ptp, notMem_nvs, notMem_sys, notMem_tap, implies_true]
    | split

theorem heartbeatRx_memOk  (m : Fin 8) (q : Nat) (h : Heartbeat) (s : State) (hs : State.memOk (State.blank notMem s)) : State.memOk (State.blank notMem (heartbeatRx m q h s)) := by
  unfold heartbeatRx
  repeat' first
    | with_reducible exact hs
    | with_reducible refine State.mirrorIn_memOk _ _ _ ?_
    | with_reducible refine memOk_of_ite (fun _ => ?_) (fun _ => ?_)
    | with_reducible refine memOk_of_fst_ite (fun _ => ?_) (fun _ => ?_)
    | simp only [↓State.riseOrRun_blank, ↓laneOn_blank, notMem_out, notMem_freeUse, notMem_fns, notMem_regs, notMem_tb, notMem_rx, notMem_tiles, notMem_cmd, notMem_mirLanes, notMem_order, notMem_queues, notMem_bellows, notMem_engines, notMem_cores, notMem_tdc, notMem_bgs, notMem_field, notMem_hearth, notMem_trig, notMem_staging, notMem_comps, notMem_jobs, notMem_pair, notMem_host, notMem_ptp, notMem_kept, notMem_keptBad, implies_true]
    | split

theorem timeRx_memOk  (q : Nat) (dep : Nat) (back : Nat) (s : State) (hs : State.memOk (State.blank notMem s)) : State.memOk (State.blank notMem (timeRx q dep back s)) := by
  unfold timeRx
  repeat' first
    | with_reducible exact hs
    | with_reducible refine State.mirrorIn_memOk _ _ _ ?_
    | with_reducible refine memOk_of_ite (fun _ => ?_) (fun _ => ?_)
    | with_reducible refine memOk_of_fst_ite (fun _ => ?_) (fun _ => ?_)
    | simp only [notMem_out, notMem_freeUse, notMem_fns, notMem_regs, notMem_tb, notMem_rx, notMem_tiles, notMem_mirLanes, notMem_order, notMem_queues, notMem_bellows, notMem_engines, notMem_cores, notMem_tdc, notMem_bgs, notMem_field, notMem_hearth, notMem_trig, notMem_staging, notMem_comps, notMem_jobs, notMem_pair, notMem_host, notMem_ptp, notMem_kept, notMem_keptBad, implies_true]
    | split

theorem decompress_memOk  (e : MemErrs) (s : State) (hs : State.memOk (State.blank notMem s)) : State.memOk (State.blank notMem (decompress e s)) := by
  unfold decompress
  repeat' first
    | with_reducible exact hs
    | with_reducible refine State.jobNote_memOk _ _ _ ?_
    | with_reducible refine State.scramble_memOk _ _ _ ?_
    | with_reducible refine memOk_of_blank (State.jobTake_blank notMem_jobs _ _ _ _ (by assumption)) ?_
    | with_reducible refine memOk_of_ite (fun _ => ?_) (fun _ => ?_)
    | with_reducible refine memOk_of_fst_ite (fun _ => ?_) (fun _ => ?_)
    | simp only [↓State.jobResult_blank, ↓State.count_blank, notMem_freeUse, notMem_regs, notMem_hearth, notMem_jobs, implies_true]
    | split

theorem globalQuench_memOk  (s : State) (hs : State.memOk (State.blank notMem s)) : State.memOk (State.blank notMem (globalQuench s)) := by
  unfold globalQuench
  repeat' first
    | with_reducible exact hs
    | with_reducible refine State.quenchGlobal_memOk _ ?_
    | with_reducible refine memOk_of_ite (fun _ => ?_) (fun _ => ?_)
    | with_reducible refine memOk_of_fst_ite (fun _ => ?_) (fun _ => ?_)
    | simp only [notMem_out, notMem_freeUse, notMem_fns, notMem_regs, notMem_tb, notMem_rx, notMem_tiles, notMem_mirLanes, notMem_order, notMem_queues, notMem_bellows, notMem_engines, notMem_tdc, notMem_bgs, notMem_field, notMem_hearth, notMem_trig, notMem_staging, notMem_comps, notMem_jobs, notMem_pair, notMem_host, notMem_ptp, implies_true]
    | split

theorem fncmd_memOk  (src : Src) (s : State) (hs : State.memOk (State.blank notMem s)) : State.memOk (State.blank notMem (fncmd src s)) := by
  unfold fncmd
  repeat' first
    | with_reducible exact hs
    | with_reducible refine State.fnCmdWrite_memOk _ _ ?_
    | with_reducible refine State.serve_memOk _ _ _ _ (fun c hs => ?_) ?_
    | with_reducible refine memOk_of_ite (fun _ => ?_) (fun _ => ?_)
    | with_reducible refine memOk_of_fst_ite (fun _ => ?_) (fun _ => ?_)
    | simp only [↓State.reply_blank, notMem_out, notMem_freeUse, notMem_fns, notMem_regs, notMem_tb, notMem_rx, notMem_tiles, notMem_mirLanes, notMem_order, notMem_queues, notMem_bellows, notMem_engines, notMem_cores, notMem_tdc, notMem_bgs, notMem_field, notMem_hearth, notMem_trig, notMem_staging, notMem_comps, notMem_jobs, notMem_pair, notMem_host, notMem_ptp, implies_true]
    | split

theorem State.uncorrectable_memOk  (s : State) (a : Nat) (hs : State.memOk (State.blank notMem s)) : State.memOk (State.blank notMem (State.uncorrectable s a)) := by
  unfold State.uncorrectable
  repeat' first
    | with_reducible exact hs
    | with_reducible refine State.markStored_memOk _ _ _ ?_
    | with_reducible refine State.markData_memOk _ _ ?_
    | with_reducible refine memOk_of_ite (fun _ => ?_) (fun _ => ?_)
    | with_reducible refine memOk_of_fst_ite (fun _ => ?_) (fun _ => ?_)
    | simp only [↓State.logDev_blank, ↓State.countUE_blank, ↓State.putKeptBad_blank, notMem_regs, notMem_tb, notMem_hearth, notMem_keptBad, implies_true]
    | split

theorem scrubStep_memOk  (finding : ScrubFinding) (prog : Fin 65536) (s : State) (hs : State.memOk (State.blank notMem s)) : State.memOk (State.blank notMem (scrubStep finding prog s)) := by
  unfold scrubStep
  repeat' first
    | with_reducible exact hs
    | with_reducible refine State.uncorrectable_memOk _ _ ?_
    | with_reducible refine State.markStored_memOk _ _ _ ?_
    | with_reducible refine memOk_of_ite (fun _ => ?_) (fun _ => ?_)
    | with_reducible refine memOk_of_fst_ite (fun _ => ?_) (fun _ => ?_)
    | simp only [↓State.setReg_blank, ↓State.putBgs_blank, ↓State.countCE_blank, ↓State.logDev_blank, ↓State.count_blank, notMem_regs, notMem_tb, notMem_bgs, notMem_hearth, notMem_keptBad, implies_true]
    | split

theorem heartbeatTimeout_memOk  (s : State) (hs : State.memOk (State.blank notMem s)) : State.memOk (State.blank notMem (heartbeatTimeout s)) := by
  unfold heartbeatTimeout
  repeat' first
    | with_reducible exact hs
    | with_reducible refine State.ownServe_memOk _ ?_
    | with_reducible refine memOk_of_ite (fun _ => ?_) (fun _ => ?_)
    | with_reducible refine memOk_of_fst_ite (fun _ => ?_) (fun _ => ?_)
    | simp only [↓State.count_blank, ↓State.setRole_blank, ↓State.leaveFollow_blank, ↓State.onPair_blank, ↓State.logDev_blank, notMem_out, notMem_regs, notMem_tb, notMem_tdc, notMem_field, notMem_hearth, notMem_trig, notMem_pair, notMem_host, implies_true]
    | split

theorem extest_memOk  (cells : List Byte) (pins : List Byte) (s : State) (hs : State.memOk (State.blank notMem s)) : State.memOk (State.blank notMem (extest cells pins s)) := by
  unfold extest
  repeat' first
    | with_reducible exact hs
    | with_reducible refine State.tapHold_memOk _ _ ?_
    | with_reducible refine memOk_of_ite (fun _ => ?_) (fun _ => ?_)
    | with_reducible refine memOk_of_fst_ite (fun _ => ?_) (fun _ => ?_)
    | simp only [↓State.boundaryScan_blank, notMem_out, notMem_fns, notMem_regs, notMem_tb, notMem_rx, notMem_tiles, notMem_cmd, notMem_mirLanes, notMem_order, notMem_queues, notMem_bellows, notMem_engines, notMem_cores, notMem_postRecs, notMem_postSeq, notMem_slots, notMem_tdc, notMem_bgs, notMem_field, notMem_hearth, notMem_trig, notMem_staging, notMem_comps, notMem_jobs, notMem_pair, notMem_host, notMem_ptp, notMem_sys, notMem_tap, notMem_kept, notMem_keptBad, implies_true]
    | split

theorem readRange_memOk  (q : Fin 16) (desc : List Byte) (e : MemErrs) (s : State) (hs : State.memOk (State.blank notMem s)) : State.memOk (State.blank notMem (readRange q desc e s)) := by
  unfold readRange
  repeat' first
    | with_reducible exact hs
    | with_reducible refine State.noteErrs_memOk _ _ _ _ ?_
    | with_reducible refine memOk_of_blank (State.dmaTake_blank notMem_regs _ _ _ _ _ _ (by assumption)) ?_
    | with_reducible refine memOk_of_ite (fun _ => ?_) (fun _ => ?_)
    | with_reducible refine memOk_of_fst_ite (fun _ => ?_) (fun _ => ?_)
    | simp only [↓State.dmaBad_blank, ↓State.dmaResult_blank, ↓State.deliver_blank, notMem_out, notMem_regs, notMem_hearth, notMem_host, implies_true]
    | split

theorem State.hrtFlushDone_memOk  (s : State) (hs : State.memOk (State.blank notMem s)) : State.memOk (State.blank notMem (State.hrtFlushDone s)) := by
  unfold State.hrtFlushDone
  repeat' first
    | with_reducible exact hs
    | with_reducible refine State.closeFrames_memOk _ _ _ ?_
    | with_reducible refine State.closeRecord_memOk _ _ _ _ _ ?_
    | with_reducible refine memOk_of_ite (fun _ => ?_) (fun _ => ?_)
    | with_reducible refine memOk_of_fst_ite (fun _ => ?_) (fun _ => ?_)
    | simp only [State.onH_blank, ↓State.disarmSegment_blank, ↓State.setBit_blank, notMem_out, notMem_regs, notMem_tb, notMem_hearth, notMem_trig, notMem_pair, notMem_host, implies_true]
    | split
    | (with_reducible refine memOk_of_blank (State.onH_blank notMem_hearth _ _ ?_) ?_) <;> first | with_reducible rfl | rfl | skip

theorem State.coreFault_memOk  (s : State) (c : Nat) (cause : Nat) (hs : State.memOk (State.blank notMem s)) : State.memOk (State.blank notMem (State.coreFault s c cause)) := by
  unfold State.coreFault
  repeat' first
    | with_reducible exact hs
    | with_reducible refine State.deviceReset_memOk _ ?_
    | with_reducible refine memOk_of_ite (fun _ => ?_) (fun _ => ?_)
    | with_reducible refine memOk_of_fst_ite (fun _ => ?_) (fun _ => ?_)
    | simp only [↓State.onCore_blank, ↓State.putBgs_blank, ↓State.serviceEnd_blank, ↓State.faultFn_blank, ↓State.logDev_blank, ↓State.log_blank, notMem_out, notMem_fns, notMem_regs, notMem_tb, notMem_rx, notMem_tiles, notMem_cmd, notMem_mirLanes, notMem_order, notMem_queues, notMem_bellows, notMem_engines, notMem_cores, notMem_postRecs, notMem_postSeq, notMem_slots, notMem_tdc, notMem_bgs, notMem_field, notMem_hearth, notMem_trig, notMem_staging, notMem_comps, notMem_jobs, notMem_pair, notMem_host, notMem_ptp, notMem_sys, notMem_kept, notMem_keptBad, implies_true]
    | split

theorem State.coreBundle_memOk  (s : State) (c : Fin 4) (badFetch : Bool) (badData : Bool) (hs : State.memOk (State.blank notMem s)) : State.memOk (State.blank notMem (State.coreBundle s c badFetch badData)) := by
  unfold State.coreBundle
  repeat' first
    | with_reducible exact hs
    | with_reducible refine State.coreFault_memOk _ _ _ ?_
    | with_reducible refine memOk_of_ite (fun _ => ?_) (fun _ => ?_)
    | with_reducible refine memOk_of_fst_ite (fun _ => ?_) (fun _ => ?_)
    | simp only [↓State.coreEffect_blank, ↓State.onCore_blank, notMem_out, notMem_fns, notMem_regs, notMem_tb, notMem_rx, notMem_tiles, notMem_cmd, notMem_mirLanes, notMem_order, notMem_queues, notMem_bellows, notMem_engines, notMem_cores, notMem_postRecs, notMem_postSeq, notMem_slots, notMem_tdc, notMem_bgs, notMem_field, notMem_hearth, notMem_trig, notMem_staging, notMem_comps, notMem_jobs, notMem_pair, notMem_host, notMem_ptp, notMem_sys, notMem_kept, notMem_keptBad, implies_true]
    | split

theorem bundleIssue_memOk  (p : ProcId) (ecc : LsEcc) (s : State) (hs : State.memOk (State.blank notMem s)) : State.memOk (State.blank notMem (bundleIssue p ecc s)) := by
  unfold bundleIssue
  repeat' first
    | with_reducible exact hs
    | with_reducible refine State.coreBundle_memOk _ _ _ _ ?_
    | with_reducible refine memOk_of_ite (fun _ => ?_) (fun _ => ?_)
    | with_reducible refine memOk_of_fst_ite (fun _ => ?_) (fun _ => ?_)
    | simp only [↓State.count_blank, ↓State.engineBundle_blank, notMem_out, notMem_freeUse, notMem_fns, notMem_regs, notMem_tb, notMem_rx, notMem_tiles, notMem_cmd, notMem_mirLanes, notMem_order, notMem_queues, notMem_bellows, notMem_engines, notMem_cores, notMem_postRecs, notMem_postSeq, notMem_slots, notMem_tdc, notMem_bgs, notMem_field, notMem_hearth, notMem_trig, notMem_staging, notMem_comps, notMem_jobs, notMem_pair, notMem_host, notMem_ptp, notMem_sys, notMem_kept, notMem_keptBad, implies_true]
    | split

theorem blockVerifyDone_memOk  (k : Fin 12) (bad : Bool) (s : State) (hs : State.memOk (State.blank notMem s)) : State.memOk (State.blank notMem (blockVerifyDone k bad s)) := by
  unfold blockVerifyDone
  repeat' first
    | with_reducible exact hs
    | with_reducible refine State.markFrame_memOk _ _ _ _ _ ?_
    | with_reducible refine memOk_of_ite (fun _ => ?_) (fun _ => ?_)
    | with_reducible refine memOk_of_fst_ite (fun _ => ?_) (fun _ => ?_)
    | simp only [↓State.onComp_blank, ↓State.logDev_blank, ↓State.count_blank, notMem_regs, notMem_tb, notMem_hearth, notMem_comps, implies_true]
    | split

theorem cmpStopTimeout_memOk  (s : State) (hs : State.memOk (State.blank notMem s)) : State.memOk (State.blank notMem (cmpStopTimeout s)) := by
  unfold cmpStopTimeout
  repeat' first
    | with_reducible exact hs
    | with_reducible refine State.cmpDiscard_memOk _ ?_
    | with_reducible refine memOk_of_ite (fun _ => ?_) (fun _ => ?_)
    | with_reducible refine memOk_of_fst_ite (fun _ => ?_) (fun _ => ?_)
    | simp only [notMem_out, notMem_regs, notMem_tb, notMem_order, notMem_hearth, notMem_trig, notMem_staging, notMem_comps, notMem_pair, notMem_host, implies_true]
    | split

theorem decisionRx_memOk  (q : Nat) (d : Option Decision) (k : Option Nat) (s : State) (hs : State.memOk (State.blank notMem s)) : State.memOk (State.blank notMem (decisionRx q d k s)) := by
  unfold decisionRx
  repeat' first
    | with_reducible exact hs
    | with_reducible refine State.mirrorIn_memOk _ _ _ ?_
    | with_reducible refine memOk_of_ite (fun _ => ?_) (fun _ => ?_)
    | with_reducible refine memOk_of_fst_ite (fun _ => ?_) (fun _ => ?_)
    | simp only [notMem_out, notMem_freeUse, notMem_fns, notMem_regs, notMem_tb, notMem_rx, notMem_tiles, notMem_mirLanes, notMem_order, notMem_queues, notMem_bellows, notMem_engines, notMem_cores, notMem_tdc, notMem_bgs, notMem_field, notMem_hearth, notMem_trig, notMem_staging, notMem_comps, notMem_jobs, notMem_pair, notMem_host, notMem_ptp, notMem_kept, notMem_keptBad, implies_true]
    | split

theorem State.abortSegment_memOk  (s : State) (quench : Bool) (hs : State.memOk (State.blank notMem s)) : State.memOk (State.blank notMem (State.abortSegment s quench)) := by
  unfold State.abortSegment
  repeat' first
    | with_reducible exact hs
    | with_reducible refine State.closeRecord_memOk _ _ _ _ _ ?_
    | with_reducible refine memOk_of_ite (fun _ => ?_) (fun _ => ?_)
    | with_reducible refine memOk_of_fst_ite (fun _ => ?_) (fun _ => ?_)
    | simp only [↓State.disarmSegment_blank, ↓State.tellRecord_blank, ↓State.trigItem_blank, notMem_out, notMem_regs, notMem_hearth, notMem_trig, notMem_pair, notMem_host, implies_true]
    | split

theorem State.hrtStopped_memOk  (s : State) (hs : State.memOk (State.blank notMem s)) : State.memOk (State.blank notMem (State.hrtStopped s)) := by
  unfold State.hrtStopped
  repeat' first
    | with_reducible exact hs
    | with_reducible refine State.closeOpens_memOk _ _ ?_
    | with_reducible refine State.closeFrames_memOk _ _ _ ?_
    | with_reducible refine State.abortSegment_memOk _ _ ?_
    | with_reducible refine memOk_of_ite (fun _ => ?_) (fun _ => ?_)
    | with_reducible refine memOk_of_fst_ite (fun _ => ?_) (fun _ => ?_)
    | simp only [State.onH_blank, notMem_out, notMem_regs, notMem_tb, notMem_hearth, notMem_trig, notMem_pair, notMem_host, implies_true]
    | split
    | (with_reducible refine memOk_of_blank (State.onH_blank notMem_hearth _ _ ?_) ?_) <;> first | with_reducible rfl | rfl | skip

theorem State.evaluate_memOk  (s : State) (t : Stamp) (hs : State.memOk (State.blank notMem s)) : State.memOk (State.blank notMem (State.evaluate s t)) := by
  unfold State.evaluate
  repeat' first
    | with_reducible exact hs
    | with_reducible refine State.evalAll_memOk _ _ _ ?_
    | with_reducible refine State.each_memOk _ _ _ (fun t x hs => ?_) ?_
    | with_reducible refine memOk_of_ite (fun _ => ?_) (fun _ => ?_)
    | with_reducible refine memOk_of_fst_ite (fun _ => ?_) (fun _ => ?_)
    | simp only [↓State.onTrig_blank, ↓State.putPair_blank, ↓State.setReg_blank, ↓State.decMismatch_blank, ↓State.tellDecision_blank, notMem_out, notMem_regs, notMem_tb, notMem_tdc, notMem_field, notMem_hearth, notMem_trig, notMem_pair, notMem_host, implies_true]
    | split

theorem State.trgStopped_memOk  (s : State) (hs : State.memOk (State.blank notMem s)) : State.memOk (State.blank notMem (State.trgStopped s)) := by
  unfold State.trgStopped
  repeat' first
    | with_reducible exact hs
    | with_reducible refine State.evaluate_memOk _ _ ?_
    | with_reducible refine State.endSegment_memOk _ ?_
    | with_reducible refine memOk_of_ite (fun _ => ?_) (fun _ => ?_)
    | with_reducible refine memOk_of_fst_ite (fun _ => ?_) (fun _ => ?_)
    | simp only [↓State.dropPending_blank, ↓State.onTrig_blank, ↓State.outputsIdle_blank, notMem_out, notMem_regs, notMem_tb, notMem_tdc, notMem_field, notMem_hearth, notMem_trig, notMem_pair, notMem_host, implies_true]
    | split

theorem State.stoppedEffect_memOk  (s : State) (a1 : Fn) (hs : State.memOk (State.blank notMem s)) : State.memOk (State.blank notMem (State.stoppedEffect s a1)) := by
  unfold State.stoppedEffect
  repeat' first
    | with_reducible exact hs
    | with_reducible refine State.hrtStopped_memOk _ ?_
    | with_reducible refine State.trgStopped_memOk _ ?_
    | with_reducible refine State.auxStopped_memOk _ ?_
    | with_reducible refine memOk_of_ite (fun _ => ?_) (fun _ => ?_)
    | with_reducible refine memOk_of_fst_ite (fun _ => ?_) (fun _ => ?_)
    | simp only [↓State.lnkOff_blank, ↓State.pairStopped_blank, notMem_out, notMem_regs, notMem_tb, notMem_rx, notMem_mirLanes, notMem_order, notMem_queues, notMem_bellows, notMem_tdc, notMem_bgs, notMem_field, notMem_hearth, notMem_trig, notMem_pair, notMem_host, implies_true]
    | split

theorem stoppingComplete_memOk  (f : Fn) (s : State) (hs : State.memOk (State.blank notMem s)) : State.memOk (State.blank notMem (stoppingComplete f s)) := by
  unfold stoppingComplete
  repeat' first
    | with_reducible exact hs
    | with_reducible refine State.stoppedEffect_memOk _ _ ?_
    | with_reducible refine memOk_of_ite (fun _ => ?_) (fun _ => ?_)
    | with_reducible refine memOk_of_fst_ite (fun _ => ?_) (fun _ => ?_)
    | simp only [↓State.domainsOff_blank, ↓State.setFn_blank, notMem_out, notMem_fns, notMem_regs, notMem_tb, notMem_rx, notMem_mirLanes, notMem_order, notMem_queues, notMem_bellows, notMem_engines, notMem_tdc, notMem_bgs, notMem_field, notMem_hearth, notMem_trig, notMem_comps, notMem_pair, notMem_host, implies_true]
    | split

theorem tileFrameTimeout_memOk  (f : Fin 48) (n : Nat) (s : State) (hs : State.memOk (State.blank notMem s)) : State.memOk (State.blank notMem (tileFrameTimeout f n s)) := by
  unfold tileFrameTimeout
  repeat' first
    | with_reducible exact hs
    | with_reducible refine State.tfFlushed_memOk _ _ _ ?_
    | with_reducible refine State.settleFrames_memOk _ ?_
    | with_reducible refine State.tfClose_memOk _ _ _ ?_
    | with_reducible refine memOk_of_ite (fun _ => ?_) (fun _ => ?_)
    | with_reducible refine memOk_of_fst_ite (fun _ => ?_) (fun _ => ?_)
    | simp only [↓State.endBlock_blank, ↓State.count_blank, ↓State.onOpen_blank, notMem_out, notMem_regs, notMem_tb, notMem_hearth, notMem_trig, notMem_comps, notMem_pair, notMem_host, implies_true]
    | split

theorem quenchRx_memOk  (q : Nat) (t : Nat) (s : State) (hs : State.memOk (State.blank notMem s)) : State.memOk (State.blank notMem (quenchRx q t s)) := by
  unfold quenchRx
  repeat' first
    | with_reducible exact hs
    | with_reducible refine State.mirrorIn_memOk _ _ _ ?_
    | with_reducible refine memOk_of_ite (fun _ => ?_) (fun _ => ?_)
    | with_reducible refine memOk_of_fst_ite (fun _ => ?_) (fun _ => ?_)
    | simp only [notMem_out, notMem_freeUse, notMem_fns, notMem_regs, notMem_tb, notMem_rx, notMem_tiles, notMem_mirLanes, notMem_order, notMem_queues, notMem_bellows, notMem_engines, notMem_cores, notMem_tdc, notMem_bgs, notMem_field, notMem_hearth, notMem_trig, notMem_staging, notMem_comps, notMem_jobs, notMem_pair, notMem_host, notMem_ptp, notMem_kept, notMem_keptBad, implies_true]
    | split

theorem extestPulse_memOk  (cells : List Byte) (pins : List Byte) (s : State) (hs : State.memOk (State.blank notMem s)) : State.memOk (State.blank notMem (extestPulse cells pins s)) := by
  unfold extestPulse
  repeat' first
    | with_reducible exact hs
    | with_reducible refine State.tapHold_memOk _ _ ?_
    | with_reducible refine memOk_of_ite (fun _ => ?_) (fun _ => ?_)
    | with_reducible refine memOk_of_fst_ite (fun _ => ?_) (fun _ => ?_)
    | simp only [↓State.boundaryScan_blank, notMem_out, notMem_fns, notMem_regs, notMem_tb, notMem_rx, notMem_tiles, notMem_cmd, notMem_mirLanes, notMem_order, notMem_queues, notMem_bellows, notMem_engines, notMem_cores, notMem_postRecs, notMem_postSeq, notMem_slots, notMem_tdc, notMem_bgs, notMem_field, notMem_hearth, notMem_trig, notMem_staging, notMem_comps, notMem_jobs, notMem_pair, notMem_host, notMem_ptp, notMem_sys, notMem_tap, notMem_kept, notMem_keptBad, implies_true]
    | split

theorem fragmentEnterStream_memOk  (f : Fin 48) (s : State) (hs : State.memOk (State.blank notMem s)) : State.memOk (State.blank notMem (fragmentEnterStream f s)) := by
  unfold fragmentEnterStream
  repeat' first
    | with_reducible exact hs
    | with_reducible refine State.enterFragment_memOk _ _ _ ?_
    | with_reducible refine memOk_of_ite (fun _ => ?_) (fun _ => ?_)
    | with_reducible refine memOk_of_fst_ite (fun _ => ?_) (fun _ => ?_)
    | simp only [↓State.endBlock_blank, notMem_out, notMem_freeUse, notMem_regs, notMem_tb, notMem_order, notMem_hearth, notMem_trig, notMem_staging, notMem_comps, notMem_pair, notMem_host, implies_true]
    | split

theorem readDecoded_memOk  (q : Fin 16) (desc : List Byte) (e : MemErrs) (s : State) (hs : State.memOk (State.blank notMem s)) : State.memOk (State.blank notMem (readDecoded q desc e s)) := by
  unfold readDecoded
  repeat' first
    | with_reducible exact hs
    | with_reducible refine State.readFrames_memOk _ _ _ _ _ ?_
    | with_reducible refine memOk_of_blank (State.dmaTake_blank notMem_regs _ _ _ _ _ _ (by assumption)) ?_
    | with_reducible refine memOk_of_ite (fun _ => ?_) (fun _ => ?_)
    | with_reducible refine memOk_of_fst_ite (fun _ => ?_) (fun _ => ?_)
    | simp only [notMem_out, notMem_regs, notMem_hearth, notMem_host, implies_true]
    | split

theorem jobDone_memOk  (s : State) (hs : State.memOk (State.blank notMem s)) : State.memOk (State.blank notMem (jobDone s)) := by
  unfold jobDone
  repeat' first
    | with_reducible exact hs
    | with_reducible refine State.hostWrite_memOk _ _ _ ?_
    | with_reducible refine memOk_of_ite (fun _ => ?_) (fun _ => ?_)
    | with_reducible refine memOk_of_fst_ite (fun _ => ?_) (fun _ => ?_)
    | simp only [↓State.onJobs_blank, ↓State.jobEnd_blank, notMem_out, notMem_regs, notMem_hearth, notMem_jobs, notMem_host, implies_true]
    | split

theorem State.portStop_memOk  (s : State) (p : Nat) (hs : State.memOk (State.blank notMem s)) : State.memOk (State.blank notMem (State.portStop s p)) := by
  unfold State.portStop
  repeat' first
    | with_reducible exact hs
    | with_reducible refine State.dmaAbandon_memOk _ _ ?_
    | with_reducible refine State.each_memOk _ _ _ (fun t x hs => ?_) ?_
    | with_reducible refine memOk_of_ite (fun _ => ?_) (fun _ => ?_)
    | with_reducible refine memOk_of_fst_ite (fun _ => ?_) (fun _ => ?_)
    | simp only [↓State.setBit_blank, ↓State.onDma_blank, notMem_freeUse, notMem_regs, notMem_hearth, notMem_host, implies_true]
    | split

theorem recoveryReset_memOk  (s : State) (hs : State.memOk (State.blank notMem s)) : State.memOk (State.blank notMem (recoveryReset s)) := by
  unfold recoveryReset
  repeat' first
    | with_reducible exact hs
    | with_reducible refine State.deviceReset_memOk _ ?_
    | with_reducible refine memOk_of_ite (fun _ => ?_) (fun _ => ?_)
    | with_reducible refine memOk_of_fst_ite (fun _ => ?_) (fun _ => ?_)
    | simp only [↓State.recReply_blank, notMem_out, notMem_fns, notMem_regs, notMem_tb, notMem_rx, notMem_tiles, notMem_cmd, notMem_mirLanes, notMem_order, notMem_queues, notMem_bellows, notMem_engines, notMem_cores, notMem_postRecs, notMem_postSeq, notMem_slots, notMem_tdc, notMem_bgs, notMem_field, notMem_hearth, notMem_trig, notMem_staging, notMem_comps, notMem_jobs, notMem_pair, notMem_host, notMem_ptp, notMem_sys, notMem_kept, notMem_keptBad, implies_true]
    | split

theorem readFrame_memOk  (q : Fin 16) (desc : List Byte) (e : MemErrs) (s : State) (hs : State.memOk (State.blank notMem s)) : State.memOk (State.blank notMem (readFrame q desc e s)) := by
  unfold readFrame
  repeat' first
    | with_reducible exact hs
    | with_reducible refine State.readFrames_memOk _ _ _ _ _ ?_
    | with_reducible refine memOk_of_blank (State.dmaTake_blank notMem_regs _ _ _ _ _ _ (by assumption)) ?_
    | with_reducible refine memOk_of_ite (fun _ => ?_) (fun _ => ?_)
    | with_reducible refine memOk_of_fst_ite (fun _ => ?_) (fun _ => ?_)
    | simp only [notMem_out, notMem_regs, notMem_hearth, notMem_host, implies_true]
    | split

theorem quench_memOk  (f : Fn) (s : State) (hs : State.memOk (State.blank notMem s)) : State.memOk (State.blank notMem (quench f s)) := by
  unfold quench
  repeat' first
    | with_reducible exact hs
    | with_reducible refine State.fnCommand_memOk _ _ _ ?_
    | with_reducible refine memOk_of_ite (fun _ => ?_) (fun _ => ?_)
    | with_reducible refine memOk_of_fst_ite (fun _ => ?_) (fun _ => ?_)
    | simp only [notMem_out, notMem_freeUse, notMem_fns, notMem_regs, notMem_tb, notMem_rx, notMem_tiles, notMem_mirLanes, notMem_order, notMem_queues, notMem_bellows, notMem_engines, notMem_cores, notMem_tdc, notMem_bgs, notMem_field, notMem_hearth, notMem_trig, notMem_staging, notMem_comps, notMem_jobs, notMem_pair, notMem_host, notMem_ptp, implies_true]
    | split

theorem spaceRx_memOk  (q : Nat) (n : Nat) (s : State) (hs : State.memOk (State.blank notMem s)) : State.memOk (State.blank notMem (spaceRx q n s)) := by
  unfold spaceRx
  repeat' first
    | with_reducible exact hs
    | with_reducible refine State.mirrorIn_memOk _ _ _ ?_
    | with_reducible refine memOk_of_ite (fun _ => ?_) (fun _ => ?_)
    | with_reducible refine memOk_of_fst_ite (fun _ => ?_) (fun _ => ?_)
    | simp only [notMem_out, notMem_freeUse, notMem_fns, notMem_regs, notMem_tb, notMem_rx, notMem_tiles, notMem_mirLanes, notMem_order, notMem_queues, notMem_bellows, notMem_engines, notMem_cores, notMem_tdc, notMem_bgs, notMem_field, notMem_hearth, notMem_trig, notMem_staging, notMem_comps, notMem_jobs, notMem_pair, notMem_host, notMem_ptp, notMem_kept, notMem_keptBad, implies_true]
    | split

theorem writeRange_memOk  (q : Fin 16) (desc : List Byte) (data : List Byte) (s : State) (hs : State.memOk (State.blank notMem s)) : State.memOk (State.blank notMem (writeRange q desc data s)) := by
  unfold writeRange
  repeat' first
    | with_reducible exact hs
    | with_reducible refine State.hostWrite_memOk _ _ _ ?_
    | with_reducible refine memOk_of_blank (State.dmaTake_blank notMem_regs _ _ _ _ _ _ (by assumption)) ?_
    | with_reducible refine memOk_of_ite (fun _ => ?_) (fun _ => ?_)
    | with_reducible refine memOk_of_fst_ite (fun _ => ?_) (fun _ => ?_)
    | simp only [↓State.dmaBad_blank, ↓State.emit_blank, ↓State.dmaResult_blank, notMem_out, notMem_regs, notMem_hearth, notMem_host, implies_true]
    | split

theorem bypassDispatch_memOk  (l : Fin 96) (ecc : QueueEcc) (s : State) (hs : State.memOk (State.blank notMem s)) : State.memOk (State.blank notMem (bypassDispatch l ecc s)) := by
  unfold bypassDispatch
  repeat' first
    | with_reducible exact hs
    | with_reducible refine State.slagDelivered_memOk _ _ _ ?_
    | with_reducible refine memOk_of_ite (fun _ => ?_) (fun _ => ?_)
    | with_reducible refine memOk_of_fst_ite (fun _ => ?_) (fun _ => ?_)
    | simp only [↓State.passLeft_blank, ↓State.readFront_blank, ↓State.stageBypass_blank, ↓State.count_blank, notMem_regs, notMem_tb, notMem_order, notMem_queues, notMem_bellows, notMem_engines, notMem_bgs, notMem_hearth, notMem_staging, implies_true]
    | split

theorem telemetryRecord_memOk  (x : Sensors) (s : State) (hs : State.memOk (State.blank notMem s)) : State.memOk (State.blank notMem (telemetryRecord x s)) := by
  unfold telemetryRecord
  repeat' first
    | with_reducible exact hs
    | with_reducible refine State.hwrite_memOk _ _ _ ?_
    | with_reducible refine memOk_of_ite (fun _ => ?_) (fun _ => ?_)
    | with_reducible refine memOk_of_fst_ite (fun _ => ?_) (fun _ => ?_)
    | simp only [↓State.updateAlarms_blank, ↓State.ranAt_blank, ↓State.putBgs_blank, ↓State.setReg_blank, notMem_regs, notMem_tb, notMem_bgs, implies_true]
    | split

theorem resetNAssert_memOk  (s : State) (hs : State.memOk (State.blank notMem s)) : State.memOk (State.blank notMem (resetNAssert s)) := by
  unfold resetNAssert
  repeat' first
    | with_reducible exact hs
    | with_reducible refine State.deviceReset_memOk _ ?_
    | with_reducible refine memOk_of_ite (fun _ => ?_) (fun _ => ?_)
    | with_reducible refine memOk_of_fst_ite (fun _ => ?_) (fun _ => ?_)
    | simp only [↓State.onTap_blank, notMem_out, notMem_fns, notMem_regs, notMem_tb, notMem_rx, notMem_tiles, notMem_cmd, notMem_mirLanes, notMem_order, notMem_queues, notMem_bellows, notMem_engines, notMem_cores, notMem_postRecs, notMem_postSeq, notMem_slots, notMem_tdc, notMem_bgs, notMem_field, notMem_hearth, notMem_trig, notMem_staging, notMem_comps, notMem_jobs, notMem_pair, notMem_host, notMem_ptp, notMem_sys, notMem_tap, notMem_kept, notMem_keptBad, implies_true]
    | split

theorem quenchSlotWritesDone_memOk  (s : State) (hs : State.memOk (State.blank notMem s)) : State.memOk (State.blank notMem (quenchSlotWritesDone s)) := by
  unfold quenchSlotWritesDone
  repeat' first
    | with_reducible exact hs
    | with_reducible refine State.hrtFlushDone_memOk _ ?_
    | with_reducible refine memOk_of_ite (fun _ => ?_) (fun _ => ?_)
    | with_reducible refine memOk_of_fst_ite (fun _ => ?_) (fun _ => ?_)
    | simp only [notMem_out, notMem_regs, notMem_tb, notMem_hearth, notMem_trig, notMem_pair, notMem_host, implies_true]
    | split

theorem triggerEvaluation_memOk  (t : Stamp) (s : State) (hs : State.memOk (State.blank notMem s)) : State.memOk (State.blank notMem (triggerEvaluation t s)) := by
  unfold triggerEvaluation
  repeat' first
    | with_reducible exact hs
    | with_reducible refine State.evaluate_memOk _ _ ?_
    | with_reducible refine memOk_of_ite (fun _ => ?_) (fun _ => ?_)
    | with_reducible refine memOk_of_fst_ite (fun _ => ?_) (fun _ => ?_)
    | simp only [↓State.checkStrobes_blank, notMem_out, notMem_regs, notMem_tb, notMem_tdc, notMem_field, notMem_hearth, notMem_trig, notMem_pair, notMem_host, implies_true]
    | split

theorem start_memOk  (f : Fn) (s : State) (hs : State.memOk (State.blank notMem s)) : State.memOk (State.blank notMem (start f s)) := by
  unfold start
  repeat' first
    | with_reducible exact hs
    | with_reducible refine State.fnCommand_memOk _ _ _ ?_
    | with_reducible refine memOk_of_ite (fun _ => ?_) (fun _ => ?_)
    | with_reducible refine memOk_of_fst_ite (fun _ => ?_) (fun _ => ?_)
    | simp only [notMem_out, notMem_freeUse, notMem_fns, notMem_regs, notMem_tb, notMem_rx, notMem_tiles, notMem_mirLanes, notMem_order, notMem_queues, notMem_bellows, notMem_engines, notMem_cores, notMem_tdc, notMem_bgs, notMem_field, notMem_hearth, notMem_trig, notMem_staging, notMem_comps, notMem_jobs, notMem_pair, notMem_host, notMem_ptp, implies_true]
    | split

theorem mirrorMessageBad_memOk  (q : Nat) (type : Nat) (s : State) (hs : State.memOk (State.blank notMem s)) : State.memOk (State.blank notMem (mirrorMessageBad q type s)) := by
  unfold mirrorMessageBad
  repeat' first
    | with_reducible exact hs
    | with_reducible refine State.askResync_memOk _ ?_
    | with_reducible refine State.mirrorIn_memOk _ _ _ ?_
    | with_reducible refine memOk_of_ite (fun _ => ?_) (fun _ => ?_)
    | with_reducible refine memOk_of_fst_ite (fun _ => ?_) (fun _ => ?_)
    | simp only [↓State.count_blank, notMem_out, notMem_freeUse, notMem_fns, notMem_regs, notMem_tb, notMem_rx, notMem_tiles, notMem_mirLanes, notMem_order, notMem_queues, notMem_bellows, notMem_engines, notMem_cores, notMem_tdc, notMem_bgs, notMem_field, notMem_hearth, notMem_trig, notMem_staging, notMem_comps, notMem_jobs, notMem_pair, notMem_host, notMem_ptp, notMem_kept, notMem_keptBad, implies_true]
    | split

theorem forwardRx_memOk  (q : Nat) (c : ForwardCmd) (s : State) (hs : State.memOk (State.blank notMem s)) : State.memOk (State.blank notMem (forwardRx q c s)) := by
  unfold forwardRx
  repeat' first
    | with_reducible exact hs
    | with_reducible refine State.mirrorIn_memOk _ _ _ ?_
    | with_reducible refine memOk_of_ite (fun _ => ?_) (fun _ => ?_)
    | with_reducible refine memOk_of_fst_ite (fun _ => ?_) (fun _ => ?_)
    | simp only [notMem_out, notMem_freeUse, notMem_fns, notMem_regs, notMem_tb, notMem_rx, notMem_tiles, notMem_mirLanes, notMem_order, notMem_queues, notMem_bellows, notMem_engines, notMem_cores, notMem_tdc, notMem_bgs, notMem_field, notMem_hearth, notMem_trig, notMem_staging, notMem_comps, notMem_jobs, notMem_pair, notMem_host, notMem_ptp, notMem_kept, notMem_keptBad, implies_true]
    | split

theorem handoverRx_memOk  (q : Nat) (h : Nat) (n : Nat) (test : Bool) (s : State) (hs : State.memOk (State.blank notMem s)) : State.memOk (State.blank notMem (handoverRx q h n test s)) := by
  unfold handoverRx
  repeat' first
    | with_reducible exact hs
    | with_reducible refine State.mirrorIn_memOk _ _ _ ?_
    | with_reducible refine memOk_of_ite (fun _ => ?_) (fun _ => ?_)
    | with_reducible refine memOk_of_fst_ite (fun _ => ?_) (fun _ => ?_)
    | simp only [notMem_out, notMem_freeUse, notMem_fns, notMem_regs, notMem_tb, notMem_rx, notMem_tiles, notMem_mirLanes, notMem_order, notMem_queues, notMem_bellows, notMem_engines, notMem_cores, notMem_tdc, notMem_bgs, notMem_field, notMem_hearth, notMem_trig, notMem_staging, notMem_comps, notMem_jobs, notMem_pair, notMem_host, notMem_ptp, notMem_kept, notMem_keptBad, implies_true]
    | split

theorem disarm_memOk  (src : Src) (s : State) (hs : State.memOk (State.blank notMem s)) : State.memOk (State.blank notMem (disarm src s)) := by
  unfold disarm
  repeat' first
    | with_reducible exact hs
    | with_reducible refine State.disarmAll_memOk _ ?_
    | with_reducible refine State.serve_memOk _ _ _ _ (fun c hs => ?_) ?_
    | with_reducible refine memOk_of_ite (fun _ => ?_) (fun _ => ?_)
    | with_reducible refine memOk_of_fst_ite (fun _ => ?_) (fun _ => ?_)
    | simp only [↓State.reply_blank, notMem_out, notMem_regs, notMem_tb, notMem_cores, notMem_hearth, notMem_trig, notMem_pair, notMem_host, implies_true]
    | split

theorem regWrite_memOk  (src : Src) (ho : Nat × Nat) (s : State) (hs : State.memOk (State.blank notMem s)) : State.memOk (State.blank notMem (regWrite src ho s)) := by
  unfold regWrite
  repeat' first
    | with_reducible exact hs
    | with_reducible refine State.busWrite_memOk _ _ _ _ _ ?_
    | with_reducible refine State.serve_memOk _ _ _ _ (fun c hs => ?_) ?_
    | with_reducible refine memOk_of_ite (fun _ => ?_) (fun _ => ?_)
    | with_reducible refine memOk_of_fst_ite (fun _ => ?_) (fun _ => ?_)
    | simp only [↓State.reply_blank, notMem_out, notMem_freeUse, notMem_fns, notMem_regs, notMem_tb, notMem_rx, notMem_tiles, notMem_cmd, notMem_mirLanes, notMem_order, notMem_queues, notMem_bellows, notMem_engines, notMem_cores, notMem_tdc, notMem_bgs, notMem_field, notMem_hearth, notMem_trig, notMem_staging, notMem_comps, notMem_jobs, notMem_pair, notMem_host, notMem_ptp, notMem_nvs, notMem_sys, implies_true]
    | split

theorem mboxQuench_memOk  (src : Src) (s : State) (hs : State.memOk (State.blank notMem s)) : State.memOk (State.blank notMem (mboxQuench src s)) := by
  unfold mboxQuench
  repeat' first
    | with_reducible exact hs
    | with_reducible refine State.quenchGlobal_memOk _ ?_
    | with_reducible refine memOk_of_ite (fun _ => ?_) (fun _ => ?_)
    | with_reducible refine memOk_of_fst_ite (fun _ => ?_) (fun _ => ?_)
    | simp only [↓State.reply_blank, notMem_out, notMem_freeUse, notMem_fns, notMem_regs, notMem_tb, notMem_rx, notMem_tiles, notMem_mirLanes, notMem_order, notMem_queues, notMem_bellows, notMem_engines, notMem_cores, notMem_tdc, notMem_bgs, notMem_field, notMem_hearth, notMem_trig, notMem_staging, notMem_comps, notMem_jobs, notMem_pair, notMem_host, notMem_ptp, implies_true]
    | split

theorem digestRx_memOk  (q : Nat) (frame : Nat) (value : Nat) (s : State) (hs : State.memOk (State.blank notMem s)) : State.memOk (State.blank notMem (digestRx q frame value s)) := by
  unfold digestRx
  repeat' first
    | with_reducible exact hs
    | with_reducible refine State.mirrorIn_memOk _ _ _ ?_
    | with_reducible refine memOk_of_ite (fun _ => ?_) (fun _ => ?_)
    | with_reducible refine memOk_of_fst_ite (fun _ => ?_) (fun _ => ?_)
    | simp only [notMem_out, notMem_freeUse, notMem_fns, notMem_regs, notMem_tb, notMem_rx, notMem_tiles, notMem_mirLanes, notMem_order, notMem_queues, notMem_bellows, notMem_engines, notMem_cores, notMem_tdc, notMem_bgs, notMem_field, notMem_hearth, notMem_trig, notMem_staging, notMem_comps, notMem_jobs, notMem_pair, notMem_host, notMem_ptp, notMem_kept, notMem_keptBad, implies_true]
    | split

theorem stepApply_memOk  (s : State) (hs : State.memOk (State.blank notMem s)) : State.memOk (State.blank notMem (stepApply s)) := by
  unfold stepApply
  repeat' first
    | with_reducible exact hs
    | with_reducible refine State.evaluate_memOk _ _ ?_
    | with_reducible refine memOk_of_ite (fun _ => ?_) (fun _ => ?_)
    | with_reducible refine memOk_of_fst_ite (fun _ => ?_) (fun _ => ?_)
    | simp only [↓State.tdcStep_blank, ↓State.dropPending_blank, ↓State.moveTime_blank, ↓State.mirrorSend_blank, ↓State.onTrig_blank, ↓State.moveFrames_blank, ↓State.shiftRaw_blank, ↓State.tdcEpoch_blank, ↓State.srcEdge_blank, notMem_out, notMem_regs, notMem_tb, notMem_queues, notMem_tdc, notMem_field, notMem_hearth, notMem_trig, notMem_pair, notMem_host, notMem_ptp, implies_true]
    | split

theorem fdigestRx_memOk  (q : Nat) (tile : Fin 48) (frame : Nat) (value : Nat) (s : State) (hs : State.memOk (State.blank notMem s)) : State.memOk (State.blank notMem (fdigestRx q tile frame value s)) := by
  unfold fdigestRx
  repeat' first
    | with_reducible exact hs
    | with_reducible refine State.mirrorIn_memOk _ _ _ ?_
    | with_reducible refine memOk_of_ite (fun _ => ?_) (fun _ => ?_)
    | with_reducible refine memOk_of_fst_ite (fun _ => ?_) (fun _ => ?_)
    | simp only [notMem_out, notMem_freeUse, notMem_fns, notMem_regs, notMem_tb, notMem_rx, notMem_tiles, notMem_mirLanes, notMem_order, notMem_queues, notMem_bellows, notMem_engines, notMem_cores, notMem_tdc, notMem_bgs, notMem_field, notMem_hearth, notMem_trig, notMem_staging, notMem_comps, notMem_jobs, notMem_pair, notMem_host, notMem_ptp, notMem_kept, notMem_keptBad, implies_true]
    | split

theorem apertureRead_memOk  (p : Fin 2) (o : Nat) (n : Nat) (e : MemErrs) (s : State) (hs : State.memOk (State.blank notMem s)) : State.memOk (State.blank notMem (apertureRead p o n e s)) := by
  unfold apertureRead
  repeat' first
    | with_reducible exact hs
    | with_reducible refine State.noteErrs_memOk _ _ _ _ ?_
    | with_reducible refine memOk_of_ite (fun _ => ?_) (fun _ => ?_)
    | with_reducible refine memOk_of_fst_ite (fun _ => ?_) (fun _ => ?_)
    | simp only [↓State.emit_blank, ↓State.count_blank, notMem_out, notMem_regs, notMem_hearth, implies_true]
    | split

theorem updateCommitReset_memOk  (src : Src) (fail : Bool) (s : State) (hs : State.memOk (State.blank notMem s)) : State.memOk (State.blank notMem (updateCommitReset src fail s)) := by
  unfold updateCommitReset
  repeat' first
    | with_reducible exact hs
    | with_reducible refine State.deviceReset_memOk _ ?_
    | with_reducible refine State.serve_memOk _ _ _ _ (fun c hs => ?_) ?_
    | with_reducible refine memOk_of_ite (fun _ => ?_) (fun _ => ?_)
    | with_reducible refine memOk_of_fst_ite (fun _ => ?_) (fun _ => ?_)
    | simp only [↓State.reply_blank, ↓State.beginCommit_blank, ↓State.commit_blank, ↓State.passOn_blank, notMem_out, notMem_fns, notMem_regs, notMem_tb, notMem_rx, notMem_tiles, notMem_cmd, notMem_mirLanes, notMem_order, notMem_queues, notMem_bellows, notMem_engines, notMem_cores, notMem_postRecs, notMem_postSeq, notMem_slots, notMem_tdc, notMem_bgs, notMem_field, notMem_hearth, notMem_trig, notMem_staging, notMem_comps, notMem_jobs, notMem_pair, notMem_host, notMem_ptp, notMem_nvs, notMem_sys, notMem_kept, notMem_keptBad, implies_true]
    | split

theorem apertureWrite_memOk  (p : Fin 2) (o : Nat) (data : List Byte) (s : State) (hs : State.memOk (State.blank notMem s)) : State.memOk (State.blank notMem (apertureWrite p o data s)) := by
  unfold apertureWrite
  repeat' first
    | with_reducible exact hs
    | with_reducible refine State.hostWrite_memOk _ _ _ ?_
    | with_reducible refine memOk_of_ite (fun _ => ?_) (fun _ => ?_)
    | with_reducible refine memOk_of_fst_ite (fun _ => ?_) (fun _ => ?_)
    | simp only [↓State.count_blank, notMem_regs, notMem_hearth, implies_true]
    | split

theorem State.armDone_memOk  (s : State) (seg : Nat) (hs : State.memOk (State.blank notMem s)) : State.memOk (State.blank notMem (State.armDone s seg)) := by
  unfold State.armDone
  repeat' first
    | with_reducible exact hs
    | with_reducible refine State.armNow_memOk _ _ _ _ ?_
    | with_reducible refine memOk_of_ite (fun _ => ?_) (fun _ => ?_)
    | with_reducible refine memOk_of_fst_ite (fun _ => ?_) (fun _ => ?_)
    | simp only [↓State.armResets_blank, ↓State.seqStart_blank, ↓State.onTrig_blank, notMem_out, notMem_regs, notMem_tb, notMem_field, notMem_hearth, notMem_trig, notMem_comps, notMem_jobs, notMem_pair, implies_true]
    | split

theorem arm_memOk  (src : Src) (meas : List (Nat × Nat)) (partner : ArmCheck) (s : State) (hs : State.memOk (State.blank notMem s)) : State.memOk (State.blank notMem (arm src meas partner s)) := by
  unfold arm
  repeat' first
    | with_reducible exact hs
    | with_reducible refine State.armDone_memOk _ _ ?_
    | with_reducible refine State.serve_memOk _ _ _ _ (fun c hs => ?_) ?_
    | with_reducible refine memOk_of_ite (fun _ => ?_) (fun _ => ?_)
    | with_reducible refine memOk_of_fst_ite (fun _ => ?_) (fun _ => ?_)
    | simp only [↓State.reply_blank, ↓State.wakeHeld_blank, ↓State.paceWake_blank, ↓State.logPace_blank, notMem_out, notMem_regs, notMem_tb, notMem_cores, notMem_bgs, notMem_field, notMem_hearth, notMem_trig, notMem_comps, notMem_jobs, notMem_pair, notMem_host, implies_true]
    | split

theorem functionLevelReset_memOk  (p : Fin 2) (s : State) (hs : State.memOk (State.blank notMem s)) : State.memOk (State.blank notMem (functionLevelReset p s)) := by
  unfold functionLevelReset
  repeat' first
    | with_reducible exact hs
    | with_reducible refine State.portStop_memOk _ _ ?_
    | with_reducible refine memOk_of_ite (fun _ => ?_) (fun _ => ?_)
    | with_reducible refine memOk_of_fst_ite (fun _ => ?_) (fun _ => ?_)
    | simp only [↓State.endCommand_blank, ↓State.putHost_blank, notMem_out, notMem_freeUse, notMem_regs, notMem_cores, notMem_hearth, notMem_host, implies_true]
    | split

theorem stateRx_memOk  (q : Nat) (m : StateMsg) (s : State) (hs : State.memOk (State.blank notMem s)) : State.memOk (State.blank notMem (stateRx q m s)) := by
  unfold stateRx
  repeat' first
    | with_reducible exact hs
    | with_reducible refine State.mirrorIn_memOk _ _ _ ?_
    | with_reducible refine memOk_of_ite (fun _ => ?_) (fun _ => ?_)
    | with_reducible refine memOk_of_fst_ite (fun _ => ?_) (fun _ => ?_)
    | simp only [notMem_out, notMem_freeUse, notMem_fns, notMem_regs, notMem_tb, notMem_rx, notMem_tiles, notMem_mirLanes, notMem_order, notMem_queues, notMem_bellows, notMem_engines, notMem_cores, notMem_tdc, notMem_bgs, notMem_field, notMem_hearth, notMem_trig, notMem_staging, notMem_comps, notMem_jobs, notMem_pair, notMem_host, notMem_ptp, notMem_kept, notMem_keptBad, implies_true]
    | split

theorem updateBlock_memOk  (src : Src) (e : MemErrs) (s : State) (hs : State.memOk (State.blank notMem s)) : State.memOk (State.blank notMem (updateBlock src e s)) := by
  unfold updateBlock
  repeat' first
    | with_reducible exact hs
    | with_reducible refine State.noteErrs_memOk _ _ _ _ ?_
    | with_reducible refine State.serve_memOk _ _ _ _ (fun c hs => ?_) ?_
    | with_reducible refine memOk_of_ite (fun _ => ?_) (fun _ => ?_)
    | with_reducible refine memOk_of_fst_ite (fun _ => ?_) (fun _ => ?_)
    | simp only [↓State.reply_blank, ↓State.updPiece_blank, notMem_out, notMem_regs, notMem_tb, notMem_cores, notMem_hearth, notMem_host, notMem_sys, implies_true]
    | split

theorem usb4LinkDown_memOk  (p : Fin 2) (s : State) (hs : State.memOk (State.blank notMem s)) : State.memOk (State.blank notMem (usb4LinkDown p s)) := by
  unfold usb4LinkDown
  repeat' first
    | with_reducible exact hs
    | with_reducible refine State.portStop_memOk _ _ ?_
    | with_reducible refine memOk_of_ite (fun _ => ?_) (fun _ => ?_)
    | with_reducible refine memOk_of_fst_ite (fun _ => ?_) (fun _ => ?_)
    | simp only [↓State.setFld_blank, ↓State.setBit_blank, notMem_freeUse, notMem_regs, notMem_hearth, notMem_host, implies_true]
    | split

theorem logWindowClose_memOk  (e : Nat) (k : Nat) (s : State) (hs : State.memOk (State.blank notMem s)) : State.memOk (State.blank notMem (logWindowClose e k s)) := by
  unfold logWindowClose
  repeat' first
    | with_reducible exact hs
    | with_reducible refine State.closeWindow_memOk _ _ _ ?_
    | with_reducible refine State.closeWindows_memOk _ _ _ _ ?_
    | with_reducible refine memOk_of_ite (fun _ => ?_) (fun _ => ?_)
    | with_reducible refine memOk_of_fst_ite (fun _ => ?_) (fun _ => ?_)
    | simp only [↓State.putTb_blank, notMem_out, notMem_regs, notMem_tb, notMem_host, implies_true]
    | split

theorem clamp_memOk  (s : State) (hs : State.memOk (State.blank notMem s)) : State.memOk (State.blank notMem (clamp s)) := by
  unfold clamp
  repeat' first
    | with_reducible exact hs
    | with_reducible refine State.tapHold_memOk _ _ ?_
    | with_reducible refine memOk_of_ite (fun _ => ?_) (fun _ => ?_)
    | with_reducible refine memOk_of_fst_ite (fun _ => ?_) (fun _ => ?_)
    | simp only [↓State.emit_blank, notMem_out, notMem_fns, notMem_regs, notMem_tb, notMem_rx, notMem_tiles, notMem_cmd, notMem_mirLanes, notMem_order, notMem_queues, notMem_bellows, notMem_engines, notMem_cores, notMem_postRecs, notMem_postSeq, notMem_slots, notMem_tdc, notMem_bgs, notMem_field, notMem_hearth, notMem_trig, notMem_staging, notMem_comps, notMem_jobs, notMem_pair, notMem_host, notMem_ptp, notMem_sys, notMem_tap, notMem_kept, notMem_keptBad, implies_true]
    | split

theorem anvStopTimeout_memOk  (s : State) (hs : State.memOk (State.blank notMem s)) : State.memOk (State.blank notMem (anvStopTimeout s)) := by
  unfold anvStopTimeout
  repeat' first
    | with_reducible exact hs
    | with_reducible refine State.anvQuench_memOk _ ?_
    | with_reducible refine memOk_of_ite (fun _ => ?_) (fun _ => ?_)
    | with_reducible refine memOk_of_fst_ite (fun _ => ?_) (fun _ => ?_)
    | simp only [notMem_tb, notMem_order, notMem_queues, notMem_engines, notMem_hearth, notMem_staging, implies_true]
    | split

theorem sampleRoute_memOk  (ecc : QueueEcc) (s : State) (hs : State.memOk (State.blank notMem s)) : State.memOk (State.blank notMem (sampleRoute ecc s)) := by
  unfold sampleRoute
  repeat' first
    | with_reducible exact hs
    | with_reducible refine State.routeFront_memOk _ _ ?_
    | with_reducible refine memOk_of_ite (fun _ => ?_) (fun _ => ?_)
    | with_reducible refine memOk_of_fst_ite (fun _ => ?_) (fun _ => ?_)
    | simp only [notMem_regs, notMem_tb, notMem_queues, notMem_bellows, notMem_bgs, notMem_field, notMem_trig, implies_true]
    | split

theorem digestTimeout_memOk  (s : State) (hs : State.memOk (State.blank notMem s)) : State.memOk (State.blank notMem (digestTimeout s)) := by
  unfold digestTimeout
  repeat' first
    | with_reducible exact hs
    | with_reducible refine State.diverge_memOk _ _ ?_
    | with_reducible refine memOk_of_ite (fun _ => ?_) (fun _ => ?_)
    | with_reducible refine memOk_of_fst_ite (fun _ => ?_) (fun _ => ?_)
    | simp only [↓State.onPair_blank, ↓State.logDivergent_blank, ↓State.uncompared_blank, notMem_regs, notMem_tb, notMem_hearth, notMem_pair, implies_true]
    | split

theorem stop_memOk  (f : Fn) (s : State) (hs : State.memOk (State.blank notMem s)) : State.memOk (State.blank notMem (stop f s)) := by
  unfold stop
  repeat' first
    | with_reducible exact hs
    | with_reducible refine State.fnCommand_memOk _ _ _ ?_
    | with_reducible refine memOk_of_ite (fun _ => ?_) (fun _ => ?_)
    | with_reducible refine memOk_of_fst_ite (fun _ => ?_) (fun _ => ?_)
    | simp only [notMem_out, notMem_freeUse, notMem_fns, notMem_regs, notMem_tb, notMem_rx, notMem_tiles, notMem_mirLanes, notMem_order, notMem_queues, notMem_bellows, notMem_engines, notMem_cores, notMem_tdc, notMem_bgs, notMem_field, notMem_hearth, notMem_trig, notMem_staging, notMem_comps, notMem_jobs, notMem_pair, notMem_host, notMem_ptp, implies_true]
    | split

theorem blockCommit_memOk  (k : Fin 12) (s : State) (hs : State.memOk (State.blank notMem s)) : State.memOk (State.blank notMem (blockCommit k s)) := by
  unfold blockCommit
  repeat' first
    | with_reducible exact hs
    | with_reducible refine State.commitBlock_memOk _ _ ?_
    | with_reducible refine memOk_of_ite (fun _ => ?_) (fun _ => ?_)
    | with_reducible refine memOk_of_fst_ite (fun _ => ?_) (fun _ => ?_)
    | simp only [notMem_out, notMem_regs, notMem_tb, notMem_hearth, notMem_trig, notMem_comps, notMem_pair, notMem_host, implies_true]
    | split

theorem loadRunImage_memOk  (src : Src) (e : MemErrs) (meas : List (Nat × Nat)) (s : State) (hs : State.memOk (State.blank notMem s)) : State.memOk (State.blank notMem (loadRunImage src e meas s)) := by
  unfold loadRunImage
  repeat' first
    | with_reducible exact hs
    | with_reducible refine State.noteErrs_memOk _ _ _ _ ?_
    | with_reducible refine State.serve_memOk _ _ _ _ (fun c hs => ?_) ?_
    | with_reducible refine memOk_of_ite (fun _ => ?_) (fun _ => ?_)
    | with_reducible refine memOk_of_fst_ite (fun _ => ?_) (fun _ => ?_)
    | simp only [↓State.reply_blank, ↓State.paceWake_blank, ↓State.loadImage_blank, ↓State.tellImage_blank, notMem_out, notMem_regs, notMem_tb, notMem_queues, notMem_bellows, notMem_engines, notMem_cores, notMem_bgs, notMem_hearth, notMem_trig, notMem_comps, notMem_pair, notMem_host, notMem_kept, notMem_keptBad, implies_true]
    | split

theorem resetRelease_memOk  (x : BootFacts) (s : State) (hs : State.memOk (State.blank notMem s)) : State.memOk (State.blank notMem (resetRelease x s)) := by
  unfold resetRelease
  repeat' first
    | with_reducible exact hs
    | with_reducible refine State.leaveReset_memOk _ _ ?_
    | with_reducible refine memOk_of_ite (fun _ => ?_) (fun _ => ?_)
    | with_reducible refine memOk_of_fst_ite (fun _ => ?_) (fun _ => ?_)
    | simp only [↓State.onTap_blank, notMem_out, notMem_fns, notMem_regs, notMem_tb, notMem_rx, notMem_tiles, notMem_cmd, notMem_mirLanes, notMem_queues, notMem_bellows, notMem_engines, notMem_cores, notMem_tdc, notMem_bgs, notMem_field, notMem_hearth, notMem_trig, notMem_staging, notMem_comps, notMem_pair, notMem_host, notMem_ptp, notMem_nvs, notMem_sys, notMem_tap, implies_true]
    | split

theorem tapReset_memOk  (x : BootFacts) (s : State) (hs : State.memOk (State.blank notMem s)) : State.memOk (State.blank notMem (tapReset x s)) := by
  unfold tapReset
  repeat' first
    | with_reducible exact hs
    | with_reducible refine State.tapIdle_memOk _ _ ?_
    | with_reducible refine memOk_of_ite (fun _ => ?_) (fun _ => ?_)
    | with_reducible refine memOk_of_fst_ite (fun _ => ?_) (fun _ => ?_)
    | simp only [notMem_out, notMem_fns, notMem_regs, notMem_tb, notMem_rx, notMem_tiles, notMem_cmd, notMem_mirLanes, notMem_queues, notMem_bellows, notMem_engines, notMem_cores, notMem_tdc, notMem_bgs, notMem_field, notMem_hearth, notMem_trig, notMem_staging, notMem_comps, notMem_pair, notMem_host, notMem_ptp, notMem_nvs, notMem_sys, notMem_tap, implies_true]
    | split

theorem tokenPost_memOk  (l : Fin 96) (ecc : QueueEcc) (s : State) (hs : State.memOk (State.blank notMem s)) : State.memOk (State.blank notMem (tokenPost l ecc s)) := by
  unfold tokenPost
  repeat' first
    | with_reducible exact hs
    | with_reducible refine State.slagDelivered_memOk _ _ _ ?_
    | with_reducible refine memOk_of_ite (fun _ => ?_) (fun _ => ?_)
    | with_reducible refine memOk_of_fst_ite (fun _ => ?_) (fun _ => ?_)
    | simp only [↓State.readFront_blank, ↓State.onEngine_blank, ↓State.paceCheck_blank, ↓State.count_blank, notMem_regs, notMem_tb, notMem_order, notMem_queues, notMem_bellows, notMem_engines, notMem_bgs, notMem_hearth, implies_true]
    | split

theorem compress_memOk  (bad : List Nat) (e : MemErrs) (s : State) (hs : State.memOk (State.blank notMem s)) : State.memOk (State.blank notMem (compress bad e s)) := by
  unfold compress
  repeat' first
    | with_reducible exact hs
    | with_reducible refine State.jobNote_memOk _ _ _ ?_
    | with_reducible refine State.scramble_memOk _ _ _ ?_
    | with_reducible refine memOk_of_blank (State.jobTake_blank notMem_jobs _ _ _ _ (by assumption)) ?_
    | with_reducible refine memOk_of_ite (fun _ => ?_) (fun _ => ?_)
    | with_reducible refine memOk_of_fst_ite (fun _ => ?_) (fun _ => ?_)
    | simp only [↓State.jobResult_blank, notMem_freeUse, notMem_regs, notMem_hearth, notMem_jobs, implies_true]
    | split

theorem dbgAccess_memOk  (w : BitVec 64) (ho : Nat × Nat) (ce : Bool) (s : State) (hs : State.memOk (State.blank notMem s)) : State.memOk (State.blank notMem (dbgAccess w ho ce s)) := by
  unfold dbgAccess
  repeat' first
    | with_reducible exact hs
    | with_reducible refine State.busWrite_memOk _ _ _ _ _ ?_
    | with_reducible refine memOk_of_ite (fun _ => ?_) (fun _ => ?_)
    | with_reducible refine memOk_of_fst_ite (fun _ => ?_) (fun _ => ?_)
    | simp only [↓State.loadIr_blank, ↓State.emit_blank, ↓State.onTap_blank, ↓State.afterRead_blank, notMem_out, notMem_freeUse, notMem_fns, notMem_regs, notMem_tb, notMem_rx, notMem_tiles, notMem_cmd, notMem_mirLanes, notMem_order, notMem_queues, notMem_bellows, notMem_engines, notMem_cores, notMem_tdc, notMem_bgs, notMem_field, notMem_hearth, notMem_trig, notMem_staging, notMem_comps, notMem_jobs, notMem_pair, notMem_host, notMem_ptp, notMem_nvs, notMem_sys, notMem_tap, implies_true]
    | split

theorem schedRx_memOk  (q : Nat) (n : Nat) (t : Nat) (s : State) (hs : State.memOk (State.blank notMem s)) : State.memOk (State.blank notMem (schedRx q n t s)) := by
  unfold schedRx
  repeat' first
    | with_reducible exact hs
    | with_reducible refine State.mirrorIn_memOk _ _ _ ?_
    | with_reducible refine memOk_of_ite (fun _ => ?_) (fun _ => ?_)
    | with_reducible refine memOk_of_fst_ite (fun _ => ?_) (fun _ => ?_)
    | simp only [notMem_out, notMem_freeUse, notMem_fns, notMem_regs, notMem_tb, notMem_rx, notMem_tiles, notMem_mirLanes, notMem_order, notMem_queues, notMem_bellows, notMem_engines, notMem_cores, notMem_tdc, notMem_bgs, notMem_field, notMem_hearth, notMem_trig, notMem_staging, notMem_comps, notMem_jobs, notMem_pair, notMem_host, notMem_ptp, notMem_kept, notMem_keptBad, implies_true]
    | split

theorem joinComplete_memOk  (s : State) (hs : State.memOk (State.blank notMem s)) : State.memOk (State.blank notMem (joinComplete s)) := by
  unfold joinComplete
  repeat' first
    | with_reducible exact hs
    | with_reducible refine State.armRing_memOk _ _ _ ?_
    | with_reducible refine memOk_of_ite (fun _ => ?_) (fun _ => ?_)
    | with_reducible refine memOk_of_fst_ite (fun _ => ?_) (fun _ => ?_)
    | simp only [↓State.followTime_blank, ↓State.setRole_blank, ↓State.onPair_blank, ↓State.logDev_blank, ↓State.uncompared_blank, ↓State.trigItem_blank, notMem_freeUse, notMem_regs, notMem_tb, notMem_field, notMem_hearth, notMem_trig, notMem_jobs, notMem_pair, implies_true]
    | split

theorem extestTrain_memOk  (cells : List Byte) (pins : List Byte) (s : State) (hs : State.memOk (State.blank notMem s)) : State.memOk (State.blank notMem (extestTrain cells pins s)) := by
  unfold extestTrain
  repeat' first
    | with_reducible exact hs
    | with_reducible refine State.tapHold_memOk _ _ ?_
    | with_reducible refine memOk_of_ite (fun _ => ?_) (fun _ => ?_)
    | with_reducible refine memOk_of_fst_ite (fun _ => ?_) (fun _ => ?_)
    | simp only [↓State.boundaryScan_blank, notMem_out, notMem_fns, notMem_regs, notMem_tb, notMem_rx, notMem_tiles, notMem_cmd, notMem_mirLanes, notMem_order, notMem_queues, notMem_bellows, notMem_engines, notMem_cores, notMem_postRecs, notMem_postSeq, notMem_slots, notMem_tdc, notMem_bgs, notMem_field, notMem_hearth, notMem_trig, notMem_staging, notMem_comps, notMem_jobs, notMem_pair, notMem_host, notMem_ptp, notMem_sys, notMem_tap, notMem_kept, notMem_keptBad, implies_true]
    | split

end Sys2Proof.Machine
end

