-- ==== Sys2Proof/Laws/State.lean ====
section
/-!
SUPPORT. One part of the state replaced (Ops.lean): what each field reads afterwards, one lemma per field and part.
-/

namespace Sys2Proof.Machine

variable (s : State)

@[simp] theorem State.putOut_pending (x) : (s.putOut x).pending = s.pending := rfl
@[simp] theorem State.putOut_part (x) : (s.putOut x).part = s.part := rfl
@[simp] theorem State.putOut_stepping (x) : (s.putOut x).stepping = s.stepping := rfl
@[simp] theorem State.putOut_out (x) : (s.putOut x).out = x := rfl
@[simp] theorem State.putOut_freeUse (x) : (s.putOut x).freeUse = s.freeUse := rfl
@[simp] theorem State.putOut_fns (x) : (s.putOut x).fns = s.fns := rfl
@[simp] theorem State.putOut_regs (x) : (s.putOut x).regs = s.regs := rfl
@[simp] theorem State.putOut_tb (x) : (s.putOut x).tb = s.tb := rfl
@[simp] theorem State.putOut_rx (x) : (s.putOut x).rx = s.rx := rfl
@[simp] theorem State.putOut_tiles (x) : (s.putOut x).tiles = s.tiles := rfl
@[simp] theorem State.putOut_cmd (x) : (s.putOut x).cmd = s.cmd := rfl
@[simp] theorem State.putOut_mirLanes (x) : (s.putOut x).mirLanes = s.mirLanes := rfl
@[simp] theorem State.putOut_order (x) : (s.putOut x).order = s.order := rfl
@[simp] theorem State.putOut_queues (x) : (s.putOut x).queues = s.queues := rfl
@[simp] theorem State.putOut_bellows (x) : (s.putOut x).bellows = s.bellows := rfl
@[simp] theorem State.putOut_engines (x) : (s.putOut x).engines = s.engines := rfl
@[simp] theorem State.putOut_cores (x) : (s.putOut x).cores = s.cores := rfl
@[simp] theorem State.putOut_postRecs (x) : (s.putOut x).postRecs = s.postRecs := rfl
@[simp] theorem State.putOut_postSeq (x) : (s.putOut x).postSeq = s.postSeq := rfl
@[simp] theorem State.putOut_slots (x) : (s.putOut x).slots = s.slots := rfl
@[simp] theorem State.putOut_tdc (x) : (s.putOut x).tdc = s.tdc := rfl
@[simp] theorem State.putOut_bgs (x) : (s.putOut x).bgs = s.bgs := rfl
@[simp] theorem State.putOut_field (x) : (s.putOut x).field = s.field := rfl
@[simp] theorem State.putOut_hearth (x) : (s.putOut x).hearth = s.hearth := rfl
@[simp] theorem State.putOut_trig (x) : (s.putOut x).trig = s.trig := rfl
@[simp] theorem State.putOut_staging (x) : (s.putOut x).staging = s.staging := rfl
@[simp] theorem State.putOut_comps (x) : (s.putOut x).comps = s.comps := rfl
@[simp] theorem State.putOut_jobs (x) : (s.putOut x).jobs = s.jobs := rfl
@[simp] theorem State.putOut_pair (x) : (s.putOut x).pair = s.pair := rfl
@[simp] theorem State.putOut_host (x) : (s.putOut x).host = s.host := rfl
@[simp] theorem State.putOut_ptp (x) : (s.putOut x).ptp = s.ptp := rfl
@[simp] theorem State.putOut_nvs (x) : (s.putOut x).nvs = s.nvs := rfl
@[simp] theorem State.putOut_sys (x) : (s.putOut x).sys = s.sys := rfl
@[simp] theorem State.putOut_tap (x) : (s.putOut x).tap = s.tap := rfl
@[simp] theorem State.putOut_kept (x) : (s.putOut x).kept = s.kept := rfl
@[simp] theorem State.putOut_keptBad (x) : (s.putOut x).keptBad = s.keptBad := rfl

@[simp] theorem State.putFreeUse_pending (x) : (s.putFreeUse x).pending = s.pending := rfl
@[simp] theorem State.putFreeUse_part (x) : (s.putFreeUse x).part = s.part := rfl
@[simp] theorem State.putFreeUse_stepping (x) : (s.putFreeUse x).stepping = s.stepping := rfl
@[simp] theorem State.putFreeUse_out (x) : (s.putFreeUse x).out = s.out := rfl
@[simp] theorem State.putFreeUse_freeUse (x) : (s.putFreeUse x).freeUse = x := rfl
@[simp] theorem State.putFreeUse_fns (x) : (s.putFreeUse x).fns = s.fns := rfl
@[simp] theorem State.putFreeUse_regs (x) : (s.putFreeUse x).regs = s.regs := rfl
@[simp] theorem State.putFreeUse_tb (x) : (s.putFreeUse x).tb = s.tb := rfl
@[simp] theorem State.putFreeUse_rx (x) : (s.putFreeUse x).rx = s.rx := rfl
@[simp] theorem State.putFreeUse_tiles (x) : (s.putFreeUse x).tiles = s.tiles := rfl
@[simp] theorem State.putFreeUse_cmd (x) : (s.putFreeUse x).cmd = s.cmd := rfl
@[simp] theorem State.putFreeUse_mirLanes (x) : (s.putFreeUse x).mirLanes = s.mirLanes := rfl
@[simp] theorem State.putFreeUse_order (x) : (s.putFreeUse x).order = s.order := rfl
@[simp] theorem State.putFreeUse_queues (x) : (s.putFreeUse x).queues = s.queues := rfl
@[simp] theorem State.putFreeUse_bellows (x) : (s.putFreeUse x).bellows = s.bellows := rfl
@[simp] theorem State.putFreeUse_engines (x) : (s.putFreeUse x).engines = s.engines := rfl
@[simp] theorem State.putFreeUse_cores (x) : (s.putFreeUse x).cores = s.cores := rfl
@[simp] theorem State.putFreeUse_postRecs (x) : (s.putFreeUse x).postRecs = s.postRecs := rfl
@[simp] theorem State.putFreeUse_postSeq (x) : (s.putFreeUse x).postSeq = s.postSeq := rfl
@[simp] theorem State.putFreeUse_slots (x) : (s.putFreeUse x).slots = s.slots := rfl
@[simp] theorem State.putFreeUse_tdc (x) : (s.putFreeUse x).tdc = s.tdc := rfl
@[simp] theorem State.putFreeUse_bgs (x) : (s.putFreeUse x).bgs = s.bgs := rfl
@[simp] theorem State.putFreeUse_field (x) : (s.putFreeUse x).field = s.field := rfl
@[simp] theorem State.putFreeUse_hearth (x) : (s.putFreeUse x).hearth = s.hearth := rfl
@[simp] theorem State.putFreeUse_trig (x) : (s.putFreeUse x).trig = s.trig := rfl
@[simp] theorem State.putFreeUse_staging (x) : (s.putFreeUse x).staging = s.staging := rfl
@[simp] theorem State.putFreeUse_comps (x) : (s.putFreeUse x).comps = s.comps := rfl
@[simp] theorem State.putFreeUse_jobs (x) : (s.putFreeUse x).jobs = s.jobs := rfl
@[simp] theorem State.putFreeUse_pair (x) : (s.putFreeUse x).pair = s.pair := rfl
@[simp] theorem State.putFreeUse_host (x) : (s.putFreeUse x).host = s.host := rfl
@[simp] theorem State.putFreeUse_ptp (x) : (s.putFreeUse x).ptp = s.ptp := rfl
@[simp] theorem State.putFreeUse_nvs (x) : (s.putFreeUse x).nvs = s.nvs := rfl
@[simp] theorem State.putFreeUse_sys (x) : (s.putFreeUse x).sys = s.sys := rfl
@[simp] theorem State.putFreeUse_tap (x) : (s.putFreeUse x).tap = s.tap := rfl
@[simp] theorem State.putFreeUse_kept (x) : (s.putFreeUse x).kept = s.kept := rfl
@[simp] theorem State.putFreeUse_keptBad (x) : (s.putFreeUse x).keptBad = s.keptBad := rfl

@[simp] theorem State.putFns_pending (x) : (s.putFns x).pending = s.pending := rfl
@[simp] theorem State.putFns_part (x) : (s.putFns x).part = s.part := rfl
@[simp] theorem State.putFns_stepping (x) : (s.putFns x).stepping = s.stepping := rfl
@[simp] theorem State.putFns_out (x) : (s.putFns x).out = s.out := rfl
@[simp] theorem State.putFns_freeUse (x) : (s.putFns x).freeUse = s.freeUse := rfl
@[simp] theorem State.putFns_fns (x) : (s.putFns x).fns = x := rfl
@[simp] theorem State.putFns_regs (x) : (s.putFns x).regs = s.regs := rfl
@[simp] theorem State.putFns_tb (x) : (s.putFns x).tb = s.tb := rfl
@[simp] theorem State.putFns_rx (x) : (s.putFns x).rx = s.rx := rfl
@[simp] theorem State.putFns_tiles (x) : (s.putFns x).tiles = s.tiles := rfl
@[simp] theorem State.putFns_cmd (x) : (s.putFns x).cmd = s.cmd := rfl
@[simp] theorem State.putFns_mirLanes (x) : (s.putFns x).mirLanes = s.mirLanes := rfl
@[simp] theorem State.putFns_order (x) : (s.putFns x).order = s.order := rfl
@[simp] theorem State.putFns_queues (x) : (s.putFns x).queues = s.queues := rfl
@[simp] theorem State.putFns_bellows (x) : (s.putFns x).bellows = s.bellows := rfl
@[simp] theorem State.putFns_engines (x) : (s.putFns x).engines = s.engines := rfl
@[simp] theorem State.putFns_cores (x) : (s.putFns x).cores = s.cores := rfl
@[simp] theorem State.putFns_postRecs (x) : (s.putFns x).postRecs = s.postRecs := rfl
@[simp] theorem State.putFns_postSeq (x) : (s.putFns x).postSeq = s.postSeq := rfl
@[simp] theorem State.putFns_slots (x) : (s.putFns x).slots = s.slots := rfl
@[simp] theorem State.putFns_tdc (x) : (s.putFns x).tdc = s.tdc := rfl
@[simp] theorem State.putFns_bgs (x) : (s.putFns x).bgs = s.bgs := rfl
@[simp] theorem State.putFns_field (x) : (s.putFns x).field = s.field := rfl
@[simp] theorem State.putFns_hearth (x) : (s.putFns x).hearth = s.hearth := rfl
@[simp] theorem State.putFns_trig (x) : (s.putFns x).trig = s.trig := rfl
@[simp] theorem State.putFns_staging (x) : (s.putFns x).staging = s.staging := rfl
@[simp] theorem State.putFns_comps (x) : (s.putFns x).comps = s.comps := rfl
@[simp] theorem State.putFns_jobs (x) : (s.putFns x).jobs = s.jobs := rfl
@[simp] theorem State.putFns_pair (x) : (s.putFns x).pair = s.pair := rfl
@[simp] theorem State.putFns_host (x) : (s.putFns x).host = s.host := rfl
@[simp] theorem State.putFns_ptp (x) : (s.putFns x).ptp = s.ptp := rfl
@[simp] theorem State.putFns_nvs (x) : (s.putFns x).nvs = s.nvs := rfl
@[simp] theorem State.putFns_sys (x) : (s.putFns x).sys = s.sys := rfl
@[simp] theorem State.putFns_tap (x) : (s.putFns x).tap = s.tap := rfl
@[simp] theorem State.putFns_kept (x) : (s.putFns x).kept = s.kept := rfl
@[simp] theorem State.putFns_keptBad (x) : (s.putFns x).keptBad = s.keptBad := rfl

@[simp] theorem State.putRegs_pending (x) : (s.putRegs x).pending = s.pending := rfl
@[simp] theorem State.putRegs_part (x) : (s.putRegs x).part = s.part := rfl
@[simp] theorem State.putRegs_stepping (x) : (s.putRegs x).stepping = s.stepping := rfl
@[simp] theorem State.putRegs_out (x) : (s.putRegs x).out = s.out := rfl
@[simp] theorem State.putRegs_freeUse (x) : (s.putRegs x).freeUse = s.freeUse := rfl
@[simp] theorem State.putRegs_fns (x) : (s.putRegs x).fns = s.fns := rfl
@[simp] theorem State.putRegs_regs (x) : (s.putRegs x).regs = x := rfl
@[simp] theorem State.putRegs_tb (x) : (s.putRegs x).tb = s.tb := rfl
@[simp] theorem State.putRegs_rx (x) : (s.putRegs x).rx = s.rx := rfl
@[simp] theorem State.putRegs_tiles (x) : (s.putRegs x).tiles = s.tiles := rfl
@[simp] theorem State.putRegs_cmd (x) : (s.putRegs x).cmd = s.cmd := rfl
@[simp] theorem State.putRegs_mirLanes (x) : (s.putRegs x).mirLanes = s.mirLanes := rfl
@[simp] theorem State.putRegs_order (x) : (s.putRegs x).order = s.order := rfl
@[simp] theorem State.putRegs_queues (x) : (s.putRegs x).queues = s.queues := rfl
@[simp] theorem State.putRegs_bellows (x) : (s.putRegs x).bellows = s.bellows := rfl
@[simp] theorem State.putRegs_engines (x) : (s.putRegs x).engines = s.engines := rfl
@[simp] theorem State.putRegs_cores (x) : (s.putRegs x).cores = s.cores := rfl
@[simp] theorem State.putRegs_postRecs (x) : (s.putRegs x).postRecs = s.postRecs := rfl
@[simp] theorem State.putRegs_postSeq (x) : (s.putRegs x).postSeq = s.postSeq := rfl
@[simp] theorem State.putRegs_slots (x) : (s.putRegs x).slots = s.slots := rfl
@[simp] theorem State.putRegs_tdc (x) : (s.putRegs x).tdc = s.tdc := rfl
@[simp] theorem State.putRegs_bgs (x) : (s.putRegs x).bgs = s.bgs := rfl
@[simp] theorem State.putRegs_field (x) : (s.putRegs x).field = s.field := rfl
@[simp] theorem State.putRegs_hearth (x) : (s.putRegs x).hearth = s.hearth := rfl
@[simp] theorem State.putRegs_trig (x) : (s.putRegs x).trig = s.trig := rfl
@[simp] theorem State.putRegs_staging (x) : (s.putRegs x).staging = s.staging := rfl
@[simp] theorem State.putRegs_comps (x) : (s.putRegs x).comps = s.comps := rfl
@[simp] theorem State.putRegs_jobs (x) : (s.putRegs x).jobs = s.jobs := rfl
@[simp] theorem State.putRegs_pair (x) : (s.putRegs x).pair = s.pair := rfl
@[simp] theorem State.putRegs_host (x) : (s.putRegs x).host = s.host := rfl
@[simp] theorem State.putRegs_ptp (x) : (s.putRegs x).ptp = s.ptp := rfl
@[simp] theorem State.putRegs_nvs (x) : (s.putRegs x).nvs = s.nvs := rfl
@[simp] theorem State.putRegs_sys (x) : (s.putRegs x).sys = s.sys := rfl
@[simp] theorem State.putRegs_tap (x) : (s.putRegs x).tap = s.tap := rfl
@[simp] theorem State.putRegs_kept (x) : (s.putRegs x).kept = s.kept := rfl
@[simp] theorem State.putRegs_keptBad (x) : (s.putRegs x).keptBad = s.keptBad := rfl

@[simp] theorem State.putTb_pending (x) : (s.putTb x).pending = s.pending := rfl
@[simp] theorem State.putTb_part (x) : (s.putTb x).part = s.part := rfl
@[simp] theorem State.putTb_stepping (x) : (s.putTb x).stepping = s.stepping := rfl
@[simp] theorem State.putTb_out (x) : (s.putTb x).out = s.out := rfl
@[simp] theorem State.putTb_freeUse (x) : (s.putTb x).freeUse = s.freeUse := rfl
@[simp] theorem State.putTb_fns (x) : (s.putTb x).fns = s.fns := rfl
@[simp] theorem State.putTb_regs (x) : (s.putTb x).regs = s.regs := rfl
@[simp] theorem State.putTb_tb (x) : (s.putTb x).tb = x := rfl
@[simp] theorem State.putTb_rx (x) : (s.putTb x).rx = s.rx := rfl
@[simp] theorem State.putTb_tiles (x) : (s.putTb x).tiles = s.tiles := rfl
@[simp] theorem State.putTb_cmd (x) : (s.putTb x).cmd = s.cmd := rfl
@[simp] theorem State.putTb_mirLanes (x) : (s.putTb x).mirLanes = s.mirLanes := rfl
@[simp] theorem State.putTb_order (x) : (s.putTb x).order = s.order := rfl
@[simp] theorem State.putTb_queues (x) : (s.putTb x).queues = s.queues := rfl
@[simp] theorem State.putTb_bellows (x) : (s.putTb x).bellows = s.bellows := rfl
@[simp] theorem State.putTb_engines (x) : (s.putTb x).engines = s.engines := rfl
@[simp] theorem State.putTb_cores (x) : (s.putTb x).cores = s.cores := rfl
@[simp] theorem State.putTb_postRecs (x) : (s.putTb x).postRecs = s.postRecs := rfl
@[simp] theorem State.putTb_postSeq (x) : (s.putTb x).postSeq = s.postSeq := rfl
@[simp] theorem State.putTb_slots (x) : (s.putTb x).slots = s.slots := rfl
@[simp] theorem State.putTb_tdc (x) : (s.putTb x).tdc = s.tdc := rfl
@[simp] theorem State.putTb_bgs (x) : (s.putTb x).bgs = s.bgs := rfl
@[simp] theorem State.putTb_field (x) : (s.putTb x).field = s.field := rfl
@[simp] theorem State.putTb_hearth (x) : (s.putTb x).hearth = s.hearth := rfl
@[simp] theorem State.putTb_trig (x) : (s.putTb x).trig = s.trig := rfl
@[simp] theorem State.putTb_staging (x) : (s.putTb x).staging = s.staging := rfl
@[simp] theorem State.putTb_comps (x) : (s.putTb x).comps = s.comps := rfl
@[simp] theorem State.putTb_jobs (x) : (s.putTb x).jobs = s.jobs := rfl
@[simp] theorem State.putTb_pair (x) : (s.putTb x).pair = s.pair := rfl
@[simp] theorem State.putTb_host (x) : (s.putTb x).host = s.host := rfl
@[simp] theorem State.putTb_ptp (x) : (s.putTb x).ptp = s.ptp := rfl
@[simp] theorem State.putTb_nvs (x) : (s.putTb x).nvs = s.nvs := rfl
@[simp] theorem State.putTb_sys (x) : (s.putTb x).sys = s.sys := rfl
@[simp] theorem State.putTb_tap (x) : (s.putTb x).tap = s.tap := rfl
@[simp] theorem State.putTb_kept (x) : (s.putTb x).kept = s.kept := rfl
@[simp] theorem State.putTb_keptBad (x) : (s.putTb x).keptBad = s.keptBad := rfl

@[simp] theorem State.putRx_pending (x) : (s.putRx x).pending = s.pending := rfl
@[simp] theorem State.putRx_part (x) : (s.putRx x).part = s.part := rfl
@[simp] theorem State.putRx_stepping (x) : (s.putRx x).stepping = s.stepping := rfl
@[simp] theorem State.putRx_out (x) : (s.putRx x).out = s.out := rfl
@[simp] theorem State.putRx_freeUse (x) : (s.putRx x).freeUse = s.freeUse := rfl
@[simp] theorem State.putRx_fns (x) : (s.putRx x).fns = s.fns := rfl
@[simp] theorem State.putRx_regs (x) : (s.putRx x).regs = s.regs := rfl
@[simp] theorem State.putRx_tb (x) : (s.putRx x).tb = s.tb := rfl
@[simp] theorem State.putRx_rx (x) : (s.putRx x).rx = x := rfl
@[simp] theorem State.putRx_tiles (x) : (s.putRx x).tiles = s.tiles := rfl
@[simp] theorem State.putRx_cmd (x) : (s.putRx x).cmd = s.cmd := rfl
@[simp] theorem State.putRx_mirLanes (x) : (s.putRx x).mirLanes = s.mirLanes := rfl
@[simp] theorem State.putRx_order (x) : (s.putRx x).order = s.order := rfl
@[simp] theorem State.putRx_queues (x) : (s.putRx x).queues = s.queues := rfl
@[simp] theorem State.putRx_bellows (x) : (s.putRx x).bellows = s.bellows := rfl
@[simp] theorem State.putRx_engines (x) : (s.putRx x).engines = s.engines := rfl
@[simp] theorem State.putRx_cores (x) : (s.putRx x).cores = s.cores := rfl
@[simp] theorem State.putRx_postRecs (x) : (s.putRx x).postRecs = s.postRecs := rfl
@[simp] theorem State.putRx_postSeq (x) : (s.putRx x).postSeq = s.postSeq := rfl
@[simp] theorem State.putRx_slots (x) : (s.putRx x).slots = s.slots := rfl
@[simp] theorem State.putRx_tdc (x) : (s.putRx x).tdc = s.tdc := rfl
@[simp] theorem State.putRx_bgs (x) : (s.putRx x).bgs = s.bgs := rfl
@[simp] theorem State.putRx_field (x) : (s.putRx x).field = s.field := rfl
@[simp] theorem State.putRx_hearth (x) : (s.putRx x).hearth = s.hearth := rfl
@[simp] theorem State.putRx_trig (x) : (s.putRx x).trig = s.trig := rfl
@[simp] theorem State.putRx_staging (x) : (s.putRx x).staging = s.staging := rfl
@[simp] theorem State.putRx_comps (x) : (s.putRx x).comps = s.comps := rfl
@[simp] theorem State.putRx_jobs (x) : (s.putRx x).jobs = s.jobs := rfl
@[simp] theorem State.putRx_pair (x) : (s.putRx x).pair = s.pair := rfl
@[simp] theorem State.putRx_host (x) : (s.putRx x).host = s.host := rfl
@[simp] theorem State.putRx_ptp (x) : (s.putRx x).ptp = s.ptp := rfl
@[simp] theorem State.putRx_nvs (x) : (s.putRx x).nvs = s.nvs := rfl
@[simp] theorem State.putRx_sys (x) : (s.putRx x).sys = s.sys := rfl
@[simp] theorem State.putRx_tap (x) : (s.putRx x).tap = s.tap := rfl
@[simp] theorem State.putRx_kept (x) : (s.putRx x).kept = s.kept := rfl
@[simp] theorem State.putRx_keptBad (x) : (s.putRx x).keptBad = s.keptBad := rfl

@[simp] theorem State.putTiles_pending (x) : (s.putTiles x).pending = s.pending := rfl
@[simp] theorem State.putTiles_part (x) : (s.putTiles x).part = s.part := rfl
@[simp] theorem State.putTiles_stepping (x) : (s.putTiles x).stepping = s.stepping := rfl
@[simp] theorem State.putTiles_out (x) : (s.putTiles x).out = s.out := rfl
@[simp] theorem State.putTiles_freeUse (x) : (s.putTiles x).freeUse = s.freeUse := rfl
@[simp] theorem State.putTiles_fns (x) : (s.putTiles x).fns = s.fns := rfl
@[simp] theorem State.putTiles_regs (x) : (s.putTiles x).regs = s.regs := rfl
@[simp] theorem State.putTiles_tb (x) : (s.putTiles x).tb = s.tb := rfl
@[simp] theorem State.putTiles_rx (x) : (s.putTiles x).rx = s.rx := rfl
@[simp] theorem State.putTiles_tiles (x) : (s.putTiles x).tiles = x := rfl
@[simp] theorem State.putTiles_cmd (x) : (s.putTiles x).cmd = s.cmd := rfl
@[simp] theorem State.putTiles_mirLanes (x) : (s.putTiles x).mirLanes = s.mirLanes := rfl
@[simp] theorem State.putTiles_order (x) : (s.putTiles x).order = s.order := rfl
@[simp] theorem State.putTiles_queues (x) : (s.putTiles x).queues = s.queues := rfl
@[simp] theorem State.putTiles_bellows (x) : (s.putTiles x).bellows = s.bellows := rfl
@[simp] theorem State.putTiles_engines (x) : (s.putTiles x).engines = s.engines := rfl
@[simp] theorem State.putTiles_cores (x) : (s.putTiles x).cores = s.cores := rfl
@[simp] theorem State.putTiles_postRecs (x) : (s.putTiles x).postRecs = s.postRecs := rfl
@[simp] theorem State.putTiles_postSeq (x) : (s.putTiles x).postSeq = s.postSeq := rfl
@[simp] theorem State.putTiles_slots (x) : (s.putTiles x).slots = s.slots := rfl
@[simp] theorem State.putTiles_tdc (x) : (s.putTiles x).tdc = s.tdc := rfl
@[simp] theorem State.putTiles_bgs (x) : (s.putTiles x).bgs = s.bgs := rfl
@[simp] theorem State.putTiles_field (x) : (s.putTiles x).field = s.field := rfl
@[simp] theorem State.putTiles_hearth (x) : (s.putTiles x).hearth = s.hearth := rfl
@[simp] theorem State.putTiles_trig (x) : (s.putTiles x).trig = s.trig := rfl
@[simp] theorem State.putTiles_staging (x) : (s.putTiles x).staging = s.staging := rfl
@[simp] theorem State.putTiles_comps (x) : (s.putTiles x).comps = s.comps := rfl
@[simp] theorem State.putTiles_jobs (x) : (s.putTiles x).jobs = s.jobs := rfl
@[simp] theorem State.putTiles_pair (x) : (s.putTiles x).pair = s.pair := rfl
@[simp] theorem State.putTiles_host (x) : (s.putTiles x).host = s.host := rfl
@[simp] theorem State.putTiles_ptp (x) : (s.putTiles x).ptp = s.ptp := rfl
@[simp] theorem State.putTiles_nvs (x) : (s.putTiles x).nvs = s.nvs := rfl
@[simp] theorem State.putTiles_sys (x) : (s.putTiles x).sys = s.sys := rfl
@[simp] theorem State.putTiles_tap (x) : (s.putTiles x).tap = s.tap := rfl
@[simp] theorem State.putTiles_kept (x) : (s.putTiles x).kept = s.kept := rfl
@[simp] theorem State.putTiles_keptBad (x) : (s.putTiles x).keptBad = s.keptBad := rfl

@[simp] theorem State.putCmd_pending (x) : (s.putCmd x).pending = s.pending := rfl
@[simp] theorem State.putCmd_part (x) : (s.putCmd x).part = s.part := rfl
@[simp] theorem State.putCmd_stepping (x) : (s.putCmd x).stepping = s.stepping := rfl
@[simp] theorem State.putCmd_out (x) : (s.putCmd x).out = s.out := rfl
@[simp] theorem State.putCmd_freeUse (x) : (s.putCmd x).freeUse = s.freeUse := rfl
@[simp] theorem State.putCmd_fns (x) : (s.putCmd x).fns = s.fns := rfl
@[simp] theorem State.putCmd_regs (x) : (s.putCmd x).regs = s.regs := rfl
@[simp] theorem State.putCmd_tb (x) : (s.putCmd x).tb = s.tb := rfl
@[simp] theorem State.putCmd_rx (x) : (s.putCmd x).rx = s.rx := rfl
@[simp] theorem State.putCmd_tiles (x) : (s.putCmd x).tiles = s.tiles := rfl
@[simp] theorem State.putCmd_cmd (x) : (s.putCmd x).cmd = x := rfl
@[simp] theorem State.putCmd_mirLanes (x) : (s.putCmd x).mirLanes = s.mirLanes := rfl
@[simp] theorem State.putCmd_order (x) : (s.putCmd x).order = s.order := rfl
@[simp] theorem State.putCmd_queues (x) : (s.putCmd x).queues = s.queues := rfl
@[simp] theorem State.putCmd_bellows (x) : (s.putCmd x).bellows = s.bellows := rfl
@[simp] theorem State.putCmd_engines (x) : (s.putCmd x).engines = s.engines := rfl
@[simp] theorem State.putCmd_cores (x) : (s.putCmd x).cores = s.cores := rfl
@[simp] theorem State.putCmd_postRecs (x) : (s.putCmd x).postRecs = s.postRecs := rfl
@[simp] theorem State.putCmd_postSeq (x) : (s.putCmd x).postSeq = s.postSeq := rfl
@[simp] theorem State.putCmd_slots (x) : (s.putCmd x).slots = s.slots := rfl
@[simp] theorem State.putCmd_tdc (x) : (s.putCmd x).tdc = s.tdc := rfl
@[simp] theorem State.putCmd_bgs (x) : (s.putCmd x).bgs = s.bgs := rfl
@[simp] theorem State.putCmd_field (x) : (s.putCmd x).field = s.field := rfl
@[simp] theorem State.putCmd_hearth (x) : (s.putCmd x).hearth = s.hearth := rfl
@[simp] theorem State.putCmd_trig (x) : (s.putCmd x).trig = s.trig := rfl
@[simp] theorem State.putCmd_staging (x) : (s.putCmd x).staging = s.staging := rfl
@[simp] theorem State.putCmd_comps (x) : (s.putCmd x).comps = s.comps := rfl
@[simp] theorem State.putCmd_jobs (x) : (s.putCmd x).jobs = s.jobs := rfl
@[simp] theorem State.putCmd_pair (x) : (s.putCmd x).pair = s.pair := rfl
@[simp] theorem State.putCmd_host (x) : (s.putCmd x).host = s.host := rfl
@[simp] theorem State.putCmd_ptp (x) : (s.putCmd x).ptp = s.ptp := rfl
@[simp] theorem State.putCmd_nvs (x) : (s.putCmd x).nvs = s.nvs := rfl
@[simp] theorem State.putCmd_sys (x) : (s.putCmd x).sys = s.sys := rfl
@[simp] theorem State.putCmd_tap (x) : (s.putCmd x).tap = s.tap := rfl
@[simp] theorem State.putCmd_kept (x) : (s.putCmd x).kept = s.kept := rfl
@[simp] theorem State.putCmd_keptBad (x) : (s.putCmd x).keptBad = s.keptBad := rfl

@[simp] theorem State.putMirLanes_pending (x) : (s.putMirLanes x).pending = s.pending := rfl
@[simp] theorem State.putMirLanes_part (x) : (s.putMirLanes x).part = s.part := rfl
@[simp] theorem State.putMirLanes_stepping (x) : (s.putMirLanes x).stepping = s.stepping := rfl
@[simp] theorem State.putMirLanes_out (x) : (s.putMirLanes x).out = s.out := rfl
@[simp] theorem State.putMirLanes_freeUse (x) : (s.putMirLanes x).freeUse = s.freeUse := rfl
@[simp] theorem State.putMirLanes_fns (x) : (s.putMirLanes x).fns = s.fns := rfl
@[simp] theorem State.putMirLanes_regs (x) : (s.putMirLanes x).regs = s.regs := rfl
@[simp] theorem State.putMirLanes_tb (x) : (s.putMirLanes x).tb = s.tb := rfl
@[simp] theorem State.putMirLanes_rx (x) : (s.putMirLanes x).rx = s.rx := rfl
@[simp] theorem State.putMirLanes_tiles (x) : (s.putMirLanes x).tiles = s.tiles := rfl
@[simp] theorem State.putMirLanes_cmd (x) : (s.putMirLanes x).cmd = s.cmd := rfl
@[simp] theorem State.putMirLanes_mirLanes (x) : (s.putMirLanes x).mirLanes = x := rfl
@[simp] theorem State.putMirLanes_order (x) : (s.putMirLanes x).order = s.order := rfl
@[simp] theorem State.putMirLanes_queues (x) : (s.putMirLanes x).queues = s.queues := rfl
@[simp] theorem State.putMirLanes_bellows (x) : (s.putMirLanes x).bellows = s.bellows := rfl
@[simp] theorem State.putMirLanes_engines (x) : (s.putMirLanes x).engines = s.engines := rfl
@[simp] theorem State.putMirLanes_cores (x) : (s.putMirLanes x).cores = s.cores := rfl
@[simp] theorem State.putMirLanes_postRecs (x) : (s.putMirLanes x).postRecs = s.postRecs := rfl
@[simp] theorem State.putMirLanes_postSeq (x) : (s.putMirLanes x).postSeq = s.postSeq := rfl
@[simp] theorem State.putMirLanes_slots (x) : (s.putMirLanes x).slots = s.slots := rfl
@[simp] theorem State.putMirLanes_tdc (x) : (s.putMirLanes x).tdc = s.tdc := rfl
@[simp] theorem State.putMirLanes_bgs (x) : (s.putMirLanes x).bgs = s.bgs := rfl
@[simp] theorem State.putMirLanes_field (x) : (s.putMirLanes x).field = s.field := rfl
@[simp] theorem State.putMirLanes_hearth (x) : (s.putMirLanes x).hearth = s.hearth := rfl
@[simp] theorem State.putMirLanes_trig (x) : (s.putMirLanes x).trig = s.trig := rfl
@[simp] theorem State.putMirLanes_staging (x) : (s.putMirLanes x).staging = s.staging := rfl
@[simp] theorem State.putMirLanes_comps (x) : (s.putMirLanes x).comps = s.comps := rfl
@[simp] theorem State.putMirLanes_jobs (x) : (s.putMirLanes x).jobs = s.jobs := rfl
@[simp] theorem State.putMirLanes_pair (x) : (s.putMirLanes x).pair = s.pair := rfl
@[simp] theorem State.putMirLanes_host (x) : (s.putMirLanes x).host = s.host := rfl
@[simp] theorem State.putMirLanes_ptp (x) : (s.putMirLanes x).ptp = s.ptp := rfl
@[simp] theorem State.putMirLanes_nvs (x) : (s.putMirLanes x).nvs = s.nvs := rfl
@[simp] theorem State.putMirLanes_sys (x) : (s.putMirLanes x).sys = s.sys := rfl
@[simp] theorem State.putMirLanes_tap (x) : (s.putMirLanes x).tap = s.tap := rfl
@[simp] theorem State.putMirLanes_kept (x) : (s.putMirLanes x).kept = s.kept := rfl
@[simp] theorem State.putMirLanes_keptBad (x) : (s.putMirLanes x).keptBad = s.keptBad := rfl

@[simp] theorem State.putOrder_pending (x) : (s.putOrder x).pending = s.pending := rfl
@[simp] theorem State.putOrder_part (x) : (s.putOrder x).part = s.part := rfl
@[simp] theorem State.putOrder_stepping (x) : (s.putOrder x).stepping = s.stepping := rfl
@[simp] theorem State.putOrder_out (x) : (s.putOrder x).out = s.out := rfl
@[simp] theorem State.putOrder_freeUse (x) : (s.putOrder x).freeUse = s.freeUse := rfl
@[simp] theorem State.putOrder_fns (x) : (s.putOrder x).fns = s.fns := rfl
@[simp] theorem State.putOrder_regs (x) : (s.putOrder x).regs = s.regs := rfl
@[simp] theorem State.putOrder_tb (x) : (s.putOrder x).tb = s.tb := rfl
@[simp] theorem State.putOrder_rx (x) : (s.putOrder x).rx = s.rx := rfl
@[simp] theorem State.putOrder_tiles (x) : (s.putOrder x).tiles = s.tiles := rfl
@[simp] theorem State.putOrder_cmd (x) : (s.putOrder x).cmd = s.cmd := rfl
@[simp] theorem State.putOrder_mirLanes (x) : (s.putOrder x).mirLanes = s.mirLanes := rfl
@[simp] theorem State.putOrder_order (x) : (s.putOrder x).order = x := rfl
@[simp] theorem State.putOrder_queues (x) : (s.putOrder x).queues = s.queues := rfl
@[simp] theorem State.putOrder_bellows (x) : (s.putOrder x).bellows = s.bellows := rfl
@[simp] theorem State.putOrder_engines (x) : (s.putOrder x).engines = s.engines := rfl
@[simp] theorem State.putOrder_cores (x) : (s.putOrder x).cores = s.cores := rfl
@[simp] theorem State.putOrder_postRecs (x) : (s.putOrder x).postRecs = s.postRecs := rfl
@[simp] theorem State.putOrder_postSeq (x) : (s.putOrder x).postSeq = s.postSeq := rfl
@[simp] theorem State.putOrder_slots (x) : (s.putOrder x).slots = s.slots := rfl
@[simp] theorem State.putOrder_tdc (x) : (s.putOrder x).tdc = s.tdc := rfl
@[simp] theorem State.putOrder_bgs (x) : (s.putOrder x).bgs = s.bgs := rfl
@[simp] theorem State.putOrder_field (x) : (s.putOrder x).field = s.field := rfl
@[simp] theorem State.putOrder_hearth (x) : (s.putOrder x).hearth = s.hearth := rfl
@[simp] theorem State.putOrder_trig (x) : (s.putOrder x).trig = s.trig := rfl
@[simp] theorem State.putOrder_staging (x) : (s.putOrder x).staging = s.staging := rfl
@[simp] theorem State.putOrder_comps (x) : (s.putOrder x).comps = s.comps := rfl
@[simp] theorem State.putOrder_jobs (x) : (s.putOrder x).jobs = s.jobs := rfl
@[simp] theorem State.putOrder_pair (x) : (s.putOrder x).pair = s.pair := rfl
@[simp] theorem State.putOrder_host (x) : (s.putOrder x).host = s.host := rfl
@[simp] theorem State.putOrder_ptp (x) : (s.putOrder x).ptp = s.ptp := rfl
@[simp] theorem State.putOrder_nvs (x) : (s.putOrder x).nvs = s.nvs := rfl
@[simp] theorem State.putOrder_sys (x) : (s.putOrder x).sys = s.sys := rfl
@[simp] theorem State.putOrder_tap (x) : (s.putOrder x).tap = s.tap := rfl
@[simp] theorem State.putOrder_kept (x) : (s.putOrder x).kept = s.kept := rfl
@[simp] theorem State.putOrder_keptBad (x) : (s.putOrder x).keptBad = s.keptBad := rfl

@[simp] theorem State.putQueues_pending (x) : (s.putQueues x).pending = s.pending := rfl
@[simp] theorem State.putQueues_part (x) : (s.putQueues x).part = s.part := rfl
@[simp] theorem State.putQueues_stepping (x) : (s.putQueues x).stepping = s.stepping := rfl
@[simp] theorem State.putQueues_out (x) : (s.putQueues x).out = s.out := rfl
@[simp] theorem State.putQueues_freeUse (x) : (s.putQueues x).freeUse = s.freeUse := rfl
@[simp] theorem State.putQueues_fns (x) : (s.putQueues x).fns = s.fns := rfl
@[simp] theorem State.putQueues_regs (x) : (s.putQueues x).regs = s.regs := rfl
@[simp] theorem State.putQueues_tb (x) : (s.putQueues x).tb = s.tb := rfl
@[simp] theorem State.putQueues_rx (x) : (s.putQueues x).rx = s.rx := rfl
@[simp] theorem State.putQueues_tiles (x) : (s.putQueues x).tiles = s.tiles := rfl
@[simp] theorem State.putQueues_cmd (x) : (s.putQueues x).cmd = s.cmd := rfl
@[simp] theorem State.putQueues_mirLanes (x) : (s.putQueues x).mirLanes = s.mirLanes := rfl
@[simp] theorem State.putQueues_order (x) : (s.putQueues x).order = s.order := rfl
@[simp] theorem State.putQueues_queues (x) : (s.putQueues x).queues = x := rfl
@[simp] theorem State.putQueues_bellows (x) : (s.putQueues x).bellows = s.bellows := rfl
@[simp] theorem State.putQueues_engines (x) : (s.putQueues x).engines = s.engines := rfl
@[simp] theorem State.putQueues_cores (x) : (s.putQueues x).cores = s.cores := rfl
@[simp] theorem State.putQueues_postRecs (x) : (s.putQueues x).postRecs = s.postRecs := rfl
@[simp] theorem State.putQueues_postSeq (x) : (s.putQueues x).postSeq = s.postSeq := rfl
@[simp] theorem State.putQueues_slots (x) : (s.putQueues x).slots = s.slots := rfl
@[simp] theorem State.putQueues_tdc (x) : (s.putQueues x).tdc = s.tdc := rfl
@[simp] theorem State.putQueues_bgs (x) : (s.putQueues x).bgs = s.bgs := rfl
@[simp] theorem State.putQueues_field (x) : (s.putQueues x).field = s.field := rfl
@[simp] theorem State.putQueues_hearth (x) : (s.putQueues x).hearth = s.hearth := rfl
@[simp] theorem State.putQueues_trig (x) : (s.putQueues x).trig = s.trig := rfl
@[simp] theorem State.putQueues_staging (x) : (s.putQueues x).staging = s.staging := rfl
@[simp] theorem State.putQueues_comps (x) : (s.putQueues x).comps = s.comps := rfl
@[simp] theorem State.putQueues_jobs (x) : (s.putQueues x).jobs = s.jobs := rfl
@[simp] theorem State.putQueues_pair (x) : (s.putQueues x).pair = s.pair := rfl
@[simp] theorem State.putQueues_host (x) : (s.putQueues x).host = s.host := rfl
@[simp] theorem State.putQueues_ptp (x) : (s.putQueues x).ptp = s.ptp := rfl
@[simp] theorem State.putQueues_nvs (x) : (s.putQueues x).nvs = s.nvs := rfl
@[simp] theorem State.putQueues_sys (x) : (s.putQueues x).sys = s.sys := rfl
@[simp] theorem State.putQueues_tap (x) : (s.putQueues x).tap = s.tap := rfl
@[simp] theorem State.putQueues_kept (x) : (s.putQueues x).kept = s.kept := rfl
@[simp] theorem State.putQueues_keptBad (x) : (s.putQueues x).keptBad = s.keptBad := rfl

@[simp] theorem State.putBellows_pending (x) : (s.putBellows x).pending = s.pending := rfl
@[simp] theorem State.putBellows_part (x) : (s.putBellows x).part = s.part := rfl
@[simp] theorem State.putBellows_stepping (x) : (s.putBellows x).stepping = s.stepping := rfl
@[simp] theorem State.putBellows_out (x) : (s.putBellows x).out = s.out := rfl
@[simp] theorem State.putBellows_freeUse (x) : (s.putBellows x).freeUse = s.freeUse := rfl
@[simp] theorem State.putBellows_fns (x) : (s.putBellows x).fns = s.fns := rfl
@[simp] theorem State.putBellows_regs (x) : (s.putBellows x).regs = s.regs := rfl
@[simp] theorem State.putBellows_tb (x) : (s.putBellows x).tb = s.tb := rfl
@[simp] theorem State.putBellows_rx (x) : (s.putBellows x).rx = s.rx := rfl
@[simp] theorem State.putBellows_tiles (x) : (s.putBellows x).tiles = s.tiles := rfl
@[simp] theorem State.putBellows_cmd (x) : (s.putBellows x).cmd = s.cmd := rfl
@[simp] theorem State.putBellows_mirLanes (x) : (s.putBellows x).mirLanes = s.mirLanes := rfl
@[simp] theorem State.putBellows_order (x) : (s.putBellows x).order = s.order := rfl
@[simp] theorem State.putBellows_queues (x) : (s.putBellows x).queues = s.queues := rfl
@[simp] theorem State.putBellows_bellows (x) : (s.putBellows x).bellows = x := rfl
@[simp] theorem State.putBellows_engines (x) : (s.putBellows x).engines = s.engines := rfl
@[simp] theorem State.putBellows_cores (x) : (s.putBellows x).cores = s.cores := rfl
@[simp] theorem State.putBellows_postRecs (x) : (s.putBellows x).postRecs = s.postRecs := rfl
@[simp] theorem State.putBellows_postSeq (x) : (s.putBellows x).postSeq = s.postSeq := rfl
@[simp] theorem State.putBellows_slots (x) : (s.putBellows x).slots = s.slots := rfl
@[simp] theorem State.putBellows_tdc (x) : (s.putBellows x).tdc = s.tdc := rfl
@[simp] theorem State.putBellows_bgs (x) : (s.putBellows x).bgs = s.bgs := rfl
@[simp] theorem State.putBellows_field (x) : (s.putBellows x).field = s.field := rfl
@[simp] theorem State.putBellows_hearth (x) : (s.putBellows x).hearth = s.hearth := rfl
@[simp] theorem State.putBellows_trig (x) : (s.putBellows x).trig = s.trig := rfl
@[simp] theorem State.putBellows_staging (x) : (s.putBellows x).staging = s.staging := rfl
@[simp] theorem State.putBellows_comps (x) : (s.putBellows x).comps = s.comps := rfl
@[simp] theorem State.putBellows_jobs (x) : (s.putBellows x).jobs = s.jobs := rfl
@[simp] theorem State.putBellows_pair (x) : (s.putBellows x).pair = s.pair := rfl
@[simp] theorem State.putBellows_host (x) : (s.putBellows x).host = s.host := rfl
@[simp] theorem State.putBellows_ptp (x) : (s.putBellows x).ptp = s.ptp := rfl
@[simp] theorem State.putBellows_nvs (x) : (s.putBellows x).nvs = s.nvs := rfl
@[simp] theorem State.putBellows_sys (x) : (s.putBellows x).sys = s.sys := rfl
@[simp] theorem State.putBellows_tap (x) : (s.putBellows x).tap = s.tap := rfl
@[simp] theorem State.putBellows_kept (x) : (s.putBellows x).kept = s.kept := rfl
@[simp] theorem State.putBellows_keptBad (x) : (s.putBellows x).keptBad = s.keptBad := rfl

@[simp] theorem State.putEngines_pending (x) : (s.putEngines x).pending = s.pending := rfl
@[simp] theorem State.putEngines_part (x) : (s.putEngines x).part = s.part := rfl
@[simp] theorem State.putEngines_stepping (x) : (s.putEngines x).stepping = s.stepping := rfl
@[simp] theorem State.putEngines_out (x) : (s.putEngines x).out = s.out := rfl
@[simp] theorem State.putEngines_freeUse (x) : (s.putEngines x).freeUse = s.freeUse := rfl
@[simp] theorem State.putEngines_fns (x) : (s.putEngines x).fns = s.fns := rfl
@[simp] theorem State.putEngines_regs (x) : (s.putEngines x).regs = s.regs := rfl
@[simp] theorem State.putEngines_tb (x) : (s.putEngines x).tb = s.tb := rfl
@[simp] theorem State.putEngines_rx (x) : (s.putEngines x).rx = s.rx := rfl
@[simp] theorem State.putEngines_tiles (x) : (s.putEngines x).tiles = s.tiles := rfl
@[simp] theorem State.putEngines_cmd (x) : (s.putEngines x).cmd = s.cmd := rfl
@[simp] theorem State.putEngines_mirLanes (x) : (s.putEngines x).mirLanes = s.mirLanes := rfl
@[simp] theorem State.putEngines_order (x) : (s.putEngines x).order = s.order := rfl
@[simp] theorem State.putEngines_queues (x) : (s.putEngines x).queues = s.queues := rfl
@[simp] theorem State.putEngines_bellows (x) : (s.putEngines x).bellows = s.bellows := rfl
@[simp] theorem State.putEngines_engines (x) : (s.putEngines x).engines = x := rfl
@[simp] theorem State.putEngines_cores (x) : (s.putEngines x).cores = s.cores := rfl
@[simp] theorem State.putEngines_postRecs (x) : (s.putEngines x).postRecs = s.postRecs := rfl
@[simp] theorem State.putEngines_postSeq (x) : (s.putEngines x).postSeq = s.postSeq := rfl
@[simp] theorem State.putEngines_slots (x) : (s.putEngines x).slots = s.slots := rfl
@[simp] theorem State.putEngines_tdc (x) : (s.putEngines x).tdc = s.tdc := rfl
@[simp] theorem State.putEngines_bgs (x) : (s.putEngines x).bgs = s.bgs := rfl
@[simp] theorem State.putEngines_field (x) : (s.putEngines x).field = s.field := rfl
@[simp] theorem State.putEngines_hearth (x) : (s.putEngines x).hearth = s.hearth := rfl
@[simp] theorem State.putEngines_trig (x) : (s.putEngines x).trig = s.trig := rfl
@[simp] theorem State.putEngines_staging (x) : (s.putEngines x).staging = s.staging := rfl
@[simp] theorem State.putEngines_comps (x) : (s.putEngines x).comps = s.comps := rfl
@[simp] theorem State.putEngines_jobs (x) : (s.putEngines x).jobs = s.jobs := rfl
@[simp] theorem State.putEngines_pair (x) : (s.putEngines x).pair = s.pair := rfl
@[simp] theorem State.putEngines_host (x) : (s.putEngines x).host = s.host := rfl
@[simp] theorem State.putEngines_ptp (x) : (s.putEngines x).ptp = s.ptp := rfl
@[simp] theorem State.putEngines_nvs (x) : (s.putEngines x).nvs = s.nvs := rfl
@[simp] theorem State.putEngines_sys (x) : (s.putEngines x).sys = s.sys := rfl
@[simp] theorem State.putEngines_tap (x) : (s.putEngines x).tap = s.tap := rfl
@[simp] theorem State.putEngines_kept (x) : (s.putEngines x).kept = s.kept := rfl
@[simp] theorem State.putEngines_keptBad (x) : (s.putEngines x).keptBad = s.keptBad := rfl

@[simp] theorem State.putCores_pending (x) : (s.putCores x).pending = s.pending := rfl
@[simp] theorem State.putCores_part (x) : (s.putCores x).part = s.part := rfl
@[simp] theorem State.putCores_stepping (x) : (s.putCores x).stepping = s.stepping := rfl
@[simp] theorem State.putCores_out (x) : (s.putCores x).out = s.out := rfl
@[simp] theorem State.putCores_freeUse (x) : (s.putCores x).freeUse = s.freeUse := rfl
@[simp] theorem State.putCores_fns (x) : (s.putCores x).fns = s.fns := rfl
@[simp] theorem State.putCores_regs (x) : (s.putCores x).regs = s.regs := rfl
@[simp] theorem State.putCores_tb (x) : (s.putCores x).tb = s.tb := rfl
@[simp] theorem State.putCores_rx (x) : (s.putCores x).rx = s.rx := rfl
@[simp] theorem State.putCores_tiles (x) : (s.putCores x).tiles = s.tiles := rfl
@[simp] theorem State.putCores_cmd (x) : (s.putCores x).cmd = s.cmd := rfl
@[simp] theorem State.putCores_mirLanes (x) : (s.putCores x).mirLanes = s.mirLanes := rfl
@[simp] theorem State.putCores_order (x) : (s.putCores x).order = s.order := rfl
@[simp] theorem State.putCores_queues (x) : (s.putCores x).queues = s.queues := rfl
@[simp] theorem State.putCores_bellows (x) : (s.putCores x).bellows = s.bellows := rfl
@[simp] theorem State.putCores_engines (x) : (s.putCores x).engines = s.engines := rfl
@[simp] theorem State.putCores_cores (x) : (s.putCores x).cores = x := rfl
@[simp] theorem State.putCores_postRecs (x) : (s.putCores x).postRecs = s.postRecs := rfl
@[simp] theorem State.putCores_postSeq (x) : (s.putCores x).postSeq = s.postSeq := rfl
@[simp] theorem State.putCores_slots (x) : (s.putCores x).slots = s.slots := rfl
@[simp] theorem State.putCores_tdc (x) : (s.putCores x).tdc = s.tdc := rfl
@[simp] theorem State.putCores_bgs (x) : (s.putCores x).bgs = s.bgs := rfl
@[simp] theorem State.putCores_field (x) : (s.putCores x).field = s.field := rfl
@[simp] theorem State.putCores_hearth (x) : (s.putCores x).hearth = s.hearth := rfl
@[simp] theorem State.putCores_trig (x) : (s.putCores x).trig = s.trig := rfl
@[simp] theorem State.putCores_staging (x) : (s.putCores x).staging = s.staging := rfl
@[simp] theorem State.putCores_comps (x) : (s.putCores x).comps = s.comps := rfl
@[simp] theorem State.putCores_jobs (x) : (s.putCores x).jobs = s.jobs := rfl
@[simp] theorem State.putCores_pair (x) : (s.putCores x).pair = s.pair := rfl
@[simp] theorem State.putCores_host (x) : (s.putCores x).host = s.host := rfl
@[simp] theorem State.putCores_ptp (x) : (s.putCores x).ptp = s.ptp := rfl
@[simp] theorem State.putCores_nvs (x) : (s.putCores x).nvs = s.nvs := rfl
@[simp] theorem State.putCores_sys (x) : (s.putCores x).sys = s.sys := rfl
@[simp] theorem State.putCores_tap (x) : (s.putCores x).tap = s.tap := rfl
@[simp] theorem State.putCores_kept (x) : (s.putCores x).kept = s.kept := rfl
@[simp] theorem State.putCores_keptBad (x) : (s.putCores x).keptBad = s.keptBad := rfl

@[simp] theorem State.putPostRecs_pending (x) : (s.putPostRecs x).pending = s.pending := rfl
@[simp] theorem State.putPostRecs_part (x) : (s.putPostRecs x).part = s.part := rfl
@[simp] theorem State.putPostRecs_stepping (x) : (s.putPostRecs x).stepping = s.stepping := rfl
@[simp] theorem State.putPostRecs_out (x) : (s.putPostRecs x).out = s.out := rfl
@[simp] theorem State.putPostRecs_freeUse (x) : (s.putPostRecs x).freeUse = s.freeUse := rfl
@[simp] theorem State.putPostRecs_fns (x) : (s.putPostRecs x).fns = s.fns := rfl
@[simp] theorem State.putPostRecs_regs (x) : (s.putPostRecs x).regs = s.regs := rfl
@[simp] theorem State.putPostRecs_tb (x) : (s.putPostRecs x).tb = s.tb := rfl
@[simp] theorem State.putPostRecs_rx (x) : (s.putPostRecs x).rx = s.rx := rfl
@[simp] theorem State.putPostRecs_tiles (x) : (s.putPostRecs x).tiles = s.tiles := rfl
@[simp] theorem State.putPostRecs_cmd (x) : (s.putPostRecs x).cmd = s.cmd := rfl
@[simp] theorem State.putPostRecs_mirLanes (x) : (s.putPostRecs x).mirLanes = s.mirLanes := rfl
@[simp] theorem State.putPostRecs_order (x) : (s.putPostRecs x).order = s.order := rfl
@[simp] theorem State.putPostRecs_queues (x) : (s.putPostRecs x).queues = s.queues := rfl
@[simp] theorem State.putPostRecs_bellows (x) : (s.putPostRecs x).bellows = s.bellows := rfl
@[simp] theorem State.putPostRecs_engines (x) : (s.putPostRecs x).engines = s.engines := rfl
@[simp] theorem State.putPostRecs_cores (x) : (s.putPostRecs x).cores = s.cores := rfl
@[simp] theorem State.putPostRecs_postRecs (x) : (s.putPostRecs x).postRecs = x := rfl
@[simp] theorem State.putPostRecs_postSeq (x) : (s.putPostRecs x).postSeq = s.postSeq := rfl
@[simp] theorem State.putPostRecs_slots (x) : (s.putPostRecs x).slots = s.slots := rfl
@[simp] theorem State.putPostRecs_tdc (x) : (s.putPostRecs x).tdc = s.tdc := rfl
@[simp] theorem State.putPostRecs_bgs (x) : (s.putPostRecs x).bgs = s.bgs := rfl
@[simp] theorem State.putPostRecs_field (x) : (s.putPostRecs x).field = s.field := rfl
@[simp] theorem State.putPostRecs_hearth (x) : (s.putPostRecs x).hearth = s.hearth := rfl
@[simp] theorem State.putPostRecs_trig (x) : (s.putPostRecs x).trig = s.trig := rfl
@[simp] theorem State.putPostRecs_staging (x) : (s.putPostRecs x).staging = s.staging := rfl
@[simp] theorem State.putPostRecs_comps (x) : (s.putPostRecs x).comps = s.comps := rfl
@[simp] theorem State.putPostRecs_jobs (x) : (s.putPostRecs x).jobs = s.jobs := rfl
@[simp] theorem State.putPostRecs_pair (x) : (s.putPostRecs x).pair = s.pair := rfl
@[simp] theorem State.putPostRecs_host (x) : (s.putPostRecs x).host = s.host := rfl
@[simp] theorem State.putPostRecs_ptp (x) : (s.putPostRecs x).ptp = s.ptp := rfl
@[simp] theorem State.putPostRecs_nvs (x) : (s.putPostRecs x).nvs = s.nvs := rfl
@[simp] theorem State.putPostRecs_sys (x) : (s.putPostRecs x).sys = s.sys := rfl
@[simp] theorem State.putPostRecs_tap (x) : (s.putPostRecs x).tap = s.tap := rfl
@[simp] theorem State.putPostRecs_kept (x) : (s.putPostRecs x).kept = s.kept := rfl
@[simp] theorem State.putPostRecs_keptBad (x) : (s.putPostRecs x).keptBad = s.keptBad := rfl

@[simp] theorem State.putPostSeq_pending (x) : (s.putPostSeq x).pending = s.pending := rfl
@[simp] theorem State.putPostSeq_part (x) : (s.putPostSeq x).part = s.part := rfl
@[simp] theorem State.putPostSeq_stepping (x) : (s.putPostSeq x).stepping = s.stepping := rfl
@[simp] theorem State.putPostSeq_out (x) : (s.putPostSeq x).out = s.out := rfl
@[simp] theorem State.putPostSeq_freeUse (x) : (s.putPostSeq x).freeUse = s.freeUse := rfl
@[simp] theorem State.putPostSeq_fns (x) : (s.putPostSeq x).fns = s.fns := rfl
@[simp] theorem State.putPostSeq_regs (x) : (s.putPostSeq x).regs = s.regs := rfl
@[simp] theorem State.putPostSeq_tb (x) : (s.putPostSeq x).tb = s.tb := rfl
@[simp] theorem State.putPostSeq_rx (x) : (s.putPostSeq x).rx = s.rx := rfl
@[simp] theorem State.putPostSeq_tiles (x) : (s.putPostSeq x).tiles = s.tiles := rfl
@[simp] theorem State.putPostSeq_cmd (x) : (s.putPostSeq x).cmd = s.cmd := rfl
@[simp] theorem State.putPostSeq_mirLanes (x) : (s.putPostSeq x).mirLanes = s.mirLanes := rfl
@[simp] theorem State.putPostSeq_order (x) : (s.putPostSeq x).order = s.order := rfl
@[simp] theorem State.putPostSeq_queues (x) : (s.putPostSeq x).queues = s.queues := rfl
@[simp] theorem State.putPostSeq_bellows (x) : (s.putPostSeq x).bellows = s.bellows := rfl
@[simp] theorem State.putPostSeq_engines (x) : (s.putPostSeq x).engines = s.engines := rfl
@[simp] theorem State.putPostSeq_cores (x) : (s.putPostSeq x).cores = s.cores := rfl
@[simp] theorem State.putPostSeq_postRecs (x) : (s.putPostSeq x).postRecs = s.postRecs := rfl
@[simp] theorem State.putPostSeq_postSeq (x) : (s.putPostSeq x).postSeq = x := rfl
@[simp] theorem State.putPostSeq_slots (x) : (s.putPostSeq x).slots = s.slots := rfl
@[simp] theorem State.putPostSeq_tdc (x) : (s.putPostSeq x).tdc = s.tdc := rfl
@[simp] theorem State.putPostSeq_bgs (x) : (s.putPostSeq x).bgs = s.bgs := rfl
@[simp] theorem State.putPostSeq_field (x) : (s.putPostSeq x).field = s.field := rfl
@[simp] theorem State.putPostSeq_hearth (x) : (s.putPostSeq x).hearth = s.hearth := rfl
@[simp] theorem State.putPostSeq_trig (x) : (s.putPostSeq x).trig = s.trig := rfl
@[simp] theorem State.putPostSeq_staging (x) : (s.putPostSeq x).staging = s.staging := rfl
@[simp] theorem State.putPostSeq_comps (x) : (s.putPostSeq x).comps = s.comps := rfl
@[simp] theorem State.putPostSeq_jobs (x) : (s.putPostSeq x).jobs = s.jobs := rfl
@[simp] theorem State.putPostSeq_pair (x) : (s.putPostSeq x).pair = s.pair := rfl
@[simp] theorem State.putPostSeq_host (x) : (s.putPostSeq x).host = s.host := rfl
@[simp] theorem State.putPostSeq_ptp (x) : (s.putPostSeq x).ptp = s.ptp := rfl
@[simp] theorem State.putPostSeq_nvs (x) : (s.putPostSeq x).nvs = s.nvs := rfl
@[simp] theorem State.putPostSeq_sys (x) : (s.putPostSeq x).sys = s.sys := rfl
@[simp] theorem State.putPostSeq_tap (x) : (s.putPostSeq x).tap = s.tap := rfl
@[simp] theorem State.putPostSeq_kept (x) : (s.putPostSeq x).kept = s.kept := rfl
@[simp] theorem State.putPostSeq_keptBad (x) : (s.putPostSeq x).keptBad = s.keptBad := rfl

@[simp] theorem State.putSlots_pending (x) : (s.putSlots x).pending = s.pending := rfl
@[simp] theorem State.putSlots_part (x) : (s.putSlots x).part = s.part := rfl
@[simp] theorem State.putSlots_stepping (x) : (s.putSlots x).stepping = s.stepping := rfl
@[simp] theorem State.putSlots_out (x) : (s.putSlots x).out = s.out := rfl
@[simp] theorem State.putSlots_freeUse (x) : (s.putSlots x).freeUse = s.freeUse := rfl
@[simp] theorem State.putSlots_fns (x) : (s.putSlots x).fns = s.fns := rfl
@[simp] theorem State.putSlots_regs (x) : (s.putSlots x).regs = s.regs := rfl
@[simp] theorem State.putSlots_tb (x) : (s.putSlots x).tb = s.tb := rfl
@[simp] theorem State.putSlots_rx (x) : (s.putSlots x).rx = s.rx := rfl
@[simp] theorem State.putSlots_tiles (x) : (s.putSlots x).tiles = s.tiles := rfl
@[simp] theorem State.putSlots_cmd (x) : (s.putSlots x).cmd = s.cmd := rfl
@[simp] theorem State.putSlots_mirLanes (x) : (s.putSlots x).mirLanes = s.mirLanes := rfl
@[simp] theorem State.putSlots_order (x) : (s.putSlots x).order = s.order := rfl
@[simp] theorem State.putSlots_queues (x) : (s.putSlots x).queues = s.queues := rfl
@[simp] theorem State.putSlots_bellows (x) : (s.putSlots x).bellows = s.bellows := rfl
@[simp] theorem State.putSlots_engines (x) : (s.putSlots x).engines = s.engines := rfl
@[simp] theorem State.putSlots_cores (x) : (s.putSlots x).cores = s.cores := rfl
@[simp] theorem State.putSlots_postRecs (x) : (s.putSlots x).postRecs = s.postRecs := rfl
@[simp] theorem State.putSlots_postSeq (x) : (s.putSlots x).postSeq = s.postSeq := rfl
@[simp] theorem State.putSlots_slots (x) : (s.putSlots x).slots = x := rfl
@[simp] theorem State.putSlots_tdc (x) : (s.putSlots x).tdc = s.tdc := rfl
@[simp] theorem State.putSlots_bgs (x) : (s.putSlots x).bgs = s.bgs := rfl
@[simp] theorem State.putSlots_field (x) : (s.putSlots x).field = s.field := rfl
@[simp] theorem State.putSlots_hearth (x) : (s.putSlots x).hearth = s.hearth := rfl
@[simp] theorem State.putSlots_trig (x) : (s.putSlots x).trig = s.trig := rfl
@[simp] theorem State.putSlots_staging (x) : (s.putSlots x).staging = s.staging := rfl
@[simp] theorem State.putSlots_comps (x) : (s.putSlots x).comps = s.comps := rfl
@[simp] theorem State.putSlots_jobs (x) : (s.putSlots x).jobs = s.jobs := rfl
@[simp] theorem State.putSlots_pair (x) : (s.putSlots x).pair = s.pair := rfl
@[simp] theorem State.putSlots_host (x) : (s.putSlots x).host = s.host := rfl
@[simp] theorem State.putSlots_ptp (x) : (s.putSlots x).ptp = s.ptp := rfl
@[simp] theorem State.putSlots_nvs (x) : (s.putSlots x).nvs = s.nvs := rfl
@[simp] theorem State.putSlots_sys (x) : (s.putSlots x).sys = s.sys := rfl
@[simp] theorem State.putSlots_tap (x) : (s.putSlots x).tap = s.tap := rfl
@[simp] theorem State.putSlots_kept (x) : (s.putSlots x).kept = s.kept := rfl
@[simp] theorem State.putSlots_keptBad (x) : (s.putSlots x).keptBad = s.keptBad := rfl

@[simp] theorem State.putTdc_pending (x) : (s.putTdc x).pending = s.pending := rfl
@[simp] theorem State.putTdc_part (x) : (s.putTdc x).part = s.part := rfl
@[simp] theorem State.putTdc_stepping (x) : (s.putTdc x).stepping = s.stepping := rfl
@[simp] theorem State.putTdc_out (x) : (s.putTdc x).out = s.out := rfl
@[simp] theorem State.putTdc_freeUse (x) : (s.putTdc x).freeUse = s.freeUse := rfl
@[simp] theorem State.putTdc_fns (x) : (s.putTdc x).fns = s.fns := rfl
@[simp] theorem State.putTdc_regs (x) : (s.putTdc x).regs = s.regs := rfl
@[simp] theorem State.putTdc_tb (x) : (s.putTdc x).tb = s.tb := rfl
@[simp] theorem State.putTdc_rx (x) : (s.putTdc x).rx = s.rx := rfl
@[simp] theorem State.putTdc_tiles (x) : (s.putTdc x).tiles = s.tiles := rfl
@[simp] theorem State.putTdc_cmd (x) : (s.putTdc x).cmd = s.cmd := rfl
@[simp] theorem State.putTdc_mirLanes (x) : (s.putTdc x).mirLanes = s.mirLanes := rfl
@[simp] theorem State.putTdc_order (x) : (s.putTdc x).order = s.order := rfl
@[simp] theorem State.putTdc_queues (x) : (s.putTdc x).queues = s.queues := rfl
@[simp] theorem State.putTdc_bellows (x) : (s.putTdc x).bellows = s.bellows := rfl
@[simp] theorem State.putTdc_engines (x) : (s.putTdc x).engines = s.engines := rfl
@[simp] theorem State.putTdc_cores (x) : (s.putTdc x).cores = s.cores := rfl
@[simp] theorem State.putTdc_postRecs (x) : (s.putTdc x).postRecs = s.postRecs := rfl
@[simp] theorem State.putTdc_postSeq (x) : (s.putTdc x).postSeq = s.postSeq := rfl
@[simp] theorem State.putTdc_slots (x) : (s.putTdc x).slots = s.slots := rfl
@[simp] theorem State.putTdc_tdc (x) : (s.putTdc x).tdc = x := rfl
@[simp] theorem State.putTdc_bgs (x) : (s.putTdc x).bgs = s.bgs := rfl
@[simp] theorem State.putTdc_field (x) : (s.putTdc x).field = s.field := rfl
@[simp] theorem State.putTdc_hearth (x) : (s.putTdc x).hearth = s.hearth := rfl
@[simp] theorem State.putTdc_trig (x) : (s.putTdc x).trig = s.trig := rfl
@[simp] theorem State.putTdc_staging (x) : (s.putTdc x).staging = s.staging := rfl
@[simp] theorem State.putTdc_comps (x) : (s.putTdc x).comps = s.comps := rfl
@[simp] theorem State.putTdc_jobs (x) : (s.putTdc x).jobs = s.jobs := rfl
@[simp] theorem State.putTdc_pair (x) : (s.putTdc x).pair = s.pair := rfl
@[simp] theorem State.putTdc_host (x) : (s.putTdc x).host = s.host := rfl
@[simp] theorem State.putTdc_ptp (x) : (s.putTdc x).ptp = s.ptp := rfl
@[simp] theorem State.putTdc_nvs (x) : (s.putTdc x).nvs = s.nvs := rfl
@[simp] theorem State.putTdc_sys (x) : (s.putTdc x).sys = s.sys := rfl
@[simp] theorem State.putTdc_tap (x) : (s.putTdc x).tap = s.tap := rfl
@[simp] theorem State.putTdc_kept (x) : (s.putTdc x).kept = s.kept := rfl
@[simp] theorem State.putTdc_keptBad (x) : (s.putTdc x).keptBad = s.keptBad := rfl

@[simp] theorem State.putBgs_pending (x) : (s.putBgs x).pending = s.pending := rfl
@[simp] theorem State.putBgs_part (x) : (s.putBgs x).part = s.part := rfl
@[simp] theorem State.putBgs_stepping (x) : (s.putBgs x).stepping = s.stepping := rfl
@[simp] theorem State.putBgs_out (x) : (s.putBgs x).out = s.out := rfl
@[simp] theorem State.putBgs_freeUse (x) : (s.putBgs x).freeUse = s.freeUse := rfl
@[simp] theorem State.putBgs_fns (x) : (s.putBgs x).fns = s.fns := rfl
@[simp] theorem State.putBgs_regs (x) : (s.putBgs x).regs = s.regs := rfl
@[simp] theorem State.putBgs_tb (x) : (s.putBgs x).tb = s.tb := rfl
@[simp] theorem State.putBgs_rx (x) : (s.putBgs x).rx = s.rx := rfl
@[simp] theorem State.putBgs_tiles (x) : (s.putBgs x).tiles = s.tiles := rfl
@[simp] theorem State.putBgs_cmd (x) : (s.putBgs x).cmd = s.cmd := rfl
@[simp] theorem State.putBgs_mirLanes (x) : (s.putBgs x).mirLanes = s.mirLanes := rfl
@[simp] theorem State.putBgs_order (x) : (s.putBgs x).order = s.order := rfl
@[simp] theorem State.putBgs_queues (x) : (s.putBgs x).queues = s.queues := rfl
@[simp] theorem State.putBgs_bellows (x) : (s.putBgs x).bellows = s.bellows := rfl
@[simp] theorem State.putBgs_engines (x) : (s.putBgs x).engines = s.engines := rfl
@[simp] theorem State.putBgs_cores (x) : (s.putBgs x).cores = s.cores := rfl
@[simp] theorem State.putBgs_postRecs (x) : (s.putBgs x).postRecs = s.postRecs := rfl
@[simp] theorem State.putBgs_postSeq (x) : (s.putBgs x).postSeq = s.postSeq := rfl
@[simp] theorem State.putBgs_slots (x) : (s.putBgs x).slots = s.slots := rfl
@[simp] theorem State.putBgs_tdc (x) : (s.putBgs x).tdc = s.tdc := rfl
@[simp] theorem State.putBgs_bgs (x) : (s.putBgs x).bgs = x := rfl
@[simp] theorem State.putBgs_field (x) : (s.putBgs x).field = s.field := rfl
@[simp] theorem State.putBgs_hearth (x) : (s.putBgs x).hearth = s.hearth := rfl
@[simp] theorem State.putBgs_trig (x) : (s.putBgs x).trig = s.trig := rfl
@[simp] theorem State.putBgs_staging (x) : (s.putBgs x).staging = s.staging := rfl
@[simp] theorem State.putBgs_comps (x) : (s.putBgs x).comps = s.comps := rfl
@[simp] theorem State.putBgs_jobs (x) : (s.putBgs x).jobs = s.jobs := rfl
@[simp] theorem State.putBgs_pair (x) : (s.putBgs x).pair = s.pair := rfl
@[simp] theorem State.putBgs_host (x) : (s.putBgs x).host = s.host := rfl
@[simp] theorem State.putBgs_ptp (x) : (s.putBgs x).ptp = s.ptp := rfl
@[simp] theorem State.putBgs_nvs (x) : (s.putBgs x).nvs = s.nvs := rfl
@[simp] theorem State.putBgs_sys (x) : (s.putBgs x).sys = s.sys := rfl
@[simp] theorem State.putBgs_tap (x) : (s.putBgs x).tap = s.tap := rfl
@[simp] theorem State.putBgs_kept (x) : (s.putBgs x).kept = s.kept := rfl
@[simp] theorem State.putBgs_keptBad (x) : (s.putBgs x).keptBad = s.keptBad := rfl

@[simp] theorem State.putField_pending (x) : (s.putField x).pending = s.pending := rfl
@[simp] theorem State.putField_part (x) : (s.putField x).part = s.part := rfl
@[simp] theorem State.putField_stepping (x) : (s.putField x).stepping = s.stepping := rfl
@[simp] theorem State.putField_out (x) : (s.putField x).out = s.out := rfl
@[simp] theorem State.putField_freeUse (x) : (s.putField x).freeUse = s.freeUse := rfl
@[simp] theorem State.putField_fns (x) : (s.putField x).fns = s.fns := rfl
@[simp] theorem State.putField_regs (x) : (s.putField x).regs = s.regs := rfl
@[simp] theorem State.putField_tb (x) : (s.putField x).tb = s.tb := rfl
@[simp] theorem State.putField_rx (x) : (s.putField x).rx = s.rx := rfl
@[simp] theorem State.putField_tiles (x) : (s.putField x).tiles = s.tiles := rfl
@[simp] theorem State.putField_cmd (x) : (s.putField x).cmd = s.cmd := rfl
@[simp] theorem State.putField_mirLanes (x) : (s.putField x).mirLanes = s.mirLanes := rfl
@[simp] theorem State.putField_order (x) : (s.putField x).order = s.order := rfl
@[simp] theorem State.putField_queues (x) : (s.putField x).queues = s.queues := rfl
@[simp] theorem State.putField_bellows (x) : (s.putField x).bellows = s.bellows := rfl
@[simp] theorem State.putField_engines (x) : (s.putField x).engines = s.engines := rfl
@[simp] theorem State.putField_cores (x) : (s.putField x).cores = s.cores := rfl
@[simp] theorem State.putField_postRecs (x) : (s.putField x).postRecs = s.postRecs := rfl
@[simp] theorem State.putField_postSeq (x) : (s.putField x).postSeq = s.postSeq := rfl
@[simp] theorem State.putField_slots (x) : (s.putField x).slots = s.slots := rfl
@[simp] theorem State.putField_tdc (x) : (s.putField x).tdc = s.tdc := rfl
@[simp] theorem State.putField_bgs (x) : (s.putField x).bgs = s.bgs := rfl
@[simp] theorem State.putField_field (x) : (s.putField x).field = x := rfl
@[simp] theorem State.putField_hearth (x) : (s.putField x).hearth = s.hearth := rfl
@[simp] theorem State.putField_trig (x) : (s.putField x).trig = s.trig := rfl
@[simp] theorem State.putField_staging (x) : (s.putField x).staging = s.staging := rfl
@[simp] theorem State.putField_comps (x) : (s.putField x).comps = s.comps := rfl
@[simp] theorem State.putField_jobs (x) : (s.putField x).jobs = s.jobs := rfl
@[simp] theorem State.putField_pair (x) : (s.putField x).pair = s.pair := rfl
@[simp] theorem State.putField_host (x) : (s.putField x).host = s.host := rfl
@[simp] theorem State.putField_ptp (x) : (s.putField x).ptp = s.ptp := rfl
@[simp] theorem State.putField_nvs (x) : (s.putField x).nvs = s.nvs := rfl
@[simp] theorem State.putField_sys (x) : (s.putField x).sys = s.sys := rfl
@[simp] theorem State.putField_tap (x) : (s.putField x).tap = s.tap := rfl
@[simp] theorem State.putField_kept (x) : (s.putField x).kept = s.kept := rfl
@[simp] theorem State.putField_keptBad (x) : (s.putField x).keptBad = s.keptBad := rfl

@[simp] theorem State.putHearth_pending (x) : (s.putHearth x).pending = s.pending := rfl
@[simp] theorem State.putHearth_part (x) : (s.putHearth x).part = s.part := rfl
@[simp] theorem State.putHearth_stepping (x) : (s.putHearth x).stepping = s.stepping := rfl
@[simp] theorem State.putHearth_out (x) : (s.putHearth x).out = s.out := rfl
@[simp] theorem State.putHearth_freeUse (x) : (s.putHearth x).freeUse = s.freeUse := rfl
@[simp] theorem State.putHearth_fns (x) : (s.putHearth x).fns = s.fns := rfl
@[simp] theorem State.putHearth_regs (x) : (s.putHearth x).regs = s.regs := rfl
@[simp] theorem State.putHearth_tb (x) : (s.putHearth x).tb = s.tb := rfl
@[simp] theorem State.putHearth_rx (x) : (s.putHearth x).rx = s.rx := rfl
@[simp] theorem State.putHearth_tiles (x) : (s.putHearth x).tiles = s.tiles := rfl
@[simp] theorem State.putHearth_cmd (x) : (s.putHearth x).cmd = s.cmd := rfl
@[simp] theorem State.putHearth_mirLanes (x) : (s.putHearth x).mirLanes = s.mirLanes := rfl
@[simp] theorem State.putHearth_order (x) : (s.putHearth x).order = s.order := rfl
@[simp] theorem State.putHearth_queues (x) : (s.putHearth x).queues = s.queues := rfl
@[simp] theorem State.putHearth_bellows (x) : (s.putHearth x).bellows = s.bellows := rfl
@[simp] theorem State.putHearth_engines (x) : (s.putHearth x).engines = s.engines := rfl
@[simp] theorem State.putHearth_cores (x) : (s.putHearth x).cores = s.cores := rfl
@[simp] theorem State.putHearth_postRecs (x) : (s.putHearth x).postRecs = s.postRecs := rfl
@[simp] theorem State.putHearth_postSeq (x) : (s.putHearth x).postSeq = s.postSeq := rfl
@[simp] theorem State.putHearth_slots (x) : (s.putHearth x).slots = s.slots := rfl
@[simp] theorem State.putHearth_tdc (x) : (s.putHearth x).tdc = s.tdc := rfl
@[simp] theorem State.putHearth_bgs (x) : (s.putHearth x).bgs = s.bgs := rfl
@[simp] theorem State.putHearth_field (x) : (s.putHearth x).field = s.field := rfl
@[simp] theorem State.putHearth_hearth (x) : (s.putHearth x).hearth = x := rfl
@[simp] theorem State.putHearth_trig (x) : (s.putHearth x).trig = s.trig := rfl
@[simp] theorem State.putHearth_staging (x) : (s.putHearth x).staging = s.staging := rfl
@[simp] theorem State.putHearth_comps (x) : (s.putHearth x).comps = s.comps := rfl
@[simp] theorem State.putHearth_jobs (x) : (s.putHearth x).jobs = s.jobs := rfl
@[simp] theorem State.putHearth_pair (x) : (s.putHearth x).pair = s.pair := rfl
@[simp] theorem State.putHearth_host (x) : (s.putHearth x).host = s.host := rfl
@[simp] theorem State.putHearth_ptp (x) : (s.putHearth x).ptp = s.ptp := rfl
@[simp] theorem State.putHearth_nvs (x) : (s.putHearth x).nvs = s.nvs := rfl
@[simp] theorem State.putHearth_sys (x) : (s.putHearth x).sys = s.sys := rfl
@[simp] theorem State.putHearth_tap (x) : (s.putHearth x).tap = s.tap := rfl
@[simp] theorem State.putHearth_kept (x) : (s.putHearth x).kept = s.kept := rfl
@[simp] theorem State.putHearth_keptBad (x) : (s.putHearth x).keptBad = s.keptBad := rfl

@[simp] theorem State.putMem_pending (x) : (s.putMem x).pending = s.pending := rfl
@[simp] theorem State.putMem_part (x) : (s.putMem x).part = s.part := rfl
@[simp] theorem State.putMem_stepping (x) : (s.putMem x).stepping = s.stepping := rfl
@[simp] theorem State.putMem_out (x) : (s.putMem x).out = s.out := rfl
@[simp] theorem State.putMem_freeUse (x) : (s.putMem x).freeUse = s.freeUse := rfl
@[simp] theorem State.putMem_fns (x) : (s.putMem x).fns = s.fns := rfl
@[simp] theorem State.putMem_regs (x) : (s.putMem x).regs = s.regs := rfl
@[simp] theorem State.putMem_tb (x) : (s.putMem x).tb = s.tb := rfl
@[simp] theorem State.putMem_rx (x) : (s.putMem x).rx = s.rx := rfl
@[simp] theorem State.putMem_tiles (x) : (s.putMem x).tiles = s.tiles := rfl
@[simp] theorem State.putMem_cmd (x) : (s.putMem x).cmd = s.cmd := rfl
@[simp] theorem State.putMem_mirLanes (x) : (s.putMem x).mirLanes = s.mirLanes := rfl
@[simp] theorem State.putMem_order (x) : (s.putMem x).order = s.order := rfl
@[simp] theorem State.putMem_queues (x) : (s.putMem x).queues = s.queues := rfl
@[simp] theorem State.putMem_bellows (x) : (s.putMem x).bellows = s.bellows := rfl
@[simp] theorem State.putMem_engines (x) : (s.putMem x).engines = s.engines := rfl
@[simp] theorem State.putMem_cores (x) : (s.putMem x).cores = s.cores := rfl
@[simp] theorem State.putMem_postRecs (x) : (s.putMem x).postRecs = s.postRecs := rfl
@[simp] theorem State.putMem_postSeq (x) : (s.putMem x).postSeq = s.postSeq := rfl
@[simp] theorem State.putMem_slots (x) : (s.putMem x).slots = s.slots := rfl
@[simp] theorem State.putMem_tdc (x) : (s.putMem x).tdc = s.tdc := rfl
@[simp] theorem State.putMem_bgs (x) : (s.putMem x).bgs = s.bgs := rfl
@[simp] theorem State.putMem_field (x) : (s.putMem x).field = s.field := rfl
@[simp] theorem State.putMem_hearth (x) : (s.putMem x).hearth = { s.hearth with mem := x } := rfl
@[simp] theorem State.putMem_trig (x) : (s.putMem x).trig = s.trig := rfl
@[simp] theorem State.putMem_staging (x) : (s.putMem x).staging = s.staging := rfl
@[simp] theorem State.putMem_comps (x) : (s.putMem x).comps = s.comps := rfl
@[simp] theorem State.putMem_jobs (x) : (s.putMem x).jobs = s.jobs := rfl
@[simp] theorem State.putMem_pair (x) : (s.putMem x).pair = s.pair := rfl
@[simp] theorem State.putMem_host (x) : (s.putMem x).host = s.host := rfl
@[simp] theorem State.putMem_ptp (x) : (s.putMem x).ptp = s.ptp := rfl
@[simp] theorem State.putMem_nvs (x) : (s.putMem x).nvs = s.nvs := rfl
@[simp] theorem State.putMem_sys (x) : (s.putMem x).sys = s.sys := rfl
@[simp] theorem State.putMem_tap (x) : (s.putMem x).tap = s.tap := rfl
@[simp] theorem State.putMem_kept (x) : (s.putMem x).kept = s.kept := rfl
@[simp] theorem State.putMem_keptBad (x) : (s.putMem x).keptBad = s.keptBad := rfl

@[simp] theorem State.putTrig_pending (x) : (s.putTrig x).pending = s.pending := rfl
@[simp] theorem State.putTrig_part (x) : (s.putTrig x).part = s.part := rfl
@[simp] theorem State.putTrig_stepping (x) : (s.putTrig x).stepping = s.stepping := rfl
@[simp] theorem State.putTrig_out (x) : (s.putTrig x).out = s.out := rfl
@[simp] theorem State.putTrig_freeUse (x) : (s.putTrig x).freeUse = s.freeUse := rfl
@[simp] theorem State.putTrig_fns (x) : (s.putTrig x).fns = s.fns := rfl
@[simp] theorem State.putTrig_regs (x) : (s.putTrig x).regs = s.regs := rfl
@[simp] theorem State.putTrig_tb (x) : (s.putTrig x).tb = s.tb := rfl
@[simp] theorem State.putTrig_rx (x) : (s.putTrig x).rx = s.rx := rfl
@[simp] theorem State.putTrig_tiles (x) : (s.putTrig x).tiles = s.tiles := rfl
@[simp] theorem State.putTrig_cmd (x) : (s.putTrig x).cmd = s.cmd := rfl
@[simp] theorem State.putTrig_mirLanes (x) : (s.putTrig x).mirLanes = s.mirLanes := rfl
@[simp] theorem State.putTrig_order (x) : (s.putTrig x).order = s.order := rfl
@[simp] theorem State.putTrig_queues (x) : (s.putTrig x).queues = s.queues := rfl
@[simp] theorem State.putTrig_bellows (x) : (s.putTrig x).bellows = s.bellows := rfl
@[simp] theorem State.putTrig_engines (x) : (s.putTrig x).engines = s.engines := rfl
@[simp] theorem State.putTrig_cores (x) : (s.putTrig x).cores = s.cores := rfl
@[simp] theorem State.putTrig_postRecs (x) : (s.putTrig x).postRecs = s.postRecs := rfl
@[simp] theorem State.putTrig_postSeq (x) : (s.putTrig x).postSeq = s.postSeq := rfl
@[simp] theorem State.putTrig_slots (x) : (s.putTrig x).slots = s.slots := rfl
@[simp] theorem State.putTrig_tdc (x) : (s.putTrig x).tdc = s.tdc := rfl
@[simp] theorem State.putTrig_bgs (x) : (s.putTrig x).bgs = s.bgs := rfl
@[simp] theorem State.putTrig_field (x) : (s.putTrig x).field = s.field := rfl
@[simp] theorem State.putTrig_hearth (x) : (s.putTrig x).hearth = s.hearth := rfl
@[simp] theorem State.putTrig_trig (x) : (s.putTrig x).trig = x := rfl
@[simp] theorem State.putTrig_staging (x) : (s.putTrig x).staging = s.staging := rfl
@[simp] theorem State.putTrig_comps (x) : (s.putTrig x).comps = s.comps := rfl
@[simp] theorem State.putTrig_jobs (x) : (s.putTrig x).jobs = s.jobs := rfl
@[simp] theorem State.putTrig_pair (x) : (s.putTrig x).pair = s.pair := rfl
@[simp] theorem State.putTrig_host (x) : (s.putTrig x).host = s.host := rfl
@[simp] theorem State.putTrig_ptp (x) : (s.putTrig x).ptp = s.ptp := rfl
@[simp] theorem State.putTrig_nvs (x) : (s.putTrig x).nvs = s.nvs := rfl
@[simp] theorem State.putTrig_sys (x) : (s.putTrig x).sys = s.sys := rfl
@[simp] theorem State.putTrig_tap (x) : (s.putTrig x).tap = s.tap := rfl
@[simp] theorem State.putTrig_kept (x) : (s.putTrig x).kept = s.kept := rfl
@[simp] theorem State.putTrig_keptBad (x) : (s.putTrig x).keptBad = s.keptBad := rfl

@[simp] theorem State.putStaging_pending (x) : (s.putStaging x).pending = s.pending := rfl
@[simp] theorem State.putStaging_part (x) : (s.putStaging x).part = s.part := rfl
@[simp] theorem State.putStaging_stepping (x) : (s.putStaging x).stepping = s.stepping := rfl
@[simp] theorem State.putStaging_out (x) : (s.putStaging x).out = s.out := rfl
@[simp] theorem State.putStaging_freeUse (x) : (s.putStaging x).freeUse = s.freeUse := rfl
@[simp] theorem State.putStaging_fns (x) : (s.putStaging x).fns = s.fns := rfl
@[simp] theorem State.putStaging_regs (x) : (s.putStaging x).regs = s.regs := rfl
@[simp] theorem State.putStaging_tb (x) : (s.putStaging x).tb = s.tb := rfl
@[simp] theorem State.putStaging_rx (x) : (s.putStaging x).rx = s.rx := rfl
@[simp] theorem State.putStaging_tiles (x) : (s.putStaging x).tiles = s.tiles := rfl
@[simp] theorem State.putStaging_cmd (x) : (s.putStaging x).cmd = s.cmd := rfl
@[simp] theorem State.putStaging_mirLanes (x) : (s.putStaging x).mirLanes = s.mirLanes := rfl
@[simp] theorem State.putStaging_order (x) : (s.putStaging x).order = s.order := rfl
@[simp] theorem State.putStaging_queues (x) : (s.putStaging x).queues = s.queues := rfl
@[simp] theorem State.putStaging_bellows (x) : (s.putStaging x).bellows = s.bellows := rfl
@[simp] theorem State.putStaging_engines (x) : (s.putStaging x).engines = s.engines := rfl
@[simp] theorem State.putStaging_cores (x) : (s.putStaging x).cores = s.cores := rfl
@[simp] theorem State.putStaging_postRecs (x) : (s.putStaging x).postRecs = s.postRecs := rfl
@[simp] theorem State.putStaging_postSeq (x) : (s.putStaging x).postSeq = s.postSeq := rfl
@[simp] theorem State.putStaging_slots (x) : (s.putStaging x).slots = s.slots := rfl
@[simp] theorem State.putStaging_tdc (x) : (s.putStaging x).tdc = s.tdc := rfl
@[simp] theorem State.putStaging_bgs (x) : (s.putStaging x).bgs = s.bgs := rfl
@[simp] theorem State.putStaging_field (x) : (s.putStaging x).field = s.field := rfl
@[simp] theorem State.putStaging_hearth (x) : (s.putStaging x).hearth = s.hearth := rfl
@[simp] theorem State.putStaging_trig (x) : (s.putStaging x).trig = s.trig := rfl
@[simp] theorem State.putStaging_staging (x) : (s.putStaging x).staging = x := rfl
@[simp] theorem State.putStaging_comps (x) : (s.putStaging x).comps = s.comps := rfl
@[simp] theorem State.putStaging_jobs (x) : (s.putStaging x).jobs = s.jobs := rfl
@[simp] theorem State.putStaging_pair (x) : (s.putStaging x).pair = s.pair := rfl
@[simp] theorem State.putStaging_host (x) : (s.putStaging x).host = s.host := rfl
@[simp] theorem State.putStaging_ptp (x) : (s.putStaging x).ptp = s.ptp := rfl
@[simp] theorem State.putStaging_nvs (x) : (s.putStaging x).nvs = s.nvs := rfl
@[simp] theorem State.putStaging_sys (x) : (s.putStaging x).sys = s.sys := rfl
@[simp] theorem State.putStaging_tap (x) : (s.putStaging x).tap = s.tap := rfl
@[simp] theorem State.putStaging_kept (x) : (s.putStaging x).kept = s.kept := rfl
@[simp] theorem State.putStaging_keptBad (x) : (s.putStaging x).keptBad = s.keptBad := rfl

@[simp] theorem State.putComps_pending (x) : (s.putComps x).pending = s.pending := rfl
@[simp] theorem State.putComps_part (x) : (s.putComps x).part = s.part := rfl
@[simp] theorem State.putComps_stepping (x) : (s.putComps x).stepping = s.stepping := rfl
@[simp] theorem State.putComps_out (x) : (s.putComps x).out = s.out := rfl
@[simp] theorem State.putComps_freeUse (x) : (s.putComps x).freeUse = s.freeUse := rfl
@[simp] theorem State.putComps_fns (x) : (s.putComps x).fns = s.fns := rfl
@[simp] theorem State.putComps_regs (x) : (s.putComps x).regs = s.regs := rfl
@[simp] theorem State.putComps_tb (x) : (s.putComps x).tb = s.tb := rfl
@[simp] theorem State.putComps_rx (x) : (s.putComps x).rx = s.rx := rfl
@[simp] theorem State.putComps_tiles (x) : (s.putComps x).tiles = s.tiles := rfl
@[simp] theorem State.putComps_cmd (x) : (s.putComps x).cmd = s.cmd := rfl
@[simp] theorem State.putComps_mirLanes (x) : (s.putComps x).mirLanes = s.mirLanes := rfl
@[simp] theorem State.putComps_order (x) : (s.putComps x).order = s.order := rfl
@[simp] theorem State.putComps_queues (x) : (s.putComps x).queues = s.queues := rfl
@[simp] theorem State.putComps_bellows (x) : (s.putComps x).bellows = s.bellows := rfl
@[simp] theorem State.putComps_engines (x) : (s.putComps x).engines = s.engines := rfl
@[simp] theorem State.putComps_cores (x) : (s.putComps x).cores = s.cores := rfl
@[simp] theorem State.putComps_postRecs (x) : (s.putComps x).postRecs = s.postRecs := rfl
@[simp] theorem State.putComps_postSeq (x) : (s.putComps x).postSeq = s.postSeq := rfl
@[simp] theorem State.putComps_slots (x) : (s.putComps x).slots = s.slots := rfl
@[simp] theorem State.putComps_tdc (x) : (s.putComps x).tdc = s.tdc := rfl
@[simp] theorem State.putComps_bgs (x) : (s.putComps x).bgs = s.bgs := rfl
@[simp] theorem State.putComps_field (x) : (s.putComps x).field = s.field := rfl
@[simp] theorem State.putComps_hearth (x) : (s.putComps x).hearth = s.hearth := rfl
@[simp] theorem State.putComps_trig (x) : (s.putComps x).trig = s.trig := rfl
@[simp] theorem State.putComps_staging (x) : (s.putComps x).staging = s.staging := rfl
@[simp] theorem State.putComps_comps (x) : (s.putComps x).comps = x := rfl
@[simp] theorem State.putComps_jobs (x) : (s.putComps x).jobs = s.jobs := rfl
@[simp] theorem State.putComps_pair (x) : (s.putComps x).pair = s.pair := rfl
@[simp] theorem State.putComps_host (x) : (s.putComps x).host = s.host := rfl
@[simp] theorem State.putComps_ptp (x) : (s.putComps x).ptp = s.ptp := rfl
@[simp] theorem State.putComps_nvs (x) : (s.putComps x).nvs = s.nvs := rfl
@[simp] theorem State.putComps_sys (x) : (s.putComps x).sys = s.sys := rfl
@[simp] theorem State.putComps_tap (x) : (s.putComps x).tap = s.tap := rfl
@[simp] theorem State.putComps_kept (x) : (s.putComps x).kept = s.kept := rfl
@[simp] theorem State.putComps_keptBad (x) : (s.putComps x).keptBad = s.keptBad := rfl

@[simp] theorem State.putJobs_pending (x) : (s.putJobs x).pending = s.pending := rfl
@[simp] theorem State.putJobs_part (x) : (s.putJobs x).part = s.part := rfl
@[simp] theorem State.putJobs_stepping (x) : (s.putJobs x).stepping = s.stepping := rfl
@[simp] theorem State.putJobs_out (x) : (s.putJobs x).out = s.out := rfl
@[simp] theorem State.putJobs_freeUse (x) : (s.putJobs x).freeUse = s.freeUse := rfl
@[simp] theorem State.putJobs_fns (x) : (s.putJobs x).fns = s.fns := rfl
@[simp] theorem State.putJobs_regs (x) : (s.putJobs x).regs = s.regs := rfl
@[simp] theorem State.putJobs_tb (x) : (s.putJobs x).tb = s.tb := rfl
@[simp] theorem State.putJobs_rx (x) : (s.putJobs x).rx = s.rx := rfl
@[simp] theorem State.putJobs_tiles (x) : (s.putJobs x).tiles = s.tiles := rfl
@[simp] theorem State.putJobs_cmd (x) : (s.putJobs x).cmd = s.cmd := rfl
@[simp] theorem State.putJobs_mirLanes (x) : (s.putJobs x).mirLanes = s.mirLanes := rfl
@[simp] theorem State.putJobs_order (x) : (s.putJobs x).order = s.order := rfl
@[simp] theorem State.putJobs_queues (x) : (s.putJobs x).queues = s.queues := rfl
@[simp] theorem State.putJobs_bellows (x) : (s.putJobs x).bellows = s.bellows := rfl
@[simp] theorem State.putJobs_engines (x) : (s.putJobs x).engines = s.engines := rfl
@[simp] theorem State.putJobs_cores (x) : (s.putJobs x).cores = s.cores := rfl
@[simp] theorem State.putJobs_postRecs (x) : (s.putJobs x).postRecs = s.postRecs := rfl
@[simp] theorem State.putJobs_postSeq (x) : (s.putJobs x).postSeq = s.postSeq := rfl
@[simp] theorem State.putJobs_slots (x) : (s.putJobs x).slots = s.slots := rfl
@[simp] theorem State.putJobs_tdc (x) : (s.putJobs x).tdc = s.tdc := rfl
@[simp] theorem State.putJobs_bgs (x) : (s.putJobs x).bgs = s.bgs := rfl
@[simp] theorem State.putJobs_field (x) : (s.putJobs x).field = s.field := rfl
@[simp] theorem State.putJobs_hearth (x) : (s.putJobs x).hearth = s.hearth := rfl
@[simp] theorem State.putJobs_trig (x) : (s.putJobs x).trig = s.trig := rfl
@[simp] theorem State.putJobs_staging (x) : (s.putJobs x).staging = s.staging := rfl
@[simp] theorem State.putJobs_comps (x) : (s.putJobs x).comps = s.comps := rfl
@[simp] theorem State.putJobs_jobs (x) : (s.putJobs x).jobs = x := rfl
@[simp] theorem State.putJobs_pair (x) : (s.putJobs x).pair = s.pair := rfl
@[simp] theorem State.putJobs_host (x) : (s.putJobs x).host = s.host := rfl
@[simp] theorem State.putJobs_ptp (x) : (s.putJobs x).ptp = s.ptp := rfl
@[simp] theorem State.putJobs_nvs (x) : (s.putJobs x).nvs = s.nvs := rfl
@[simp] theorem State.putJobs_sys (x) : (s.putJobs x).sys = s.sys := rfl
@[simp] theorem State.putJobs_tap (x) : (s.putJobs x).tap = s.tap := rfl
@[simp] theorem State.putJobs_kept (x) : (s.putJobs x).kept = s.kept := rfl
@[simp] theorem State.putJobs_keptBad (x) : (s.putJobs x).keptBad = s.keptBad := rfl

@[simp] theorem State.putPair_pending (x) : (s.putPair x).pending = s.pending := rfl
@[simp] theorem State.putPair_part (x) : (s.putPair x).part = s.part := rfl
@[simp] theorem State.putPair_stepping (x) : (s.putPair x).stepping = s.stepping := rfl
@[simp] theorem State.putPair_out (x) : (s.putPair x).out = s.out := rfl
@[simp] theorem State.putPair_freeUse (x) : (s.putPair x).freeUse = s.freeUse := rfl
@[simp] theorem State.putPair_fns (x) : (s.putPair x).fns = s.fns := rfl
@[simp] theorem State.putPair_regs (x) : (s.putPair x).regs = s.regs := rfl
@[simp] theorem State.putPair_tb (x) : (s.putPair x).tb = s.tb := rfl
@[simp] theorem State.putPair_rx (x) : (s.putPair x).rx = s.rx := rfl
@[simp] theorem State.putPair_tiles (x) : (s.putPair x).tiles = s.tiles := rfl
@[simp] theorem State.putPair_cmd (x) : (s.putPair x).cmd = s.cmd := rfl
@[simp] theorem State.putPair_mirLanes (x) : (s.putPair x).mirLanes = s.mirLanes := rfl
@[simp] theorem State.putPair_order (x) : (s.putPair x).order = s.order := rfl
@[simp] theorem State.putPair_queues (x) : (s.putPair x).queues = s.queues := rfl
@[simp] theorem State.putPair_bellows (x) : (s.putPair x).bellows = s.bellows := rfl
@[simp] theorem State.putPair_engines (x) : (s.putPair x).engines = s.engines := rfl
@[simp] theorem State.putPair_cores (x) : (s.putPair x).cores = s.cores := rfl
@[simp] theorem State.putPair_postRecs (x) : (s.putPair x).postRecs = s.postRecs := rfl
@[simp] theorem State.putPair_postSeq (x) : (s.putPair x).postSeq = s.postSeq := rfl
@[simp] theorem State.putPair_slots (x) : (s.putPair x).slots = s.slots := rfl
@[simp] theorem State.putPair_tdc (x) : (s.putPair x).tdc = s.tdc := rfl
@[simp] theorem State.putPair_bgs (x) : (s.putPair x).bgs = s.bgs := rfl
@[simp] theorem State.putPair_field (x) : (s.putPair x).field = s.field := rfl
@[simp] theorem State.putPair_hearth (x) : (s.putPair x).hearth = s.hearth := rfl
@[simp] theorem State.putPair_trig (x) : (s.putPair x).trig = s.trig := rfl
@[simp] theorem State.putPair_staging (x) : (s.putPair x).staging = s.staging := rfl
@[simp] theorem State.putPair_comps (x) : (s.putPair x).comps = s.comps := rfl
@[simp] theorem State.putPair_jobs (x) : (s.putPair x).jobs = s.jobs := rfl
@[simp] theorem State.putPair_pair (x) : (s.putPair x).pair = x := rfl
@[simp] theorem State.putPair_host (x) : (s.putPair x).host = s.host := rfl
@[simp] theorem State.putPair_ptp (x) : (s.putPair x).ptp = s.ptp := rfl
@[simp] theorem State.putPair_nvs (x) : (s.putPair x).nvs = s.nvs := rfl
@[simp] theorem State.putPair_sys (x) : (s.putPair x).sys = s.sys := rfl
@[simp] theorem State.putPair_tap (x) : (s.putPair x).tap = s.tap := rfl
@[simp] theorem State.putPair_kept (x) : (s.putPair x).kept = s.kept := rfl
@[simp] theorem State.putPair_keptBad (x) : (s.putPair x).keptBad = s.keptBad := rfl

@[simp] theorem State.putHost_pending (x) : (s.putHost x).pending = s.pending := rfl
@[simp] theorem State.putHost_part (x) : (s.putHost x).part = s.part := rfl
@[simp] theorem State.putHost_stepping (x) : (s.putHost x).stepping = s.stepping := rfl
@[simp] theorem State.putHost_out (x) : (s.putHost x).out = s.out := rfl
@[simp] theorem State.putHost_freeUse (x) : (s.putHost x).freeUse = s.freeUse := rfl
@[simp] theorem State.putHost_fns (x) : (s.putHost x).fns = s.fns := rfl
@[simp] theorem State.putHost_regs (x) : (s.putHost x).regs = s.regs := rfl
@[simp] theorem State.putHost_tb (x) : (s.putHost x).tb = s.tb := rfl
@[simp] theorem State.putHost_rx (x) : (s.putHost x).rx = s.rx := rfl
@[simp] theorem State.putHost_tiles (x) : (s.putHost x).tiles = s.tiles := rfl
@[simp] theorem State.putHost_cmd (x) : (s.putHost x).cmd = s.cmd := rfl
@[simp] theorem State.putHost_mirLanes (x) : (s.putHost x).mirLanes = s.mirLanes := rfl
@[simp] theorem State.putHost_order (x) : (s.putHost x).order = s.order := rfl
@[simp] theorem State.putHost_queues (x) : (s.putHost x).queues = s.queues := rfl
@[simp] theorem State.putHost_bellows (x) : (s.putHost x).bellows = s.bellows := rfl
@[simp] theorem State.putHost_engines (x) : (s.putHost x).engines = s.engines := rfl
@[simp] theorem State.putHost_cores (x) : (s.putHost x).cores = s.cores := rfl
@[simp] theorem State.putHost_postRecs (x) : (s.putHost x).postRecs = s.postRecs := rfl
@[simp] theorem State.putHost_postSeq (x) : (s.putHost x).postSeq = s.postSeq := rfl
@[simp] theorem State.putHost_slots (x) : (s.putHost x).slots = s.slots := rfl
@[simp] theorem State.putHost_tdc (x) : (s.putHost x).tdc = s.tdc := rfl
@[simp] theorem State.putHost_bgs (x) : (s.putHost x).bgs = s.bgs := rfl
@[simp] theorem State.putHost_field (x) : (s.putHost x).field = s.field := rfl
@[simp] theorem State.putHost_hearth (x) : (s.putHost x).hearth = s.hearth := rfl
@[simp] theorem State.putHost_trig (x) : (s.putHost x).trig = s.trig := rfl
@[simp] theorem State.putHost_staging (x) : (s.putHost x).staging = s.staging := rfl
@[simp] theorem State.putHost_comps (x) : (s.putHost x).comps = s.comps := rfl
@[simp] theorem State.putHost_jobs (x) : (s.putHost x).jobs = s.jobs := rfl
@[simp] theorem State.putHost_pair (x) : (s.putHost x).pair = s.pair := rfl
@[simp] theorem State.putHost_host (x) : (s.putHost x).host = x := rfl
@[simp] theorem State.putHost_ptp (x) : (s.putHost x).ptp = s.ptp := rfl
@[simp] theorem State.putHost_nvs (x) : (s.putHost x).nvs = s.nvs := rfl
@[simp] theorem State.putHost_sys (x) : (s.putHost x).sys = s.sys := rfl
@[simp] theorem State.putHost_tap (x) : (s.putHost x).tap = s.tap := rfl
@[simp] theorem State.putHost_kept (x) : (s.putHost x).kept = s.kept := rfl
@[simp] theorem State.putHost_keptBad (x) : (s.putHost x).keptBad = s.keptBad := rfl

@[simp] theorem State.putPtp_pending (x) : (s.putPtp x).pending = s.pending := rfl
@[simp] theorem State.putPtp_part (x) : (s.putPtp x).part = s.part := rfl
@[simp] theorem State.putPtp_stepping (x) : (s.putPtp x).stepping = s.stepping := rfl
@[simp] theorem State.putPtp_out (x) : (s.putPtp x).out = s.out := rfl
@[simp] theorem State.putPtp_freeUse (x) : (s.putPtp x).freeUse = s.freeUse := rfl
@[simp] theorem State.putPtp_fns (x) : (s.putPtp x).fns = s.fns := rfl
@[simp] theorem State.putPtp_regs (x) : (s.putPtp x).regs = s.regs := rfl
@[simp] theorem State.putPtp_tb (x) : (s.putPtp x).tb = s.tb := rfl
@[simp] theorem State.putPtp_rx (x) : (s.putPtp x).rx = s.rx := rfl
@[simp] theorem State.putPtp_tiles (x) : (s.putPtp x).tiles = s.tiles := rfl
@[simp] theorem State.putPtp_cmd (x) : (s.putPtp x).cmd = s.cmd := rfl
@[simp] theorem State.putPtp_mirLanes (x) : (s.putPtp x).mirLanes = s.mirLanes := rfl
@[simp] theorem State.putPtp_order (x) : (s.putPtp x).order = s.order := rfl
@[simp] theorem State.putPtp_queues (x) : (s.putPtp x).queues = s.queues := rfl
@[simp] theorem State.putPtp_bellows (x) : (s.putPtp x).bellows = s.bellows := rfl
@[simp] theorem State.putPtp_engines (x) : (s.putPtp x).engines = s.engines := rfl
@[simp] theorem State.putPtp_cores (x) : (s.putPtp x).cores = s.cores := rfl
@[simp] theorem State.putPtp_postRecs (x) : (s.putPtp x).postRecs = s.postRecs := rfl
@[simp] theorem State.putPtp_postSeq (x) : (s.putPtp x).postSeq = s.postSeq := rfl
@[simp] theorem State.putPtp_slots (x) : (s.putPtp x).slots = s.slots := rfl
@[simp] theorem State.putPtp_tdc (x) : (s.putPtp x).tdc = s.tdc := rfl
@[simp] theorem State.putPtp_bgs (x) : (s.putPtp x).bgs = s.bgs := rfl
@[simp] theorem State.putPtp_field (x) : (s.putPtp x).field = s.field := rfl
@[simp] theorem State.putPtp_hearth (x) : (s.putPtp x).hearth = s.hearth := rfl
@[simp] theorem State.putPtp_trig (x) : (s.putPtp x).trig = s.trig := rfl
@[simp] theorem State.putPtp_staging (x) : (s.putPtp x).staging = s.staging := rfl
@[simp] theorem State.putPtp_comps (x) : (s.putPtp x).comps = s.comps := rfl
@[simp] theorem State.putPtp_jobs (x) : (s.putPtp x).jobs = s.jobs := rfl
@[simp] theorem State.putPtp_pair (x) : (s.putPtp x).pair = s.pair := rfl
@[simp] theorem State.putPtp_host (x) : (s.putPtp x).host = s.host := rfl
@[simp] theorem State.putPtp_ptp (x) : (s.putPtp x).ptp = x := rfl
@[simp] theorem State.putPtp_nvs (x) : (s.putPtp x).nvs = s.nvs := rfl
@[simp] theorem State.putPtp_sys (x) : (s.putPtp x).sys = s.sys := rfl
@[simp] theorem State.putPtp_tap (x) : (s.putPtp x).tap = s.tap := rfl
@[simp] theorem State.putPtp_kept (x) : (s.putPtp x).kept = s.kept := rfl
@[simp] theorem State.putPtp_keptBad (x) : (s.putPtp x).keptBad = s.keptBad := rfl

@[simp] theorem State.putNvs_pending (x) : (s.putNvs x).pending = s.pending := rfl
@[simp] theorem State.putNvs_part (x) : (s.putNvs x).part = s.part := rfl
@[simp] theorem State.putNvs_stepping (x) : (s.putNvs x).stepping = s.stepping := rfl
@[simp] theorem State.putNvs_out (x) : (s.putNvs x).out = s.out := rfl
@[simp] theorem State.putNvs_freeUse (x) : (s.putNvs x).freeUse = s.freeUse := rfl
@[simp] theorem State.putNvs_fns (x) : (s.putNvs x).fns = s.fns := rfl
@[simp] theorem State.putNvs_regs (x) : (s.putNvs x).regs = s.regs := rfl
@[simp] theorem State.putNvs_tb (x) : (s.putNvs x).tb = s.tb := rfl
@[simp] theorem State.putNvs_rx (x) : (s.putNvs x).rx = s.rx := rfl
@[simp] theorem State.putNvs_tiles (x) : (s.putNvs x).tiles = s.tiles := rfl
@[simp] theorem State.putNvs_cmd (x) : (s.putNvs x).cmd = s.cmd := rfl
@[simp] theorem State.putNvs_mirLanes (x) : (s.putNvs x).mirLanes = s.mirLanes := rfl
@[simp] theorem State.putNvs_order (x) : (s.putNvs x).order = s.order := rfl
@[simp] theorem State.putNvs_queues (x) : (s.putNvs x).queues = s.queues := rfl
@[simp] theorem State.putNvs_bellows (x) : (s.putNvs x).bellows = s.bellows := rfl
@[simp] theorem State.putNvs_engines (x) : (s.putNvs x).engines = s.engines := rfl
@[simp] theorem State.putNvs_cores (x) : (s.putNvs x).cores = s.cores := rfl
@[simp] theorem State.putNvs_postRecs (x) : (s.putNvs x).postRecs = s.postRecs := rfl
@[simp] theorem State.putNvs_postSeq (x) : (s.putNvs x).postSeq = s.postSeq := rfl
@[simp] theorem State.putNvs_slots (x) : (s.putNvs x).slots = s.slots := rfl
@[simp] theorem State.putNvs_tdc (x) : (s.putNvs x).tdc = s.tdc := rfl
@[simp] theorem State.putNvs_bgs (x) : (s.putNvs x).bgs = s.bgs := rfl
@[simp] theorem State.putNvs_field (x) : (s.putNvs x).field = s.field := rfl
@[simp] theorem State.putNvs_hearth (x) : (s.putNvs x).hearth = s.hearth := rfl
@[simp] theorem State.putNvs_trig (x) : (s.putNvs x).trig = s.trig := rfl
@[simp] theorem State.putNvs_staging (x) : (s.putNvs x).staging = s.staging := rfl
@[simp] theorem State.putNvs_comps (x) : (s.putNvs x).comps = s.comps := rfl
@[simp] theorem State.putNvs_jobs (x) : (s.putNvs x).jobs = s.jobs := rfl
@[simp] theorem State.putNvs_pair (x) : (s.putNvs x).pair = s.pair := rfl
@[simp] theorem State.putNvs_host (x) : (s.putNvs x).host = s.host := rfl
@[simp] theorem State.putNvs_ptp (x) : (s.putNvs x).ptp = s.ptp := rfl
@[simp] theorem State.putNvs_nvs (x) : (s.putNvs x).nvs = x := rfl
@[simp] theorem State.putNvs_sys (x) : (s.putNvs x).sys = s.sys := rfl
@[simp] theorem State.putNvs_tap (x) : (s.putNvs x).tap = s.tap := rfl
@[simp] theorem State.putNvs_kept (x) : (s.putNvs x).kept = s.kept := rfl
@[simp] theorem State.putNvs_keptBad (x) : (s.putNvs x).keptBad = s.keptBad := rfl

@[simp] theorem State.putSys_pending (x) : (s.putSys x).pending = s.pending := rfl
@[simp] theorem State.putSys_part (x) : (s.putSys x).part = s.part := rfl
@[simp] theorem State.putSys_stepping (x) : (s.putSys x).stepping = s.stepping := rfl
@[simp] theorem State.putSys_out (x) : (s.putSys x).out = s.out := rfl
@[simp] theorem State.putSys_freeUse (x) : (s.putSys x).freeUse = s.freeUse := rfl
@[simp] theorem State.putSys_fns (x) : (s.putSys x).fns = s.fns := rfl
@[simp] theorem State.putSys_regs (x) : (s.putSys x).regs = s.regs := rfl
@[simp] theorem State.putSys_tb (x) : (s.putSys x).tb = s.tb := rfl
@[simp] theorem State.putSys_rx (x) : (s.putSys x).rx = s.rx := rfl
@[simp] theorem State.putSys_tiles (x) : (s.putSys x).tiles = s.tiles := rfl
@[simp] theorem State.putSys_cmd (x) : (s.putSys x).cmd = s.cmd := rfl
@[simp] theorem State.putSys_mirLanes (x) : (s.putSys x).mirLanes = s.mirLanes := rfl
@[simp] theorem State.putSys_order (x) : (s.putSys x).order = s.order := rfl
@[simp] theorem State.putSys_queues (x) : (s.putSys x).queues = s.queues := rfl
@[simp] theorem State.putSys_bellows (x) : (s.putSys x).bellows = s.bellows := rfl
@[simp] theorem State.putSys_engines (x) : (s.putSys x).engines = s.engines := rfl
@[simp] theorem State.putSys_cores (x) : (s.putSys x).cores = s.cores := rfl
@[simp] theorem State.putSys_postRecs (x) : (s.putSys x).postRecs = s.postRecs := rfl
@[simp] theorem State.putSys_postSeq (x) : (s.putSys x).postSeq = s.postSeq := rfl
@[simp] theorem State.putSys_slots (x) : (s.putSys x).slots = s.slots := rfl
@[simp] theorem State.putSys_tdc (x) : (s.putSys x).tdc = s.tdc := rfl
@[simp] theorem State.putSys_bgs (x) : (s.putSys x).bgs = s.bgs := rfl
@[simp] theorem State.putSys_field (x) : (s.putSys x).field = s.field := rfl
@[simp] theorem State.putSys_hearth (x) : (s.putSys x).hearth = s.hearth := rfl
@[simp] theorem State.putSys_trig (x) : (s.putSys x).trig = s.trig := rfl
@[simp] theorem State.putSys_staging (x) : (s.putSys x).staging = s.staging := rfl
@[simp] theorem State.putSys_comps (x) : (s.putSys x).comps = s.comps := rfl
@[simp] theorem State.putSys_jobs (x) : (s.putSys x).jobs = s.jobs := rfl
@[simp] theorem State.putSys_pair (x) : (s.putSys x).pair = s.pair := rfl
@[simp] theorem State.putSys_host (x) : (s.putSys x).host = s.host := rfl
@[simp] theorem State.putSys_ptp (x) : (s.putSys x).ptp = s.ptp := rfl
@[simp] theorem State.putSys_nvs (x) : (s.putSys x).nvs = s.nvs := rfl
@[simp] theorem State.putSys_sys (x) : (s.putSys x).sys = x := rfl
@[simp] theorem State.putSys_tap (x) : (s.putSys x).tap = s.tap := rfl
@[simp] theorem State.putSys_kept (x) : (s.putSys x).kept = s.kept := rfl
@[simp] theorem State.putSys_keptBad (x) : (s.putSys x).keptBad = s.keptBad := rfl

@[simp] theorem State.putTap_pending (x) : (s.putTap x).pending = s.pending := rfl
@[simp] theorem State.putTap_part (x) : (s.putTap x).part = s.part := rfl
@[simp] theorem State.putTap_stepping (x) : (s.putTap x).stepping = s.stepping := rfl
@[simp] theorem State.putTap_out (x) : (s.putTap x).out = s.out := rfl
@[simp] theorem State.putTap_freeUse (x) : (s.putTap x).freeUse = s.freeUse := rfl
@[simp] theorem State.putTap_fns (x) : (s.putTap x).fns = s.fns := rfl
@[simp] theorem State.putTap_regs (x) : (s.putTap x).regs = s.regs := rfl
@[simp] theorem State.putTap_tb (x) : (s.putTap x).tb = s.tb := rfl
@[simp] theorem State.putTap_rx (x) : (s.putTap x).rx = s.rx := rfl
@[simp] theorem State.putTap_tiles (x) : (s.putTap x).tiles = s.tiles := rfl
@[simp] theorem State.putTap_cmd (x) : (s.putTap x).cmd = s.cmd := rfl
@[simp] theorem State.putTap_mirLanes (x) : (s.putTap x).mirLanes = s.mirLanes := rfl
@[simp] theorem State.putTap_order (x) : (s.putTap x).order = s.order := rfl
@[simp] theorem State.putTap_queues (x) : (s.putTap x).queues = s.queues := rfl
@[simp] theorem State.putTap_bellows (x) : (s.putTap x).bellows = s.bellows := rfl
@[simp] theorem State.putTap_engines (x) : (s.putTap x).engines = s.engines := rfl
@[simp] theorem State.putTap_cores (x) : (s.putTap x).cores = s.cores := rfl
@[simp] theorem State.putTap_postRecs (x) : (s.putTap x).postRecs = s.postRecs := rfl
@[simp] theorem State.putTap_postSeq (x) : (s.putTap x).postSeq = s.postSeq := rfl
@[simp] theorem State.putTap_slots (x) : (s.putTap x).slots = s.slots := rfl
@[simp] theorem State.putTap_tdc (x) : (s.putTap x).tdc = s.tdc := rfl
@[simp] theorem State.putTap_bgs (x) : (s.putTap x).bgs = s.bgs := rfl
@[simp] theorem State.putTap_field (x) : (s.putTap x).field = s.field := rfl
@[simp] theorem State.putTap_hearth (x) : (s.putTap x).hearth = s.hearth := rfl
@[simp] theorem State.putTap_trig (x) : (s.putTap x).trig = s.trig := rfl
@[simp] theorem State.putTap_staging (x) : (s.putTap x).staging = s.staging := rfl
@[simp] theorem State.putTap_comps (x) : (s.putTap x).comps = s.comps := rfl
@[simp] theorem State.putTap_jobs (x) : (s.putTap x).jobs = s.jobs := rfl
@[simp] theorem State.putTap_pair (x) : (s.putTap x).pair = s.pair := rfl
@[simp] theorem State.putTap_host (x) : (s.putTap x).host = s.host := rfl
@[simp] theorem State.putTap_ptp (x) : (s.putTap x).ptp = s.ptp := rfl
@[simp] theorem State.putTap_nvs (x) : (s.putTap x).nvs = s.nvs := rfl
@[simp] theorem State.putTap_sys (x) : (s.putTap x).sys = s.sys := rfl
@[simp] theorem State.putTap_tap (x) : (s.putTap x).tap = x := rfl
@[simp] theorem State.putTap_kept (x) : (s.putTap x).kept = s.kept := rfl
@[simp] theorem State.putTap_keptBad (x) : (s.putTap x).keptBad = s.keptBad := rfl

@[simp] theorem State.putKept_pending (x) : (s.putKept x).pending = s.pending := rfl
@[simp] theorem State.putKept_part (x) : (s.putKept x).part = s.part := rfl
@[simp] theorem State.putKept_stepping (x) : (s.putKept x).stepping = s.stepping := rfl
@[simp] theorem State.putKept_out (x) : (s.putKept x).out = s.out := rfl
@[simp] theorem State.putKept_freeUse (x) : (s.putKept x).freeUse = s.freeUse := rfl
@[simp] theorem State.putKept_fns (x) : (s.putKept x).fns = s.fns := rfl
@[simp] theorem State.putKept_regs (x) : (s.putKept x).regs = s.regs := rfl
@[simp] theorem State.putKept_tb (x) : (s.putKept x).tb = s.tb := rfl
@[simp] theorem State.putKept_rx (x) : (s.putKept x).rx = s.rx := rfl
@[simp] theorem State.putKept_tiles (x) : (s.putKept x).tiles = s.tiles := rfl
@[simp] theorem State.putKept_cmd (x) : (s.putKept x).cmd = s.cmd := rfl
@[simp] theorem State.putKept_mirLanes (x) : (s.putKept x).mirLanes = s.mirLanes := rfl
@[simp] theorem State.putKept_order (x) : (s.putKept x).order = s.order := rfl
@[simp] theorem State.putKept_queues (x) : (s.putKept x).queues = s.queues := rfl
@[simp] theorem State.putKept_bellows (x) : (s.putKept x).bellows = s.bellows := rfl
@[simp] theorem State.putKept_engines (x) : (s.putKept x).engines = s.engines := rfl
@[simp] theorem State.putKept_cores (x) : (s.putKept x).cores = s.cores := rfl
@[simp] theorem State.putKept_postRecs (x) : (s.putKept x).postRecs = s.postRecs := rfl
@[simp] theorem State.putKept_postSeq (x) : (s.putKept x).postSeq = s.postSeq := rfl
@[simp] theorem State.putKept_slots (x) : (s.putKept x).slots = s.slots := rfl
@[simp] theorem State.putKept_tdc (x) : (s.putKept x).tdc = s.tdc := rfl
@[simp] theorem State.putKept_bgs (x) : (s.putKept x).bgs = s.bgs := rfl
@[simp] theorem State.putKept_field (x) : (s.putKept x).field = s.field := rfl
@[simp] theorem State.putKept_hearth (x) : (s.putKept x).hearth = s.hearth := rfl
@[simp] theorem State.putKept_trig (x) : (s.putKept x).trig = s.trig := rfl
@[simp] theorem State.putKept_staging (x) : (s.putKept x).staging = s.staging := rfl
@[simp] theorem State.putKept_comps (x) : (s.putKept x).comps = s.comps := rfl
@[simp] theorem State.putKept_jobs (x) : (s.putKept x).jobs = s.jobs := rfl
@[simp] theorem State.putKept_pair (x) : (s.putKept x).pair = s.pair := rfl
@[simp] theorem State.putKept_host (x) : (s.putKept x).host = s.host := rfl
@[simp] theorem State.putKept_ptp (x) : (s.putKept x).ptp = s.ptp := rfl
@[simp] theorem State.putKept_nvs (x) : (s.putKept x).nvs = s.nvs := rfl
@[simp] theorem State.putKept_sys (x) : (s.putKept x).sys = s.sys := rfl
@[simp] theorem State.putKept_tap (x) : (s.putKept x).tap = s.tap := rfl
@[simp] theorem State.putKept_kept (x) : (s.putKept x).kept = x := rfl
@[simp] theorem State.putKept_keptBad (x) : (s.putKept x).keptBad = s.keptBad := rfl

@[simp] theorem State.putKeptBad_pending (x) : (s.putKeptBad x).pending = s.pending := rfl
@[simp] theorem State.putKeptBad_part (x) : (s.putKeptBad x).part = s.part := rfl
@[simp] theorem State.putKeptBad_stepping (x) : (s.putKeptBad x).stepping = s.stepping := rfl
@[simp] theorem State.putKeptBad_out (x) : (s.putKeptBad x).out = s.out := rfl
@[simp] theorem State.putKeptBad_freeUse (x) : (s.putKeptBad x).freeUse = s.freeUse := rfl
@[simp] theorem State.putKeptBad_fns (x) : (s.putKeptBad x).fns = s.fns := rfl
@[simp] theorem State.putKeptBad_regs (x) : (s.putKeptBad x).regs = s.regs := rfl
@[simp] theorem State.putKeptBad_tb (x) : (s.putKeptBad x).tb = s.tb := rfl
@[simp] theorem State.putKeptBad_rx (x) : (s.putKeptBad x).rx = s.rx := rfl
@[simp] theorem State.putKeptBad_tiles (x) : (s.putKeptBad x).tiles = s.tiles := rfl
@[simp] theorem State.putKeptBad_cmd (x) : (s.putKeptBad x).cmd = s.cmd := rfl
@[simp] theorem State.putKeptBad_mirLanes (x) : (s.putKeptBad x).mirLanes = s.mirLanes := rfl
@[simp] theorem State.putKeptBad_order (x) : (s.putKeptBad x).order = s.order := rfl
@[simp] theorem State.putKeptBad_queues (x) : (s.putKeptBad x).queues = s.queues := rfl
@[simp] theorem State.putKeptBad_bellows (x) : (s.putKeptBad x).bellows = s.bellows := rfl
@[simp] theorem State.putKeptBad_engines (x) : (s.putKeptBad x).engines = s.engines := rfl
@[simp] theorem State.putKeptBad_cores (x) : (s.putKeptBad x).cores = s.cores := rfl
@[simp] theorem State.putKeptBad_postRecs (x) : (s.putKeptBad x).postRecs = s.postRecs := rfl
@[simp] theorem State.putKeptBad_postSeq (x) : (s.putKeptBad x).postSeq = s.postSeq := rfl
@[simp] theorem State.putKeptBad_slots (x) : (s.putKeptBad x).slots = s.slots := rfl
@[simp] theorem State.putKeptBad_tdc (x) : (s.putKeptBad x).tdc = s.tdc := rfl
@[simp] theorem State.putKeptBad_bgs (x) : (s.putKeptBad x).bgs = s.bgs := rfl
@[simp] theorem State.putKeptBad_field (x) : (s.putKeptBad x).field = s.field := rfl
@[simp] theorem State.putKeptBad_hearth (x) : (s.putKeptBad x).hearth = s.hearth := rfl
@[simp] theorem State.putKeptBad_trig (x) : (s.putKeptBad x).trig = s.trig := rfl
@[simp] theorem State.putKeptBad_staging (x) : (s.putKeptBad x).staging = s.staging := rfl
@[simp] theorem State.putKeptBad_comps (x) : (s.putKeptBad x).comps = s.comps := rfl
@[simp] theorem State.putKeptBad_jobs (x) : (s.putKeptBad x).jobs = s.jobs := rfl
@[simp] theorem State.putKeptBad_pair (x) : (s.putKeptBad x).pair = s.pair := rfl
@[simp] theorem State.putKeptBad_host (x) : (s.putKeptBad x).host = s.host := rfl
@[simp] theorem State.putKeptBad_ptp (x) : (s.putKeptBad x).ptp = s.ptp := rfl
@[simp] theorem State.putKeptBad_nvs (x) : (s.putKeptBad x).nvs = s.nvs := rfl
@[simp] theorem State.putKeptBad_sys (x) : (s.putKeptBad x).sys = s.sys := rfl
@[simp] theorem State.putKeptBad_tap (x) : (s.putKeptBad x).tap = s.tap := rfl
@[simp] theorem State.putKeptBad_kept (x) : (s.putKeptBad x).kept = s.kept := rfl
@[simp] theorem State.putKeptBad_keptBad (x) : (s.putKeptBad x).keptBad = x := rfl

end Sys2Proof.Machine
end

