-- ==== Sys2Proof/Laws/Ops.lean ====
section
/-!
SUPPORT. The register file and the states of the functions (Ops.lean): what a register, a field, a bit or a function's state reads
after each operation on them, and that the operations on other parts leave them.
-/

namespace Sys2Proof.Machine

variable (s : State)

/-! ### Other parts -/

@[simp] theorem State.putOut_reg (x) (a : Nat) : (s.putOut x).reg a = s.reg a := rfl
@[simp] theorem State.putOut_fn (x) (f : Fn) : (s.putOut x).fn f = s.fn f := rfl
@[simp] theorem State.putFreeUse_reg (x) (a : Nat) : (s.putFreeUse x).reg a = s.reg a := rfl
@[simp] theorem State.putFreeUse_fn (x) (f : Fn) : (s.putFreeUse x).fn f = s.fn f := rfl
@[simp] theorem State.putFns_reg (x) (a : Nat) : (s.putFns x).reg a = s.reg a := rfl
@[simp] theorem State.putRegs_fn (x) (f : Fn) : (s.putRegs x).fn f = s.fn f := rfl
@[simp] theorem State.putTb_reg (x) (a : Nat) : (s.putTb x).reg a = s.reg a := rfl
@[simp] theorem State.putTb_fn (x) (f : Fn) : (s.putTb x).fn f = s.fn f := rfl
@[simp] theorem State.putRx_reg (x) (a : Nat) : (s.putRx x).reg a = s.reg a := rfl
@[simp] theorem State.putRx_fn (x) (f : Fn) : (s.putRx x).fn f = s.fn f := rfl
@[simp] theorem State.putTiles_reg (x) (a : Nat) : (s.putTiles x).reg a = s.reg a := rfl
@[simp] theorem State.putTiles_fn (x) (f : Fn) : (s.putTiles x).fn f = s.fn f := rfl
@[simp] theorem State.putCmd_reg (x) (a : Nat) : (s.putCmd x).reg a = s.reg a := rfl
@[simp] theorem State.putCmd_fn (x) (f : Fn) : (s.putCmd x).fn f = s.fn f := rfl
@[simp] theorem State.putMirLanes_reg (x) (a : Nat) : (s.putMirLanes x).reg a = s.reg a := rfl
@[simp] theorem State.putMirLanes_fn (x) (f : Fn) : (s.putMirLanes x).fn f = s.fn f := rfl
@[simp] theorem State.putOrder_reg (x) (a : Nat) : (s.putOrder x).reg a = s.reg a := rfl
@[simp] theorem State.putOrder_fn (x) (f : Fn) : (s.putOrder x).fn f = s.fn f := rfl
@[simp] theorem State.putQueues_reg (x) (a : Nat) : (s.putQueues x).reg a = s.reg a := rfl
@[simp] theorem State.putQueues_fn (x) (f : Fn) : (s.putQueues x).fn f = s.fn f := rfl
@[simp] theorem State.putBellows_reg (x) (a : Nat) : (s.putBellows x).reg a = s.reg a := rfl
@[simp] theorem State.putBellows_fn (x) (f : Fn) : (s.putBellows x).fn f = s.fn f := rfl
@[simp] theorem State.putEngines_reg (x) (a : Nat) : (s.putEngines x).reg a = s.reg a := rfl
@[simp] theorem State.putEngines_fn (x) (f : Fn) : (s.putEngines x).fn f = s.fn f := rfl
@[simp] theorem State.putCores_reg (x) (a : Nat) : (s.putCores x).reg a = s.reg a := rfl
@[simp] theorem State.putCores_fn (x) (f : Fn) : (s.putCores x).fn f = s.fn f := rfl
@[simp] theorem State.putPostRecs_reg (x) (a : Nat) : (s.putPostRecs x).reg a = s.reg a := rfl
@[simp] theorem State.putPostRecs_fn (x) (f : Fn) : (s.putPostRecs x).fn f = s.fn f := rfl
@[simp] theorem State.putPostSeq_reg (x) (a : Nat) : (s.putPostSeq x).reg a = s.reg a := rfl
@[simp] theorem State.putPostSeq_fn (x) (f : Fn) : (s.putPostSeq x).fn f = s.fn f := rfl
@[simp] theorem State.putSlots_reg (x) (a : Nat) : (s.putSlots x).reg a = s.reg a := rfl
@[simp] theorem State.putSlots_fn (x) (f : Fn) : (s.putSlots x).fn f = s.fn f := rfl
@[simp] theorem State.putTdc_reg (x) (a : Nat) : (s.putTdc x).reg a = s.reg a := rfl
@[simp] theorem State.putTdc_fn (x) (f : Fn) : (s.putTdc x).fn f = s.fn f := rfl
@[simp] theorem State.putBgs_reg (x) (a : Nat) : (s.putBgs x).reg a = s.reg a := rfl
@[simp] theorem State.putBgs_fn (x) (f : Fn) : (s.putBgs x).fn f = s.fn f := rfl
@[simp] theorem State.putField_reg (x) (a : Nat) : (s.putField x).reg a = s.reg a := rfl
@[simp] theorem State.putField_fn (x) (f : Fn) : (s.putField x).fn f = s.fn f := rfl
@[simp] theorem State.putHearth_reg (x) (a : Nat) : (s.putHearth x).reg a = s.reg a := rfl
@[simp] theorem State.putHearth_fn (x) (f : Fn) : (s.putHearth x).fn f = s.fn f := rfl
@[simp] theorem State.putMem_reg (x) (a : Nat) : (s.putMem x).reg a = s.reg a := rfl
@[simp] theorem State.putMem_fn (x) (f : Fn) : (s.putMem x).fn f = s.fn f := rfl
@[simp] theorem State.putTrig_reg (x) (a : Nat) : (s.putTrig x).reg a = s.reg a := rfl
@[simp] theorem State.putTrig_fn (x) (f : Fn) : (s.putTrig x).fn f = s.fn f := rfl
@[simp] theorem State.putStaging_reg (x) (a : Nat) : (s.putStaging x).reg a = s.reg a := rfl
@[simp] theorem State.putStaging_fn (x) (f : Fn) : (s.putStaging x).fn f = s.fn f := rfl
@[simp] theorem State.putComps_reg (x) (a : Nat) : (s.putComps x).reg a = s.reg a := rfl
@[simp] theorem State.putComps_fn (x) (f : Fn) : (s.putComps x).fn f = s.fn f := rfl
@[simp] theorem State.putJobs_reg (x) (a : Nat) : (s.putJobs x).reg a = s.reg a := rfl
@[simp] theorem State.putJobs_fn (x) (f : Fn) : (s.putJobs x).fn f = s.fn f := rfl
@[simp] theorem State.putPair_reg (x) (a : Nat) : (s.putPair x).reg a = s.reg a := rfl
@[simp] theorem State.putPair_fn (x) (f : Fn) : (s.putPair x).fn f = s.fn f := rfl
@[simp] theorem State.putHost_reg (x) (a : Nat) : (s.putHost x).reg a = s.reg a := rfl
@[simp] theorem State.putHost_fn (x) (f : Fn) : (s.putHost x).fn f = s.fn f := rfl
@[simp] theorem State.putPtp_reg (x) (a : Nat) : (s.putPtp x).reg a = s.reg a := rfl
@[simp] theorem State.putPtp_fn (x) (f : Fn) : (s.putPtp x).fn f = s.fn f := rfl
@[simp] theorem State.putNvs_reg (x) (a : Nat) : (s.putNvs x).reg a = s.reg a := rfl
@[simp] theorem State.putNvs_fn (x) (f : Fn) : (s.putNvs x).fn f = s.fn f := rfl
@[simp] theorem State.putSys_reg (x) (a : Nat) : (s.putSys x).reg a = s.reg a := rfl
@[simp] theorem State.putSys_fn (x) (f : Fn) : (s.putSys x).fn f = s.fn f := rfl
@[simp] theorem State.putTap_reg (x) (a : Nat) : (s.putTap x).reg a = s.reg a := rfl
@[simp] theorem State.putTap_fn (x) (f : Fn) : (s.putTap x).fn f = s.fn f := rfl
@[simp] theorem State.putKept_reg (x) (a : Nat) : (s.putKept x).reg a = s.reg a := rfl
@[simp] theorem State.putKept_fn (x) (f : Fn) : (s.putKept x).fn f = s.fn f := rfl
@[simp] theorem State.putKeptBad_reg (x) (a : Nat) : (s.putKeptBad x).reg a = s.reg a := rfl
@[simp] theorem State.putKeptBad_fn (x) (f : Fn) : (s.putKeptBad x).fn f = s.fn f := rfl

/-! ### Registers -/

@[simp] theorem State.setReg_reg (a v b : Nat) : (s.setReg a v).reg b = if b = a then v % 2 ^ 32 else s.reg b := by
  unfold State.reg State.setReg
  simp only [State.putRegs_regs]
  rw [show (s.putRegs (sput (s.rst a) s.regs a (BitVec.ofNat 32 v))).rst b = s.rst b from rfl]
  by_cases h : b = a
  · subst h
    rw [sget_sput, if_pos rfl, if_pos rfl, BitVec.toNat_ofNat]
  · rw [if_neg h]
    have : ∀ d e : Word, sget d (sput e s.regs a (BitVec.ofNat 32 v)) b = sget d s.regs b := by
      intro d e
      exact sget_sput_ne h
    rw [this]

theorem State.setReg_reg_self (a v : Nat) : (s.setReg a v).reg a = v % 2 ^ 32 := by simp

theorem State.setReg_reg_ne {a b : Nat} (v : Nat) (h : b ≠ a) : (s.setReg a v).reg b = s.reg b := by simp [h]

@[simp] theorem State.setFld_reg (a hi lo v b : Nat) :
    (s.setFld a hi lo v).reg b = if b = a then putBits (s.reg a) hi lo v % 2 ^ 32 else s.reg b := by
  simp [State.setFld]

@[simp] theorem State.setBit_reg (a i : Nat) (x : Bool) (b : Nat) :
    (s.setBit a i x).reg b = if b = a then putBits (s.reg a) i i (b2n x) % 2 ^ 32 else s.reg b := by
  simp [State.setBit]

@[simp] theorem State.count_reg (a n b : Nat) :
    (s.count a n).reg b = if s.present a = true ∧ b = a then min (s.reg a + n) 0xFFFFFFFF else s.reg b := by
  unfold State.count
  by_cases hp : s.present a = true
  · rw [if_pos hp, State.setReg_reg]
    by_cases h : b = a
    · rw [if_pos h, if_pos ⟨hp, h⟩]
      exact Nat.mod_eq_of_lt (by omega)
    · rw [if_neg h, if_neg (fun x => h x.2)]
  · rw [if_neg hp, if_neg (fun x => hp x.1)]

theorem reg_lt (a : Nat) : s.reg a < 2 ^ 32 := (sget (s.rst a) s.regs a).isLt

/-! ### Bit fields -/

theorem bits_eq (n hi lo : Nat) : bits n hi lo = n / 2 ^ lo % 2 ^ (hi + 1 - lo) := by
  unfold bits; rw [Nat.shiftRight_eq_div_pow]

/-- A number cut at two places: what is above, the field, what is below. -/
theorem cut (n p w : Nat) : n = (n / p / w * w + n / p % w) * p + n % p := by
  have a := Nat.div_add_mod n p
  have b := Nat.div_add_mod (n / p) w
  rw [Nat.mul_comm (n / p / w) w, b, Nat.mul_comm]; exact a.symm

theorem putBits_eq (n hi lo v : Nat) :
    putBits n hi lo v = (n / 2 ^ lo / 2 ^ (hi + 1 - lo) * 2 ^ (hi + 1 - lo) + v % 2 ^ (hi + 1 - lo)) * 2 ^ lo + n % 2 ^ lo := by
  unfold putBits
  simp only [bits_eq]
  have c := cut n (2 ^ lo) (2 ^ (hi + 1 - lo))
  generalize 2 ^ (hi + 1 - lo) = w at *
  generalize 2 ^ lo = p at *
  rw [Nat.add_mul] at c ⊢
  omega

theorem bits_putBits (n hi lo v : Nat) : bits (putBits n hi lo v) hi lo = v % 2 ^ (hi + 1 - lo) := by
  rw [bits_eq, putBits_eq]
  have hp : 0 < 2 ^ lo := Nat.two_pow_pos lo
  have hw : 0 < 2 ^ (hi + 1 - lo) := Nat.two_pow_pos _
  generalize 2 ^ (hi + 1 - lo) = w at *
  generalize 2 ^ lo = p at *
  rw [Nat.mul_comm _ p, Nat.mul_add_div hp, Nat.div_eq_of_lt (Nat.mod_lt _ hp), Nat.add_zero, Nat.mul_comm _ w, Nat.mul_add_mod,
    Nat.mod_mod]

/-- A bit of a number with a field replaced. -/
theorem testBit_putBits (n hi lo v i : Nat) :
    (putBits n hi lo v).testBit i
      = if i < lo then n.testBit i else if i < lo + (hi + 1 - lo) then v.testBit (i - lo) else n.testBit i := by
  rw [putBits_eq]
  have hlo : n % 2 ^ lo < 2 ^ lo := Nat.mod_lt _ (Nat.two_pow_pos _)
  rw [Nat.mul_comm _ (2 ^ lo), Nat.testBit_two_pow_mul_add _ hlo]
  split
  · rw [Nat.testBit_mod_two_pow]; simp [*]
  · rename_i h
    have hv : v % 2 ^ (hi + 1 - lo) < 2 ^ (hi + 1 - lo) := Nat.mod_lt _ (Nat.two_pow_pos _)
    rw [Nat.mul_comm _ (2 ^ (hi + 1 - lo)), Nat.testBit_two_pow_mul_add _ hv]
    by_cases h2 : i < lo + (hi + 1 - lo)
    · rw [if_pos (by omega), if_pos h2, Nat.testBit_mod_two_pow]
      simp; omega
    · rw [if_neg (by omega), if_neg h2, Nat.testBit_div_two_pow, Nat.testBit_div_two_pow]
      congr 1; omega

theorem putBits_lt {n hi lo v w : Nat} (h : hi < w) (hn : n < 2 ^ w) : putBits n hi lo v < 2 ^ w := by
  apply Nat.lt_pow_two_of_testBit
  intro i hi'
  rw [testBit_putBits]
  have := Nat.testBit_lt_two_pow (Nat.lt_of_lt_of_le hn (Nat.pow_le_pow_right (by decide) hi'))
  split
  · exact this
  · split
    · omega
    · exact this

theorem bits_putBits_disjoint (n hi lo v hi' lo' : Nat) (h : hi' < lo ∨ hi < lo') : bits (putBits n hi lo v) hi' lo' = bits n hi' lo' := by
  apply Nat.eq_of_testBit_eq
  intro i
  rw [bits_eq, bits_eq, Nat.testBit_mod_two_pow, Nat.testBit_mod_two_pow, Nat.testBit_div_two_pow, Nat.testBit_div_two_pow,
    testBit_putBits]
  by_cases hi1 : i < hi' + 1 - lo'
  · split
    · rfl
    · split
      · omega
      · rfl
  · simp [hi1]

/-- A register with a field replaced. -/
theorem State.setFld_reg_self {a hi lo v : Nat} (h : hi < 32) : (s.setFld a hi lo v).reg a = putBits (s.reg a) hi lo v := by
  rw [State.setFld_reg, if_pos rfl, Nat.mod_eq_of_lt (putBits_lt h (reg_lt s a))]

theorem State.setFld_reg_ne {a b hi lo v : Nat} (h : b ≠ a) : (s.setFld a hi lo v).reg b = s.reg b := by
  rw [State.setFld_reg, if_neg h]

theorem State.setBit_reg_ne {a b i : Nat} {x : Bool} (h : b ≠ a) : (s.setBit a i x).reg b = s.reg b := State.setFld_reg_ne s h

/-- The field replaced reads as it was written. -/
theorem State.setFld_fld {a hi lo v : Nat} (h : hi < 32) : (s.setFld a hi lo v).fld a hi lo = v % 2 ^ (hi + 1 - lo) := by
  unfold State.fld
  rw [State.setFld_reg_self s h, bits_putBits]

theorem State.setFld_fld_disjoint {a hi lo v hi' lo' : Nat} (h : hi < 32) (hd : hi' < lo ∨ hi < lo') :
    (s.setFld a hi lo v).fld a hi' lo' = s.fld a hi' lo' := by
  unfold State.fld
  rw [State.setFld_reg_self s h, bits_putBits_disjoint _ _ _ _ _ _ hd]

theorem State.setFld_fld_ne {a b hi lo v hi' lo' : Nat} (h : b ≠ a) : (s.setFld a hi lo v).fld b hi' lo' = s.fld b hi' lo' := by
  unfold State.fld
  rw [State.setFld_reg_ne s h]

/-- A bit after a field is replaced. -/
theorem State.setFld_bit {a hi lo v i : Nat} (h : hi < 32) :
    (s.setFld a hi lo v).bit a i = if i < lo then s.bit a i else if i < lo + (hi + 1 - lo) then v.testBit (i - lo) else s.bit a i := by
  unfold State.bit bitOf
  rw [State.setFld_reg_self s h, testBit_putBits]

theorem State.setFld_bit_ne {a b hi lo v i : Nat} (h : b ≠ a) : (s.setFld a hi lo v).bit b i = s.bit b i := by
  unfold State.bit
  rw [State.setFld_reg_ne s h]

theorem State.setBit_bit {a i j : Nat} {x : Bool} (h : i < 32) : (s.setBit a i x).bit a j = if j = i then x else s.bit a j := by
  unfold State.setBit
  rw [State.setFld_bit s h]
  by_cases hj : j = i
  · subst hj
    rw [if_neg (by omega), if_pos (by omega), if_pos rfl, Nat.sub_self]
    cases x <;> rfl
  · rw [if_neg hj]
    split
    · rfl
    · rw [if_neg (by omega)]

theorem State.setBit_bit_ne {a b i j : Nat} {x : Bool} (h : b ≠ a) : (s.setBit a i x).bit b j = s.bit b j := State.setFld_bit_ne s h

theorem State.setBit_fld_ne {a b i hi lo : Nat} {x : Bool} (h : b ≠ a) : (s.setBit a i x).fld b hi lo = s.fld b hi lo :=
  State.setFld_fld_ne s h

theorem State.setBit_fld_disjoint {a i hi lo : Nat} {x : Bool} (hi' : i < 32) (hd : hi < i ∨ i < lo) :
    (s.setBit a i x).fld a hi lo = s.fld a hi lo := State.setFld_fld_disjoint s hi' hd

/-! ### Functions -/

theorem Fn.num_inj {f g : Fn} (h : f.num = g.num) : f = g := by
  revert h
  cases f <;> cases g <;> decide

theorem Fn.num_lt (f : Fn) : f.num < 14 := by cases f <;> decide

/-- The record of a function after a change; a function in ABSENT stays there (R30). -/
theorem State.onFn_fn (f g : Fn) (u : FnInfo → FnInfo) :
    (s.onFn f u).fn g = if g = f then
      { u (s.fn f) with state := if (s.fn f).state = .absent then .absent else (u (s.fn f)).state } else s.fn g := by
  unfold State.onFn State.fn
  simp only [State.putFns_fns]
  by_cases h : g = f
  · subst h
    simp [Fn.num_lt]
  · rw [if_neg h, Vector.getElem?_setIfInBounds_ne (fun e => h (Fn.num_inj e).symm)]

@[simp] theorem State.onFn_reg (f : Fn) (u : FnInfo → FnInfo) (a : Nat) : (s.onFn f u).reg a = s.reg a := rfl

theorem State.setFn_fnState (f g : Fn) (x : FnState) :
    (s.setFn f x).fnState g = if g = f then (if s.fnState f = .absent then .absent else x) else s.fnState g := by
  unfold State.fnState State.setFn
  rw [State.onFn_fn]
  have hp : (s.onFn f (fun i => { i with state := x })).part = s.part := rfl
  rw [hp]
  by_cases hg : g = f
  · subst hg
    simp only [if_true]
    split <;> simp
  · simp only [hg, if_false]

@[simp] theorem State.setReg_fn (a v : Nat) (f : Fn) : (s.setReg a v).fn f = s.fn f := rfl
@[simp] theorem State.setReg_part (a v : Nat) : (s.setReg a v).part = s.part := rfl
@[simp] theorem State.setFld_fn (a hi lo v : Nat) (f : Fn) : (s.setFld a hi lo v).fn f = s.fn f := rfl
@[simp] theorem State.setBit_fn (a i : Nat) (x : Bool) (f : Fn) : (s.setBit a i x).fn f = s.fn f := rfl

end Sys2Proof.Machine
end

