-- ==== Sys2Proof/WellFormed.lean ====
section
/-!
DEFINITION. Which commands are well formed: every operand within the field that carries it (the widths of the chapters).
-/

namespace Sys2Proof

/-- The fields of a CAPS block (R65). -/
def Caps.wf (c : Caps) : Bool :=
  decide (c.maxStep < 256) && decide (c.formats < 256) && decide (c.family < 256) && decide (c.version < 256)

/-- The pace of a woken island: the island and a time of 16 bits. -/
def paceOk (m : Nat × Nat) : Bool := decide (m.1 < 12) && decide (m.2 < 65536)

/-- The fields of a PTP header (R322). -/
def PtpHead.wf (h : PtpHead) : Bool :=
  h.tag.all (fun v => decide (v < 4096)) && h.tlvs.all (fun v => decide (v < 65536)) && decide (h.version < 16) && decide (h.domain < 256) && decide (h.clock < 2 ^ 64) && decide (h.port < 65536) && decide (h.seq < 65536)
    && decide (-(2 ^ 63) ≤ h.corr) && decide (h.corr < 2 ^ 63)

/-- The fields of an Announce (R326). -/
def PtpData.wf (d : PtpData) : Bool :=
  decide (d.gm < 2 ^ 64) && decide (d.prio1 < 256) && decide (d.class_ < 256) && decide (d.acc < 256) && decide (d.variance < 65536)
    && decide (d.prio2 < 256) && decide (d.steps < 65536) && decide (d.utc < 65536)

/-- The fields of a DECISION (R377). -/
def Decision.wf (d : Decision) : Bool :=
  decide (d.seg < 64) && decide (d.frame < 2 ^ 32) && decide (d.tfrac < 65536) && decide (d.stamp < 2 ^ 80) && decide (d.src < 64)

/-- The fields of a STATE message as the model lays them out. -/
def StateMsg.wf : StateMsg → Bool
  | .image total off body => decide (total < 2 ^ 32) && decide (off + body.length ≤ total)
  | .reg addr seg tile val => decide (addr < 2 ^ 26) && decide (seg < 64) && decide (tile < 64) && decide (val < 2 ^ 32)
  | .fnCmd _ cmd at_ => decide (1 ≤ cmd) && decide (cmd ≤ 3) && decide (at_ < 2 ^ 80)
  | .segment i phase recCount f0 => decide (i < 64) && decide (phase < 8) && decide (recCount < 2 ^ 32) && decide (f0 < 2 ^ 32)
  | .timeTrig ns => decide (ns < 2 ^ 64)
  | .step d => decide (-(2 ^ 79) ≤ d) && decide (d < 2 ^ 79)

/-- The fields of a RECORD message (R377). -/
def RecordMsg.wf : RecordMsg → Bool
  | .arm seg f0 _ => decide (seg < 64) && decide (f0 < 2 ^ 32)
  | .disarm => true
  | .post seg recno => decide (seg < 64) && decide (recno < 2 ^ 32)
  | .close seg qact flags cstamp => decide (seg < 64) && decide (qact < 2 ^ 32) && decide (flags < 2 ^ 32) && decide (cstamp < 2 ^ 80)
  | .release seg => decide (seg < 64)

/-- The fields of a forwarded command (R389, R394). -/
def ForwardCmd.wf : ForwardCmd → Bool
  | .trigger stamp _ => decide (stamp < 2 ^ 80)
  | .release seg => decide (seg < 64)
  | .timeTrigger ns => decide (ns < 2 ^ 64)
  | .handover h n => decide (h < 2 ^ 80) && decide (n < 2 ^ 32)
  | .armCheck status engine check pCheck =>
    decide (status < 256) && decide (engine < 256) && decide (check < 256) && decide (pCheck < 2 ^ 32)

/-- A SEQ has the width of what waited (R53, R376). -/
def DeskewAt.seqOk : DeskewAt → Nat → Bool
  | .tile _, seq => decide (seq < 65536)
  | .mirror, seq => decide (seq < 2 ^ 32)

/-- What the scrub finds lies in Hearth (R229). -/
def ScrubFinding.wf : ScrubFinding → Bool
  | .clean => true
  | .single addr | .uncorrectable addr => decide (addr < 2 ^ 40)
  | .crc slot tile => decide (slot < 2 ^ 21) && decide (tile < 48)

/-- What the sensors show fits its telemetry fields (R450). -/
def Sensors.wf (x : Sensors) : Bool :=
  decide (-32768 ≤ x.tjCore) && decide (x.tjCore < 32768) && decide (-32768 ≤ x.tjField) && decide (x.tjField < 32768)
    && decide (x.volt.length = 8) && x.volt.all (fun v => decide (v < 65536)) && decide (x.pCore < 2 ^ 32) && decide (x.pField < 65536)
    && decide (x.memBw < 2 ^ 32)

/-- What boot finds (R206, R422): channels and tiles that exist. -/
def BootFacts.wf (x : BootFacts) : Bool :=
  x.chans.all (fun c => decide (c.1 < 64) && decide (1 ≤ c.2.1) && decide (c.2.1 ≤ 2) && decide (1 ≤ c.2.2) && decide (c.2.2 ≤ 32))
    && x.families.all (fun f => decide (f.1 < 48) && decide (f.2 < 256))

/-- A command is well formed. [DESIGN CHOICE, log entry 5] -/
def Instr.wf (i : Instr) : Bool :=
  match i with
  | .registerWrite _ addr _ _ ho => decide (addr < 2 ^ 26) && decide (ho.1 < 2 ^ 80) && decide (ho.2 < 2 ^ 32)
  | .rcCounterRead _ addr => decide (addr.access < 2 ^ 26)
  | .start _ => true
  | .stop _ => true
  | .quench _ => true
  | .globalQuench => true
  | .startingComplete _ => true
  | .stoppingComplete _ => true
  | .fieldDieResetAssert => true
  | .fieldDieResetRelease => true
  | .d2dLinkUp => true
  | .d2dLinkDown => true
  | .fieldDieReinitDone => true
  | .dieTempThreshold temp => decide (-32768 ≤ temp) && decide (temp < 32768)
  | .logWindowClose _ k => decide (k < 2 ^ 60)
  | .stripRx _ _ t _ => decide (t < 2 ^ 80)
  | .deskewTimeout d seq => d.seqOk seq
  | .invalidSyncHeader _ => true
  | .blockLockGained _ => true
  | .blockLockLost _ => true
  | .fillRx _ held => decide (held ≤ 8)
  | .idleRx _ counter fill => decide (counter < 2 ^ 32) && decide (fill < 65536)
  | .trainRx _ _ pos _ _ counter => decide (pos < 32) && decide (counter < 65536)
  | .capsRx _ c => c.wf
  | .rateRx _ step _ => decide (step < 256)
  | .rateSwitch _ => true
  | .cfgaRx _ tag status data => decide (tag < 256) && decide (status < 256) && decide (data < 2 ^ 32)
  | .elasticOverflow _ => true
  | .fillGapResend _ ppm10 => decide (-32768 ≤ ppm10) && decide (ppm10 < 32768)
  | .trainingComplete _ ppm10 eq =>
    decide (-32768 ≤ ppm10) && decide (ppm10 < 32768) && decide (eq.eq0 < 2 ^ 32) && decide (eq.eq1 < 2 ^ 32)
  | .stageTimeout _ => true
  | .stageRetry _ => true
  | .slip _ => true
  | .retrain _ => true
  | .clrCeil _ => true
  | .alignDone _ => true
  | .eqFreeze _ => true
  | .eqResume _ => true
  | .frameCommand slots => decide (slots.length ≤ 48) && slots.all (fun d => decide (d < 65536))
  | .fillInsert _ => true
  | .feAccessGo _ => true
  | .feAccessTimeout _ => true
  | .prbsLock _ => true
  | .prbsReseed _ errors => decide (errors < 2 ^ 32)
  | .prbsInject n _ => decide (n < 256)
  | .lanePllLoss => true
  | .txGroupPllLoss => true
  | .auxPackerTimeout => true
  | .queueFlush _ => true
  | .clrPeak _ => true
  | .bellowsPinChange _ _ => true
  | .blwForce _ _ => true
  | .itemCopyStart _ => true
  | .tokenPost _ _ => true
  | .bypassDispatch _ _ => true
  | .ingDrainTimeout => true
  | .bundleIssue _ _ => true
  | .fenceComplete _ => true
  | .waitStripReturn _ => true
  | .emitAccepted _ => true
  | .postLsResume _ => true
  | .waitEventReturn _ => true
  | .waitEventTimeout _ => true
  | .sysComplete _ => true
  | .anvStopTimeout => true
  | .loadRunImage _ _ meas => meas.all paceOk
  | .fragmentEnterStream _ => true
  | .blockCodingStart _ => true
  | .blockVerifyDone _ _ => true
  | .blockCommit _ => true
  | .hearthWriteResume _ => true
  | .slotWriteResume => true
  | .tileFrameTimeout _ n => decide (n < 2 ^ 32)
  | .segcmdRelease => true
  | .scrubStep finding _ => finding.wf
  | .quenchSlotWritesDone => true
  | .trigEdge _ c _ => decide (c < 2 ^ 96)
  | .discrepancyTimeout _ => true
  | .dualInputIdle _ => true
  | .frameStart => true
  | .triggerEvaluation t => decide (t < 2 ^ 80)
  | .arm _ meas partner => meas.all paceOk && decide (partner.status < 256)
  | .disarm _ => true
  | .rearm => true
  | .hosttrigGo => true
  | .trigger _ hs => decide (hs < 256)
  | .timeTrigger _ hs => decide (hs < 256)
  | .timeTriggerFire => true
  | .reductionIntervalEnd _ => true
  | .measurementReady => true
  | .measure _ => true
  | .outputTimedPulse _ t => decide (t < 2 ^ 80)
  | .outputPulseEnd _ => true
  | .outputTestStart _ => true
  | .outputTestReadback _ _ => true
  | .outputTestEnd _ => true
  | .jobSubmit => true
  | .compress _ _ => true
  | .decompress _ => true
  | .check _ => true
  | .jobDone => true
  | .jobAbort => true
  | .cmpStopTimeout => true
  | .tbIncWrite _ => true
  | .tbNowRead => true
  | .stepGo => true
  | .stepCancel => true
  | .stepApply => true
  | .tdcEdge _ c _ => decide (c < 2 ^ 96)
  | .gateEdge _ c _ => decide (c < 2 ^ 96)
  | .tdcSoftwareArm _ => true
  | .statisticsClear _ => true
  | .tdcWindowEnd _ => true
  | .interpolatorRecalStart _ => true
  | .codeDensityCollected hist => decide (hist.length = 800)
  | .interpolatorHandover _ temp => decide (-128 ≤ temp) && decide (temp < 128)
  | .ethRateFallback _ => true
  | .ethBlockLock _ => true
  | .ethLockLoss _ => true
  | .syncRx _ h _ origin raw => h.wf && decide (origin < 2 ^ 80) && decide (raw < 2 ^ 80)
  | .followUpRx _ h origin => h.wf && decide (origin < 2 ^ 80)
  | .delayReqRx _ h raw => h.wf && decide (raw < 2 ^ 80)
  | .delayRespRx _ h recv reqClock reqPort =>
    h.wf && decide (recv < 2 ^ 80) && decide (reqClock < 2 ^ 64) && decide (reqPort < 65536)
  | .pdelayReqRx _ h raw => h.wf && decide (raw < 2 ^ 80)
  | .pdelayRespRx _ h _ recv reqClock reqPort raw =>
    h.wf && decide (recv < 2 ^ 80) && decide (reqClock < 2 ^ 64) && decide (reqPort < 65536) && decide (raw < 2 ^ 80)
  | .pdelayRespFollowUpRx _ h origin reqClock reqPort =>
    h.wf && decide (origin < 2 ^ 80) && decide (reqClock < 2 ^ 64) && decide (reqPort < 65536)
  | .announceRx _ h d => h.wf && d.wf
  | .syncTx _ => true
  | .announceTx _ => true
  | .delayReqTx _ => true
  | .pdelayReqTx _ => true
  | .masterTimeout _ _ => true
  | .rigTriggerRx _ _ frame hs => decide (frame.length ≤ 1518) && decide (hs < 256)
  | .imgBlockRx _ _ addrs kind body _ => decide (addrs.length + kind.length + body.length ≤ 1518)
  | .imgAckRx _ _ frame raw => decide (frame.length ≤ 1518) && decide (raw < 2 ^ 80)
  | .imgResendTimeout _ off => decide (off < 2 ^ 32)
  | .rigTrigger _ hs => decide (hs < 256)
  | .chargeAmpReset _ => true
  | .chargeResetEnd _ => true
  | .excWrite _ _ => true
  | .excitationApply _ => true
  | .excitationSettled _ => true
  | .adcPeriodicTrigger _ => true
  | .rscan _ => true
  | .iscan _ => true
  | .adcSamplingInstant _ t => decide (t < 2 ^ 80)
  | .adcConversionDone _ raw => decide (-32768 ≤ raw) && decide (raw < 32768)
  | .adcPowerDown _ => true
  | .sampleForward _ => true
  | .sampleRoute _ => true
  | .ringRangeLast _ => true
  | .adcCalibration _ => true
  | .adcCalibrationDue _ => true
  | .adcCalibrationDone _ ofs gain => decide (-32768 ≤ ofs) && decide (ofs < 32768) && decide (gain < 65536)
  | .voltageBreakTrip _ => true
  | .voltageBreakRelease _ => true
  | .lvdtSumTrip _ => true
  | .lvdtSumRelease _ => true
  | .chargeInputTest _ => true
  | .chargeInputTestDone cap => decide (cap < 65536)
  | .aouUpdate => true
  | .aouStaleTimeout _ => true
  | .aouLoopError _ _ => true
  | .aouLoopErrorClear _ _ => true
  | .aouLoopTestStart _ _ => true
  | .aouTestCompare _ _ => true
  | .aouTestRestore _ => true
  | .aouTestResult _ _ => true
  | .heartbeatTx => true
  | .heartbeatRx _ h => decide (h.seq < 2 ^ 32) && decide (h.body.role < 8) && decide (h.body.seq < 2 ^ 32)
  | .heartbeatTimeout => true
  | .stateRx m => decide (m.seq < 2 ^ 32) && m.body.wf
  | .schedRx n t => decide (n.seq < 2 ^ 32) && decide (n.body < 2 ^ 32) && decide (t < 2 ^ 80)
  | .decisionRx d k => decide (d.seq < 2 ^ 32) && d.body.all Decision.wf && k.all (fun n => decide (n < 2 ^ 32))
  | .recordRx m => decide (m.seq < 2 ^ 32) && m.body.1.wf && m.body.2.all paceOk
  | .timeTx => true
  | .timeRx dep back => decide (dep.seq < 2 ^ 32) && decide (dep.body < 2 ^ 80) && decide (back < 2 ^ 80)
  | .pairTimeUpdate => true
  | .fdigestRx tile frame value => decide (tile.seq < 2 ^ 32) && decide (frame < 2 ^ 32) && decide (value < 2 ^ 64)
  | .digestRx frame value => decide (frame.seq < 2 ^ 32) && decide (frame.body < 2 ^ 32) && decide (value < 2 ^ 64)
  | .digestTimeout => true
  | .spaceRx n => decide (n.seq < 2 ^ 32) && decide (n.body < 2 ^ 32)
  | .quenchRx t => decide (t.seq < 2 ^ 32) && decide (t.body < 2 ^ 80)
  | .forwardRx c => decide (c.seq < 2 ^ 32) && c.body.wf
  | .handoverRx h n _ => decide (h.seq < 2 ^ 32) && decide (h.body < 2 ^ 80) && decide (n < 2 ^ 32)
  | .mirrorMessageBad type => decide (type.seq < 2 ^ 32) && decide (type.body < 256)
  | .tongsInChange _ => true
  | .tongsTakeHold => true
  | .joinComplete => true
  | .roleSwapDue h _ => decide (h < 2 ^ 80)
  | .swapRole _ h _ => decide (h < 2 ^ 80)
  | .pairSwap h _ => decide (h < 2 ^ 80)
  | .handoverRelease => true
  | .takebackDue => true
  | .mirrorLaneFault => true
  | .usb4LinkUp _ gen => decide (2 ≤ gen) && decide (gen ≤ 4)
  | .usb4LinkDown _ => true
  | .functionLevelReset _ => true
  | .apertureRead _ o n _ => decide (o < 2 ^ 34) && decide (n ≤ 4096)
  | .apertureWrite _ o data => decide (o < 2 ^ 34) && decide (data.length ≤ 512)
  | .sqDoorbell _ _ => true
  | .cqHeadWrite _ _ => true
  | .eqHeadWrite _ => true
  | .pvHeadWrite _ => true
  | .readRange _ desc _ => decide (desc.length = 32)
  | .readFrame _ desc _ => decide (desc.length = 32)
  | .readDecoded _ desc _ => decide (desc.length = 32)
  | .writeRange _ desc _ => decide (desc.length = 32)
  | .dmaDescriptorDone _ => true
  | .writeRangeTimeout _ _ => true
  | .mboxGo _ => true
  | .mboxAbort _ => true
  | .mboxLimitExpiry _ => true
  | .fncmd _ => true
  | .regWrite _ ho => decide (ho.1 < 2 ^ 80) && decide (ho.2 < 2 ^ 32)
  | .regRead _ => true
  | .release _ hs => decide (hs < 256)
  | .mboxQuench _ => true
  | .store _ => true
  | .recallSet _ => true
  | .updateBegin _ => true
  | .updateBlock _ _ => true
  | .updateCommit _ _ => true
  | .updateConfirm _ => true
  | .updateCommitReset _ _ => true
  | .updateCancel => true
  | .trialConfirmTimeout => true
  | .fereload => true
  | .feReloadTimeout => true
  | .recover => true
  | .recoveryBegin target => decide (target < 256)
  | .recoveryBlock off _ => decide (off < 2 ^ 32)
  | .recoveryCommit _ => true
  | .recoveryStatus => true
  | .recoveryReset => true
  | .wearPageMove page target => decide (page < 4096) && decide (target < 4096)
  | .pwrOkDeassert => true
  | .resetNAssert => true
  | .resetRelease x => x.wf
  | .tapReset x => x.wf
  | .bypass => true
  | .idcode => true
  | .samplePreload _ _ => true
  | .extest _ _ => true
  | .extestPulse _ _ => true
  | .extestTrain _ _ => true
  | .clamp => true
  | .highz => true
  | .dbgChallenge noise => decide (noise.length = 16)
  | .dbgResponse _ sig => decide (sig.length = 64)
  | .dbgAccess _ ho => decide (ho.1 < 2 ^ 80) && decide (ho.2 < 2 ^ 32)
  | .imgLoad _ => true
  | .laneAdaptMonitor => true
  | .paceMeasurement _ ps => decide (ps < 65536)
  | .telemetryRecord x => x.wf
  | .domainRetentionEntry _ => true
  | .domainWake _ => true
  | .domainWakeDone _ => true
  | .domainPowerUp _ => true
  | .discardedControlBlock ln => decide (ln.bytes.length = 16)
  | .heartbeatSilent => true
  | .sidebandIdleTimeout _ => true
  | .sidebandActivity _ => true
  | .testLogicResetEntry x => x.wf

end Sys2Proof
end

