-- ==== Sys2Proof/Tests/Slice0.lean ====
section
/-!
SUPPORT. The model's own tests: a term that each check of WellFormed refuses, and for every statement states and operands that meet the
hypotheses of each of its clauses (test_meets_<statement>), most with a value of the result that the spec's rule gives.
-/

namespace Sys2Proof.Tests

open Sys2Proof Sys2Proof.Machine

set_option Elab.async false

/-- The command answers a next state that p holds of. -/
def goes (c : Instr) (s : State) (p : State → Bool) : Bool :=
  match exec c s with
  | .next t => p t
  | _ => false

/-- Every function running on a device that is ready. -/
def up : State := { State.reset with fns := Vector.replicate 14 { state := .running }, sys := { boot := .ready } }

/-- Every function stopped on a device that is ready. -/
def down : State := { State.reset with fns := Vector.replicate 14 { state := .stopped }, sys := { boot := .ready } }

/-! ### Witnesses: functions and registers -/

theorem test_meets_FunctionCommands :
    (down.ready = true ∧ down.fnState .tb = .stopped ∧ goes (.start .tb) down (fun t => (t.fn .tb).state = .starting)) ∧
    (up.fnState .tb = .running ∧ goes (.stop .tb) up (fun t => (t.fn .tb).state = .stopping)) ∧
    ((up.setFn .tb .fault).fnState .tb = .fault ∧ goes (.stop .tb) (up.setFn .tb .fault) (fun t => (t.fn .tb).state = .stopped)) ∧
    (goes (.quench .tb) up (fun t => (t.fn .tb).state = .stopped)) ∧
    (up.ready = true ∧ up.fnState .tb ≠ .stopped ∧
      goes (.start .tb) up (fun t => (t.fn .tb).lastStatus = 2 && t.bit aGlbErr 30 && t.fld aGlbErr 23 20 = 6)) ∧
    (goes (.start .tb) (up.setFn .tb .absent) (fun t => (t.fn .tb).lastStatus = 3 && !t.bit aGlbErr 30)) ∧
    (((up.setFn .aux .off).setBit aGlbDie 8 true).fnState .aux = .off ∧
      goes (.start .aux) ((up.setFn .aux .off).setBit aGlbDie 8 true) (fun t => (t.fn .aux).lastStatus = 1 && !t.bit aGlbErr 30)) ∧
    (goes (.stop .tb) down (fun t => (t.fn .tb).lastStatus = 2)) ∧
    (goes (.quench .tb) down (fun t => (t.fn .tb).lastStatus = 2)) := by decide +kernel

def starting : State := up.setFn .tb .starting

theorem test_meets_FunctionStates :
    (up.ready = true ∧ goes .globalQuench ((down.setFn .hrt .fault).setFn .tb .running) (fun t => t.fnState .ing = .stopped && t.fnState .hrt = .stopped &&
      t.fnState .tb = .running)) ∧
    (starting.fnState .tb = .starting ∧ starting.startReady .tb = true ∧ starting.startFault .tb = 0 ∧
      goes (.startingComplete .tb) starting (fun t => t.fnState .tb = .running)) ∧
    ((up.setFn .anv .starting).startReady .anv = true ∧ (up.setFn .anv .starting).startFault .anv ≠ 0 ∧
      goes (.startingComplete .anv) (up.setFn .anv .starting) (fun t => t.fnState .anv = .fault)) ∧
    ((up.setFn .tb .stopping).stopReady .tb = true ∧
      goes (.stoppingComplete .tb) (up.setFn .tb .stopping) (fun t => t.fnState .tb = .stopped)) := by decide +kernel

def dieReset : State := (down.setFn .aux .off |>.setFn .aou .off).setBit aGlbDie 8 true

theorem test_meets_FieldDieAndTemperature :
    (down.ready = true ∧ down.part.field = true ∧ down.bit aGlbDie 8 = false ∧ down.idle .aux = true ∧ down.idle .aou = true) ∧
    (¬(up.idle .aux = true ∧ up.idle .aou = true) ∧
      goes .fieldDieResetAssert up (fun t => t.bit aGlbErr 31 && t.fld aGlbErr 19 16 = 9 && !t.bit aGlbDie 8)) ∧
    (dieReset.bit aGlbDie 8 = true ∧ dieReset.idle .aux = true ∧
      goes .fieldDieResetRelease dieReset (fun t => !t.bit aGlbDie 8 && t.fld aGlbDie 1 0 = 1)) ∧
    (goes .d2dLinkUp (down.setFld aGlbDie 1 0 1) (fun t => t.fld aGlbDie 1 0 = 2)) ∧
    ((up.setFld aGlbDie 1 0 2).fld aGlbDie 1 0 ≠ 0 ∧ (up.setFld aGlbDie 1 0 2).bit aGlbDie 8 = false) ∧
    (let s := (down.setFn .aux .off |>.setFn .aou .off).setFld aGlbDie 1 0 2
     s.fld aGlbDie 1 0 = 2 ∧ goes .fieldDieReinitDone s (fun t => t.fnState .aux = .stopped)) ∧
    (goes (.dieTempThreshold 13440) down (fun t => t.bit aGlbErr 27 && t.bit aGlbErr 28)) ∧
    (goes (.dieTempThreshold 13439) down (fun t => !t.bit aGlbErr 27)) ∧
    (goes (.dieTempThreshold 12799) (down.setBit aGlbErr 27 true |>.setBit aGlbErr 28 true) (fun t => !t.bit aGlbErr 27 && t.bit aGlbErr 28)) ∧
    (goes (.dieTempThreshold 12800) (down.setBit aGlbErr 27 true) (fun t => t.bit aGlbErr 27)) ∧
    (State.reset.inReset = true ∧ up.inReset = false ∧ goes (.dieTempThreshold 13440) State.reset (fun t => t = State.reset)) := by decide +kernel

/-- HRT_CMDARG (rw), TB_CFG (st while TB runs), NVS_UPDSTATE's W1C bit. -/
def writeOk (s : State) (port : Fin 2) (a : Nat) (v : Word) : Bool :=
  s.ready && decide (port.val < s.part.usbPorts) && decide (a % 4 = 0) && decide (a < 0x2000000) && s.present a && decide (a ≠ 0x040)
    && !(decide (0x100 ≤ a) && decide (a < 0x170)) && decide (a ≠ aGlbErr) && !isSegReg a && !mirroredReg a
    && decide (busCmd (some port) a v.toNat (0, 0) = none)

theorem test_meets_RegisterAccess :
    (writeOk up 0 0x200050 0xFFFFFFFF = true ∧ goes (.registerWrite 0 0x200050 15 0xFFFFFFFF (0, 0)) up (fun t => t.reg 0x200050 = 0xFFFFFFFF)) ∧
    (writeOk up 1 0x200084 3 = true ∧ up.bit 0x200084 0 ≠ (3 : Nat).testBit 0 ∧ up.stFree 6 = false ∧
      goes (.registerWrite 1 0x200084 15 3 (0, 0)) up (fun t => t.reg 0x200084 = 2 && t.bit aGlbErr 31 && t.fld aGlbErr 19 16 = 6)) ∧
    (goes (.registerWrite 1 0x200084 15 3 (0, 0)) down (fun t => t.reg 0x200084 = 3 && !t.bit aGlbErr 31)) ∧
    (writeOk (up.setBit 0x900100 24 true) 0 0x900100 0x01000000 = true ∧
      goes (.registerWrite 0 0x900100 15 0x01000000 (0, 0)) (up.setBit 0x900100 24 true) (fun t => !t.bit 0x900100 24)) ∧
    ((specOf 0x1000030).rc = 0xFFFFFFFF ∧ up.present 0x1000030 = true ∧
      goes (.rcCounterRead 0 ⟨0x1000030, false⟩) (up.setReg 0x1000030 7) (fun t => t.reg 0x1000030 = 0 && t.out = [.readData 0x1000030 7])) ∧
    (let s := up.setReg aGlbErr 0xF8120005
     goes (.registerWrite 0 aGlbErr 15 0x80000000 (0, 0)) s (fun t => t.reg aGlbErr = 0x781F0000) ∧
     goes (.registerWrite 0 aGlbErr 15 0x68000000 (0, 0)) s (fun t => t.reg aGlbErr = 0x98F20005)) ∧
    (let s := up.setReg (HRT + 0x10) 63
     up.role ≠ roHOLDER ∧ up.role ≠ roFOLLOWER ∧ isSegReg (HRT + 0x24) = true ∧ s.present (HRT + 0x24) = true ∧ isSegReg (HRT + 0x28) = true ∧
     goes (.registerWrite 0 (HRT + 0x24) 15 5 (0, 0)) s (fun t => t.segAt 63 = s.segAt 63 && t.bit aGlbErr 31) ∧
     goes (.registerWrite 0 (HRT + 0x28) 15 5 (0, 0)) s (fun t => (t.segAt 63).next = 5) ∧
     goes (.registerWrite 0 (HRT + 0x24) 15 5 (0, 0)) (down.setReg (HRT + 0x10) 63) (fun t => t.segAt 63 ≠ {} && t.segAt 62 = {})) ∧
    (let s := (up.setFld aPairStat 31 29 4).setFld (PAIR + 0x40) 31 28 6
     mirroredReg HRT = true ∧ isSegReg HRT = false ∧ s.present HRT = true ∧ s.role = roHOLDER ∧ s.runs .pair = true ∧ s.mirrorUp = true ∧
     goes (.registerWrite 0 HRT 15 7 (0, 0)) s (fun t => t.out ≠ []) ∧
     goes (.registerWrite 0 HRT 15 7 (0, 0)) (up.setFld aPairStat 31 29 3) (fun t => t.reg HRT = up.reg HRT && t.bit aPairStat 15)) ∧
    (goes (.registerWrite 0 0x200050 7 0xFFFFFFFF (0, 0)) up (fun t => t = up)) := by
  decide +kernel

theorem test_meets_LogWindowsClose :
    let early := up.log 0 13 6 4 []
    let s := early.putTb { early.tb with counter := 1000000 * 2 ^ 32 }
    s.tb.epochs = 0 ∧ s.windowDue 0 0 = true ∧ windowLe (s.tb.closeEpoch, s.tb.closeWin) (0, 0) = true ∧ s.fnState .tb ≠ .off ∧
    goes (.logWindowClose 0 0) s (fun t => t.tb.log = [] && t.tb.logCount = 1 && t.tb.closeWin = 1) ∧
    early.windowDue 0 0 = false ∧ goes (.logWindowClose 0 0) early (fun t => t.tb.log.length = 1) := by decide +kernel

/-! ### Witnesses: the links (chapter 02) -/

/-- A running device with receive lane 0 in a stage, at a step. -/
def lane (stage step : Nat) : State := (up.setFld (aRx 0 oSTAT) 31 28 stage).setFld (aRx 0 oSTAT) 27 25 step

def lane0 : Lane := .rx 0

theorem test_meets_LaneBringUp :
    ((lane 1 0).laneLive lane0 = true ∧ (laneGet (lane 1 0) lane0).waiting = false ∧ (lane 1 0).stage lane0 = 1 ∧
      goes (.trainingComplete lane0 0 ⟨0, 0⟩) (lane 1 0) (fun t => t.stage lane0 = 2)) ∧
    ((lane 2 0).stage lane0 = 2 ∧ goes (.blockLockGained lane0) (lane 2 0) (fun t => t.stage lane0 = 3 && t.bit (statOf lane0) 18)) ∧
    ((lane 6 0).stage lane0 = 6 ∧ goes (.blockLockGained lane0) (lane 6 0) (fun t => t.stage lane0 = 6)) ∧
    ((lane 3 0).manualAlign lane0 = false ∧
      goes (.trainRx lane0 true 0 true true 0) (lane 3 0) (fun t => t.stage lane0 = 4 && t.bit (statOf lane0) 17) ∧
      goes (.trainRx lane0 true 31 true true 0) (lane 3 0) (fun t => t.stage lane0 = 3 && (laneGet t lane0).slips = 1)) ∧
    (goes (.slip 0) (lane 3 0) (fun t => (laneGet t lane0).slips = 1)) ∧
    (let s := (lane 3 0).setBit (aRx 0 oCFG) 27 true
     s.manualAlign lane0 = true ∧ (laneGet s lane0).capsDone = false ∧ goes (.alignDone 0) s (fun t => t.stage lane0 = 4)) ∧
    ((lane 4 0).stage lane0 = 4 ∧
      goes (.capsRx 0 { maxStep := 4, formats := 1, dual := false, compatOnly := false, family := 0, version := 1, ack := false }) (lane 4 0) (fun t => t.stage lane0 = 4 && t.fld (statOf lane0) 21 19 = 4) ∧
      goes (.capsRx 0 { maxStep := 4, formats := 1, dual := false, compatOnly := false, family := 0, version := 1, ack := true }) (lane 4 0) (fun t => t.stage lane0 = 5)) ∧
    ((lane 5 0).stage lane0 = 5 ∧ (laneGet (lane 5 0) lane0).nextStep = none ∧
      goes (.rateRx lane0 1 ⟨true, false⟩) (lane 5 0) (fun t => (laneGet t lane0).nextStep = some 1)) ∧
    (let s := laneOn (lane 5 0) (fun r => { r with nextStep := some 1 }) lane0
     (laneGet s lane0).nextStep = some 1 ∧ goes (.rateSwitch lane0) s (fun t => t.stage lane0 = 1 && t.step lane0 = 1)) ∧
    (let s := up.setStage (.mir 7) 6
     s.laneLive (.mir 7) = true ∧ (laneGet s (.mir 7)).waiting = false ∧ 1 ≤ s.stage (.mir 7) ∧ s.stage (.mir 7) ≤ 6 ∧
     goes (.rateRx (.mir 7) 4 ⟨false, true⟩) s (fun t => (laneGet t (.mir 7)).peerFinal && t.out = []) ∧
     goes (.rateRx (.mir 7) 4 ⟨false, false⟩) s (fun t => t.out = [ctlBlock 55 0x55 [4, 1, 0, 0, 0, 0, 0, 0, 0, 0, 0, 0, 0, 0]])) := by
  decide +kernel

theorem test_meets_LaneFailures :
    ((lane 1 0).laneLive lane0 = true ∧ (laneGet (lane 1 0) lane0).waiting = false ∧
      goes (.stageTimeout lane0) (lane 1 0) (fun t => (laneGet t lane0).waiting && t.fld (statOf lane0) 15 12 = 1
        && t.fld (statOf lane0) 11 8 = 1 && t.fld (statOf lane0) 7 0 = 1)) ∧
    (goes (.stageTimeout lane0) (lane 5 2) (fun t => t.stage lane0 = 1 && t.step lane0 = 1 && t.ceil lane0 = 1)) ∧
    (let s := laneOn ((lane 1 0).setFld (aRx 0 oCFG) 23 20 3) (fun r => { r with retries := 3 }) lane0
     (s.laneRetries lane0 ≠ 0 ∧ s.laneRetries lane0 ≤ (laneGet s lane0).retries) ∧ goes (.stageTimeout lane0) s (fun t => t.stage lane0 = 7)) ∧
    (goes (.rateRx lane0 1 ⟨false, false⟩) (lane 5 0) (fun t => t.fld (statOf lane0) 11 8 = 2)) ∧
    (let s := (lane 3 0).setBit (statOf lane0) 18 true
     s.stage lane0 = 3 ∧ goes (.blockLockLost lane0) s (fun t => t.fld (statOf lane0) 11 8 = 3 && !t.bit (statOf lane0) 18)) ∧
    (let s := (lane 6 2).setBit (statOf lane0) 18 true
     s.stage lane0 = 6 ∧ goes (.blockLockLost lane0) s (fun t => t.stage lane0 = 1 && t.step lane0 = 2)) ∧
    (goes (.elasticOverflow lane0) (lane 6 2) (fun t => t.fld (statOf lane0) 11 8 = 4 && t.stage lane0 = 1)) ∧
    (let s := laneOn (lane 1 0) (fun r => { r with waiting := true }) lane0
     (laneGet s lane0).waiting = true ∧ goes (.stageRetry lane0) s (fun t => (laneGet t lane0).retries = 1)) ∧
    (let s := (lane 6 2).setFld (aRx 0 oCFG) 31 30 1
     s.laneMode 0 = 1 ∧ goes (.retrain 0) s (fun t => t.stage lane0 = 1 && t.step lane0 = 0)) ∧
    ((lane 6 2).present (aRx 0 oSTAT) = true ∧ goes (.clrCeil 0) (lane 6 2) (fun t => (laneGet t lane0).clrCeil)) := by
  decide +kernel

/-- Command lane 0 in run. -/
def cmdRun : State := (lane 6 0).setFld (aCmd 0 0) 31 30 1

theorem test_meets_LaneTraffic :
    ((lane 6 0).laneLive lane0 = true ∧ (lane 6 0).present (aRx 0 oBLK) = true ∧
      goes (.invalidSyncHeader lane0) (lane 6 0) (fun t => t.reg (aRx 0 oBLK) = 1) ∧
      blockBad (zeros 16) = true ∧ goes (.discardedControlBlock ⟨lane0, zeros 16⟩) ((lane 6 0).setReg (aRx 0 oBLK) 0xFFFFFFFF) (fun t => t.reg (aRx 0 oBLK) = 0xFFFFFFFF)) ∧
    (goes (.fillRx lane0 4) (lane 6 0) (fun t => (laneGet t lane0).elastic = 4)) ∧
    (goes (.fillRx lane0 5) (lane 6 0) (fun t => (laneGet t lane0).elastic = 4)) ∧
    (goes (.idleRx lane0 4294967295 65535) (lane 6 0) (fun t => (laneGet t lane0).idleCount = 4294967295)) ∧
    ((lane 1 0).stage lane0 = 1 ∧ goes (.eqFreeze lane0) (lane 1 0) (fun t => t.bit (statOf lane0) 16)) ∧
    (goes (.eqResume lane0) ((lane 6 0).setBit (statOf lane0) 16 true) (fun t => !t.bit (statOf lane0) 16)) ∧
    ((lane 6 0).compat 0 = false ∧ 500 < (501 - (laneGet (lane 6 0) lane0).gapBase).natAbs ∧
      goes (.fillGapResend 0 501) (lane 6 0) (fun t => (laneGet t lane0).gapBase = 501)) ∧
    ((up.setFn .lnk .stopping |>.setStage lane0 6).laneHears lane0 = true ∧
      goes (.eqResume lane0) (((up.setFn .lnk .stopping).setStage lane0 6).setBit (statOf lane0) 16 true) (fun t => !t.bit (statOf lane0) 16)) ∧
    (let s := (lane 6 0).setBit aPairStat 25 true
     s.nonHolder = true ∧ goes (.fillGapResend 0 501) s (fun t => t.out = [] && (laneGet t lane0).gapBase = 0)) ∧
    (let s := (lane 6 0).onCmd 0 (fun c => { c with tx := { c.tx with since := 2048 } })
     goes (.fillGapResend 0 501) s (fun t => decide (t.out.length = 2))) ∧
    (let s := { cmdRun with trig := { cmdRun.trig with seq := { run := true, nextN := 0xFFFFFFFF } } }
     s.trig.seq.run = true ∧ s.runs .trg = true ∧ s.nonHolder = false ∧ s.pair.from_ = none ∧ s.txRun 0 = true ∧ s.slotTooSoon 0 0 = false ∧
     (s.onPair (fun p => { p with tookAt := some 0 })).slotTooSoon 0 0 = true) ∧
    (cmdRun.txRun 0 = true ∧ goes (.fillInsert (.cmd 0)) cmdRun (fun t => t.out = [ctlBlock 0 0x1E (zeros 14)])) ∧
    (let s := up.setStage (.mir 7) 6
     s.stage (.mir 7) = 6 ∧ goes (.fillInsert (.mir 7)) s (fun t => t.out = [ctlBlock 55 0x1E (zeros 14)])) := by
  decide +kernel

theorem test_meets_LaneFrontEnd :
    (up.present (aCmd 0 0x18) = true ∧ up.bit (aCmd 0 0x18) 31 = false ∧ up.nonHolder = false ∧ up.txRun 0 = false ∧
      goes (.feAccessGo 0) up (fun t => t.fld (aCmd 0 0x18) 23 16 = 2)) ∧
    (let s := up.setBit aPairStat 25 true
     s.nonHolder = true ∧ goes (.feAccessGo 0) s (fun t => t.fld (aCmd 0 0x18) 23 16 = 9)) ∧
    (let s := (cmdRun.setReg (aCmd 0 0x0C) 0x1234).onCmd 0 (fun c => { c with tag := 254 })
     s.txRun 0 = true ∧ goes (.feAccessGo 0) s (fun t => t.bit (aCmd 0 0x18) 31 && t.fld (aCmd 0 0x18) 7 0 = 0 &&
       t.out = [ctlBlock 0 0x87 [0, 0x34, 0x12, 0, 0, 0, 0, 0, 0, 0, 0, 0, 0, 0]])) ∧
    (let s := (lane 6 0).setReg (aCmd 0 0x18) 0x80000007
     s.bit (aCmd 0 0x18) 31 = true ∧ goes (.feAccessTimeout 0) s (fun t => t.fld (aCmd 0 0x18) 23 16 = 8) ∧
     tileOf 0 = 0 ∧ s.laneLive lane0 = true ∧ s.fld (aCmd 0 0x18) 7 0 = 7 ∧
     goes (.cfgaRx 0 7 0 0xFFFFFFFF) s (fun t => !t.bit (aCmd 0 0x18) 31 && t.reg (aCmd 0 0x10) = 0xFFFFFFFF) ∧
     goes (.cfgaRx 0 8 0 1) s (fun t => t.bit (aCmd 0 0x18) 31 && t.reg (aRx 0 oLATE) = 1)) ∧
    (let s := (lane 8 0).setReg (prbsBase (.rx 0)) 0x10000000
     s.checking (.rx 0) = true ∧ prbsFollows 0 (prbsPattern 0 (true :: List.replicate 6 false) 64) = true ∧
     goes (.prbsLock ⟨.rx 0, prbsPattern 0 (true :: List.replicate 6 false) 64⟩) s (fun t => t.prbsLocked (.rx 0)) ∧
     goes (.prbsLock ⟨.rx 0, true :: List.replicate 70 false⟩) s (fun t => !t.prbsLocked (.rx 0)) ∧
     (s.setPrbsLock (.rx 0) true).prbsLocked (.rx 0) = true ∧ s.present (prbsBase (.rx 0) + 8) = true ∧
     goes (.prbsReseed (.rx 0) 512) (s.setPrbsLock (.rx 0) true) (fun t => t.reg (prbsBase (.rx 0) + 8) = 512 && t.prbsLocked (.rx 0)) ∧
     goes (.prbsReseed (.rx 0) 513) (s.setPrbsLock (.rx 0) true) (fun t => !t.prbsLocked (.rx 0))) ∧
    ((lane 6 0).bit (prbsBase (.rx 0)) 29 = false ∧ (lane 6 0).laneHears (.rx 0) = true ∧ (lane 6 0).stage (.rx 0) = 6) ∧
    (let s := (up.setFld (aCmd 0 0) 31 30 2).setBit (prbsBase (.tx 0)) 29 true
     s.present (prbsBase (.tx 0)) = true ∧ s.txStage 0 = 8 ∧ goes (.prbsInject 1 (.tx 0)) s (fun t => t.out = [.invert 0 1])) ∧
    (up.fnState .lnk = .running ∧ (up.setFn .lnk .starting).fnState .lnk = .starting) := by decide +kernel

def aStrip : List Byte :=
  [0xA5, 0, 0, 0, 0, 0, 0, 0, 0, 0, 0, 0, 0, 0, 7, 0]

/-! ### Witnesses: strips, queues, engines, cores, images (chapters 02 to 06, 09) -/

/-- A strip of one 10-bit pixel of tile 0 with a SEQ, whose CRC-32C holds. -/
def strip (seq : Nat) : List Byte :=
  let body : List Byte := pack 16 [(0, 1, 0x40), (1, 1, 0x0A), (8, 2, 1), (14, 2, seq)] ++ pack 16 [(0, 2, 0x2AA)] ++ pack 12 [(0, 2, 2)]
  body ++ leBytes 4 (crc32c body)

/-- Receive lane 0 in run, its equaliser frozen, tile 0 expecting SEQ 7. -/
def rxRun : State := ((lane 6 0).setBit (aRx 0 oCFG) 28 false).setBit (aRx 0 oSTAT) 16 true |>.onTile 0 (fun t => { t with next := some 7 })

def anItem (l seq : Nat) : StripItem :=
  { lane := l, header := (strip seq).take 16, trailer := ((strip seq).drop 32).take 12, payload := [0xAA, 0x02], stamp := 0, rel := 0 }

def heldOne : State := rxRun.onTile 0 (fun t => { t with held := [{ seq := 65535, item := anItem 1 65535, disc := false }] })

theorem test_meets_Strips :
    (rxRun.stage lane0 = 6 ∧ (rxRun.rxAt 0).inject = [] ∧ goes (.stripRx 0 [] 0 true) rxRun (fun t => t.reg (aRx 0 oHDR) = 1)) ∧
    (goes (.stripRx 0 ((strip 7).take 31) 0 false) rxRun (fun t => t.reg (aRx 0 oHDR) = 1)) ∧
    (goes (.stripRx 0 (1 :: (strip 7).drop 1) 0 false) rxRun (fun t => t.reg (aRx 0 oCRC) = 1)) ∧
    (let body := 0 :: ((strip 7).take 44).drop 1
     goes (.stripRx 0 (body ++ leBytes 4 (crc32c body)) 0 false) rxRun (fun t => t.reg (aRx 0 oHDR) = 1 && t.reg (aRx 0 oCRC) = 0)) ∧
    (goes (.stripRx 0 (strip 6) 0 false) rxRun (fun t => t.reg (aRx 0 oLATE) = 1)) ∧
    (rxRun.runs .ing = true ∧ rxRun.paired (tileOf 0) = false ∧ 32 ≤ (strip 7).length ∧ (strip 7).length % 16 = 0 ∧
      crc32c ((strip 7).take 44) = fieldLE ((strip 7).drop 32) 12 4 ∧ headerOk 0 ((strip 7).take 16) ((strip 7).drop 32) 1 = true ∧
      (rxRun.tileAt 0).next = some (fieldLE ((strip 7).take 16) 14 2) ∧ (rxRun.tileAt 0).held = [] ∧
      (rxRun.queueAt 0).fill + 2 ≤ 2048 ∧
      goes (.stripRx 0 (strip 7) 0 false) rxRun (fun t => t.reg (aRx 0 oSTRIP) = 1 && (t.tileAt 0).next = some 8
        && (t.queueAt 0).items.length = 1)) ∧
    (let s := (rxRun.onTile 0 (fun t => { t with next := some 65535 })).onQueue 0 (fun q =>
       { q with items := List.replicate 682 (.slag {}) ++ List.replicate 682 (.strip (anItem 0 0)) ++ [.slag {}, .slag {}] })
     (s.queueAt 0).fill = 2048 ∧
     goes (.stripRx 0 (strip 65535) 0 false) s (fun t => (t.tileAt 0).next = some 0 && (t.queueAt 0).items.length = 1366
        && (match (t.queueAt 0).pend with | some w => w.cause = 1 && w.nFull = 1 | none => false))) ∧
    (let s := rxRun.onQueue 0 (fun q => { q with cutAt := some (1, 4) })
     s.overtaken 0 0 = some 4 ∧ s.overtaken 0 1 = none ∧ goes (.stripRx 0 (strip 7) 0 false) s (fun t =>
       (t.queueAt 0).items = [] && (match (t.queueAt 0).pend with | some w => w.cause = 4 && w.nFlush = 1 | none => false))) ∧
    ((heldOne.tileAt 0).next = some 7 ∧ (anItem 1 65535).lane < 8 * heldOne.part.sectors ∧
      goes (.deskewTimeout (.tile 0) 65535) heldOne (fun t => (t.tileAt 0).held = [] && (t.tileAt 0).next = some 0 && t.reg (aRx 1 oLOST) = 65528)) := by
  decide +kernel

theorem test_meets_QueueControls :
    (up.present (aQ 0 0) = true ∧ goes (.queueFlush 0) up (fun t => (t.queueAt 0).items = [])) ∧
    (let s := up.onQueue 96 (fun q => { q with items := [.samples [zeros 12]], openWord := [zeros 12] })
     s.present (aQ 96 0) = true ∧ s.fnState .aux ≠ .off ∧ goes (.queueFlush 96) s (fun t => (t.queueAt 96).items.length = 1)) ∧
    (goes (.clrPeak 96) (up.onQueue 96 (fun q => { q with peak := 5 })) (fun t => (t.queueAt 96).peak = 0)) ∧
    (let s := (up.setFn .ing .stopping).onQueue 0 (fun q => { q with items := [.strip (anItem 0 0)] })
     s.fnState .ing = .stopping ∧ (s.queueAt 0).items ≠ [] ∧ (s.queueAt 1).items = []) ∧
    (11 < up.part.sectors ∧ goes (.bellowsPinChange 11 true) up (fun t => (t.bellowsAt 11).pin && t.reg (aBlw 11 4) = 1)) ∧
    (up.fnState .ing ≠ .off ∧ goes (.blwForce 0 true) up (fun t => t.bit (aBlw 0 0) 29 && (t.bellowsAt 0).pin)) := by decide +kernel

/-- Engine 0 enabled, waiting for a token in G2; its queue holds one strip. -/
def engWait : State :=
  ((up.setBit (aEng 0 0) 31 true).onEngine 0 (fun g => { g with run := .waitStrip 2 })).onQueue 0 (fun q => { q with items := [.strip (anItem 0 0)] })

def engFill : State := (engWait.onQueue 0 (fun q => { q with copying := true })).onEngine 0 (fun g => { g with bufs := g.bufs.set 3 .filling })

theorem test_meets_Dispatching :
    (engWait.runs .ing = true ∧ engWait.runs .anv = true ∧ engWait.engineOn 0 = true ∧
      (engWait.queueAt 0).drained = false ∧ (engWait.engineAt 0).posted.length < 3 ∧ (engWait.engineAt 0).freeBuf = some 0 ∧
      goes (.itemCopyStart 0) engWait (fun t => (t.queueAt 0).copying && (t.engineAt 0).bufs[0]? = some .filling)) ∧
    ((engFill.queueAt 0).copying = true ∧ (engFill.engineAt 0).findBuf (fun x => x = .filling) = some 3 ∧
      goes (.tokenPost 0 {}) engFill (fun t => (t.queueAt 0).items = [] && (t.engineAt 0).posted = [3] && (t.engineAt 0).nextBuf = 0 && t.reg (aQ 0 oQOUT) = 1) ∧
      goes (.tokenPost 0 { badWords := [0] }) engFill (fun t => (t.queueAt 0).items = [] && (t.engineAt 0).posted = []
        && t.reg (aQ 0 oQUE) = 1)) := by decide +kernel

/-- SIMM of G31: the upper half 0xFFFF, the lower half 0xFFFF, and the first reserved function. -/
theorem test_meets_SimmBuildsConstants :
    (bits 0xEBFFFFE0 30 26 = 0x1A ∧ bits 0xEBFFFFE0 25 21 = 31 ∧ bits 0xEBFFFFE0 20 5 = 0xFFFF ∧ bits 0xEBFFFFE0 4 0 = 0 ∧
      kdecode true 0xEBFFFFE0 = some (.lih 31 0xFFFF)) ∧
    (bits 0xEBFFFFE1 4 0 = 1 ∧ kdecode false 0xEBFFFFE1 = some (.lil 31 0xFFFF)) ∧
    (bits 0xEBFFFFE2 4 0 = 2 ∧ kdecode true 0xEBFFFFE2 = none) := by decide +kernel

/-- Engine 0 executes a word at address 0. -/
def engRun (w : Nat) : State := engWait.onEngine 0 (fun g => { g with run := .exec, proc := { g.proc with mem := Memory.writeLE [] 0 4 w } })

/-- nop, halt, wait.strip G2, wait.event G3, G1, G2: each word a bundle of its own. -/
def wNop : Nat := 0xF4C00000
def wHalt : Nat := 0xF4A00000
def wWaitStrip : Nat := 0xF8040000
def wWaitEvent : Nat := 0xFC061100

theorem test_meets_EngineBundle :
    (let s := (engRun wNop).onQueue 0 (fun q => { q with items := [] })
     (s.engineAt 0).run = .exec ∧ s.anvLive = true ∧ (s.queueAt 0).items = [] ∧
     goes (.bundleIssue (.eng 0) .clean) s (fun t => (t.engineAt 0).proc.pc = 4 && (t.engineAt 0).run = .exec)) ∧
    (goes (.bundleIssue (.eng 0) .badFetch) (engRun wNop) (fun t => (t.engineAt 0).run = .faulted && t.bit (secBase 0 + 0x2400) 0)) ∧
    (goes (.bundleIssue (.eng 0) .clean) (engRun wHalt) (fun t => t.reg (aEng 0 0x08) / 2 ^ 28 ≠ 0)) ∧
    (goes (.bundleIssue (.eng 0) .clean) (engRun wWaitStrip) (fun t => (t.engineAt 0).run = .waitStrip 2)) ∧
    (let s := (engRun wWaitStrip).setFn .anv .stopping
     (s.engineAt 0).posted = [] ∧ goes (.bundleIssue (.eng 0) .clean) s (fun t => (t.engineAt 0).run = .stopped)) := by
  decide +kernel

/-- Core c executes a word at address 0, G1 being 32. -/
def coreRun (c : Nat) (w : Nat) : State :=
  up.onCore c (fun g => { g with run := .exec, proc := { g.proc with mem := Memory.writeLE [] 0 4 w, g := g.proc.g.set 1 32 } })

def coreAs (c : Nat) (r : RunSt) : State := up.onCore c (fun g => { g with run := r })

theorem test_meets_CoresRun :
    (((coreRun 3 wNop).coreAt 3).run = .exec ∧ goes (.bundleIssue (.core 3) .clean) (coreRun 3 wNop) (fun t => (t.coreAt 3).proc.pc = 4)) ∧
    (coreBlock (((coreRun 2 wWaitEvent).coreAt 2).proc.sc 1).toNat 32 = true ∧
      goes (.bundleIssue (.core 2) .clean) (coreRun 2 wWaitEvent) (fun t => (t.coreAt 2).run = .waitEvent 3 32 false)) ∧
    (goes (.bundleIssue (.core 1) .clean) (coreRun 1 wHalt) (fun t => t.fnState .bgs = .fault && (t.coreAt 1).run = .stopped)) ∧
    (goes (.bundleIssue (.core 2) .clean) (coreRun 2 wHalt) (fun t => (t.coreAt 2).run = .stopped && t.fnState .bgs = .running)) ∧
    (goes (.bundleIssue (.core 0) .clean) (coreRun 0 wHalt) (fun t => t.sys.boot = .held && t.fnState .tb = .off)) ∧
    ((coreAs 2 .fence).procRun (.core 2) = .fence ∧ goes (.fenceComplete (.core 2)) (coreAs 2 .fence) (fun t => (t.coreAt 2).run = .exec)) ∧
    (((coreAs 2 (.postStall 64 1 0x14000 5 9)).engineAt 0).posts.length < 64 ∧ ((coreAs 2 (.postStall 64 1 0x14000 5 9)).engineAt 0).lastFrame = none ∧
      goes (.postLsResume 2) (coreAs 2 (.postStall 64 1 0x14000 5 9)) (fun t => (t.coreAt 2).run = .exec
        && (t.engineAt 0).posts = [{ id := 0, key := 9, addr := 0x14000, value := 5 }])) ∧
    (let s := (coreAs 2 (.waitEvent 3 64 true)).log 0 13 6 4 [] |>.putTb { up.tb with logCount := 1 }
     s.eventReady 2 = true ∧ goes (.waitEventReturn 2) s (fun t => (t.coreAt 2).run = .exec && (t.coreAt 2).nextSeq = 1)) ∧
    (goes (.waitEventTimeout 2) (coreAs 2 (.waitEvent 31 64 true)) (fun t => (t.coreAt 2).proc.sc 31 = 8)) ∧
    (let s := up.onCore 2 (fun g => { g with run := .sys 4 128, reply := some ([7], 2) })
     (s.coreAt 2).reply = some ([7], 2) ∧ goes (.sysComplete 2) s (fun t => (t.coreAt 2).proc.sc 4 = 2 && (t.coreAt 2).reply = none)) := by
  decide +kernel

/-- A bundle of one instruction word: its opcode and the rest. -/
def kw (op rest : Nat) : Nat := 2 ^ 31 + op * 2 ^ 26 + rest

/-- Engine 0 executes a word at address 0, with its processor as g leaves it. -/
def engOne (w : Nat) (g : Proc → Proc) : State :=
  (engRun w).onEngine 0 (fun x => { x with proc := g x.proc })

/-- Engine 0's next bundle is the word w, which decodes to i. -/
def issues (s : State) (w : Nat) (i : KInstr) : Bool :=
  let g := s.engineAt 0
  g.run = .exec && s.anvLive && decide (fetchWords g.proc.mem 0x10000 g.proc.pc = ([w], false)) && decide (kdecode true w = some i)
    && (!g.held.isSome || decide (g.steps + 4 ≤ s.stepCap 0))

/-- The word, issued with such a processor, leaves engine 0 executing with p of its processor. -/
def after (w : Nat) (i : KInstr) (g : Proc → Proc) (p : Proc → Bool) : Bool :=
  issues (engOne w g) w i && goes (.bundleIssue (.eng 0) .clean) (engOne w g) (fun t => (t.engineAt 0).run = .exec && p (t.engineAt 0).proc)

/-- It faults with a cause. -/
def faults (w : Nat) (i : KInstr) (g : Proc → Proc) (cause : Nat) : Bool :=
  issues (engOne w g) w i
    && goes (.bundleIssue (.eng 0) .clean) (engOne w g) (fun t => (t.engineAt 0).run = .faulted && t.fld (aEng 0 0x08) 31 28 = cause)

def wAddSs : Nat := kw 0x01 (1 * 2 ^ 20 + 2 * 2 ^ 14 + 3 * 2 ^ 8 + 2)
def wMac : Nat := kw 0x07 (3 * 2 ^ 20 + 2 * 2 ^ 14 + 3 * 2 ^ 8 + 2)
def wNarSs : Nat := kw 0x08 (1 * 2 ^ 20 + 3 * 2 ^ 14 + 39 * 2 ^ 8 + 1)
def wVcmpLt : Nat := kw 0x04 (7 * 2 ^ 20 + 2 * 2 ^ 14 + 3 * 2 ^ 8 + 2)
def wPlt : Nat := kw 0x06 (1 * 2 ^ 20 + 31 * 2 ^ 8 + 5)

theorem test_meets_KamoxVectors :
    (after wAddSs (.valu .addSs 1 2 (.v 3) 0) (fun p => { p with v := (p.v.set 2 (List.replicate 64 32767)).set 3 (List.replicate 64 1) })
      (fun q => Machine.lane (q.vec 1) 63 = 32767 && q.ksr.getLsbD 5) = true) ∧
    (after wMac (.vmac (.mac false) 3 2 3 0) (fun p => { p with v := (p.v.set 2 (List.replicate 64 (-32768))).set 3 (List.replicate 64 32767) })
      (fun q => Machine.lane (acc q 3) 0 = BitVec.ofInt 40 (-1073709056) && !q.ksr.getLsbD 3) = true) ∧
    (after wMac (.vmac (.mac false) 3 2 3 0) (fun p => { p with v := (p.v.set 2 (List.replicate 64 1)).set 3 (List.replicate 64 1), q := p.q.set 3 (List.replicate 64 (BitVec.ofInt 40 (2 ^ 39 - 1))) })
      (fun q => Machine.lane (acc q 3) 0 = BitVec.ofInt 40 (-(2 ^ 39)) && q.ksr.getLsbD 3) = true) ∧
    (faults wMac (.vmac (.mac false) 3 2 3 0) (fun p => { p with v := (p.v.set 2 (List.replicate 64 1)).set 3 (List.replicate 64 1), q := p.q.set 3 (List.replicate 64 (BitVec.ofInt 40 (2 ^ 39 - 1))), ksr := 0x8000 }) 6 = true) ∧
    (after wNarSs (.vnar .ss 1 3 39 0) (fun p => { p with q := p.q.set 3 (List.replicate 64 (BitVec.ofInt 40 (-(2 ^ 39)))) })
      (fun q => (Machine.lane (q.vec 1) 5).toInt = -1) = true) ∧
    (after wVcmpLt (.vcmp .lt false 7 2 (.v 3) 0) (fun p => { p with v := p.v.set 2 (-1 :: List.replicate 63 0) }) (fun q => q.pred 7 = 1) = true) ∧
    (after wPlt (.plt 1 31) (fun p => { p with g := p.g.set 31 63 }) (fun q => q.pred 1 = 0x7FFFFFFFFFFFFFFF) = true) := by decide +kernel

def wLd : Nat := kw 0x12 (31 * 2 ^ 21 + 15 * 2 ^ 17 + 2 * 2 ^ 15 + 4)
def wSt : Nat := kw 0x13 (1 * 2 ^ 21 + 15 * 2 ^ 17 + 2 * 2 ^ 15 + 2 ^ 13 + 8191)
def wVld : Nat := kw 0x10 (63 * 2 ^ 20 + 1 * 2 ^ 16)
def wVst : Nat := kw 0x11 (63 * 2 ^ 20 + 1 * 2 ^ 16 + 1 * 2 ^ 10)
def wBr : Nat := kw 0x1C (1 * 2 ^ 21 + 8191)
def wCall : Nat := kw 0x1D (1 * 2 ^ 21 + 0x3FFF)
def wRet : Nat := kw 0x1D (2 * 2 ^ 21)
def wLoop : Nat := kw 0x1D (3 * 2 ^ 21 + 31 * 2 ^ 16 + 2)

theorem test_meets_KamoxMemory :
    (after wLd (.ld 31 15 2 false false 4) (fun p => { p with a := p.a.set 15 0x3FFFC, mem := Memory.set p.mem 0x3FFFF 0x80 })
      (fun q => q.sc 31 = 0x80000000 && q.a[15]? = some 0x40000) = true) ∧
    (faults wLd (.ld 31 15 2 false false 4) (fun p => { p with a := p.a.set 15 0x3FFFD }) 3 = true) ∧
    (faults wLd (.ld 31 15 2 false false 4) (fun p => { p with a := p.a.set 15 0xFFFC }) 3 = true) ∧
    (faults wLd (.ld 31 15 2 false false 4) (fun p => { p with a := p.a.set 15 0x10002 }) 4 = true) ∧
    (after wSt (.st 1 15 2 true (-1)) (fun p => { p with a := p.a.set 15 0x14001, g := p.g.set 1 0xFFFFFFFF })
      (fun q => Memory.readLE q.mem 0x14000 4 = 0xFFFFFFFF && q.a[15]? = some 0x14001) = true) ∧
    (after wSt (.st 1 15 2 true (-1)) (fun p => { p with a := p.a.set 15 0x3EFFD, g := p.g.set 1 1 }) (fun q => Memory.readLE q.mem 0x3EFFC 4 = 1) = true) ∧
    (faults wSt (.st 1 15 2 true (-1)) (fun p => { p with a := p.a.set 15 0x3F001 }) 3 = true) ∧
    (faults wSt (.st 1 15 2 true (-1)) (fun p => { p with a := p.a.set 15 0x13FFD }) 3 = true) ∧
    (faults wSt (.st 1 15 2 true (-1)) (fun p => { p with a := p.a.set 15 0x14003 }) 4 = true) ∧
    (after wVld (.vld .unit 63 1 0 0) (fun p => { p with a := p.a.set 1 0x3FF80, mem := Memory.set p.mem 0x3FFFF 0x80 })
      (fun q => Machine.lane (q.vec 63) 63 = 0x8000) = true) ∧
    (after wVst (.vst .unit 63 1 1 0) (fun p => { p with a := p.a.set 1 0x3EFFE, v := p.v.set 63 (List.replicate 64 7), p := p.p.set 1 1 })
      (fun q => Memory.readLE q.mem 0x3EFFE 2 = 7 && Memory.get q.mem 0x3F000 = 0) = true) ∧
    (after wBr (.br .eq 1 0 (-1)) (fun p => { p with mem := Memory.writeLE p.mem 4 4 wBr, pc := 4 }) (fun q => q.pc = 0) = true) ∧
    (after wBr (.br .eq 1 0 (-1)) (fun p => { p with g := p.g.set 1 1 }) (fun q => q.pc = 4) = true) ∧
    (after wCall (.call 0xFFFC) (fun p => { p with stack := List.replicate 15 0 }) (fun q => q.pc = 0xFFFC && q.stack = 4 :: List.replicate 15 0) = true) ∧
    (faults wCall (.call 0xFFFC) (fun p => { p with stack := List.replicate 16 0 }) 8 = true) ∧
    (after wRet .ret (fun p => { p with stack := [64] }) (fun q => q.pc = 64 && q.stack = []) = true) ∧
    (faults wRet .ret id 8 = true) ∧
    (after wLoop (.loop 8 31) (fun p => { p with lc := 2 }) (fun q => q.pc = 8 && q.lc = 1 && q.rot = 1) = true) ∧
    (after wLoop (.loop 8 31) (fun p => { p with lc := 1 }) (fun q => q.pc = 4 && q.lc = 0 && q.rot = 0) = true) := by decide +kernel

/-- Engine 0 holds a strip's token in buffer 0, and executes a word. -/
def engHeld (w : Nat) : State :=
  let s := (engRun w).setFld (aEng 0 0) 19 0 100
  s.onEngine 0 (fun g => { g with bufs := g.bufs.set 0 (.held (.strip (anItem 0 0))), proc := { g.proc with g := g.proc.g.set 1 64, v := g.proc.v.set 2 (List.replicate 64 0x7FF) } })

def wEmit : Nat := kw 0x14 (2 * 2 ^ 20 + 1 * 2 ^ 15 + 2 ^ 13)
def wScore : Nat := kw 0x1E (1 * 2 ^ 22 + 1 * 2 ^ 17 + 15)
def wPreview : Nat := kw 0x14 (2 * 2 ^ 20 + 1 * 2 ^ 15 + 2 ^ 12)
def wAux : Nat := kw 0x1E (2 * 2 ^ 22 + 1 * 2 ^ 17 + 7)

theorem test_meets_KamoxStreams :
    (issues (engHeld wEmit) wEmit (.emitFrag 2 1 true false) = true ∧ ((engHeld wEmit).engineAt 0).heldStrip = some (anItem 0 0) ∧
      (engHeld wEmit).stagingRoom 0 (packedLen 0x0A 64) = true ∧
      goes (.bundleIssue (.eng 0) .clean) (engHeld wEmit) (fun t => (t.engineAt 0).run = .exec &&
        (t.stagingAt 0).map (fun f => (f.pixels, f.closed)) = [(List.replicate 64 0x3FF, true)])) ∧
    (let s := (engHeld wEmit).setFn .cmp .stopped
     s.stagingRoom 0 (packedLen 0x0A 64) = false ∧
     goes (.bundleIssue (.eng 0) .clean) s (fun t => (t.engineAt 0).run = .stalled (.frag (List.replicate 64 0x3FF) true false) && t.stagingAt 0 = [])) ∧
    (faults wEmit (.emitFrag 2 1 true false) id 9 = true) ∧
    (issues (engHeld wScore) wScore (.emitScore 1 15) = true ∧ (engHeld wScore).trgLive = true ∧
      goes (.bundleIssue (.eng 0) .clean) (engHeld wScore) (fun t => (t.engineAt 0).run = .exec && t.trig.prev.contains (1440, 64))) ∧
    (let s := (engHeld wScore).setFn .trg .stopped
     s.trgLive = false ∧ goes (.bundleIssue (.eng 0) .clean) s (fun t => (t.engineAt 0).run = .stalled (.score 15 64))) ∧
    (faults wScore (.emitScore 1 15) id 9 = true) ∧
    (issues (engHeld wPreview) wPreview (.emitPreview 2 1) = true ∧ (engHeld wPreview).bit aPvCfg 31 = false ∧
      goes (.bundleIssue (.eng 0) .clean) (engHeld wPreview) (fun t => t.out = [] && t.reg (aEng 0 0x28) = 1)) ∧
    (let s := (((engHeld wPreview).setReg aPvCfg 0x80060000).setReg aPvTail 0xFFFFFFFF).setReg aPvHead 0xFFFFFFC0
     s.bit aPvCfg 31 = true ∧ s.fld aPvCfg 9 0 = 0 ∧ (s.reg aPvTail + 2 ^ 32 - s.reg aPvHead) % 2 ^ 32 < 2 ^ s.fld aPvCfg 20 16 ∧
     goes (.bundleIssue (.eng 0) .clean) s (fun t => t.reg aPvTail = 0 && t.out.length = 1)) ∧
    (faults wPreview (.emitPreview 2 1) id 9 = true) ∧
    (issues (engHeld wAux) wAux (.putAux 1 7) = true ∧
      goes (.bundleIssue (.eng 0) .clean) (engHeld wAux) (fun t => (match t.slots[7]? with | some (some x) => x.1 = 64 | _ => false) && t.reg (aEng 0 0x2C) = 0)) ∧
    (faults wAux (.putAux 1 7) id 9 = true) := by decide +kernel

/-- Engine 0 waits with the strip posted in buffer 3. -/
def engToken : State := engWait.onEngine 0 (fun g => { g with bufs := g.bufs.set 3 (.posted (.strip (anItem 0 0))), posted := [3] })

def engStall : State := engWait.onEngine 0 (fun g =>
  { g with run := .stalled (.frag [5] true false), bufs := g.bufs.set 0 (.held (.strip (anItem 0 0))) })

theorem test_meets_EngineTokens :
    (engToken.runs .anv = true ∧ (engToken.engineAt 0).bufItem 3 = some (.strip (anItem 0 0)) ∧
      goes (.waitStripReturn 0) engToken (fun t => (t.engineAt 0).proc.sc 2 = 0x13000 && (t.engineAt 0).run = .exec && t.reg (aEng 0 0x20) = 1)) ∧
    ((engStall.engineAt 0).heldStrip = some (anItem 0 0) ∧ engStall.stagingRoom 0 (packedLen (anItem 0 0).fmt 1) = true ∧
      goes (.emitAccepted 0) engStall (fun t => (t.engineAt 0).run = .exec && (t.stagingAt 0).length = 1)) ∧
    (let s := engWait.onEngine 0 (fun g => { g with run := .faulted })
     s.stagingRoom 0 (anItem 0 0).payload.length = true ∧
     goes (.bypassDispatch 0 {}) s (fun t => (t.queueAt 0).items = [] && t.reg (aQ 0 oQOUT) = 1 && (t.stagingAt 0).length = 1)) ∧
    ((engToken.setFn .anv .stopping).fnState .anv = .stopping) := by decide +kernel

/-- A run image of sections: type, DEST, TARGET, bytes; entry addresses of cores 2 and 3. -/
def image (secs : List (Nat × Nat × Nat × List Byte)) (e2 e3 : Nat) : List Byte :=
  let n := secs.length
  let first := 64 * cdiv (64 + 32 * n) 64
  let table := ((upTo n).flatMap (fun i =>
    match secs[i]? with
    | some (ty, dest, target, b) =>
      pack 28 [(0, 1, ty), (4, 4, first + ((secs.take i).map (fun x => 64 * cdiv x.2.2.2.length 64)).foldl (· + ·) 0), (8, 4, b.length), (12, 4, dest),
        (16, 12, target)] ++ leBytes 4 (crc32c b)
    | none => []))
  let body := secs.flatMap (fun x => x.2.2.2 ++ zeros (64 * cdiv x.2.2.2.length 64 - x.2.2.2.length))
  let total := first + body.length
  let head : List Byte := [0x48, 0x4E, 0x51, 0x52] ++ pack 8 [(2, 2, n), (4, 4, total)]
  head ++ leBytes 4 (crc32c (head ++ table)) ++ pack 48 [(0, 4, e2), (4, 4, e3)] ++ table ++ zeros (first - 64 - table.length) ++ body

/-- Core code alone; and an engine that halts, certified for a million steps, with a schedule of a frame every µs. -/
def imgCore : List Byte := image [(0x10, 0, 4, leBytes 4 wNop)] 0 0xFFFFFFFF
def imgSlow : List Byte :=
  let code := leBytes 4 wHalt
  image [(0x01, 0, 1, code), (0x30, 0, 0, pack 32 [(0, 2, 1), (4, 2, 1)] ++ pack 24 [(0, 12, 1), (12, 4, crc32c code), (16, 4, 1000000), (20, 4, 1)]),
    (0x20, 0, 0, pack 32 [(2, 2, 1), (4, 6, 1000 * NS)])] 0xFFFFFFFF 0xFFFFFFFF

/-- A stopped device with 32 GiB of memory. -/
def roomyDown : State := (down.setFld MEM 5 0 16).setReg (MEM + 0x10) 0xFFFF

/-- An image at address 0x1000, and the command that loads it at the front of port 0's. -/
def loading (img : List Byte) (len : Nat) : State :=
  let s := roomyDown.hwrite 0x1000 img
  s.putHost { s.host with fw := [{ src := .port 0, req := pack 128 [(0, 1, 0x10), (4, 4, 0x1000), (12, 4, len)] }] }

theorem test_meets_LoadRunImage :
    ((loading imgCore imgCore.length).fwFront (.port 0) 0x10 ≠ none ∧ 0x1000 + imgCore.length ≤ (loading imgCore imgCore.length).capacity) ∧
    (let s := (loading imgCore 10).setFld aPairStat 31 29 roFOLLOWER
     s.follower = true ∧ goes (.loadRunImage (.port 0) ⟨[], [], []⟩ []) s (fun t => (t.mboxAt 0).done)) ∧
    (down.loadStatus (imgCore.take 10) 0x1000 10 false ≠ 0 ∧ (loading imgCore 10).follower = false) ∧
    (down.loadStatus imgCore 0x1000 imgCore.length false = 0 ∧ hasSection imgCore 0x20 = false) ∧
    (down.loadStatus imgSlow 0x1000 imgSlow.length false = 0 ∧ hasSection imgSlow 0x20 = true ∧
      paceFail imgSlow (imgTargets imgSlow) (down.pCheckWith imgSlow []) ≠ none) := by decide +kernel

def aBlock (kind : Nat) : Block := { tile := 0, frame := 1, fmt := 0x0A, pixels := List.replicate 64 5, kind := kind }

def cmpWith (g : Compressor → Compressor) : State := up.onComp 0 g

theorem test_meets_CompressorBlocks :
    (let s := cmpWith (fun c => { c with waiting := [aBlock 1] })
     s.cmpLive = true ∧ (s.compAt 0).inUse + (aBlock 1).reserve ≤ 65536 ∧
     goes (.blockCodingStart 0) s (fun t => (t.compAt 0).waiting = [] && (t.compAt 0).coding.length = 1)) ∧
    (let big : Block := { aBlock 1 with pixels := List.replicate 2496 5 }
     let s := cmpWith (fun c => { c with waiting := [big], ready := List.replicate 21 big })
     65536 < (s.compAt 0).inUse + big.reserve) ∧
    (let s := cmpWith (fun c => { c with coding := [(aBlock 1).raw] })
     (aBlock 1).raw.kind = 1 ∧ goes (.blockVerifyDone 0 false) s (fun t => (t.compAt 0).ready.length = 1)) ∧
    (let b := (aBlock 1).code 2 1 0
     let s := cmpWith (fun c => { c with coding := [b] })
     b.kind ≠ 1 ∧ b.verify = true ∧ goes (.blockVerifyDone 0 true) s (fun t => (t.compAt 0).mismatches = 1 && (t.compAt 0).ready.length = 1)) ∧
    (let b : Block := { (aBlock 1).code 2 1 0 with hist := [] }
     b.kind ≠ 1 ∧ b.verify = false) ∧
    (let b := (aBlock 1).raw
     let s := cmpWith (fun c => { c with ready := [b] })
     s.acceptBytes b.tile b.frame b.bytes ≠ none ∧ goes (.blockCommit 0) s (fun t => (t.compAt 0).ready = [])) ∧
    (let b := (aBlock 1).raw
     let s := (cmpWith (fun c => { c with ready := [b], hstall := true })).setFn .hrt .stopped
     s.acceptBytes b.tile b.frame b.bytes = none ∧ (s.compAt 0).hstall = true ∧
     goes (.hearthWriteResume 0) s (fun t => (t.compAt 0).hstall)) := by decide +kernel

/-! ### Witnesses: frames, segments, triggers, jobs (chapters 07 to 09) -/

def fragA : Fragment :=
  { rel := 0, frame := 5, tile := 0, fmt := 0x0A, row := 0, col := 0, flags := 0, lane := 0, stamp := 0, pixels := [1, 2, 3], closed := true, final := true }

def withFrag : State := up.putStaging (up.staging.set 0 [fragA])

/-- A loaded image whose TILE_MAP uses lane 0 alone. -/
def oneTile : State := up.putKept (some (image [(0x08, 0, 0, pack 384 [(3, 1, 1)])] 0 0))

/-- Segment 0 armed from frame 5, frame 5 open and its tile-frame closed, a slot write waiting. -/
def slotWaits : State :=
  let fr : Frame := { n := 5, stamp := 0, tfs := [(0, { closed := true })] }
  let s := oneTile.onSeg 0 (fun g => { g with length := 1, phase := .armed, cap := 100, mbase := 3, mslots := 100 })
  s.putHearth { s.hearth with slotWait := true, act := some { seg := 0, f0 := 5, slots := 100 }, opens := [fr] }

theorem test_meets_FrameFormation :
    (withFrag.runs .cmp = true ∧ withFrag.nextFragment 0 = some (0, fragA) ∧ withFrag.tfLate 0 5 = false ∧ withFrag.openBlockOf 0 = none ∧
      fragA.pixels.length < pMax fragA.fmt ∧
      goes (.fragmentEnterStream 0) withFrag (fun t => t.stagingAt 0 = [] && (t.openBlockOf 0).isSome)) ∧
    (let s := withFrag.putHearth { withFrag.hearth with tileDone := [(0, 5)] }
     s.tfLate 0 5 = true ∧ s.nextFragment 0 = some (0, fragA) ∧ goes (.fragmentEnterStream 0) s (fun t => decide (t.comps = s.comps))) ∧
    (slotWaits.runs .hrt = true ∧ (match slotWaits.hearth.opens, slotWaits.hearth.act with
        | [fr], some a => slotWaits.allClosed fr && slotWaits.inRing a fr.n && !fr.lost && a.post.isNone
        | _, _ => false) = true ∧
      goes .slotWriteResume slotWaits (fun t => !t.hearth.slotWait && t.hearth.ring.map (fun x => (x.n, x.slot)) = [(5, 3)])) ∧
    (let s := oneTile.putHearth { oneTile.hearth with opens := [{ n := 0xFFFFFFFF, stamp := 0 }] }
     s.tileStalled 0 = false ∧ s.usedTile 0 = true ∧ s.tfTurn 0 0xFFFFFFFF = true ∧ (s.openFrame? 0xFFFFFFFF).isSome = true ∧
     goes (.tileFrameTimeout 0 0xFFFFFFFF) s (fun t => sget 0x100000000 t.hearth.tileDone 0 = 0xFFFFFFFF)) := by decide +kernel

def closedSeg : State := up.onSeg 0 (fun g => { g with length := 1, phase := .closed })

theorem test_meets_ReleaseQuenchScrub :
    (closedSeg.follower = false ∧ goes .segcmdRelease closedSeg (fun t => (t.segAt 0).phase = .empty)) ∧
    (goes .segcmdRelease (closedSeg.setFld (HRT + 0x10) 5 0 63) (fun t => (t.segAt 0).phase = .closed)) ∧
    ((up.setBit (HRT + 4) 31 true).bit (HRT + 4) 31 = true ∧
      goes .quenchSlotWritesDone (up.setBit (HRT + 4) 31 true) (fun t => !t.bit (HRT + 4) 31)) ∧
    (up.temper = true ∧ up.inPost = false ∧ goes (.scrubStep .clean 65535) up (fun t => t.bgs.scrubProg = 65535)) ∧
    (up.present (MEM + 0x200 + 4 * up.channelOf 0) = true ∧ goes (.scrubStep (.single 0) 1) up (fun t => t.reg (MEM + 0x200) = 1)) ∧
    (goes (.scrubStep (.uncorrectable 0x09001000) 1) up (fun t => t.keptBad)) ∧
    (goes (.scrubStep (.uncorrectable 0x0FFFFFFF) 1) up (fun t => t.keptBad)) ∧
    (goes (.scrubStep (.crc 0 47) 1) up (fun t => t.reg (HRT + 0x114) = 1)) := by decide +kernel

/-- TRIGGER_CONFIG: sources 0, 2, 50 and 52 enabled, set 0 is source 2, horizon 4 µs; and the fields given. -/
def cfg (fields : List (Nat × Nat × Nat)) : List Byte :=
  pack 1288 ([(0, 2, 1), (2, 1, 1), (4, 4, 4), (0x10, 8, 2 ^ 0 + 2 ^ 2 + 2 ^ 50 + 2 ^ 52), (0x1F8, 1, 0x82)] ++ fields)

/-- TRG configured and with a schedule. -/
def trg (fields : List (Nat × Nat × Nat)) : State :=
  up.putTrig { up.trig with cfg := cfg fields, sched := pack 32 [(2, 2, 1), (4, 6, 1000 * NS)] }

/-- A command that firmware serves next, from port 0. -/
def front (s : State) (code : Nat) (args : List (Nat × Nat × Nat)) : State :=
  s.putHost { s.host with fw := [{ src := .port 0, req := pack 128 ((0, 1, code) :: args) }] }

/-- A device whose TRG, image and segment 0 let segment 0 be armed. -/
def armable : State :=
  let s := ((trg []).putKept (some (image [(0x08, 0, 0, zeros 384), (0x20, 0, 0, pack 32 [(2, 2, 1), (4, 6, 1000 * NS)]), (0x21, 0, 0, cfg [])] 0 0))).onSeg 0
    (fun g => { g with length := 1, cap := 100, mslots := 100 })
  s

def okCheck : ArmCheck := { status := 0, engine := 0, check := 0, pCheck := 0 }

/-- The same with an engine whose certificate is too slow for the schedule. -/
def slow : State :=
  let code := leBytes 4 wHalt
  (armable.putKept (some (image [(0x08, 0, 0, zeros 384), (0x01, 0, 1, code),
    (0x30, 0, 0, pack 32 [(0, 2, 1), (4, 2, 1)] ++ pack 24 [(0, 12, 1), (12, 4, crc32c code), (16, 4, 1000000), (20, 4, 1)]),
    (0x20, 0, 0, pack 32 [(2, 2, 1), (4, 6, 1000 * NS)]), (0x21, 0, 0, cfg [])] 0 0))).setBit (aEng 0 0) 31 true

theorem test_meets_ArmDisarmRearm :
    ((front armable 0x11 []).fwFront (.port 0) 0x11 ≠ none ∧ armable.follower = false ∧ armable.role = roSOLO ∧ armable.armCheckTrg 0 = true ∧
      armable.armCheckHrt 0 = 0 ∧ armable.hearth.opens = [] ∧ paceFail (armable.kept.getD []) armable.enabledEngines (armable.pCheckWith (armable.kept.getD []) []) = none ∧
      goes (.arm (.port 0) [] { status := 0, engine := 0, check := 0, pCheck := 0 }) (front armable 0x11 []) (fun t => (t.segAt 0).phase = .armed && t.trig.seq.run && (t.mboxAt 0).done)) ∧
    (up.armCheckTrg 0 = false ∧ goes (.arm (.port 0) [] { status := 0, engine := 0, check := 0, pCheck := 0 }) (front up 0x11 []) (fun t => (t.mboxAt 0).done && t.hearth.act = none)) ∧
    (armable.armCheckHrt 63 ≠ 0) ∧
    ((armable.setFld aPairStat 31 29 roFOLLOWER).follower = true) ∧
    (let s := front (slotWaits.putTrig { slotWaits.trig with seq := { run := true } }) 0x12 []
     goes (.disarm (.port 0)) s (fun t => !t.trig.seq.run && t.hearth.act = none && (t.segAt 0).phase = .empty)) ∧
    (let s := armable.putTrig { armable.trig with rearm := some (1, 0) }
     goes .rearm s (fun t => t.trig.rearm = none && (t.segAt 0).phase = .armed)) ∧
    (let s := armable.putTrig { armable.trig with rearm := some (0, 63) }
     ¬(s.armCheckTrg 63 = true ∧ s.armCheckHrt 63 = 0) ∧ goes .rearm s (fun t => t.trig.rearm = none && t.hearth.act = none)) ∧
    (let s := armable.putHearth { armable.hearth with opens := [{ n := 6, stamp := 0, lost := true }, { n := 7, stamp := 0 }] }
     armable.measured [] = true ∧ armable.segActive = false ∧ armable.paceRefusal [] = none ∧ s.nextToClose = 7 ∧ s.trig.seq.renumber = false ∧
     goes (.arm (.port 0) [] okCheck) (front s 0x11 []) (fun t => match t.hearth.act with | some a => a.f0 = 7 | none => false) ∧
     goes .rearm (s.putTrig { s.trig with rearm := some (1, 0) }) (fun t => match t.hearth.act with | some a => a.f0 = 7 | none => false)) ∧
    (let s := (slow.kept.getD []).length
     slow.armCheckTrg 0 = true ∧ slow.segActive = false ∧ slow.measured [] = true ∧ slow.paceRefusal [] ≠ none ∧ 0 < s ∧
     goes (.arm (.port 0) [] okCheck) (front slow 0x11 []) (fun t => t.hearth.act = none && (t.mboxAt 0).done)) ∧
    (let s := armable.setFld (aDomain 12) 29 28 1
     s.measured [] = false ∧ s.measured [(0, 1000)] = true ∧ goes (.arm (.port 0) [] okCheck) (front s 0x11 []) (fun t => t.host.fw = (front s 0x11 []).host.fw && t.hearth.act = none && !(t.mboxAt 0).done)) ∧
    (let s := armable.setFld aPairStat 31 29 4
     s.role = roHOLDER ∧ goes (.arm (.port 0) [] okCheck) (front s 0x11 []) (fun t => (t.segAt 0).phase = .armed) ∧
     goes (.arm (.port 0) [] { okCheck with status := 0x0A }) (front s 0x11 []) (fun t => t.hearth.act = none && (t.mboxAt 0).done)) ∧
    (slotWaits.segActive = true ∧ (armable.putHearth { armable.hearth with act := slotWaits.hearth.act }).segActive = true) := by decide +kernel

theorem test_meets_HostAndTimeTriggers :
    ((trg []).runs .trg = true ∧ (trg []).follower = false ∧ (trg []).srcOn 50 = true ∧ (trg []).srcLate (trg []).now (trg []).tb.epochs = false ∧
      goes .hosttrigGo (trg []) (fun t => t.trig.items = [(0, .edge 50 false)])) ∧
    (goes (.trigger (.port 0) 0) (front (trg []) 0x13 [(4, 1, 1)]) (fun t => t.trig.items = [(0, .edge 50 true)] && (t.mboxAt 0).done)) ∧
    (goes (.timeTrigger (.port 0) 0) (front (trg []) 0x14 [(4, 4, 4001)]) (fun t => t.trig.timeTrig = some 4001)) ∧
    (goes (.timeTrigger (.port 0) 0) (front (trg []) 0x14 [(4, 4, 4000)]) (fun t => t.trig.timeTrig = none && (t.mboxAt 0).done)) ∧
    (let s := (trg []).putTrig { (trg []).trig with timeTrig := some 10 }
     s.srcOn 52 = true ∧ s.srcLate (10 * NS % 2 ^ 80) s.tb.epochs = false ∧
     goes .timeTriggerFire s (fun t => t.trig.timeTrig = none && t.trig.items = [(10 * NS, .edge 52 false)])) ∧
    (let s := front ((trg []).setFld aPairStat 31 29 roFOLLOWER) 0x13 []
     s.follower = true ∧ goes (.trigger (.port 0) 4) s (fun t => (t.mboxAt 0).done && t.trig.items = [])) ∧
    (let s := front ((trg []).setFld aPairStat 31 29 roFOLLOWER) 0x14 []
     goes (.timeTrigger (.port 0) 4) s (fun t => (t.mboxAt 0).done)) := by decide +kernel

/-- Dual input 0 with DISC 1,000 ns; output 0 in FRAME mode, 20 ns wide, tested. -/
def dualCfg : State := trg [(0x158, 1, 1), (0x15C, 4, 1000), (0x2F8, 1, 1), (0x2FA, 1, 2), (0x300, 4, 20)]
def dualPend (t0 : Nat) : State := dualCfg.putTrig { dualCfg.trig with dual := dualCfg.trig.dual.set 0 { pend := some (false, t0) } }
def tested (r : Option Bool) (ended : Bool) : State :=
  dualCfg.putTrig { dualCfg.trig with pins := dualCfg.trig.pins.set 0 { test := if ended then .ended r else .driving r } }

theorem test_meets_InputsAndPulses :
    (dualCfg.runs .trg = true ∧ dualCfg.dualOn 0 = true ∧ (dualCfg.dualAt 0).pend = none) ∧
    ((dualPend 0).srcOn 0 = true ∧ (dualPend 0).disc 0 = 1000 * NS ∧ ((dualPend 0).dualAt 0).pend = some (!true, 0)) ∧
    (let a := dualCfg.edgeStamp 17 (2 ^ 43) (fineCode 0)
     goes (.trigEdge 1 (2 ^ 43) 0) (dualPend (a - 1000 * NS + 1)) (fun t => t.dualAt 0 = { taken := true } && t.trig.items = [(a - 1000 * NS + 1, .edge 0 false)]) ∧
     goes (.trigEdge 1 (2 ^ 43) 0) (dualPend (a - 1000 * NS)) (fun t => t.dualAt 0 = { locked := true } && t.bit aDcStat 3)) ∧
    (goes (.trigEdge 1 0 0) dualCfg (fun t => (t.dualAt 0).pend = some (true, dualCfg.edgeStamp 17 0 (fineCode 0)))) ∧
    (let s := dualCfg.putTrig { dualCfg.trig with dual := dualCfg.trig.dual.set 0 { locked := true } }
     goes (.trigEdge 0 0 0) s (fun t => t.dualAt 0 = { locked := true } && t.reg (TRG + 0x124) = 1)) ∧
    (goes (.trigEdge 0 0 0) (dualPend 0) (fun t => (t.dualAt 0).pend = some (false, 0) && t.reg (TRG + 0x124) = 1)) ∧
    (goes (.discrepancyTimeout 0) (dualPend 0) (fun t => t.dualAt 0 = { locked := true } && t.bit aDcStat 3)) ∧
    (goes (.dualInputIdle 0) (dualCfg.putTrig { dualCfg.trig with dual := dualCfg.trig.dual.set 0 { locked := true } }) (fun t => !(t.dualAt 0).locked)) ∧
    (let fr : FrameTime := { n := 1, sched := 5 * NS, t := 5 * NS }
     let s := dualCfg.putTrig { dualCfg.trig with frames := [fr] }
     s.outMode 0 = 1 ∧ fr ∈ s.framesTo (5 * NS + res312 + 33000 * NS) ∧ onGrid ((fr.sched : Int) + s.outDelay 0) (5 * NS) = true ∧
     goes (.outputTimedPulse 0 (5 * NS)) s (fun t => (t.pinAt 0).active && (t.pinAt 0).until_ = 25 * NS)) ∧
    (let fr : FrameTime := { n := 1, sched := 7 * NS, t := 7 * NS }
     let s := dualCfg.putTrig { dualCfg.trig with frames := [fr] }
     onGrid ((fr.sched : Int) + s.outDelay 0) (22 * res312) = true ∧ onGrid ((fr.sched : Int) + s.outDelay 0) (23 * res312) = true ∧
     goes (.outputTimedPulse 0 (23 * res312)) s (fun t => (t.pinAt 0).active) ∧ goes (.outputTimedPulse 0 (24 * res312)) s (fun t => !(t.pinAt 0).active)) ∧
    (goes (.outputPulseEnd 0) dualCfg (fun t => !(t.pinAt 0).active)) ∧
    (let s := dualCfg.putTrig { dualCfg.trig with pins := dualCfg.trig.pins.set 0 { active := true, until_ := 1 } }
     s.nowFine < (s.pinAt 0).until_ ∧ goes (.outputPulseEnd 0) s (fun t => (t.pinAt 0).active)) ∧
    (dualCfg.outTestOn 0 = true ∧ dualCfg.nonHolder = false ∧ dualCfg.outActive 0 = false ∧ dualCfg.inPost = false ∧
      goes (.outputTestStart 0) dualCfg (fun t => (t.pinAt 0).test = .driving none)) ∧
    (let s := dualCfg.putHearth { dualCfg.hearth with act := some { seg := 0, f0 := 0, post := some { t := 0, tfrac := 0, tstamp := 0, pact := 0, recno := 0 } } }
     s.testHeld 0 = true ∧ s.outTestOn 0 = true ∧ s.outActive 0 = false ∧
     goes (.outputTestStart 0) s (fun t => (t.pinAt 0).test = .none && (t.pinAt 0).deferred)) ∧
    (let s := dualCfg.putTrig { dualCfg.trig with pins := dualCfg.trig.pins.set 0 { active := true, until_ := 99, test := .ended (some true) } }
     (s.pinAt 0).test = .ended (some true) ∧ s.outActive 0 = true ∧ s.outIdle 0 = false ∧
     goes (.outputTestReadback 0 true) s (fun t => (t.pinAt 0).test = .none && !t.bit aOutStat 16 && t.reg (TRG + 0x130) = 1)) ∧
    (goes (.outputTestReadback 0 true) (tested none false) (fun t => (t.pinAt 0).test = .driving (some true))) ∧
    (goes (.outputTestEnd 0) (tested (some true) false) (fun t => (t.pinAt 0).test = .ended (some true))) ∧
    (goes (.outputTestReadback 0 false) (tested (some true) true) (fun t => (t.pinAt 0).test = .none && !t.bit aOutStat 16)) ∧
    (goes (.outputTestReadback 0 true) (tested (some true) true) (fun t => t.bit aOutStat 16)) := by decide +kernel

/-- One undecided edge of source 2 at stamp 100, its set evaluated for segment 0. -/
def oneEdge (p : TrigPhase) : State :=
  let s := trg []
  let fr (n t : Nat) : FrameTime := { n := n, sched := t, t := t, started := true, checked := true }
  let s := s.putTrig { s.trig with items := [(100, .edge 2 false)], evalSeg := some 0, phase := p, frames := [fr 5 50, fr 6 150] }
  s.putHearth { s.hearth with act := some { seg := 0, f0 := 5 } }

theorem test_meets_TriggerDecision :
    ((oneEdge .unarmed).runs .trg = true ∧ (oneEdge .unarmed).follower = false ∧ (oneEdge .unarmed).pendingEdge = none ∧ (oneEdge .unarmed).segSet 0 = some 0 ∧
      (let s := oneEdge .unarmed
       let h := s.putTrig { s.trig with items := [], held := [(2, 100 + s.srcHold 2)] }
       h.setOut 0 (h.srcTrue 100) = true) ∧
      goes (.triggerEvaluation 100) (oneEdge .unarmed) (fun t => t.reg (TRG + 0x110) = 1 && t.trig.items = [])) ∧
    (goes (.triggerEvaluation 100) (oneEdge (.post 0)) (fun t => t.reg (TRG + 0x10C) = 1)) ∧
    (goes (.triggerEvaluation 100) (oneEdge .rearm) (fun t => t.reg (TRG + 0x108) = 1)) ∧
    (goes (.triggerEvaluation 100) (oneEdge .stopped) (fun t => t.reg (TRG + 0x120) = 1)) ∧
    (let o := oneEdge .unarmed
     let last : FrameTime := { n := 6, sched := 150, t := 150, started := true, checked := true, stop := some 160 }
     let s := o.putTrig { o.trig with items := [(200, .edge 2 false)], frames := [last] }
     (o.placed 100).2 = false ∧ (s.placed 200).2 = true ∧ goes (.triggerEvaluation 200) s (fun t => t.reg (TRG + 0x120) = 1)) ∧
    ((oneEdge (.armed 0)).placed 100 = (some (5, 50, 150), false) ∧ (oneEdge (.armed 0)).frameZero 5 100 = some 50 ∧ ((oneEdge (.armed 0)).segAt 0).p ≤ frameDiff 5 5 ∧
      goes (.triggerEvaluation 100) (oneEdge (.armed 0)) (fun t => (t.segAt 0).recCount = 1)) := by decide +kernel

theorem test_meets_HorizonAndResults :
    ((trg []).trig.items = [] ∧ (trg []).pendingEdge = none ∧ goes (.triggerEvaluation 9) (trg []) (fun t => t.trig.hp = some 9)) ∧
    ((trg [(0x388, 1, 1), (0x38C, 4, 10)]).redKind 0 ≠ 0 ∧
      goes (.reductionIntervalEnd 0) (trg [(0x388, 1, 1), (0x38C, 4, 10)]) (fun t => t.trig.redNext = [(0, 1)])) ∧
    (let s := (trg []).putHearth { (trg []).hearth with measDue := [3] }
     goes .measurementReady s (fun t => t.hearth.measDue = [])) ∧
    (let s := front ((trg [(0x488, 1, 1)]).onSeg 0 (fun g => { g with phase := .closed })) 0x17 []
     (s.segAt 0).phase = .closed ∧ s.measKind 0 ≠ 0 ∧ goes (.measure (.port 0)) s (fun t => (t.mboxAt 0).done) ∧
     goes (.measure (.port 0)) (s.putTrig { s.trig with meas := [(0, zeros 64)] }) (fun t => (t.mboxAt 0).done)) ∧
    (goes (.measure (.port 0)) (front (trg []) 0x17 []) (fun t => (t.mboxAt 0).done)) := by decide +kernel

/-- An installed capacity of 32 GiB, and a job: operation, coding, FMT or output, source, length, destination, length, pixels. -/
def roomy : State := (up.setFld MEM 5 0 16).setReg (MEM + 0x10) 0xFFFF
def job (op coding fmt src n dst m px : Nat) : List Byte :=
  pack 64 [(0, 1, op), (1, 1, coding), (2, 1, fmt), (4, 2, 7), (8, 8, src), (16, 8, n), (24, 8, dst), (32, 8, m), (40, 4, px)]
def withJob (d : List Byte) : State := roomy.putJobs { roomy.jobs with queue := [d] }
def coded : List Byte := ((aBlock 1).code 2 1 0).bytes
def withCoded (op : Nat) : State := (withJob (job op 0 0 0x100 coded.length (if op = 3 then 0 else 0x10000) (if op = 3 then 0 else 512) 0)).hwrite 0x100 coded

theorem test_meets_Offload :
    (up.jobs.queue.length < 16 ∧ goes .jobSubmit up (fun t => t.jobs.queue.length = 1)) ∧
    (goes .jobSubmit (up.putJobs { up.jobs with queue := List.replicate 16 [] }) (fun t => t.bit aJStat 30 && t.jobs.queue.length = 16)) ∧
    ((withJob (job 1 1 9 0 80 0x10000 200 64)).jobCheck (job 1 1 9 0 80 0x10000 200 64) ≠ 0 ∧
      goes (.compress [] ⟨[], [], []⟩) (withJob (job 1 1 9 0 80 0x10000 200 64)) (fun t => t.jobs.queue = [] && t.jobs.run.isSome)) ∧
    (let d := job 1 1 0x0A 0 80 0x10000 200 64
     let s := withJob d
     s.jobCheck d = 0 ∧ jobFits (jdDstLen d) ((jobBlocks d (unpackPixels 10 64 (s.hostRead 0 80)) []).map (fun b => (b.reserve, b.bytes.length))) = true ∧
     goes (.compress [] ⟨[], [], []⟩) s (fun t => match t.jobs.run with | some r => r.nblk = 1 && r.status = 0 | none => false)) ∧
    ((withCoded 2).jobCheck ((withCoded 2).jobs.queue.headD []) = 0 ∧
      goes (.decompress ⟨[], [], []⟩) (withCoded 2) (fun t => match t.jobs.run with | some r => r.nblk = 1 && r.status = 0 | none => false)) ∧
    ((withCoded 3).jobCheck ((withCoded 3).jobs.queue.headD []) = 0 ∧
      goes (.check ⟨[], [], []⟩) (withCoded 3) (fun t => match t.jobs.run with | some r => r.nblk = 1 && r.status = 0 | none => false)) ∧
    (let d := job 1 1 0x0A 0 80 0x10000 16 64
     let s := withJob d
     s.jobCheck d = 0 ∧ jobFits (jdDstLen d) ((jobBlocks d (unpackPixels 10 64 (s.hostRead 0 80)) []).map (fun b => (b.reserve, b.bytes.length))) = false ∧
     goes (.compress [] ⟨[], [], []⟩) s (fun t => match t.jobs.run with | some r => r.nblk = 0 && r.status = 4 | none => false)) ∧
    (let s := roomy.putJobs { roomy.jobs with run := some { desc := job 1 1 0x0A 0 80 0x10000 200 64, cut := true } }
     s.hostWritable 0x10000 200 = true ∧ goes .jobDone s (fun t => t.jobs.lastStatus = 0x0C)) ∧
    (let s := roomy.putJobs { roomy.jobs with run := some { desc := job 1 1 0x0A 0 80 0x10000 200 64 } }
     goes .jobDone s (fun t => t.jobs.run = none && t.jobs.lastTag = 7 && t.jobs.lastStatus = 0) ∧
     goes .jobAbort s (fun t => t.jobs.run = none && t.jobs.lastStatus = 0x0C)) ∧
    (let s := roomy.putJobs { roomy.jobs with run := some { desc := job 1 1 0x0A 0 80 0x40000000 200 64 } }
     s.hostWritable 0x40000000 200 = false ∧ goes .jobDone s (fun t => t.jobs.lastStatus = 0x0C)) ∧
    ((up.setFn .cmp .stopping).fnState .cmp = .stopping) := by decide +kernel

theorem test_meets_CodecRoundTrip :
    (∀ x ∈ [0, 1023, 5, 5, 5, 512], x < 2 ^ 10) ∧ (∀ x ∈ [0, 65535], x < 2 ^ 16) ∧
    decodeBody 2 1 1 10 6 (encodeBody 2 1 1 10 [0, 1023, 5, 5, 5, 512]).1 = some [0, 1023, 5, 5, 5, 512] ∧
    decodeBody 3 7 0 16 2 (encodeBody 3 7 0 16 [0, 65535]).1 = some (encodeBody 3 7 0 16 [0, 65535]).2 := by decide +kernel

/-- Segment 0 armed from frame 5 with a stream of tile 0, and frame 5 open; a coded block of it. -/
def streaming : State :=
  let s := (oneTile.onSeg 0 (fun g => { g with length := 1, base := 65536, quota := [(0, 64)], phase := .armed, cap := 100, mbase := 3, mslots := 100 }))
  let b : Block := { (aBlock 1).raw with frame := 5 }
  (s.putHearth { s.hearth with act := some { seg := 0, f0 := 5 }, opens := [{ n := 5, stamp := 0 }] }).onComp 0 (fun c => { c with ready := [b] })

theorem test_meets_MemoryFrames :
    (let early := up.log 0 13 6 4 []
     let s := early.putTb { early.tb with counter := 1000000 * 2 ^ 32, logCount := 2097153 }
     (s.tb.log.all (fun x => x.data.length = 12)) = true ∧
     goes (.logWindowClose 0 0) s (fun t => t.tb.logCount = 2097154 && decide (t.hread (logArea + 32) 32 ≠ zeros 32) && decide (t.hread logArea 32 = zeros 32))) ∧
    (goes (.blockCommit 0) streaming (fun t => (t.compAt 0).ready = [] && decide (t.hearth.mem ≠ []) &&
       t.hearth.mem.all (fun c => decide (65536 * extent ≤ c.1) && decide (c.1 < 65536 * extent + 1000)))) ∧
    (let w : TileFrame := { opened := true, data := [1, 2, 3], count := 3 }
     let s := (armable.onSeg 0 (fun g => { g with base := 65536, quota := [(0, 64)] })).putHearth { armable.hearth with segs := (armable.onSeg 0 (fun g => { g with base := 65536, quota := [(0, 64)] })).hearth.segs, opens := [{ n := 0, stamp := 0, tfs := [(0, w)] }] }
     s.armCheckHrt 0 = 0 ∧ goes (.arm (.port 0) [] okCheck) (front s 0x11 []) (fun t => decide (t.hread (65536 * extent) 3 = [1, 2, 3]) && t.hearth.mem.length = 3)) ∧
    (let s := roomy.putJobs { roomy.jobs with run := some { desc := job 1 1 0x0A 0 80 0x10000 200 64, out := [9, 9] } }
     goes .jobDone s (fun t => t.hearth.mem = [(0x10000, 9), (0x10001, 9)])) := by decide +kernel

/-! ### Witnesses: time, timed inputs, rig synchronisation (chapters 10 and 11) -/

def us : Nat := 1000 * NS

/-- The raw counter stands at 1 µs. -/
def later : State := up.putTb { up.tb with counter := 1000 * 2 ^ 32 }

theorem test_meets_TimebaseControl :
    (up.hostTime = true ∧ goes (.tbIncWrite 0x7F5C28F5) up (fun t => t.reg aTbInc = 0x7F5C28F6 && t.bit aTbStat 27)) ∧
    (goes (.tbIncWrite 0x7F5C28F6) up (fun t => t.reg aTbInc = 0x7F5C28F6 && !t.bit aTbStat 27)) ∧
    (goes (.tbIncWrite 0x80A3D70A) up (fun t => !t.bit aTbStat 27)) ∧
    (goes (.tbIncWrite 0x80A3D70B) up (fun t => t.reg aTbInc = 0x80A3D70A && t.bit aTbStat 27)) ∧
    ((up.setBit aTbCfg 31 true).hostTime = false ∧ goes (.tbIncWrite 0) (up.setBit aTbCfg 31 true) (fun t => t.reg aTbInc = 0x80000000)) ∧
    (goes .tbNowRead later (fun t => t.out = [.readData (TB + 0x20) 1000] && t.reg (TB + 0x30) = 1000)) ∧
    (up.runs .tb = true ∧ goes .stepGo (up.setReg (TB + 0x54) 0xFFFFFFFF) (fun t => t.tb.pend = some (.by (-4294967296)))) ∧
    (goes .stepCancel (up.putTb { up.tb with pend := some (.to 5) }) (fun t => t.tb.pend = none)) ∧
    (let s := slotWaits.putTb { up.tb with pend := some (.to 5) }
     s.segActive = true ∧ goes .stepApply s (fun t => t.tb.pend = some (.to 5))) ∧
    (let s := ((later.setFn .trg .stopped).putTb { later.tb with pend := some (.by 65536) })
     s.segActive = false ∧ s.fnState .tb ≠ .off ∧ s.sync ≠ 4 ∧ s.trgLive = false ∧
     goes .stepApply s (fun t => t.tb.counter = 1001 * 2 ^ 32 && t.tb.epochs = 1 && t.reg (TB + 0x104) = 1) ∧
     goes .stepApply ((s.setReg (TB + 0x60) 65536).putTb { s.tb with transl := true })
       (fun t => t.tb.counter = 1002 * 2 ^ 32 && !t.tb.transl && t.reg (TB + 0x60) = 0)) ∧
    (let s := up.putHearth { up.hearth with flush := some ({ seg := 0, f0 := 0, post := some { t := 0, tfrac := 0, tstamp := 0, pact := 0, recno := 0 } }, []) }
     s.segActive = true ∧ goes .stepApply (s.putTb { s.tb with pend := some (.to 5) }) (fun t => t.tb.pend = some (.to 5))) ∧
    (State.reset.inReset = true ∧ up.inReset = false) := by decide +kernel

/-- Channel 15 enabled, with a hold-off of 10 µs. -/
def chan (p : TimedInput) : State := (up.setReg (aChCfg 15) 0x800003E8).onInput 15 (fun _ => p)

/-- Unit 7 started at stamp 9, single or continuous. -/
def unitRuns (arm : Nat) : State :=
  (up.setFld (aUnit 7 0) 29 27 arm).onUnit 7 (fun x => { x with phase := .started 9 })

theorem test_meets_TimedInputs :
    ((chan {}).bit (aChCfg 15) 31 = true ∧ goes (.tdcEdge 15 (2 ^ 40) 0) (chan {}) (fun t => t.reg (aChCfg 15 + 0x0C) = 1)) ∧
    (let s := chan { lastConv := some ((chan {}).edgeRaw 15 (2 ^ 40) (fineCode 2499999)) }
     goes (.tdcEdge 15 (2 ^ 40) 2499999) s (fun t => t.reg (aChCfg 15 + 0x10) = 1)) ∧
    (let s := chan { lastConv := some 0, lastAcc := some ((chan {}).edgeStamp 15 (2 ^ 40) (fineCode 0)) }
     goes (.tdcEdge 15 (2 ^ 40) 0) s (fun t => t.reg (aChCfg 15 + 0x14) = 1)) ∧
    (goes (.gateEdge 1 (2 ^ 40) 0) up (fun t => (t.inputAt 21).lastAcc.isSome)) ∧
    (let a := up.edgeStamp 21 (2 ^ 42) (fineCode 0)
     goes (.gateEdge 1 (2 ^ 42) 0) (up.onInput 21 (fun p => { p with lastAcc := some (a - 500 * 65536 + 1) }))
       (fun t => (t.inputAt 21).lastAcc = some (a - 500 * 65536 + 1)) ∧
     goes (.gateEdge 1 (2 ^ 42) 0) (up.onInput 21 (fun p => { p with lastAcc := some (a - 500 * 65536) }))
       (fun t => (t.inputAt 21).lastAcc = some a)) ∧
    (let s := (later.setBit (aUnit 7 0) 31 true).setFld (aUnit 7 0) 29 27 5
     s.unitOn 7 = true ∧ s.unitArm 7 = 5 ∧ res25 ≤ s.nowFine ∧
     goes (.tdcSoftwareArm 7) s (fun t => (t.unitAt 7).inputs = [(s.now, .arm 5)])) ∧
    (((unitRuns 1).unitAt 7).inputs = [] ∧
      goes (.tdcWindowEnd 7) (unitRuns 1) (fun t => (t.unitAt 7).phase = .armed (9 + 400 * res25) && t.reg (aUnit 7 0x2C) = 1
        && t.reg (aUnit 7 0x38) = 1) ∧
      goes (.tdcWindowEnd 7) (unitRuns 5) (fun t => (t.unitAt 7).phase = .idle && (t.unitAt 7).ended = 1)) ∧
    (goes (.statisticsClear 7) (up.onUnit 7 (fun x => { x with n := 3, sum := 9 })) (fun t => t.unitAt 7 = {})) ∧
    (up.runs .bgs = true ∧ up.inPost = false ∧ up.bit aCal 31 = false ∧
      goes (.interpolatorRecalStart 21) up (fun t => t.bit aCal 31 && t.fld aCal 20 16 = 21 && t.fld aCal 28 24 = 22)) ∧
    (let s := up.onField (fun f => { f with testing := some 0 })
     up.svcBusy = false ∧ s.svcBusy = true ∧ goes (.interpolatorRecalStart 21) s (fun t => !t.bit aCal 31 && t.bgs.due = [0x200 + 21])) ∧
    (let s := up.setReg aCal (0x80000000 + 22 * 0x1000000 + 21 * 0x10000)
     tableOk s.increment (List.replicate 800 20) = true ∧ tableOk s.increment [] = false ∧
     goes (.codeDensityCollected (List.replicate 800 20)) s (fun t => t.tdc.handover = some 21 && (t.ipolAt 22).table.isSome) ∧
     goes (.codeDensityCollected []) s (fun t => !t.bit aCal 31 && t.bit (aChStat 21) 30 && t.tdc.calFails = 1) ∧
     goes (.interpolatorHandover (-7) 25) (s.onTdc (fun d => { d with handover := some 21 }))
       (fun t => t.fld (aChStat 21) 15 8 = 22 && t.fld aCal 28 24 = 21 && (t.ipolAt 22).offs = -7)) := by decide +kernel

/-- Sync port 0 live, boundary clock, in a port state, end to end or peer to peer. -/
def sync (st : Nat) (p2p : Bool) : State :=
  (((up.setReg PTP (0x80000000 + (if p2p then 0x10000000 else 0))).setBit (aPort 0 0) 31 true).setBit (aPort 0 0x0C) 31 true).setFld (aPort 0 0x0C) 27 24 st

def head (seq : Nat) : PtpHead := { fcs := true, version := 2, domain := 0, clock := 99, port := 1, seq := seq, corr := 0 }

def follows (p2p : Bool) (g : PtpPort → PtpPort) : State := (sync 9 p2p).onPort 0 (fun x => g { x with parent := some (99, 1) })

theorem test_meets_PtpReceives :
    ((sync 9 false).portLive 0 = true ∧ (sync 9 false).clockPort 0 = true ∧ (sync 9 false).portState 0 ≠ 3 ∧
      goes (.syncRx 0 { head 1 with fcs := false } true 0 0) (sync 9 false) (fun t => t.reg (aPort 0 0x54) = 1)) ∧
    (goes (.syncRx 0 { head 1 with version := 1 } true 0 0) (sync 9 false) (fun t => t.reg (aPort 0 0x48) = 1)) ∧
    (ptpSupported { head 1 with unicast := true } = false ∧ goes (.syncRx 0 { head 1 with unicast := true } true 0 0) (sync 9 false) (fun t => t.reg (aPort 0 0x48) = 1 && t.reg (aPort 0 0x40) = 0)) ∧
    (goes (.pdelayReqRx 0 (head 1) 0) (sync 9 false) (fun t => t.reg (aPort 0 0x48) = 1)) ∧
    (goes (.syncRx 0 { head 1 with tag := some 0 } true 0 0) (sync 9 false) (fun t => t.reg (aPort 0 0x48) = 1)) ∧
    ((sync 3 false).portState 0 = 3 ∧ goes (.syncRx 0 (head 1) true 0 0) (sync 3 false) (fun t => t.reg (aPort 0 0x40) = 0)) ∧
    (goes (.syncRx 0 (head 1) true 0 0) (sync 9 false) (fun t => t.reg (aPort 0 0x40) = 1)) ∧
    ((follows false id).fromParent 0 (head 1) = true ∧
      goes (.syncRx 0 (head 65535) true 0 (100 * us)) (follows false id) (fun t => (t.portAt 0).heldSync = some (65535, t.rxStamp 0 (100 * us), 0))) ∧
    (goes (.followUpRx 0 (head 7) 60) (follows false (fun x => { x with heldSync := some (7, 100 * NS, 5) }))
      (fun t => (t.portAt 0).down = some (40 * 65536 - 5))) ∧
    (let s := follows false (fun x => { x with req := some (7, 100 * NS), down := some 10 })
     s.ptpP2P = false ∧ goes (.delayRespRx 0 (head 7) 120 s.clockId 1) s (fun t => (t.portAt 0).mpd = some ((10 + 20 * 65536) / 2))) ∧
    (let s := follows true (fun x => { x with req := some (7, 0) })
     s.ptpP2P = true ∧ s.ptpFits 0 { head 7 with peer := true } (some true) = true ∧
     goes (.pdelayRespRx 0 { head 7 with peer := true } false 0 s.clockId 1 us) s (fun t => (t.portAt 0).req = none && (t.portAt 0).mpd.isSome)) ∧
    (let s := follows true (fun x => { x with req := some (7, 0), heldResp := some (7, 100, 10, 0) })
     goes (.pdelayRespFollowUpRx 0 { head 7 with peer := true } 0 s.clockId 1) s (fun t => (t.portAt 0).mpd = some 55)) := by decide +kernel

/-- What an Announce tells, so many steps away. -/
def told (steps : Nat) : PtpData :=
  { gm := 99, prio1 := 1, class_ := 6, acc := 0x20, variance := 0, prio2 := 1, steps := steps, utc := 37, utcValid := true }

theorem test_meets_PtpSendsAndLinks :
    ((sync 6 false).portState 0 = 6 ∧
      goes (.syncTx 0) ((sync 6 false).onPort 0 (fun x => { x with syncSeq := 65535 })) (fun t => (t.portAt 0).syncSeq = 0 && t.reg (aPort 0 0x44) = 1) ∧
      goes (.announceTx 0) (sync 6 false) (fun t => (t.portAt 0).annSeq = 1 && t.out.length = 1)) ∧
    ((sync 9 false).slavePort 0 = true ∧ (sync 9 false).ptpP2P = false ∧ goes (.delayReqTx 0) (sync 9 false) (fun t => (t.portAt 0).reqSeq = 1)) ∧
    ((sync 9 true).ptpP2P = true ∧ goes (.pdelayReqTx 0) (sync 9 true) (fun t => (t.portAt 0).reqSeq = 1)) ∧
    ((head 1).domain = (sync 6 false).fld PTP 7 0 ∧ goes (.delayReqRx 0 (head 1) us) (sync 6 false) (fun t => t.out.length = 1)) ∧
    (goes (.pdelayReqRx 0 { head 1 with peer := true } us) (sync 6 true) (fun t => t.out.length = 1)) ∧
    (let s := (sync 1 false).setBit (aPort 0 0x0C) 31 false
     s.runs .ptp = true ∧ s.portOn 0 = true ∧ s.portLink 0 = false ∧ s.portRate 0 = 0 ∧
     goes (.ethRateFallback 0) s (fun t => !(t.portAt 0).try25) ∧ goes (.ethBlockLock 0) s (fun t => t.portLink 0 && t.bit (aPort 0 0x0C) 30)) ∧
    (goes (.ethLockLoss 0) (follows false id) (fun t => !t.portLink 0 && (t.portAt 0).parent = none)) ∧
    ((sync 4 false).ptpFixed = false ∧ (head 1).clock ≠ (sync 4 false).clockId ∧
      goes (.announceRx 0 (head 1) (told 254)) (sync 4 false) (fun t => ((t.portAt 0).foreign.map (·.heard)) = [1])) ∧
    (goes (.masterTimeout 0 true) (sync 4 false) (fun t => t.reg (aPort 0 0x50) = 1)) := by decide +kernel

/-- An untagged frame with a rig message of origin 5. -/
def rig (type hops seq : Nat) (body : List Byte) : List Byte :=
  beBytes 6 macPeer ++ zeros 6 ++ [0x88, 0xB5] ++ rigMessage type hops 5 seq body

/-- The body of a piece, or of an acknowledgement: offset, length or status, bytes. -/
def imgBody (off n : Nat) (bs : List Byte) : List Byte := leBytes 4 off ++ leBytes 4 n ++ bs

/-- Port 0 passes an image on. -/
def passing (x : Transfer) : State := (sync 6 false).onPort 0 (fun p => { p with send := some x })

theorem test_meets_RigMessages :
    (rigParse 1 (rigMessage 1 15 5 65535 [7] ++ zeros 9) = some { hops := 15, origin := 5, seq := 65535, body := [7] }) ∧
    ((sync 6 false).rigMsg 0 1 (rig 1 1 3 (leBytes 8 0)) = some { hops := 1, origin := 5, seq := 3, body := leBytes 8 0 } ∧
      goes (.rigTriggerRx 0 false [] 0) (sync 6 false) (fun t => t.reg (aPort 0 0x54) = 1) ∧
      goes (.rigTriggerRx 0 true (rig 1 1 3 (zeros 7)) 0) (sync 6 false) (fun t => t.reg (aPort 0 0x48) = 1)) ∧
    ((sync 6 false).follower = false ∧ (sync 6 false).portLive 0 = true ∧
      goes (.rigTriggerRx 0 true (rig 1 1 3 (leBytes 8 0)) 0) (sync 6 false) (fun t => t.ptp.origins = [(5, 3)] && t.trig.timeTrig = none) ∧
      goes (.rigTriggerRx 0 true (rig 1 1 3 (leBytes 8 1000000)) 0) (sync 6 false) (fun t => t.trig.timeTrig = some 1000000)) ∧
    (let s := (sync 6 false).onPtp (fun x => { x with origins := [(5, 3)] })
     seqNewer 3 3 = false ∧ goes (.rigTriggerRx 0 true (rig 1 1 3 (leBytes 8 0)) 0) s (fun t => t.ptp.origins = [(5, 3)]) ∧
     seqNewer 4 3 = true ∧ goes (.rigTriggerRx 0 true (rig 1 1 4 (leBytes 8 0)) 0) s (fun t => t.ptp.origins.head? = some (5, 4))) ∧
    (goes (.rigTrigger (.port 0) 0) (front up 0x15 []) (fun t => t.ptp.rigSeq = 1 && (t.mboxAt 0).done)) ∧
    ((sync 6 false).bit 0x900104 31 = false ∧ (let fr := rig 2 0 1 (imgBody 0 512 (zeros 8)); goes (.imgBlockRx 0 true (fr.take 12) ((fr.drop 12).take 2) (fr.drop 14) false) (sync 6 false) (fun t => t.out.length = 1))) ∧
    (let s := (sync 6 false).setBit 0x900104 31 true
     let hd : List Byte := pack 8 [(6, 1, 1)]
     s.sys.upd = none ∧ byteAt hd 6 = 1 ∧ ¬(byteAt hd 6 = 1 ∧ (s.slotAt s.runSlot).state = 3) ∧
     goes (.imgBlockRx 0 true (rig 2 0 1 (imgBody 0 4096 hd)) [] [] false) s (fun t => match t.sys.upd with | some u => u.src = 2 && u.target = 0 | none => false) ∧
     (match exec (.imgBlockRx 0 true (rig 2 0 1 (imgBody 0 4096 hd)) [] [] false) s with
      | .next t => (match t.sys.upd with
        | some u => covered u.got 0 8 && decide (Memory.read u.data 0 8 = hd)
            && goes (.imgBlockRx 0 true (rig 2 0 1 (imgBody 0 4096 hd)) [] [] false) t (fun v => v.out.length = 2 && decide (v.sys = t.sys))
        | none => false)
      | _ => false) = true) ∧
    (goes (.imgAckRx 0 true (rig 3 0 1 (imgBody 0 0 [])) 0) (sync 6 false) (fun t => t.reg (aPort 0 0x4C) = 1)) ∧
    (((sync 6 false).rigMsg 0 3 (rig 3 0 1 (zeros 9))).all (fun m => !m.near 8 8) = true ∧
      goes (.imgAckRx 0 true (rig 3 0 1 (zeros 9)) 0) (sync 6 false) (fun t => t.reg (aPort 0 0x48) = 1) ∧
      goes (.imgBlockRx 0 true (rig 2 1 1 (zeros 9)) [] [] false) (sync 6 false) (fun t => t.reg (aPort 0 0x48) = 1) ∧
      goes (.imgBlockRx 0 false [] [] [] false) (sync 6 false) (fun t => t.reg (aPort 0 0x54) = 1)) ∧
    (let s := passing { image := zeros 10, next := 10, wait := [(0, 2, 9)] }
     goes (.imgAckRx 0 true (rig 3 0 1 (imgBody 0 0 [])) 9) s (fun t => t.reg (aPort 0 0x4C) = 1 && (t.portAt 0).send.isSome) ∧
     goes (.imgAckRx 0 true (rig 3 0 1 (imgBody 0 0 [])) 10) s (fun t => (t.portAt 0).send = none)) ∧
    (let s := passing { image := zeros 10, next := 10, wait := [(0, 1, 0)] }
     goes (.imgAckRx 0 true (rig 3 0 1 (imgBody 0 2 [])) 0) s (fun t => (t.portAt 0).send = none) ∧ goes (.imgAckRx 0 true (rig 3 0 1 (imgBody 0 0 [])) 0) s (fun t => (t.portAt 0).send = none) ∧
     goes (.imgResendTimeout 0 0) s (fun t => match (t.portAt 0).send with | some x => x.wait = [(0, 2, 0)] | none => false)) ∧
    (goes (.imgAckRx 0 true (rig 3 0 1 (imgBody 0 0 [])) 0) (passing { image := zeros 2000, next := 1024, wait := [(0, 1, 0)] })
      (fun t => match (t.portAt 0).send with | some x => decide (2000 ≤ x.next) && x.wait.length = 1 | none => false)) ∧
    (goes (.imgResendTimeout 0 0) (passing { image := zeros 10, next := 10, wait := [(0, 9, 0)] }) (fun t => (t.portAt 0).send = none)) := by
  decide +kernel

/-! ### Witnesses: the field die and the pair (chapters 12 and 13) -/

/-- A plan: converter 0 with one regular entry (channel 0) and one injected (channel 16), input 0 enabled, and the fields given. -/
def plan (rtrig itrig : Nat) (more : List (Nat × Nat × Nat)) : List Byte :=
  pack 448 ([(0, 2, 1), (0x20, 1, 0x80), (0x0C, 1, 0xFF), (0x60, 1, rtrig), (0x61, 1, 1), (0x62, 1, itrig), (0x63, 1, 1), (0x68, 1, 0), (0x88, 1, 16)] ++ more)

def aux (rtrig itrig : Nat) (g : Adc → Adc) : State :=
  (up.onField (fun f => { f with plan := plan rtrig itrig [] })).onAdc 0 g

def smp (ch : Nat) (inj : Bool) : AdcSample := { ch := ch, inj := inj, t := 9, flags := 0, ofs := -10, gain := 32768 }

theorem test_meets_ConverterSequences :
    (up.part.field = true ∧ up.runs .aux = true ∧ (aux 2 0 id).rTrig 0 = 2 ∧ 0 < (aux 2 0 id).rLen 0 ∧
      goes (.adcPeriodicTrigger 0) (aux 2 0 id) (fun t => (t.adcAt 0).scan)) ∧
    (goes (.rscan 0) (aux 4 0 (fun a => { a with scan := true })) (fun t => t.reg 0x700108 = 1)) ∧
    ((aux 0 21 id).iTrig 0 = 21 ∧ 0 < (aux 0 21 id).iLen 0 ∧ goes (.iscan 0) (aux 0 21 (fun a => { a with cal := true }))
      (fun t => (t.adcAt 0).inj = some 0 && (t.adcAt 0).calWait)) ∧
    (goes (.iscan 0) (aux 0 21 (fun a => { a with inj := some 0 })) (fun t => t.reg 0x70010C = 1)) ∧
    (let s := aux 2 0 (fun a => { a with scan := true })
     s.adcEntry 0 = some (0, false) ∧ goes (.adcSamplingInstant 0 (25 * 65536)) s (fun t => match (t.adcAt 0).smp with | some m => m.ch = 0 && m.t = 25 * 65536 | none => false)) ∧
    (voltOf 0 = none ∧ goes (.adcConversionDone 0 32767) (aux 2 0 (fun a => { a with smp := some (smp 0 false), scan := true }))
      (fun t => (t.adcAt 0).res.code = 32767 && (t.adcAt 0).res.flags = 2 && !(t.adcAt 0).scan)) ∧
    (goes (.adcConversionDone 0 5) (aux 2 0 (fun a => { a with smp := some (smp 16 true), inj := some 0, res := { isNew := true } }))
      (fun t => (t.adcAt 0).res.code = 15 && (t.adcAt 0).res.flags = 1 && (t.adcAt 0).inj = none)) ∧
    ((aux 2 0 id).adcEntry 0 = none ∧ goes (.adcPowerDown 0) (aux 2 0 id) (fun t => (t.adcAt 0).down)) ∧
    (let s := (aux 3 0 id).putTrig { up.trig with frames := [{ n := 5, sched := 0, t := 0 }] }
     s.rTrig 0 = 3 ∧ goes .frameStart s (fun t => (t.adcAt 0).scan && t.trig.frames.all (·.started))) := by decide +kernel

def res (t : Nat) : AdcResult := { isNew := true, ch := 0, code := -1, t := t }

/-- A ring of 1,024 slots at 1 MiB. -/
def ringed : State := up.onField (fun f => { f with plan := plan 0 0 [(4, 4, 65536), (8, 4, 1)] })

theorem test_meets_SamplesForwarded :
    (goes (.sampleForward 0) (aux 2 0 (fun a => { a with res := res 9 })) (fun t => t.field.sseq = 1 && (t.queueAt 96).openWord.length = 1
      && t.reg 0x700100 = 1)) ∧
    (let s := (aux 2 0 (fun a => { a with res := res 9 })).onAdc 1 (fun a => { a with res := res 9 })
     goes (.sampleForward 0) s (fun t => t.field.sseq = 1) ∧ goes (.sampleForward 1) s (fun t => t.field.sseq = 2 && t.reg 0x700100 = 2)) ∧
    (let s := (aux 2 0 (fun a => { a with res := { res 900 with mark := { epoch := 1 } } })).onAdc 1 (fun a => { a with res := { res 950 with mark := { epoch := 0 } } })
     goes (.sampleForward 0) s (fun t => t.field.sseq = 2 && !(t.adcAt 1).res.isNew) ∧ goes (.sampleForward 1) s (fun t => t.field.sseq = 1 && (t.adcAt 0).res.isNew)) ∧
    (goes .auxPackerTimeout (up.onQueue 96 (fun q => { q with openWord := [zeros 12] })) (fun t => (t.queueAt 96).openWord = [])) ∧
    (let s := ringed.onQueue 96 (fun q => { q with items := [.samples [pack 12 [(0, 2, 7)]]] })
     s.ringLen ≠ 0 ∧ s.ringProtected = false ∧ s.field.ringGap = none ∧
     goes (.sampleRoute {}) s (fun t => t.field.ringNext = 1 && t.reg (aQ 96 oQOUT) = 1 && (t.queueAt 96).items = [])) ∧
    (let s := (ringed.onField (fun f => { f with ringNext := 1024, ranges := [{ seg := 3, first := 0 }] })).onQueue 96
       (fun q => { q with items := [.samples [pack 12 [(0, 2, 7)]]] })
     s.ringProtected = true ∧ goes (.sampleRoute {}) s (fun t => t.field.ringNext = 1024 && t.reg 0x700118 = 1 && t.field.ringGap.isSome)) ∧
    (let r : Record := { recno := 1, pact := 0, qact := 1, slot0 := 0, tframe := 0, tstamp := 0, tfrac := 0, cstamp := 0, rflags := 0, bytes := 0, from_ := 0, upto := 0 }
     let s := ((ringed.onField (fun f => { f with ranges := [{ seg := 63, first := 2 }] })).onSeg 63 (fun g => { g with record := some r })).putHearth
       { ((ringed.onField (fun f => { f with ranges := [{ seg := 63, first := 2 }] })).onSeg 63 (fun g => { g with record := some r })).hearth with rangeDue := [63] }
     (s.segAt 63).record = some r ∧ goes (.ringRangeLast 63) s (fun t => t.hearth.rangeDue = [] && (t.field.ranges.map (·.last)) = [some 1])) := by
  decide +kernel

theorem test_meets_FieldInputs :
    (up.fieldUp = true ∧ goes (.chargeAmpReset 0x80) up (fun t => (t.ampAt 7).closed && !(t.ampAt 0).closed)) ∧
    (goes (.chargeResetEnd 7) (up.onAmp 7 (fun a => { a with closed := true })) (fun t => (t.ampAt 7).openAt = some 0)) ∧
    (goes (.excWrite 1 0x80000001) up (fun t => t.bit (aExc 1) 31 && (t.excAt 1).pend)) ∧
    (let s := (up.setReg (aExc 0) 0x80000000).onExc 0 (fun e => { e with pend := true })
     goes (.excitationApply 0) s (fun t => (t.excAt 0).freq = 10000 && (t.excAt 0).amp = 50 && t.bit (aExc 0) 30)) ∧
    (goes (.excWrite 0 5) ((up.setReg (aExc 0) 0xC0000000).onExc 0 (fun e => { e with pend := true }))
      (fun t => !t.bit (aExc 0) 31 && t.bit (aExc 0) 30 && !(t.excAt 0).pend && t.fld (aExc 0) 26 0 = 5)) ∧
    (goes (.excitationSettled 0) (up.setBit (aExc 0) 30 true) (fun t => !t.bit (aExc 0) 30)) ∧
    (goes (.adcCalibration 1) up (fun t => (t.adcAt 1).cal) ∧ goes (.adcCalibrationDue 1) up (fun t => (t.adcAt 1).calTemper)) ∧
    (let s := up.onField (fun f => { f with testing := some 7 })
     s.svcBusy = true ∧ goes (.adcCalibrationDue 1) s (fun t => t.bgs.due = [0x301] && !(t.adcAt 1).cal)) ∧
    (let s := (up.onAdc 1 (fun a => { a with cal := true }))
     s.svcBusy = false ∧ goes (.adcCalibrationDue 1) s (fun t => t.bgs.due = [0x301])) ∧
    (let s := (aux 0 0 id).onAdc 1 (fun a => { a with cal := true, calTemper := true })
     s.inputOn 0 = true ∧ s.svcBusy = true ∧ goes (.chargeInputTest 0) s (fun t => t.bgs.due = [0x700] && t.field.testing = none)) ∧
    (let s := up.onAdc 0 (fun a => { a with cal := true })
     goes (.adcCalibrationDone 0 (-200) 33423) s (fun t => t.fld (aAdcCal 0) 31 16 = 33423) ∧
     goes (.adcCalibrationDone 0 (-200) 33424) s (fun t => t.reg 0x70011C = 1) ∧ goes (.adcCalibrationDone 0 201 32768) s (fun t => t.reg 0x70011C = 1)) ∧
    (goes (.voltageBreakTrip 3) (up.onAdc 0 (fun a => { a with smp := some (smp 15 false) }))
      (fun t => (t.voltAt 3).tripped && (match (t.adcAt 0).smp with | some m => m.flags = 4 | none => false))) ∧
    (goes (.voltageBreakRelease 3) (up.onVolt 3 (fun v => { v with tripped := true })) (fun t => !(t.voltAt 3).tripped)) ∧
    (let s := up.setBit (aExc 1) 31 true
     s.bit (aExc 1) 30 = false ∧ goes (.lvdtSumTrip 1) s (fun t => t.broken 10 && t.broken 11 && !t.broken 9)) ∧
    (goes (.lvdtSumRelease 1) (up.setBit aBreak 10 true) (fun t => !t.broken 10)) ∧
    ((aux 0 0 id).inputOn 0 = true ∧ (aux 0 0 id).segActive = false ∧ goes (.chargeInputTest 0) (aux 0 0 id) (fun t => t.field.testing = some 0)) ∧
    (let s := up.onField (fun f => { f with testing := some 0 })
     goes (.chargeInputTestDone 49) s (fun t => t.broken 0) ∧ goes (.chargeInputTestDone 50) s (fun t => !t.broken 0 && t.field.testing = none)) := by
  decide +kernel

/-- Output 0 of the register, output 1 of slot 0 with a gain of 1, a stale timeout and SAFE 10,000; loop tests of 16 codes' worth. -/
def aou : State := up.onField (fun f =>
  { f with aplan := plan 0 0 [(0x14C, 1, 16), (0x14E, 2, 10), (0x150, 1, 1), (0x152, 2, 10000), (0x154, 4, 0x10000), (0x15A, 2, 5)] })

theorem test_meets_OutputCodes :
    (up.runs .aou = true ∧ aou.field.aplan ≠ [] ∧ aou.aoSrc 0 ≠ 1 ∧ aou.aoSrc 1 = 1 ∧ aou.loopTest 0 = none ∧
      goes .aouUpdate ((aou.putSlots (aou.slots.set 0 (some (20000, 7)))).setReg (aOut 0 0) 1)
        (fun t => t.fld (aOut 0 4) 15 0 = 9831 && t.fld (aOut 1 4) 15 0 = 20000 && t.slots[0] = none)) ∧
    (aou.aoStaleTmo 1 ≠ 0 ∧ aou.bit (aOut 1 4) 30 = false ∧ goes (.aouStaleTimeout 1) aou (fun t => t.fld (aOut 1 4) 15 0 = 10000 && t.bit (aOut 1 4) 30)) ∧
    ((aou.setBit (aOut 0 4) 28 false).nonHolder = false ∧ goes (.aouLoopError 0 77) (aou.setBit (aOut 0 4) 28 false) (fun t => t.bit (aOut 0 4) 31 && t.fld (aOut 0 8) 15 0 = 77 && t.reg (aOut 0 0x14) = 1)) ∧
    (aou.bit (aOut 0 4) 28 = true ∧ goes (.aouLoopError 0 77) aou (fun t => !t.bit (aOut 0 4) 31)) ∧
    (goes (.aouLoopErrorClear 0 7) (aou.setBit (aOut 0 4) 31 true) (fun t => !t.bit (aOut 0 4) 31)) ∧
    (let s := (aou.setBit (aOut 0 4) 28 false).setFld (aOut 0 4) 15 0 57344
     s.aoTestInt 0 ≠ 0 ∧ s.inPost = false ∧ s.nonHolder = false ∧ goes (.aouLoopTestStart 0 57344) s (fun t => t.fld (aOut 0 4) 15 0 = 57344 - 174 && t.bit (aOut 0 4) 29)) ∧
    (let x : LoopTest := { base := 20000, delta := 174, before := 20000 }
     let s := aou.setTest 0 (some x)
     s.loopTest 0 = some x ∧ goes (.aouTestCompare 0 20174) s (fun t => t.loopTest 0 = some x) ∧
     goes (.aouTestCompare 0 20000) s (fun t => t.loopTest 0 = some { x with failed := true }) ∧
     goes (.aouTestRestore 0) s (fun t => t.fld (aOut 0 4) 15 0 = 20000) ∧
     goes (.aouTestRestore 0) s (fun t => t.loopTest 0 = some { x with restored := true }) ∧
     goes (.aouTestRestore 0) (aou.setTest 0 (some { x with restored := true })) (fun t => t.loopTest 0 = some { x with restored := true }) ∧
     goes .aouUpdate (s.setReg (aOut 0 0) 30000) (fun t => t.fld (aOut 0 4) 15 0 = 30000 && t.loopTest 0 = none) ∧
     goes .aouUpdate ((aou.setTest 0 (some { x with restored := true })).setReg (aOut 0 0) 30000)
       (fun t => t.fld (aOut 0 4) 15 0 = 30000 && t.loopTest 0 = some { x with restored := true, demanded := true }) ∧
     goes (.aouTestResult 0 25000) (aou.setTest 0 (some { x with restored := true, demanded := true })) (fun t => t.loopTest 0 = none && !t.bit (aOut 0 4) 27) ∧
     goes (.aouTestResult 0 20000) s (fun t => t.loopTest 0 = none && !t.bit (aOut 0 4) 27) ∧
     goes (.aouTestResult 0 20100) s (fun t => t.bit (aOut 0 4) 27 && t.reg (aOut 0 0xC) = 1)) := by decide +kernel

/-- A pair member with its strap, a role, Tongs or not, mirror lane 0 in a stage. -/
def member (role : Nat) (holds : Bool) (stage : Nat) : State :=
  (((up.setBit aPairStat 25 true).setFld aPairStat 31 29 role).setBit aPairStat 28 holds).setStage (.mir 0) stage

def beat (role : Nat) (tongs home : Bool) : Heartbeat := { role := role, tongs := tongs, home := home, part := Part.number .p7196, seq := 1 }

def heard (s : State) : State := s.onPair (fun p => { p with partner := some (beat 4 true true) })

theorem test_meets_RolesAndTongs :
    (up.part.mirror = true ∧ up.runs .pair = true ∧ goes .heartbeatTx (member 3 false 6) (fun t => t.out.length = 1 && t.pair.seq = 1)) ∧
    ((member 3 false 6).stage (.mir 0) ≠ 4 ∧
      goes (.heartbeatRx 0 ⟨0, beat 4 true true⟩) ((member 3 false 6).onPair (fun p => { p with lost := some 0 })) (fun t => t.reg 0x780110 = 1)) ∧
    (goes (.heartbeatRx 0 ⟨0, beat 4 true false⟩) (member 3 false 6) (fun t => t.fnState .pair = .fault && (t.fn .pair).faultCode = 1)) ∧
    (goes (.heartbeatRx 0 ⟨0, { beat 4 true true with part := 0 }⟩) (member 3 false 6) (fun t => (t.fn .pair).faultCode = 2)) ∧
    (goes (.heartbeatRx 0 ⟨0, beat 3 false true⟩) (member 5 true 6) (fun t => t.role = 4)) ∧
    (goes (.heartbeatRx 0 ⟨0, beat 1 false true⟩) (member 4 true 6) (fun t => t.role = 5)) ∧
    ((member 1 false 6).holds = false ∧ (member 1 false 6).role ≠ 3) ∧
    (goes (.heartbeatRx 0 ⟨0, beat 1 false true⟩) (member 1 false 6) (fun t => t.role = 1 && t.pair.partner.isSome)) ∧
    ((heard (member 4 true 6)).pair.partner.isSome = true ∧ goes .heartbeatTimeout (heard (member 4 true 6)) (fun t => t.role = 5 && t.reg 0x78010C = 1)) ∧
    (goes .heartbeatTimeout (heard (member 2 false 6)) (fun t => t.role = 1)) ∧
    ((heard ((member 3 false 6).setBit aPairStat 27 true)).tongsIn = true ∧
      goes .heartbeatTimeout (heard ((member 3 false 6).setBit aPairStat 27 true)) (fun t => t.role = 6)) ∧
    (goes (.tongsInChange true) ((member 5 true 6).onPair (fun p => { p with tookAt := some 0 })) (fun t => t.tongsIn && !t.holds && t.role = 1)) ∧
    (goes (.tongsInChange true) ((member 5 true 6).putTb { up.tb with counter := 501 * 2 ^ 32 } |>.onPair (fun p => { p with tookAt := some 0 }))
      (fun t => t.tongsIn && t.holds)) ∧
    ((member 1 false 6).tongsIn = false ∧ (∀ f ∈ captureFns, (member 1 false 6).fnState f ≠ .fault) ∧
      goes .tongsTakeHold (member 1 false 6) (fun t => t.holds && t.role = 5 && t.reg 0x780118 = 1)) ∧
    (goes .heartbeatSilent (member 4 true 6) (fun t => !t.holds && t.role = 1)) ∧
    ((member 4 true 5).mirrorUp = false ∧ goes .mirrorLaneFault (member 4 true 5) (fun t => t.fnState .pair = .fault && (t.fn .pair).faultCode = 3)) ∧
    ((member 2 false 6).role = 2 ∧ goes .joinComplete (member 2 false 6) (fun t => t.role = 3 && t.sync = 4)) := by decide +kernel

/-! ### Witnesses: mirrored commands, hand-overs, host attachment (chapters 13 and 14) -/

def dec : Decision := { seg := 1, frame := 9, tfrac := 0, stamp := 1000, src := 2 }

def follower : State := member 3 false 6
def holder : State := (member 4 true 6).onPair (fun p => { p with partner := some (beat 3 false true) })

def openRec : Active := { seg := 63, f0 := 5, post := some { t := 9, tfrac := 0, tstamp := 0, pact := 4, recno := 1 } }
def withRec (s : State) : State := (s.onSeg 63 (fun g => { g with length := 1, q := 10, phase := .post })).putHearth
  { (s.onSeg 63 (fun g => { g with length := 1, q := 10, phase := .post })).hearth with act := some openRec }

/-- A state as a follower's, with its mirror lane in run. -/
def armFollower (s : State) : State := ((s.setBit aPairStat 25 true).setFld aPairStat 31 29 3).setStage (.mir 0) 6

theorem test_meets_MirrorCopies :
    (follower.part.mirror = true ∧ follower.runs .pair = true ∧ follower.role = 3 ∧
      goes (.stateRx ⟨0, .image 4 0 [1, 2]⟩) follower (fun t => t.pair.img = [1, 2])) ∧
    (imgCrcOk imgCore = true ∧ imgCrcOk (zeros 64) = false ∧ goes (.stateRx ⟨0, .image 64 0 (zeros 64)⟩) follower (fun t => t.pair.img = [] && t.kept.isNone)) ∧
    (mirroredReg (HRT + 0x2C) = true ∧ isSegReg (HRT + 0x2C) = true ∧ follower.present (HRT + 0x2C) = true ∧
      goes (.stateRx ⟨0, .reg (HRT + 0x2C) 63 0 7⟩) follower (fun t => (t.segAt 63).p = 7)) ∧
    (mirroredReg 0x600000 = true ∧ isSegReg 0x600000 = false ∧ goes (.stateRx ⟨0, .reg 0x600000 0 0 5⟩) follower (fun t => t.reg 0x600000 = 5)) ∧
    (.ing ∈ captureFns ∧ goes (.stateRx ⟨0, .fnCmd .ing 2 77⟩) follower (fun t => t.fnState .ing = .stopping && t.pair.cmdAt = none)) ∧
    (goes (.stateRx ⟨0, .timeTrig 77⟩) follower (fun t => t.trig.timeTrig = some 77)) ∧
    (goes (.stateRx ⟨0, .step (-5)⟩) follower (fun t => t.tb.pend = some (.by (-5)))) ∧
    (goes (.schedRx ⟨0, 0xFFFFFFFF⟩ 100) follower (fun t => t.trig.seq.nextN = 0 && t.trig.frames.length = 1)) ∧
    (let fr : FrameTime := { n := 5, sched := 90, t := 90, copied := true }
     let s := follower.putTrig { follower.trig with frames := [fr] }
     s.trig.frames.find? (fun fr => fr.n = 5) = some fr ∧ goes (.schedRx ⟨0, 5⟩ 100) s (fun t => t.trig.frames.map (fun g => (g.t, g.refined)) = [(100, true)])) ∧
    (let s := follower.onPair (fun p => { p with ownDecs := [dec] })
     s.agree dec dec = true ∧ s.counterpart dec s.pair.ownDecs = some dec ∧ goes (.decisionRx ⟨0, some dec⟩ none) s (fun t => t.pair.ownDecs = [])) ∧
    (let s := follower.onPair (fun p => { p with ownDecs := [{ dec with seg := 0 }] })
     s.counterpart dec s.pair.ownDecs = none ∧ goes (.decisionRx ⟨0, some dec⟩ none) s (fun t => t.pair.ownDecs.length = 1 && t.pair.theirDecs = [dec])) ∧
    (follower.pair.ownDecs = [] ∧ goes (.decisionRx ⟨0, none⟩ (some 9)) (follower.onPair (fun p => { p with ownDecs := [dec] }))
      (fun t => t.pair.ownDecs = [] && t.pair.lastK = some 9)) ∧
    (let s := armFollower armable
     s.role = 3 ∧ s.armCheckTrg 0 = true ∧ s.armCheckHrt 0 = 0 ∧ s.paceRefusal [] = none ∧ s.mirrorUp = true ∧
     goes (.recordRx ⟨0, .arm 0 5 false, []⟩) s (fun t => (t.segAt 0).phase = .armed && (t.out.head?.any (fun o => match o with | .mirror 11 _ => true | _ => false))) ∧
     goes (.recordRx ⟨0, .arm 0 5 true, []⟩) s (fun t => (t.segAt 0).phase = .armed && t.synced)) ∧
    (let s := armFollower slow
     s.armCheckTrg 0 = true ∧ s.paceRefusal [] ≠ none ∧
     goes (.recordRx ⟨0, .arm 0 5 false, []⟩) s (fun t => t.hearth.act = none && (t.out.head?.any (fun o => match o with | .mirror 11 b => byteAt b 1 != 0 | _ => false)))) ∧
    (follower.armCheckTrg 63 = false ∧ goes (.recordRx ⟨0, .arm 63 5 true, []⟩) follower (fun t => t.hearth.act = none && t.out = [])) ∧
    (goes (.recordRx ⟨0, .disarm, []⟩) follower (fun t => !t.trig.seq.run)) ∧
    ((withRec follower).hearth.act = some openRec ∧ openRec.post.isSome = true ∧
      goes (.recordRx ⟨0, .post 63 0xFFFFFFFF, []⟩) (withRec follower) (fun t => (t.segAt 63).recCount = 0)) ∧
    (goes (.recordRx ⟨0, .close 63 2 8 1, []⟩) (withRec follower) (fun t => (t.segAt 63).phase = .closed)) ∧
    (let s := follower.onSeg 0 (fun g => { g with phase := .closed })
     goes (.recordRx ⟨0, .release 64, []⟩) s (fun t => (t.segAt 0).phase = .empty)) ∧
    ((member 2 false 6).role = 2 ∧ goes (.stateRx ⟨0, .segment 63 2 4 5⟩) (member 2 false 6) (fun t => (t.segAt 63).phase = .armed && t.pair.joinF0 = some 5) ∧
      goes (.recordRx ⟨0, .arm 0 5 true, []⟩) (member 2 false 6) (fun t => (t.segAt 0).phase = .armed) ∧
      goes (.recordRx ⟨0, .close 0 0 0 0, []⟩) (member 2 false 6) (fun t => (t.segAt 0).phase = .closed)) := by decide +kernel

def note (f : Nat) : DigestNote := { tile := 47, frame := f, value := 3 }

/-- A member whose next message is SEQ n, with these waiting. -/
def turn (s : State) (n : Nat) (held : List (Nat × MirMsg)) : State := s.onPair (fun p => { p with rxNext := some n, held := held })

/-- A follower whose other functions are stopped. -/
def calm : State := { follower with fns := (down.setFn .pair .running).fns }

theorem test_meets_MirrorTraffic :
    (holder.role = 4 ∧ goes (.fdigestRx ⟨0, 47⟩ 5 3) holder (fun t => t.pair.theirs = [note 5])) ∧
    (goes (.digestRx ⟨0, 5⟩ 3) follower (fun t => t.pair.theirs = [{ tile := 0xFF, frame := 5, value := 3 }])) ∧
    (goes (.fdigestRx ⟨0, 47⟩ 5 3) (holder.onPair (fun p => { p with own := [note 5] })) (fun t => t.pair.own = [] && t.reg 0x780100 = 0)) ∧
    (goes .digestTimeout (holder.onPair (fun p => { p with own := [note 5, note 6] })) (fun t => t.pair.own = [note 6] && t.reg 0x780104 = 1 && t.pair.gaveUp = [5])) ∧
    (let s := holder.onPair (fun p => { p with gaveUp := [5], own := [note 5] })
     goes (.fdigestRx ⟨0, 47⟩ 5 3) s (fun t => t.reg 0x780114 = 1 && t.pair.own = [note 5] && t.pair.theirs = [])) ∧
    (let s := (holder.onPair (fun p => { p with own := [note 5], quenched := [5] })).putHearth { holder.hearth with opens := [{ n := 5, stamp := 0 }] }
     s.markable 5 = true ∧ s.frameHas 5 fDIVERGENT = false ∧
     goes .digestTimeout s (fun t => t.reg 0x780100 = 1 && t.reg 0x780104 = 0 && t.frameHas 5 fDIVERGENT && t.pair.quenched = [])) ∧
    (let r : Record := { recno := 1, pact := 0, qact := 4, slot0 := 0, tframe := 9, tstamp := 0, tfrac := 0, cstamp := 0, rflags := 0, bytes := 0, from_ := 0, upto := 0 }
     let s := holder.onSeg 63 (fun g => { g with length := 1, q := 10, mslots := 4, phase := .closed, record := some r })
     s.inOpenRecord 11 = false ∧ s.closedWith 11 = some (63, r) ∧ s.closedWith 13 = none ∧ s.closedWith 9 = some (63, r) ∧
     goes (.spaceRx ⟨0, 11⟩) s (fun t => match (t.segAt 63).record with | some x => x.qact = 2 | none => false)) ∧
    (goes (.quenchRx ⟨0, 7⟩) (calm.setFn .trg .running) (fun t => t.fnState .trg = .stopped && t.fnState .pair = .running)) ∧
    (openRec.trunc = none ∧ goes (.spaceRx ⟨0, 12⟩) (withRec holder) (fun t => match t.hearth.act with | some a => a.trunc = some 12 | none => false)) ∧
    (let s := (trg [(0x10, 8, 2 ^ 51)] |>.setBit aPairStat 25 true).setFld aPairStat 31 29 4 |>.setBit aPairStat 28 true
     s.runs .trg = true ∧ s.srcOn 51 = true ∧ s.srcLate 9 s.tb.epochs = false ∧
     goes (.forwardRx ⟨0, .trigger 9 true⟩) s (fun t => t.trig.items = [(9, .edge 51 true)]) ∧
     goes (.forwardRx ⟨0, .timeTrigger 4001⟩) s (fun t => t.trig.timeTrig = some 4001)) ∧
    (goes (.forwardRx ⟨0, .release 63⟩) (holder.onSeg 63 (fun g => { g with phase := .closed })) (fun t => (t.segAt 63).phase = .empty)) ∧
    (holder.canHandOver = true ∧ holder.handoverAt 9 = (9, 0) ∧ goes (.forwardRx ⟨0, .handover 9 5⟩) holder (fun t => t.pair.handover = some (9, 0))) ∧
    (goes (.mirrorMessageBad ⟨0, 3⟩) follower (fun t => t.reg 0x780114 = 1)) ∧
    (goes (.mirrorMessageBad ⟨0, 5⟩) holder (fun t => t.reg 0x780114 = 1)) ∧
    ((turn holder 5 []).pair.held = [] ∧ (turn holder 5 []).seqAhead 7 = 2 ∧ (turn holder 5 []).seqAhead 4 = 2 ^ 32 - 1 ∧
      goes (.spaceRx ⟨7, 12⟩) (turn holder 5 []) (fun t => t.pair.held = [(7, .space 12)] && t.pair.rxNext = some 5) ∧
      goes (.spaceRx ⟨7, 13⟩) (turn holder 5 [(7, .space 12)]) (fun t => t.pair.held = [(7, .space 12)]) ∧
      goes (.spaceRx ⟨4, 12⟩) (turn holder 5 []) (fun t => t.reg 0x780114 = 1 && t.pair.rxNext = some 5)) ∧
    (goes (.spaceRx ⟨0xFFFFFFFF, 13⟩) (turn (withRec holder) 0xFFFFFFFF [(0, .space 12)]) (fun t =>
      t.pair.held = [] && t.pair.rxNext = some 1 && (match t.hearth.act with | some a => a.trunc = some 12 | none => false))) := by decide +kernel

theorem test_meets_MirrorTraffic_lost :
    (goes (.mirrorMessageBad ⟨0, 5⟩) (turn calm 0 []) (fun t => t.role = 2 && t.pair.resync && t.pair.own = [])) := by decide +kernel

theorem test_meets_MirrorTraffic_late :
    goes (.deskewTimeout .mirror 7) (turn calm 5 [(7, .space 12)]) (fun t => t.role = 2 && t.pair.resync) := by decide +kernel

theorem test_meets_MirrorTraffic_skipped :
    goes (.deskewTimeout .mirror 7) (turn (withRec holder) 5 [(7, .space 12)]) (fun t => t.pair.held = [] && t.pair.rxNext = some 8) := by decide +kernel

theorem test_meets_HandOversAndTime :
    (goes .timeTx follower (fun t => t.pair.sent.isSome && t.out.length = 1)) ∧
    (goes (.timeRx ⟨0, 10⟩ 40) (follower.onPair (fun p => { p with sent := some 30 })) (fun t => match t.pair.xchg with | some x => x.t1 = 10 && x.t4 = 40 && t.pair.timeAt.isSome && t.pair.xprev = none | none => false)) ∧
    (holder.copies = false ∧ goes (.timeRx ⟨0, 10⟩ 40) holder (fun t => t.pair.timeAt = some 0 && t.pair.xchg = none)) ∧
    (let s := (follower.setFld aTbStat 31 29 4).onPair (fun p => { p with xchg := some {} })
     s.sync = 4 ∧ s.pair.xchg.isSome = true) ∧
    (goes (.roleSwapDue 9 5) (holder.onPair (fun p => { p with testing := true })) (fun t => t.pair.handover = some (9, 0) && !t.pair.testing && t.out.length = 1)) ∧
    (let s := (holder.setBit aPairCfg 31 true).setBit aPairStat 24 true
     s.synced = true ∧ s.segActive = false ∧ goes (.roleSwapDue 9 5) s (fun t => t.pair.handover = some (9, 0))) ∧
    (goes (.swapRole (.port 0) 9 5) (front follower 0x19 []) (fun t => (t.mboxAt 0).done && t.pair.handover = none)) ∧
    (goes (.swapRole (.port 0) 9 5) (front holder 0x19 []) (fun t => t.pair.handover = some (9, 0) && (t.mboxAt 0).done)) ∧
    ((member 5 true 6).canHandOver = false ∧ goes (.swapRole (.port 0) 9 5) (front (member 5 true 6) 0x19 []) (fun t => (t.mboxAt 0).done)) ∧
    (goes (.pairSwap 9 5) follower (fun t => (t.fn .pair).lastStatus = 9) ∧ goes (.pairSwap 9 5) holder (fun t => (t.fn .pair).lastStatus = 0) ∧
      goes (.pairSwap 9 5) (member 5 true 6) (fun t => (t.fn .pair).lastStatus = 2)) ∧
    (goes (.handoverRx ⟨0, 9⟩ 5 true) follower (fun t => t.pair.handover = some (9, 5) && t.pair.testing)) ∧
    (holder.nowFine < 9 ∧ goes .handoverRelease (holder.onPair (fun p => { p with handover := some (9, 5) })) (fun t => t.holds && t.pair.handover = some (9, 5))) ∧
    (let s := holder.onPair (fun p => { p with handover := some (0, 5) })
     s.holds = true ∧ s.pairPresent = true ∧ goes .handoverRelease s (fun t => !t.holds && t.role = 1 && t.pair.handover = none)) ∧
    (let s := holder.putTrig { holder.trig with seq := { run := true, nextN := 7, nextT := 1000 } }
     s.handoverFrame = (some 1000, 8) ∧ s.canHandOver = true ∧ goes (.pairSwap 9 5) s (fun t => t.pair.handover.any (fun x => x.2 = 8))) ∧
    (let s := ((follower.setBit aPairStat 26 true).setBit aPairCfg 30 true).setBit aPairStat 24 true
     s.home = true ∧ s.inPost = false ∧ s.mirrorUp = true ∧ goes .takebackDue s (fun t => t.out.length = 1)) := by decide +kernel

def noErr : MemErrs := { ce := [], ue := [], flips := [] }

/-- Port 1 up with BAR2; queue 15 of 16 entries on it, with one descriptor waiting. -/
def hostUp : State :=
  let s := (roomy.putSys { roomy.sys with bar2 := true }).setBit 0x800000 31 true
  let s := (s.setReg (aDma 15 0x10) 0x80030004).setReg (aDma 15 0x14) 1
  s.putHost { s.host with queues := s.host.queues.set 15 { tail := 1 } }

theorem test_meets_ApertureAndLinks :
    (hostUp.ready = true ∧ hostUp.sys.bar2 = true ∧ hostUp.portUp 1 = true ∧ hostUp.hostReadable 0 4 = true ∧
      goes (.apertureRead 1 0 4 noErr) (hostUp.hwrite 2 [7]) (fun t => t.out = [.apData 1 [0, 0, 7, 0]])) ∧
    ((hostUp.setFld 0x800010 9 0 1023).hostReadable (1023 * 2 ^ 30) 2 = false ∧
      goes (.apertureRead 1 0 2 noErr) (hostUp.setFld 0x800010 9 0 1023) (fun t => t.out = [.apData 1 [255, 255]] && t.reg 0x800100 = 1)) ∧
    (hostUp.hostWritable 0 2 = true ∧ goes (.apertureWrite 1 0 [5, 6]) hostUp (fun t => t.hread 0 3 = [5, 6, 0])) ∧
    (hostUp.hostWritable 0x04000000 1 = false ∧ goes (.apertureWrite 1 0x04000000 [5]) hostUp (fun t => t.reg 0x800100 = 1 && t.hearth.mem = [])) ∧
    (goes (.usb4LinkUp 1 4) up (fun t => t.portUp 1 && t.fld 0x800000 29 27 = 4)) ∧
    (hostUp.dmaLog 15 ≠ 0 ∧ hostUp.dmaPort 15 = 1 ∧ goes (.usb4LinkDown 1) hostUp (fun t => !t.portUp 1 && (t.dma 15).stopped)) ∧
    (goes (.functionLevelReset 1) hostUp (fun t => (t.dma 15).stopped && t.host.msix[1] = [])) := by decide +kernel

def desc (op n ha src hl : Nat) : List Byte := pack 32 [(0, 1, op), (4, 4, n), (8, 8, ha), (16, 8, src), (24, 4, hl)]

def aRecord : Record :=
  { recno := 1, pact := 1, qact := 1, slot0 := 0, tframe := 6, tstamp := 0, tfrac := 0, cstamp := 0, rflags := 0, bytes := 0, from_ := 0, upto := 0 }

def withOp (o : DmaOp) (cpl : Nat) : State := hostUp.putHost { hostUp.host with queues := hostUp.host.queues.set 15 { cpl := cpl, op := some o, tail := 1 } }
def doneOp : DmaOp := { desc := desc 1 4 0 0 0, finished := true }

theorem test_meets_DmaQueues :
    (hostUp.runs .hst = true ∧ hostUp.present (aDma 15 0x14) = true ∧ goes (.sqDoorbell 15 0x1FFF) hostUp (fun t => t.reg (aDma 15 0x14) = 4095)) ∧
    (hostUp.dmaReady 15 = true ∧ dsRangeOk (desc 1 4 64 0 0) = true ∧
      goes (.readRange 15 (desc 1 4 64 0 0) noErr) hostUp (fun t => t.out.head? = some (.hostWrite 1 64 [0, 0, 0, 0]) && t.reg (aDma 15 0x18) = 1)) ∧
    (dsRangeOk (desc 1 2 64 0 0) = false ∧
      goes (.readRange 15 (desc 1 2 64 0 0) noErr) hostUp (fun t => match (t.dma 15).op with | some o => o.status = 2 && o.finished | none => false)) ∧
    (let s := hostUp.onSeg 63 (fun g => { g with length := 1, mslots := 4, phase := .closed, record := some aRecord })
     s.dsFrameOk (desc 2 2 64 63 4096) = true ∧ s.dsFrameOk (desc 3 3 64 63 4096) = false ∧
     goes (.readFrame 15 (desc 2 2 64 63 4096) noErr) s (fun t => match (t.dma 15).op with | some o => o.finished && o.frames = 2 | none => false) ∧
     goes (.readDecoded 15 (desc 3 2 64 63 0) noErr) s (fun t => match (t.dma 15).op with | some o => o.finished && o.status = 4 | none => false)) ∧
    (goes (.writeRange 15 (desc 4 4 64 0 0) [1, 2, 3, 4]) hostUp (fun t => t.hread 0 4 = [1, 2, 3, 4] && t.out = [.hostRead 1 64 4])) ∧
    (hostUp.hostWritable 0x04000000 4 = false) ∧
    (goes (.writeRangeTimeout 15 2) (withOp { desc := desc 4 4 64 0 0, want := 4 } 0) (fun t => t.reg 0x800104 = 2)) ∧
    ((withOp doneOp 0).cplFree 15 = true ∧ goes (.dmaDescriptorDone 15) (withOp doneOp 0) (fun t => (t.dma 15).op.isNone && (t.dma 15).cpl = 1)) ∧
    ((withOp doneOp 16).cplFree 15 = false ∧ goes (.dmaDescriptorDone 15) (withOp doneOp 16) (fun t => (t.dma 15).op.isSome) ∧
      goes (.cqHeadWrite 15 1) (withOp doneOp 16) (fun t => (t.dma 15).op.isNone && t.reg (aDma 15 0x1C) = 1)) ∧
    (hostUp.cqWait 15 = false ∧ goes (.cqHeadWrite 15 3) hostUp (fun t => t.reg (aDma 15 0x1C) = 3)) := by decide +kernel

/-- The request word of port 1's mailbox. -/
def asked (w : Word) : State := up.onMbox 1 (fun m => { m with req := [(0, w)] })
def waiting (code limit : Nat) : State :=
  up.putHost { up.host with fw := [{ src := .port 0, req := pack 128 [(0, 1, code), (2, 2, limit)] }], mbox := up.host.mbox.set 0 { busy := true } }

theorem test_meets_Mailbox :
    (goes (.pvHeadWrite 7) up (fun t => t.reg 0x800050 = 7) ∧ goes (.eqHeadWrite 7) up (fun t => t.reg 0x800030 = 7)) ∧
    (let s := up.putHost { up.host with eqLost := 3 }
     (s.reg 0x80002C + 2 ^ 32 - 0) % 2 ^ 32 < s.eqSize ∧ goes (.eqHeadWrite 0) s (fun t => t.host.eqLost = 0 && t.reg 0x80002C = 1)) ∧
    (goes (.mboxGo 1) (asked 0x18) (fun t => (t.mboxAt 1).busy && t.host.fw.length = 1) ∧
      goes (.mboxGo 1) (asked 0xFF) (fun t => (t.mboxAt 1).done && t.host.fw.length = 0) ∧
      goes (.mboxGo 0) (waiting 0x18 0) (fun t => t.host.fw.length = 1)) ∧
    ((waiting 0x10 5).fwOf (.port 0) ≠ none ∧ goes (.mboxAbort 0) (waiting 0x10 5) (fun t => t.host.fw = [] && (t.mboxAt 0).done) ∧
      goes (.mboxAbort 0) (waiting 0x12 5) (fun t => t.host.fw.length = 1) ∧
      goes (.mboxLimitExpiry (.port 0)) (waiting 0x10 5) (fun t => t.host.fw = []) ∧
      goes (.mboxLimitExpiry (.port 0)) (waiting 0x10 0) (fun t => t.host.fw.length = 1)) ∧
    (goes (.fncmd (.port 0)) (front up 1 [(4, 4, 0x80000601)]) (fun t => (t.mboxAt 0).done)) ∧
    (busAddr 0x200050 = true ∧ busAddr 0x4000000 = false ∧ busAddr 2 = false ∧
      goes (.regWrite (.port 0) (0, 0)) (front up 2 [(4, 4, 0x200050), (8, 4, 9)]) (fun t => t.reg 0x200050 = 9 && (t.mboxAt 0).done) ∧
      goes (.regWrite (.port 0) (0, 0)) (front up 2 [(4, 4, 2)]) (fun t => (t.mboxAt 0).done)) ∧
    (goes (.regRead ⟨.port 0, false⟩) (front up 3 [(4, 4, 0x018)]) (fun t => (t.mboxAt 0).rep.length = 2) ∧
      goes (.regRead ⟨.port 0, false⟩) (front up 3 [(4, 4, 0x4000000)]) (fun t => (t.mboxAt 0).done)) ∧
    (goes (.release (.port 0) 4) (front follower 0x16 []) (fun t => (t.mboxAt 0).done) ∧
      goes (.release (.port 0) 4) (front closedSeg 0x16 []) (fun t => (t.segAt 0).phase = .empty && (t.mboxAt 0).done) ∧
      goes (.release (.port 0) 4) (front closedSeg 0x16 [(4, 1, 1)]) (fun t => (t.segAt 0).phase = .closed && (t.mboxAt 0).done)) ∧
    ((front up 0x18 []).host.fw.find? (fun c => c.src = .port 0 && c.code = 0x18) ≠ none) := by decide +kernel

/-- The user set of a state that asks for a STORE with an identity of its own. -/
def asksStore : State := front up 0x20 [(4, 4, 1), (8, 4, 0x1234)]
def itsSet : Settings := asksStore.snapshot { mac := 0x1234 }

/-- A store whose pages of a list are all retired; one with no settings page left. -/
def wornStore (ps : List Nat) : Nvs := { cycles := ps.map (fun p => (p, 100000)) }
def settingsAll : List Nat := (upTo 1022).map (3074 + ·)
def fullStore : Nvs := wornStore settingsAll

theorem wornStore_erased (ps : List Nat) (p : Nat) (h : p ∈ ps) : (wornStore ps).erased p = 100000 := by
  unfold wornStore Nvs.erased
  induction ps with
  | nil => cases h
  | cons q qs ih =>
    simp only [List.map_cons, sget]
    split
    · rfl
    · exact ih ((List.mem_cons.1 h).resolve_left ‹_›)

theorem fullStore_free : fullStore.free = [] := by
  simp only [Nvs.free, List.filter_eq_nil_iff, settingsPages, List.mem_map]
  rintro p ⟨i, hi, rfl⟩
  have hm : 3074 + i ∈ settingsAll := by
    refine List.mem_map.2 ⟨i, ?_, rfl⟩
    simp only [upTo, List.mem_range] at hi ⊢
    omega
  simp [Nvs.retired, fullStore, wornStore_erased settingsAll (3074 + i) hm]

theorem fullStore_takes_nothing (x : Settings) (ls : List Nat) : fullStore.storePages x ls = none := by
  cases ls <;> simp [Nvs.storePages, Nvs.writePages, Nvs.coolest, fullStore_free]

/-- A store that has the set as its first generation and no page written, and the same with its commit page on page 3074. -/
def newStore : Nvs := { sets := [{ gen := 1, set := itsSet, names := [] }] }
def firstCommit : Nvs := { newStore with cycles := [(3074, 1)], phys := [(3074, { logical := 512, gen := 2 })] }
def secondSet (x : Settings) : Nvs := { firstCommit with sets := { gen := 2, set := x, names := [(512, 3074, 2)] } :: newStore.sets }

/-- The head and the number of the settings pages, which do not depend on the pages of the factory set. -/
theorem settingsPages_head : ∃ rest, settingsPages = 3074 :: rest ∧ 765 ≤ rest.length ∧ ∀ p ∈ rest, p ≠ 3074 := by
  have h := Config.factoryPages.isLt
  obtain ⟨n, hn⟩ : ∃ n, 1022 - Config.factoryPages.val = n + 1 := ⟨1021 - Config.factoryPages.val, by omega⟩
  refine ⟨(upTo n).map (fun i => 3075 + i), ?_, by simp [upTo]; omega, fun p hp => ?_⟩
  · simp only [settingsPages, hn, upTo, List.range_succ_eq_map, List.map_cons, List.map_map]
    congr 1
    exact List.map_congr_left (fun i _ => by simp [Function.comp]; omega)
  · obtain ⟨i, -, rfl⟩ := List.mem_map.1 hp
    omega

theorem newStore_erased (p : Nat) : newStore.erased p = 0 := rfl

theorem newStore_coolest (ps : List Nat) (p : Nat) : newStore.coolest (p :: ps) = some p := by
  simp only [Nvs.coolest, newStore_erased, Option.some.injEq]
  induction ps with
  | nil => rfl
  | cons q qs ih => simpa using ih

theorem newStore_free : newStore.free = settingsPages := by
  simp [Nvs.free, Nvs.retired, newStore_erased, show newStore.pages = [] from rfl]

theorem firstCommit_writes : newStore.writePages 2 [] [512] = some (firstCommit, [(512, 3074, 2)]) := by
  obtain ⟨rest, he, -, -⟩ := settingsPages_head
  have ht : (3074 :: rest).filter (fun _ => true) = 3074 :: rest := List.filter_eq_self.2 (fun _ _ => rfl)
  simp only [Nvs.writePages, List.any_nil, Bool.not_false, newStore_free, he, ht, newStore_coolest]
  rfl

theorem secondSet_free (x : Settings) : 64 ≤ (secondSet x).free.length := by
  obtain ⟨rest, he, hl, hr⟩ := settingsPages_head
  have hc (p : Nat) : (secondSet x).retired p = false := by
    simp only [Nvs.retired, Nvs.erased, secondSet, firstCommit, sget]
    split <;> decide
  have hf : rest.filter (fun p => !decide (3074 = p)) = rest :=
    List.filter_eq_self.2 (fun p hp => by simpa using Ne.symm (hr p hp))
  simp [Nvs.free, he, hc, hf, show (secondSet x).pages = [(512, 3074)] from rfl]
  omega

theorem newStore_takes_commit (x : Settings) : ∃ n, newStore.storePages x [] = some n := by
  refine ⟨secondSet x, ?_⟩
  have hk : newStore.keptPages [(512, 3074, 2)] = [] := rfl
  simp only [Nvs.storePages, List.nil_append, show newStore.nextGen = 2 from rfl, firstCommit_writes, hk]
  exact if_neg (Nat.not_lt.2 (secondSet_free x))

theorem newStore_frees_3074 : 3074 ∈ newStore.free := by
  obtain ⟨rest, he, -, -⟩ := settingsPages_head
  simp [newStore_free, he]

theorem nothing_changed (s : State) (x : Settings) : s.changedFields (some x) x = [] := by
  simp [State.changedFields]

theorem set_stays (s : State) (n : Nvs) (x : Settings) : (s.onNvs (fun _ => n)).snapshot x = s.snapshot x := rfl

/-- A page of the user set is in use. -/
def moving : State := up.onNvs (fun n =>
  { n with sets := [{ gen := 1, set := {}, names := [(0, 3500, 1)] }], phys := [(3500, { logical := 0, gen := 1 })] })

def recalls (s : State) (set groups : Nat) : State := front s 0x21 [(4, 4, set), (8, 4, groups)]

def storeCmd : FwCmd := { src := .port 0, req := pack 128 [(0, 1, 0x20), (4, 4, 1), (8, 4, 0x1234)] }

/-- The identity that a STORE brings. -/
def idOf (c : FwCmd) : Settings :=
  { mac := c.arg 1 + 2 ^ 32 * bits (c.arg 2) 15 0, subsys := bits (c.arg 2) 31 16, bar2 := bitOf (c.arg 3) 0 }

theorem storeCmd_id : idOf storeCmd = { mac := 0x1234 } := by decide +kernel

def storeAgain : State := (asksStore.onNvs (fun _ => newStore)).onSys (fun x => { x with storing := some (.port 0) })

theorem storeAgain_pages : ∃ n, storeAgain.nvs.storePages (storeAgain.snapshot (idOf storeCmd))
    ((storeAgain.changedFields storeAgain.nvs.user (storeAgain.snapshot (idOf storeCmd))).map (fun k => (Config.pageOf k).val)).eraseDups
      = some n := by
  have h : storeAgain.changedFields storeAgain.nvs.user (storeAgain.snapshot (idOf storeCmd)) = [] := by
    rw [storeCmd_id]
    exact nothing_changed storeAgain itsSet
  rw [h]
  exact newStore_takes_commit _

theorem test_meets_SettingsStore :
    ((match (front up 0x20 [(4, 4, 2)]).fwFront (.port 0) 0x20 with | some c => decide (c.arg 0 / 2 ≠ 0) | none => false) = true ∧
      goes (.store (.port 0)) (front up 0x20 [(4, 4, 2)]) (fun t => (t.mboxAt 0).done && t.nvs.gen = 0)) ∧
    (asksStore.sys.storing ≠ some (.port 0) ∧ goes (.store (.port 0)) asksStore (fun t => t.sys.storing = some (.port 0) && t.nvs.gen = 0 && !(t.mboxAt 0).done)) ∧
    (let s := (asksStore.onNvs (fun _ => fullStore)).onSys (fun x => { x with storing := some (.port 0) })
     s.fwFront (.port 0) 0x20 = some storeCmd ∧ storeCmd.arg 0 / 2 = 0 ∧ s.sys.storing = some (.port 0) ∧ ∀ x ls, s.nvs.storePages x ls = none) ∧
    (storeAgain.fwFront (.port 0) 0x20 = some storeCmd ∧ storeCmd.arg 0 / 2 = 0 ∧ bitOf (storeCmd.arg 0) 0 = true ∧ storeAgain.sys.storing = some (.port 0) ∧
      ∃ n, storeAgain.nvs.storePages (storeAgain.snapshot (idOf storeCmd)) ((storeAgain.changedFields storeAgain.nvs.user (storeAgain.snapshot (idOf storeCmd))).map
        (fun k => (Config.pageOf k).val)).eraseDups = some n) :=
  ⟨by decide +kernel, by decide +kernel, ⟨by decide +kernel, by decide +kernel, by decide +kernel, fullStore_takes_nothing⟩,
    by decide +kernel, by decide +kernel, by decide +kernel, by decide +kernel, storeAgain_pages⟩

theorem test_meets_SettingsStore_recall :
    ((recalls up 2 0).fwFront (.port 0) 0x21 ≠ none ∧ goes (.recallSet (.port 0)) (recalls up 2 0) (fun t => (t.mboxAt 0).done) ∧
      (recalls up 0 0).nvs.user = none) ∧
    ((recalls follower 1 4).follower = true ∧ goes (.recallSet (.port 0)) (recalls follower 1 4) (fun t => (t.mboxAt 0).done)) ∧
    (goes (.recallSet (.port 0)) (recalls (up.setReg aTbCfg 5) 1 32) (fun t => (t.mboxAt 0).done && t.reg aTbCfg = 5)) ∧
    (let s := (down.setReg aTbCfg 5).onNvs (fun n => { n with sets := [{ gen := 1, set := { regs := [(aTbCfg, 9)] }, names := [] }] })
     goes (.recallSet (.port 0)) (recalls s 0 32) (fun t => (t.mboxAt 0).done && t.reg aTbCfg = 9) ∧
     goes (.recallSet (.port 0)) (recalls s 1 32) (fun t => t.reg aTbCfg = (t.rst aTbCfg).toNat)) ∧
    (let s := ((down.onSeg 0 (fun g => { g with length := 1, phase := .closed })).onSeg 63 (fun g => { g with base := 9 })).onNvs
       (fun n => { n with sets := [{ gen := 1, set := { segs := [(0, { length := 7, next := 4 }), (63, { length := 8 })] }, names := [] }] })
     (s.recallSegment s.stored 0).segAt 0 = { s.segAt 0 with next := 4 } ∧ (s.recallSegment s.stored 63).segAt 63 = { length := 8 }) ∧
    (moving.runs .bgs = true ∧ moving.inPost = false ∧ moving.svcBusy = false ∧ sget 0 moving.bgs.runs 0x600 = 0 ∧ (0, 3500) ∈ moving.nvs.pages) ∧
    (up.ready = true ∧ goes .recover up (fun t => t.nvs.recover)) := by decide +kernel

theorem test_meets_SettingsStore_move : 3074 ∈ moving.nvs.free := by
  obtain ⟨rest, he, -, -⟩ := settingsPages_head
  simp only [Nvs.free, he]
  exact List.mem_filter.2 ⟨List.mem_cons_self, by decide +kernel⟩

/-- The bytes other than 0 of a number at an offset, as cells of a staged image. -/
def cells (o n v : Nat) : List Host.Cell := ((leBytes n v).zipIdx.filter (fun c => decide (c.1 ≠ 0))).map (fun c => (o + c.2, c.1))

/-- A firmware image of one byte, 9, for every part; its hash is SHA-512 of that byte, and the key and the signature are the curve's
neutral element, which verify. -/
def whole : ImgIn :=
  { src := 0, target := 0, slot := 1, got := [(0, 513)], header := true, blocks := [0],
    data := cells 0 26 0x100000000070000000500010000000000010001000149514e48 ++
      cells 64 64 0x564c0e79bdf49c999b4db586552c1d44731400c5def3779febf762f599fb605ce626c0a6e6351fcb3040a8d6db5a5b4183d889ef9f0f6cbbbba25ed3f85b7bf2
        ++ [(128, 1)] ++ cells 192 4 0x2ACF889D ++ cells 508 4 0x0429A68C ++ [(512, 9)] }

/-- A device that holds the key, with an update under way. -/
def updating (u : ImgIn) (slot1 : ImgSlot) (s : State) : State :=
  (s.onNvs (fun n => { n with keys := n.keys.set 0 { state := 1, perm := 3, key := 1 :: zeros 31 }, slots := n.slots.set 1 slot1 })).putSys
    { s.sys with upd := some u }

def upd0 : State := updating whole { state := 4 } down
/-- The commit of the update has begun. -/
def upd1 : State := updating { whole with committing := true } { state := 4 } down
def staging (n : Nat) : State := front (updating { src := 0, target := 0, slot := 1 } { state := 4 } roomyDown) 0x29 [(16, 4, n)]
def commits (v : Nat) (s : State) : State := front s 0x2A [(4, 4, v)]
def trial : State := (up.onSlot 1 (fun _ => { state := 3 })).setBit aUpdStat 25 true
def replied (t : State) : Bool := (t.mboxAt 0).done && t.host.fw.isEmpty

theorem test_meets_ImageUpdates :
    (goes (.updateBegin (.port 0)) (front up 0x28 [(4, 4, 3)]) (fun t => replied t && t.sys.upd.isNone) ∧
      goes (.updateBegin (.port 0)) (front trial 0x28 []) (fun t => replied t && t.sys.upd.isNone) ∧
      goes (.updateBegin (.port 0)) (front up 0x28 []) (fun t => t.sys.upd = some { src := 0, target := 0, slot := 1 } && (t.slotAt 1).state = 4) ∧
      goes (.updateBegin (.port 0)) (front up 0x28 [(4, 4, 1)]) (fun t => t.sys.upd.isSome && (t.slotAt 1).state = 0)) ∧
    (up.hostUpd = none ∧ goes (.updateBlock (.port 0) noErr) (front up 0x29 [(16, 4, 8)]) replied ∧
      goes (.updateBlock (.port 0) noErr) (staging 65537) replied ∧ (staging 65536).hostUpd ≠ none ∧
      goes (.updateBlock (.port 0) ⟨[], [7], []⟩) (staging 8) (fun t => replied t && (match t.sys.upd with | some u => u.got = [] | none => false)) ∧
      goes (.updateBlock (.port 0) noErr) (staging 8) (fun t => match t.sys.upd with | some u => u.got = [(0, 8)] | none => false)) ∧
    (goes (.updateCommit (.port 0) false) (commits 4 upd0) replied ∧ goes (.updateCommit (.port 0) false) (commits 3 upd0) replied ∧
      goes (.updateCommit (.port 0) false) (commits 0 up) replied ∧
      goes (.updateCommit (.port 0) false) (commits 0 (staging 0)) (fun t => replied t && t.sys.upd.isSome)) ∧
    (goes (.updateCommit (.port 0) false) (commits 0 upd0) (fun t => !replied t && t.sys.upd.any (·.committing) && (t.slotAt 1).state = 4)) ∧
    (goes (.updateCommitReset (.port 0) false) (commits 2 upd0) (fun t => !replied t && t.sys.upd.any (·.committing))) ∧
    (let worn := upd1.onNvs (fun n => { n with cycles := [(1024, 100000)] })
     1024 ∈ worn.imgPages { whole with committing := true } ∧ worn.nvs.retired 1024 = true ∧
       goes (.updateCommit (.port 0) false) (commits 0 worn) (fun t => replied t && t.sys.upd.isNone && (t.slotAt 1).state = 4)) ∧
    (goes (.updateConfirm (.port 0)) (commits 1 trial) (fun t => replied t && (t.slotAt 1).state = 1 && (t.slotAt 0).state = 2) ∧
      goes (.updateConfirm (.port 0)) (commits 1 up) replied) ∧
    (goes (.updateCommitReset (.port 0) false) (commits 2 up) (fun t => replied t && t.sys.boot = .ready) ∧
      goes (.updateCommitReset (.port 0) false) (commits 2 down) replied ∧
      goes (.updateCommitReset (.port 0) false) (commits 2 (upd0.onSeg 63 (fun g => { g with length := 1, phase := .closed }))) replied ∧
      goes (.updateCommitReset (.port 0) false) (commits 2 (staging 0)) replied) ∧
    (goes .trialConfirmTimeout trial (fun t => (t.slotAt 1).state = 1) ∧ goes .updateCancel upd0 (fun t => t.sys.upd.isNone) ∧
      goes .updateCancel upd1 (fun t => t.sys.upd.any (·.committing))) := by
  decide +kernel

/-- The image is good, so that every clause of a commit that asks for a good one has a case. -/
theorem test_meets_ImageUpdates_good :
    (whole.header = true ∧ whole.blocks.length = imgBlocks whole.head) ∧ (∀ p ∈ upd0.imgPages whole, upd0.nvs.retired p = false) ∧
    payloadOk whole.image = true ∧ upd0.signedOk (whole.image.take 512) = true ∧ whole.target = 0 ∧ whole.slot < 2 ∧
    (∀ f ∈ captureFns, upd0.idle f = true) ∧ upd0.hostUpd = some whole ∧
    upd1.hostUpd = some { whole with committing := true } := by decide +kernel

/-- A front-end image of family 5, one byte long, without its signature, which a reload does not look at. -/
def feImg : List Byte :=
  overlay (pack 512 [(0, 4, 0x49514E48), (4, 2, 1), (6, 1, 2), (8, 4, 1), (12, 4, 65536), (20, 2, 5)]) 64 (sha512 [9]) ++ [9]

/-- Tile 0 declares a family. -/
def declares (fam : Nat) (s : State) : State := s.onRx 0 (fun g => { g with caps := some { maxStep := 0, formats := 0, family := fam, version := 0, dual := false, compatOnly := false, ack := false } })

def reloading (again : Bool) : State := up.putSys { up.sys with reload := some { fam := 5, wait := [7], again := again } }

def recovering (u : Option ImgIn) : State := State.reset.putSys { boot := .recovery, upd := u }

def begun : ImgIn := { src := 4, target := 0 }

def boots : BootFacts := { tb25 := false, home := false, pair := false, chans := [], families := [] }

/-- The status of a recovery answer. -/
def answers (st : Nat) (t : State) : Bool := match t.out with | .recovery n _ :: _ => n = st | _ => false

theorem test_meets_ReloadAndRecovery :
    (up.idle .ing = false ∧ goes .fereload up (fun t => t.bit aGlbErr 31)) ∧
    (let s := (declares 5 down).onNvs (fun n => { n with fe := n.fe.set 7 feImg })
     s.ready = true ∧ s.idle .ing = true ∧ s.nonHolder = false ∧ s.sys.reload = none ∧ s.declared = [(0, 5)] ∧ (s.feImage 5).isSome = true ∧
       goes .fereload s (fun t => t.sys.reload.isSome && t.reg 0x900128 = 0)) ∧
    ((declares 6 down).declared = [(0, 6)] ∧ (declares 6 down).feImage 6 = none ∧
      goes .fereload (declares 6 down) (fun t => t.sys.reload.isNone && t.reg 0x900128 = 1)) ∧
    (let s := (declares 5 down).onNvs (fun n => { n with fe := n.fe.set 7 feImg })
     (s.setFld aPairStat 31 29 3 |>.setBit aPairStat 25 true).nonHolder = true ∧
     goes .fereload (s.setFld aPairStat 31 29 3 |>.setBit aPairStat 25 true) (fun t => t.sys.reload.isNone && t.reg 0x900128 = 0) ∧
     goes .fereload (s.putSys { s.sys with reload := some { fam := 9, wait := [3] } }) (fun t => t.sys.reload.any (fun r => r.fam = 9)) ∧
     goes .fereload (s.putSys { s.sys with boot := .loading }) (fun t => t.sys.reload.isNone)) ∧
    (goes .feReloadTimeout ((reloading true).putSys { (reloading true).sys with boot := .loading }) (fun t => t.sys.boot = .ready)) ∧
    (goes .feReloadTimeout (reloading false) (fun t => match t.sys.reload with | some r => r.again && r.wait = [7] | none => false) ∧
      goes .feReloadTimeout (reloading true) (fun t => t.sys.reload.isNone && t.bit 0x900120 7)) ∧
    (goes (.recoveryBegin 4) (recovering none) (answers 2) ∧ goes (.recoveryBegin 0) (recovering (some begun)) (answers 2) ∧
      goes (.recoveryBegin 1) (recovering none) (fun t => answers 0 t && (t.slotAt 1).state = 4) ∧
      goes (.recoveryBegin 3) (recovering none) (fun t => match t.sys.upd with | some u => u.target = 2 | none => false)) ∧
    (begun.fill = 0 ∧ goes (.recoveryBlock 0 []) (recovering (some begun)) (answers 2) ∧
      goes (.recoveryBlock 1 [7]) (recovering (some begun)) (answers 2) ∧
      goes (.recoveryBlock 0 [7]) (recovering (some begun)) (fun t => answers 0 t && (match t.sys.upd with | some u => u.fill = 1 | none => false))) ∧
    (goes (.recoveryCommit false) (recovering (some begun)) (answers 2) ∧ goes (.recoveryCommit false) (recovering none) (answers 2) ∧
      goes .recoveryStatus (recovering none) (answers 0) ∧ goes .recoveryReset (recovering none) (fun t => t.sys.boot = .held)) ∧
    (State.reset.tap.hold = false ∧ (State.reset.slotAt 0).state = 1 ∧ (State.reset.slotAt 0).maker = true ∧ (State.reset.slotAt 1).state = 0 ∧
      State.reset.nvs.recover = false) ∧
    (goes (.resetRelease boots) (State.reset.onNvs (fun n => { n with recover := true })) (fun t => t.sys.boot = .recovery && !t.nvs.recover) ∧
      goes (.resetRelease boots) (State.reset.onSlot 0 (fun k => { k with state := 6 })) (fun t => t.sys.boot = .recovery) ∧
      goes (.resetRelease boots) up (fun t => t.tap.pwrOk && t.tap.resetN)) := by decide +kernel

/-- A device held in reset with these slots, and with the maker's key or another in key slot 0. -/
def bootable (makers : Bool) (a b : ImgSlot) : State := State.reset.onNvs (fun n =>
  { n with slots := #v[a, b], keys := if makers then n.keys else n.keys.set 0 { state := 1, perm := 3, key := 1 :: zeros 31 } })

def makers : ImgSlot := { state := 1, maker := true }

/-- The slot that boot runs, and the states it leaves the two in. -/
def bootsInto (x : BootFacts) (s : State) (i a b : Nat) : Bool :=
  goes (.resetRelease x) s (fun t => t.sys.boot = .ready && t.runSlot = i && (t.slotAt 0).state = a && (t.slotAt 1).state = b)

/-- The signed image's header in parts of 64 bytes, the last shorter, whose check sum is computed part by part. -/
def part (i : Nat) : List Byte := ((whole.image.take 508).drop (64 * i)).take 64

theorem parts_crc :
    (part 0).foldl crcByte 4294967295 = 4245747187 ∧
    (part 1).foldl crcByte 4245747187 = 3508736269 ∧
    (part 2).foldl crcByte 3508736269 = 198779643 ∧
    (part 3).foldl crcByte 198779643 = 1427748827 ∧
    (part 4).foldl crcByte 1427748827 = 3561777969 ∧
    (part 5).foldl crcByte 3561777969 = 4236977403 ∧
    (part 6).foldl crcByte 4236977403 = 2122703958 ∧
    (part 7).foldl crcByte 2122703958 = 4225128819 := by
  refine ⟨?_, ?_, ?_, ?_, ?_, ?_, ?_, ?_⟩ <;> decide +kernel

theorem crc_part (i c d : Nat) (h : (part i).foldl crcByte c = d) :
    ((whole.image.take 508).drop (64 * i)).foldl crcByte c = ((whole.image.take 508).drop (64 * (i + 1))).foldl crcByte d := by
  rw [← h, part, Nat.mul_succ, ← List.drop_drop, ← List.foldl_append, List.take_append_drop]

theorem whole_crc : crc32c (whole.image.take 508) = fieldLE whole.image 508 4 := by
  obtain ⟨h0, h1, h2, h3, h4, h5, h6, h7⟩ := parts_crc
  have h := crc_part 0 _ _ h0
  rw [crc_part 1 _ _ h1, crc_part 2 _ _ h2, crc_part 3 _ _ h3, crc_part 4 _ _ h4, crc_part 5 _ _ h5, crc_part 6 _ _ h6, crc_part 7 _ _ h7,
    List.drop_eq_nil_of_le (show (whole.image.take 508).length ≤ 64 * (7 + 1) from Nat.le_trans (List.length_take_le 508 whole.image) (by decide)),
    Nat.mul_zero, List.drop_zero] at h
  rw [crc32c, h]
  decide +kernel

/-- A device held in reset that holds the key of the signed image, which stands in slot 1. -/
def signedIn (a b : Nat) (tried : Bool) : State := bootable false { makers with state := a } { state := b, attempted := tried, image := whole.image }

theorem signed_header (a b : Nat) (tried : Bool) : (signedIn a b tried).headerCheck (whole.image.take 512) 1 = stDONE := by
  have hl : (whole.image.take 512).length = 512 := by decide +kernel
  have hm : fieldLE (whole.image.take 512) 0 4 = 0x49514E48 := by decide +kernel
  have hv : fieldLE (whole.image.take 512) 4 2 = 1 := by decide +kernel
  have hc : fieldLE (whole.image.take 512) 508 4 = crc32c ((whole.image.take 512).take 508) := by
    rw [List.take_take, show min 508 512 = 508 from rfl, whole_crc]
    decide +kernel
  have hf : (signedIn a b tried).headerFields (whole.image.take 512) 1 = (signedIn 0 0 false).headerFields (whole.image.take 512) 1 := rfl
  have hs : (signedIn a b tried).signedOk (whole.image.take 512) = (signedIn 0 0 false).signedOk (whole.image.take 512) := rfl
  have hf' : (signedIn 0 0 false).headerFields (whole.image.take 512) 1 = true := by decide +kernel
  have hs' : (signedIn 0 0 false).signedOk (whole.image.take 512) = true := by decide +kernel
  simp [State.headerCheck, hl, hm, hv, ← hc, hf, hs, hf', hs']

theorem signed_passes (a b : Nat) (tried : Bool) : (signedIn a b tried).slotPasses 1 = true := by
  have hp : payloadOk whole.image = true := by decide +kernel
  show ((decide ((signedIn a b tried).headerCheck (whole.image.take 512) 1 = stDONE)) && payloadOk whole.image) = true
  simp [signed_header, hp]

theorem test_meets_BootChoosesSlot :
    State.reset.sys.boot = .held ∧ State.reset.tap.hold = false ∧ (signedIn 1 3 false).nvs.recover = false ∧ ((signedIn 1 3 false).slotAt 1).state = 3 ∧
    (bootable true makers {}).slotPasses 0 = true ∧ (bootable false makers {}).slotPasses 0 = false ∧
    bootsInto boots State.reset 0 1 0 = true ∧
    bootsInto boots (bootable true makers { state := 3, attempted := true, image := whole.image }) 0 1 5 = true ∧
    bootsInto boots (bootable true makers { state := 3 }) 0 1 6 = true ∧
    goes (.resetRelease boots) (bootable false makers { state := 6 }) (fun t => t.sys.boot = .recovery && (t.slotAt 0).state = 6) = true := by decide +kernel

theorem test_meets_BootChoosesSlot_functions :
    goes (.resetRelease boots) up.deviceReset (fun t => t.fnState .lnk = .running && t.fnState .hst = .stopped && t.fnState .pair = .stopped) ∧
    goes (.resetRelease { boots with pair := true }) up.deviceReset (fun t => t.fnState .pair = .running && t.fnState .bgs = .running) := by decide +kernel

/-- Domain n in a state of its own, with its enables. -/
def dom (n st en : Nat) (waking : List Nat) : State :=
  ((down.setFld (aDomain n) 29 28 st).setFld (aDomain n) 31 30 en).putBgs { down.bgs with waking := waking }

theorem test_meets_PowerAndTelemetry :
    ((dom 45 0 2 []).domHere 45 = true ∧ (dom 45 0 2 []).retCond 45 = true ∧ (dom 45 0 2 []).hold = false ∧ (dom 45 0 2 []).domState 45 = 0 ∧
      (dom 45 0 2 []).bit (aDomain 45) 30 = false) ∧
    ((dom 0 0 3 []).offCond 0 = true ∧ (dom 0 0 3 []).domHere 0 = true ∧ (dom 0 0 3 []).retCond 0 = true ∧ (dom 0 0 3 []).hold = false) ∧
    (goes (.domainWake 50) (dom 50 1 0 []) (fun t => t.bgs.waking = [50]) ∧
      goes (.domainWakeDone 50) (dom 50 1 0 [50]) (fun t => t.domState 50 = 0 && t.reg 0xA002C8 = 1)) ∧
    ((dom 43 2 0 []).wanted 43 = true ∧ goes (.domainPowerUp 43) (dom 43 2 0 []) (fun t => t.domState 43 = 0)) ∧
    ((dom 45 0 1 []).portUp 1 = false ∧ goes (.sidebandIdleTimeout 1) (dom 45 0 1 []) (fun t => t.domState 45 = 2) ∧
      goes (.sidebandActivity 1) (dom 45 2 1 []) (fun t => t.bgs.waking = [45])) ∧
    (goes .laneAdaptMonitor ((lane 6 0).setReg 0xA00000 0x30000000) (fun t => t.bgs.eyeLow) ∧
      goes (.paceMeasurement 11 1300) up (fun t => t.bgs.meas.length = 1) ∧
      down.temperBasic = true ∧ down.runs .bgs = false ∧ goes (.paceMeasurement 11 1300) down (fun t => t.bgs.meas = [(0, 11, 1300)]) ∧
      goes (.telemetryRecord { tjCore := 400, tjField := -5, volt := [1, 2, 3, 4, 5, 6, 7, 8], pCore := 99, pField := 1, memBw := 2 }) down
        (fun t => t.reg 0xA00040 = 1 && t.reg 0xA00080 = 99) ∧
      up.runs .bgs = true) := by
  decide +kernel

def part3 : State := { down with part := .p7124, stepping := 15 }

theorem test_meets_IdentityWords :
    (goes .idcode { down with stepping := 1 } (fun t => t.out = [.tdo [0x6F, 0x65, 0x19, 0x17], .tdo [1]])) ∧
    (part3.stepping < 16 ∧ part3.ready = true ∧ 0 < part3.part.usbPorts ∧ goes (.rcCounterRead 0 ⟨0, false⟩) part3 (fun t => t.out = [.readData 0 0xF7124000]) ∧
      goes (.rcCounterRead 0 ⟨0x018, false⟩) part3 (fun t => t.out = [.readData 0x018 24])) ∧
    (State.reset.stepping < 16) ∧
    (goes (.rcCounterRead 1 ⟨0x018, false⟩) { down with part := .p7148 } (fun t => t.out = [.readData 0x018 48]) ∨ Part.usbPorts .p7148 ≤ 1) := by
  decide +kernel

/-- The answer that a key verifies is awaited. -/
def challenged : State :=
  (up.onNvs (fun n => { n with keys := n.keys.set 3 { state := 1, perm := 2, key := 1 :: zeros 31 } })).putSys { up.sys with challenge := some [1, 2, 3] }

def resets : State := State.reset.putTap { resetN := true, pwrOk := true, hold := true }

def open_ (s : State) : State := s.setBit 0xB00000 31 true

theorem test_meets_TestAccessPort :
    (goes .bypass State.reset (fun t => t.tap.ir = 0xFF) ∧ bitString [1, 128] = true :: List.replicate 14 false ++ [true] ∧ bytesOfBits [true, false, false, false, false, false, false, false, true] = [1, 1] ∧
      goes (.samplePreload [1] [2]) State.reset (fun t => t.tap.ir = 2 && t.out.length = 2)) ∧
    (goes (.extestTrain [1] [2]) up (fun t => t.tap.hold && t.sys.boot = .held) ∧ goes .highz up (fun t => t.tap.ir = 7 && t.sys.boot = .held)) ∧
    (resets.tap.hold = true ∧ goes (.tapReset boots) resets (fun t => t.sys.boot ≠ .held && !t.tap.hold) ∧
      goes (.testLogicResetEntry boots) State.reset (fun t => t.sys.boot = .held && t.tap.ir = 1)) ∧
    (goes (.dbgChallenge (zeros 16)) up (fun t => t.sys.challenge.isSome) ∧ up.sys.boot ≠ .held) ∧
    (goes (.dbgResponse 0 []) (up.setBit 0xB00000 30 true) (fun t => !t.unlocked) ∧
      up.responseOk 0 [] = false ∧ goes (.dbgResponse 0 []) up (fun t => t.fld 0xB00000 1 0 = 1 && !t.unlocked) ∧
      goes (.dbgResponse 0 []) (up.setFld 0xB00000 1 0 2) (fun t => t.bit 0xB00000 30 && !t.unlocked)) ∧
    (goes (.dbgAccess ⟨0, false⟩ (0, 0)) up (fun t => t.out = [.tdo [0], .tdo [1]]) ∧ (open_ up).bit 0xB00000 31 = true ∧
      goes (.dbgAccess ⟨0, false⟩ (0, 0)) (open_ up) (fun t => t.tap.access = 0x07196000) ∧
      goes (.dbgAccess ⟨BitVec.ofNat 64 (2 ^ 63 + 0x80014 * 2 ^ 32 + 9), false⟩ (0, 0)) (open_ up) (fun t => t.reg 0x200050 = 9 && t.tap.access = 9)) ∧
    (goes (.imgLoad 1) (recovering (some begun)) (fun t => t.out = [.tdo [0], .tdo [1]]) ∧
      goes (.imgLoad 1) (open_ (recovering (some begun))) (fun t => match t.sys.upd with | some u => u.fill = 4 | none => false)) := by
  decide +kernel

theorem test_meets_TestAccessPort_good : challenged.responseOk 3 (1 :: zeros 63) = true ∧ challenged.bit 0xB00000 30 = false ∧
    challenged.sys.boot ≠ .held := by decide +kernel

theorem test_meets_DeviceReset :
    goes .pwrOkDeassert ((up.setBit aPairStat 27 true).setBit aPairStat 28 true) (fun t => t.tongsIn && !t.holds && t.sys.boot = .held && t.fnState .lnk = .off) ∧
    goes .resetNAssert up (fun t => t.fnState .tb = .off && !t.tap.resetN) := by decide +kernel

/-- A step of s goes on to a state that p holds of. -/
def steps (s : State) (p : State → Bool) : Bool :=
  match step s with
  | .next t => p t
  | _ => false

theorem test_meets_IdleStepTicks :
    (State.reset.fnState .tb = .off ∧ steps State.reset (fun t => t.tb.ticks = 0)) ∧
    (up.fnState .tb = .running ∧ up.pending = [] ∧ steps up (fun t => t.tb.ticks = 1 && t.tb.counter = up.increment)) := by decide +kernel

theorem test_meets_StepTakesFront :
    let s : State := { up with pending := [.recover, .idcode] }
    s.pending = .recover :: [.idcode] ∧ steps s (fun t => t.pending = [.idcode] && t.nvs.recover) = true := by decide +kernel

theorem test_meets_MemoryStaysCanonical :
    let s : State := { hostUp with pending := [.apertureWrite 1 3 [5, 0]] }
    Memory.wf s.hearth.mem = true ∧ steps s (fun t => t.hearth.mem = [(3, 5)]) = true := by decide +kernel

theorem test_meets_AbsentStaysAbsent :
    let s : State := { up.setFn .aux .absent with pending := [.pwrOkDeassert] }
    s.fnState .aux = .absent ∧ ({ up with part := .p7124 } : State).part.lacks .aux = true ∧ steps s (fun t => t.fnState .aux = .absent && t.fnState .tb = .off) = true := by decide +kernel

theorem test_meets_StoreChangesOnlyByItsCommands : goes .recover up (fun t => t.nvs ≠ up.nvs) ∧ goes .bypass up (fun t => t.tap ≠ up.tap) := by
  decide +kernel

/-! ### Well-formedness: for each check, a term just outside it, which is refused, and terms at its edge, which pass -/

def caps (step formats family version : Nat) : Instr :=
  .capsRx 0 { maxStep := step, formats := formats, dual := false, compatOnly := false, family := family, version := version, ack := false }

theorem test_wf_registers_and_lanes :
    (∀ i ∈ [Instr.registerWrite 0 (2 ^ 26) 0 0 (0, 0), .registerWrite 0 0 0 0 (2 ^ 80, 0), .registerWrite 0 0 0 0 (0, 2 ^ 32),
        .rcCounterRead 0 ⟨2 ^ 26, false⟩, .dieTempThreshold 32768, .dieTempThreshold (-32769), .logWindowClose 0 (2 ^ 60), .stripRx 0 [] (2 ^ 80) false,
        .deskewTimeout (.tile 0) 65536, .deskewTimeout .mirror (2 ^ 32), .discardedControlBlock ⟨.rx 0, zeros 15⟩, .fillRx (.rx 0) 9, .idleRx (.rx 0) (2 ^ 32) 0, .idleRx (.rx 0) 0 65536, .trainRx (.rx 0) false 32 false false 0,
        .trainRx (.rx 0) false 0 false false 65536, caps 256 0 0 0, caps 0 256 0 0, caps 0 0 256 0, caps 0 0 0 256, .rateRx (.rx 0) 256 { accept := false },
        .cfgaRx 0 256 0 0, .cfgaRx 0 0 256 0, .cfgaRx 0 0 0 (2 ^ 32), .fillGapResend 0 32768, .fillGapResend 0 (-32769),
        .trainingComplete (.rx 0) 32768 { eq0 := 0, eq1 := 0 }, .trainingComplete (.rx 0) (-32769) { eq0 := 0, eq1 := 0 },
        .trainingComplete (.rx 0) 0 { eq0 := 2 ^ 32, eq1 := 0 }, .trainingComplete (.rx 0) 0 { eq0 := 0, eq1 := 2 ^ 32 },
        .frameCommand (List.replicate 49 0), .frameCommand [65536], .prbsReseed (.rx 0) (2 ^ 32), .prbsInject 256 (.rx 0)],
      i.wf = false) ∧
    (∀ i ∈ [Instr.registerWrite 1 (2 ^ 26 - 1) 15 0 (2 ^ 80 - 1, 2 ^ 32 - 1), .dieTempThreshold (-32768), caps 255 255 255 255, .fillRx (.mir 7) 8,
        .cfgaRx 95 255 255 (2 ^ 32 - 1), .frameCommand (List.replicate 48 65535)], i.wf = true) := by decide +kernel

def badHead : List PtpHead :=
  let h : PtpHead := { fcs := true, version := 2, domain := 0, clock := 0, port := 0, seq := 0, corr := 0 }
  [{ h with tag := some 4096 }, { h with tlvs := [65536] }, { h with version := 16 }, { h with domain := 256 }, { h with clock := 2 ^ 64 }, { h with port := 65536 }, { h with seq := 65536 },
    { h with corr := 2 ^ 63 }, { h with corr := -(2 ^ 63) - 1 }]

def badData : List PtpData :=
  let d := told 0
  [{ d with gm := 2 ^ 64 }, { d with prio1 := 256 }, { d with class_ := 256 }, { d with acc := 256 }, { d with variance := 65536 },
    { d with prio2 := 256 }, { d with steps := 65536 }, { d with utc := 65536 }]

theorem test_wf_capture_and_time :
    (∀ i ∈ [Instr.loadRunImage (.port 0) noErr [(12, 0)], .loadRunImage (.port 0) noErr [(0, 65536)],
        .tileFrameTimeout 0 (2 ^ 32), .scrubStep (.single (2 ^ 40)) 0, .scrubStep (.uncorrectable (2 ^ 40)) 0, .scrubStep (.crc (2 ^ 21) 0) 0,
        .scrubStep (.crc 0 48) 0, .trigEdge 0 (2 ^ 96) 0, .triggerEvaluation (2 ^ 80), .arm (.port 0) [(12, 0)] ⟨0, 0, 0, 0⟩, .arm (.port 0) [] ⟨256, 0, 0, 0⟩,
        .trigger (.port 0) 256, .timeTrigger (.port 0) 256, .outputTimedPulse 0 (2 ^ 80), .tdcEdge 0 (2 ^ 96) 0, .gateEdge 0 (2 ^ 96) 0,
        .codeDensityCollected [], .interpolatorHandover 0 128, .interpolatorHandover 0 (-129), .rigTrigger (.port 0) 256,
        .syncRx 0 (head 0) false (2 ^ 80) 0, .syncRx 0 (head 0) false 0 (2 ^ 80), .followUpRx 0 (head 0) (2 ^ 80), .delayReqRx 0 (head 0) (2 ^ 80),
        .delayRespRx 0 (head 0) (2 ^ 80) 0 0, .delayRespRx 0 (head 0) 0 (2 ^ 64) 0, .delayRespRx 0 (head 0) 0 0 65536, .pdelayReqRx 0 (head 0) (2 ^ 80),
        .pdelayRespRx 0 (head 0) false (2 ^ 80) 0 0 0, .pdelayRespRx 0 (head 0) false 0 (2 ^ 64) 0 0, .pdelayRespRx 0 (head 0) false 0 0 65536 0,
        .pdelayRespRx 0 (head 0) false 0 0 0 (2 ^ 80), .pdelayRespFollowUpRx 0 (head 0) (2 ^ 80) 0 0, .pdelayRespFollowUpRx 0 (head 0) 0 (2 ^ 64) 0,
        .pdelayRespFollowUpRx 0 (head 0) 0 0 65536, .rigTriggerRx 0 true (zeros 1519) 0, .rigTriggerRx 0 true [] 256,
        .imgBlockRx 0 true (zeros 1519) [] [] false, .imgAckRx 0 true (zeros 1519) 0, .imgAckRx 0 true [] (2 ^ 80), .imgResendTimeout 0 (2 ^ 32)], i.wf = false) ∧
    (∀ h ∈ badHead, Instr.wf (.delayReqRx 0 h 0) = false) ∧ (∀ d ∈ badData, Instr.wf (.announceRx 0 (head 0) d) = false) ∧
    (∀ i ∈ [Instr.announceRx 1 (head 65535) (told 65535), .interpolatorHandover 0 (-128), .scrubStep (.crc (2 ^ 21 - 1) 47) 65535,
        .arm (.core 3) [(11, 65535)] ⟨255, 0, 0, 0⟩, .codeDensityCollected (List.replicate 800 1), .imgBlockRx 1 true (zeros 1518) [] [] true],
      i.wf = true) := by decide +kernel

theorem test_wf_field_and_pair :
    (∀ i ∈ [Instr.adcSamplingInstant 0 (2 ^ 80), .adcConversionDone 0 32768, .adcConversionDone 0 (-32769), .adcCalibrationDone 0 32768 0,
        .adcCalibrationDone 0 (-32769) 0, .adcCalibrationDone 0 0 65536, .chargeInputTestDone 65536, .heartbeatRx 0 ⟨0, beat 8 false false⟩, .heartbeatRx 0 ⟨2 ^ 32, beat 0 false false⟩,
        .heartbeatRx 0 ⟨0, { beat 0 false false with seq := 2 ^ 32 }⟩, .schedRx ⟨2 ^ 32, 0⟩ 0, .schedRx ⟨0, 2 ^ 32⟩ 0, .schedRx ⟨0, 0⟩ (2 ^ 80), .decisionRx ⟨0, none⟩ (some (2 ^ 32)), .decisionRx ⟨2 ^ 32, none⟩ none,
        .decisionRx ⟨0, some { dec with seg := 64 }⟩ none, .decisionRx ⟨0, some { dec with frame := 2 ^ 32 }⟩ none,
        .decisionRx ⟨0, some { dec with tfrac := 65536 }⟩ none, .decisionRx ⟨0, some { dec with stamp := 2 ^ 80 }⟩ none,
        .decisionRx ⟨0, some { dec with src := 64 }⟩ none, .timeRx ⟨2 ^ 32, 0⟩ 0, .timeRx ⟨0, 2 ^ 80⟩ 0, .timeRx ⟨0, 0⟩ (2 ^ 80), .fdigestRx ⟨2 ^ 32, 0⟩ 0 0, .fdigestRx ⟨0, 0⟩ (2 ^ 32) 0, .fdigestRx ⟨0, 0⟩ 0 (2 ^ 64),
        .digestRx ⟨2 ^ 32, 0⟩ 0, .digestRx ⟨0, 2 ^ 32⟩ 0, .digestRx ⟨0, 0⟩ (2 ^ 64), .spaceRx ⟨2 ^ 32, 0⟩, .spaceRx ⟨0, 2 ^ 32⟩, .quenchRx ⟨2 ^ 32, 0⟩,
        .quenchRx ⟨0, 2 ^ 80⟩, .handoverRx ⟨2 ^ 32, 0⟩ 0 false, .handoverRx ⟨0, 2 ^ 80⟩ 0 false, .handoverRx ⟨0, 0⟩ (2 ^ 32) false, .stateRx ⟨2 ^ 32, .step 0⟩,
        .recordRx ⟨2 ^ 32, .disarm, []⟩, .recordRx ⟨0, .disarm, [(12, 0)]⟩, .forwardRx ⟨2 ^ 32, .release 0⟩, .mirrorMessageBad ⟨2 ^ 32, 0⟩,
        .mirrorMessageBad ⟨0, 256⟩, .roleSwapDue (2 ^ 80) 0, .swapRole (.port 0) (2 ^ 80) 0,
        .pairSwap (2 ^ 80) 0], i.wf = false) ∧
    (∀ m ∈ [StateMsg.image (2 ^ 32) 0 [], .image 1 1 [0], .reg (2 ^ 26) 0 0 0, .reg 0 64 0 0, .reg 0 0 64 0, .reg 0 0 0 (2 ^ 32), .fnCmd .hrt 0 0,
        .fnCmd .hrt 4 0, .fnCmd .hrt 1 (2 ^ 80), .segment 64 0 0 0, .segment 0 8 0 0, .segment 0 0 (2 ^ 32) 0, .segment 0 0 0 (2 ^ 32), .timeTrig (2 ^ 64), .step (2 ^ 79),
        .step (-(2 ^ 79) - 1)], Instr.wf (.stateRx ⟨0, m⟩) = false) ∧
    (∀ m ∈ [RecordMsg.arm 64 0 false, .arm 0 (2 ^ 32) false, .post 64 0, .post 0 (2 ^ 32), .close 64 0 0 0, .close 0 (2 ^ 32) 0 0, .close 0 0 (2 ^ 32) 0,
        .close 0 0 0 (2 ^ 80), .release 64], Instr.wf (.recordRx ⟨0, m, []⟩) = false) ∧
    (∀ c ∈ [ForwardCmd.trigger (2 ^ 80) false, .release 64, .timeTrigger (2 ^ 64), .handover (2 ^ 80) 0, .handover 0 (2 ^ 32), .armCheck 256 0 0 0, .armCheck 0 256 0 0, .armCheck 0 0 256 0,
        .armCheck 0 0 0 (2 ^ 32)],
      Instr.wf (.forwardRx ⟨0, c⟩) = false) ∧
    (∀ i ∈ [Instr.recordRx ⟨0, .disarm, [(11, 65535)]⟩, .stateRx ⟨0, .image 1 0 [0]⟩, .stateRx ⟨2 ^ 32 - 1, .fnCmd .trg 3 (2 ^ 80 - 1)⟩, .decisionRx ⟨0, some dec⟩ (some 4),
        .forwardRx ⟨0, .release 63⟩,
        .adcCalibrationDone 1 (-32768) 65535, .fdigestRx ⟨0, 47⟩ 1 (2 ^ 64 - 1), .digestRx ⟨0, 1⟩ (2 ^ 64 - 1)], i.wf = true) := by decide +kernel

def facts (chans : List (Nat × Nat × Nat)) (families : List (Nat × Nat)) : BootFacts := { boots with chans := chans, families := families }

def sensed (x : Sensors) : Instr := .telemetryRecord x
def quiet : Sensors := { tjCore := 400, tjField := -5, volt := [1, 2, 3, 4, 5, 6, 7, 8], pCore := 99, pField := 1, memBw := 2 }

theorem test_wf_host_and_package :
    (∀ i ∈ [Instr.usb4LinkUp 0 1, .usb4LinkUp 0 5, .apertureRead 0 (2 ^ 34) 1 noErr, .apertureRead 0 0 4097 noErr, .apertureWrite 0 (2 ^ 34) [],
        .apertureWrite 0 0 (zeros 513), .readRange 0 [] noErr, .readFrame 0 [] noErr, .readDecoded 0 [] noErr, .writeRange 0 [] [],
        .regWrite (.port 0) (2 ^ 80, 0), .regWrite (.port 0) (0, 2 ^ 32), .release (.port 0) 256,
        .recoveryBegin 256, .recoveryBlock (2 ^ 32) [], .wearPageMove 4096 0, .wearPageMove 0 4096, .dbgChallenge [], .dbgResponse 0 [],
        .dbgAccess ⟨0, false⟩ (2 ^ 80, 0), .dbgAccess ⟨0, false⟩ (0, 2 ^ 32), .paceMeasurement 0 65536, sensed { quiet with tjCore := 32768 },
        sensed { quiet with tjCore := -32769 }, sensed { quiet with tjField := 32768 }, sensed { quiet with tjField := -32769 },
        sensed { quiet with volt := [] }, sensed { quiet with volt := List.replicate 8 65536 }, sensed { quiet with pCore := 2 ^ 32 },
        sensed { quiet with pField := 65536 }, sensed { quiet with memBw := 2 ^ 32 }, .resetRelease (facts [(64, 1, 1)] []),
        .resetRelease (facts [(0, 0, 1)] []), .resetRelease (facts [(0, 3, 1)] []), .resetRelease (facts [(0, 1, 0)] []),
        .resetRelease (facts [(0, 1, 33)] []), .tapReset (facts [] [(48, 0)]), .testLogicResetEntry (facts [] [(0, 256)])], i.wf = false) ∧
    (∀ i ∈ [Instr.usb4LinkUp 1 4, .apertureRead 1 (2 ^ 34 - 1) 4096 noErr, .readRange 15 (zeros 32) noErr, .resetRelease (facts [(63, 2, 32)] [(47, 255)]),
        sensed quiet, .dbgChallenge (zeros 16), .dbgResponse 255 (zeros 64)], i.wf = true) := by decide +kernel

end Sys2Proof.Tests
end

section
/-!
The identity words (R36, R39, R481): GLB_ID, GLB_CAP2 and IDCODE are made of the part and its stepping alone, which no command
changes; what a read of a register of BAR0 sends to the host.
-/

namespace Sys2Proof.Machine

/-! ### The word that names the stepping and the part -/

/-- The stepping in [31:28] and the part in [27:12], as GLB_ID and IDCODE hold them, over twelve bits of its own. -/
def State.identityWord (s : State) (low : Nat) : Nat := s.stepping % 16 * 2 ^ 28 + s.part.number * 2 ^ 12 + low

theorem Part.number_lt (p : Part) : p.number < 2 ^ 16 := by cases p <;> decide

theorem Part.sectors_le (p : Part) : p.sectors ≤ 12 := by cases p <;> decide

section
variable (s : State) {low : Nat}

theorem State.idcodeWord_eq : s.idcodeWord = s.identityWord 0x56F := rfl

theorem State.identityWord_lt (h : low < 2 ^ 12) : s.identityWord low < 2 ^ 32 := by
  have := s.part.number_lt
  unfold State.identityWord
  omega

theorem State.bits_identityWord_stepping (h : low < 2 ^ 12) : bits (s.identityWord low) 31 28 = s.stepping % 16 := by
  have := s.part.number_lt
  simp only [bits_eq, State.identityWord]
  omega

theorem State.bits_identityWord_part (h : low < 2 ^ 12) : bits (s.identityWord low) 27 12 = s.part.number := by
  have := s.part.number_lt
  simp only [bits_eq, State.identityWord]
  omega

/-- The stepping and the part lie above the fields of the twelve low bits. -/
theorem State.bits_identityWord_low (h : low < 2 ^ 12) {hi lo : Nat} (hhi : hi < 12) :
    bits (s.identityWord low) hi lo = bits low hi lo := by
  have hw : s.identityWord low = 2 ^ 12 * (s.stepping % 16 * 2 ^ 16 + s.part.number) + low := by
    unfold State.identityWord
    omega
  apply Nat.eq_of_testBit_eq
  intro i
  rw [bits_eq, bits_eq, Nat.testBit_mod_two_pow, Nat.testBit_mod_two_pow, Nat.testBit_div_two_pow, Nat.testBit_div_two_pow, hw,
    Nat.testBit_two_pow_mul_add _ h]
  by_cases hi' : i < hi + 1 - lo
  · rw [if_pos (by omega)]
  · simp [hi']

/-! ### The identity registers as they read -/

theorem State.present_glb_id : s.present 0 = true := by
  cases h : s.part <;> simp [State.present, addrPresent, Part.field, Part.mirror, h]

theorem State.present_glb_cap2 : s.present 0x018 = true := by
  cases h : s.part <;> simp [State.present, addrPresent, Part.field, Part.mirror, h]

theorem State.busRead_glb_id (port : Option (Fin 2)) : s.busRead port 0 = s.identityWord 0 := by
  simp [State.busRead, State.glbRead, State.identityWord, s.present_glb_id]

theorem State.busRead_glb_cap2 (port : Option (Fin 2)) : s.busRead port 0x018 = 8 * s.part.sectors := by
  simp [State.busRead, State.glbRead, s.present_glb_cap2]

/-- What GLB_ID and GLB_CAP2 read rests on the part and its stepping alone. -/
theorem State.busRead_identity_congr {s t : State} (hpart : t.part = s.part) (hstep : t.stepping = s.stepping)
    (port : Option (Fin 2)) {a : Nat} (ha : a = 0 ∨ a = 0x018) : t.busRead port a = s.busRead port a := by
  obtain rfl | rfl := ha
  · rw [t.busRead_glb_id, s.busRead_glb_id, State.identityWord, State.identityWord, hpart, hstep]
  · rw [t.busRead_glb_cap2, s.busRead_glb_cap2, hpart]

end

/-! ### What the commands leave -/

/-- What a command does, it does of every weaker claim. -/
theorem does_mono {c : Instr} {s : State} {P Q : State → Prop} (h : Does c s P) (hpq : ∀ t, P t → Q t) : Does c s Q := by
  obtain ⟨t, hexec, ht⟩ := h
  exact ⟨t, hexec, hpq t ht⟩

/-- The outputs of an IDCODE scan, after what Capture-IR loaded. -/
theorem idcode_out (s : State) : (idcode s).out = .tdo (leBytes 4 s.idcodeWord) :: .tdo [s.irCapture] :: s.out := rfl

/-- What a read leaves behind sends nothing. -/
theorem State.afterRead_out (s : State) (a : Nat) (ce : Bool) : (s.afterRead a ce).out = s.out :=
  out_of_blank (m := (· == .regs)) (State.afterRead_blank rfl s a ce) rfl

/-- R13: a read that a port takes sends the register's value to the host. -/
theorem does_rcCounterRead {s : State} {p : Fin 2} {a : Nat} {ce : Bool} (hready : s.ready = true)
    (hp : p.val < s.part.usbPorts) (ha : busAddr a = true) :
    Does (.rcCounterRead p ⟨a, ce⟩) s (fun t => t.out = .readData a (s.busRead (some p) a) :: s.out) := by
  refine does_of_blank (m := fun _ => true) rfl (rcCounterRead_blank rfl rfl p a ce s) ?_
  have hread : rcCounterRead p a ce s = (s.afterRead a ce).emit (.readData a (s.busRead (some p) a)) := by
    simp [rcCounterRead, hready, hp, ha]
  rw [hread, State.emit, State.putOut_out, State.afterRead_out]

/-- A host write leaves the part and its stepping as they were. -/
theorem does_registerWrite_identity (s : State) (p : Fin 2) (a : Nat) (be : BitVec 4) (v : Word) (ho : Nat × Nat) :
    Does (.registerWrite p a be v ho) s (fun t => t.part = s.part ∧ t.stepping = s.stepping) := by
  have hblank : State.blank (fun _ => true) (registerWrite p a be v ho s) = State.blank (fun _ => true) s := by
    apply registerWrite_blank <;> rfl
  exact does_of_blank rfl hblank ⟨part_of_blank hblank, congrArg (fun x => x.stepping) hblank⟩

theorem does_idcode (s : State) :
    Does .idcode s (fun t => t.out = .tdo (leBytes 4 s.idcodeWord) :: .tdo [s.irCapture] :: s.out) :=
  does_of_blank (m := fun _ => true) rfl (idcode_blank rfl rfl s) (idcode_out s)

end Sys2Proof.Machine

namespace Sys2Proof

open Sys2Proof.Machine

/-- Settles O47: the three words are read off the part and the stepping, and a write of the host leaves both. -/
theorem identityWords : Obligations.IdentityWords := by
  intro s hstepping number engines
  have hstep : s.stepping % 16 = s.stepping := Nat.mod_eq_of_lt hstepping
  have hnumber : s.part.number = number := rfl
  have hengines : 8 * s.part.sectors = engines := by
    cases h : s.part <;> simp [engines, h, Part.sectors]
  refine ⟨⟨s.idcodeWord, does_mono (does_idcode s) (fun t ht => ⟨_, ht⟩), ?_⟩, fun hready p hp => ⟨
    ⟨_, does_rcCounterRead hready hp rfl, ?_⟩,
    ⟨_, does_rcCounterRead hready hp rfl, ?_⟩, ?_⟩⟩
  · rw [s.idcodeWord_eq, ← hnumber]
    have hlow : 0x56F < 2 ^ 12 := by decide
    refine ⟨s.identityWord_lt hlow, (s.bits_identityWord_stepping hlow).trans hstep, s.bits_identityWord_part hlow,
      s.bits_identityWord_low hlow (by decide), s.bits_identityWord_low hlow (by decide), fun hpart hone => ?_⟩
    simp [State.identityWord, hpart, hone, Part.number]
  · rw [s.busRead_glb_id, ← hnumber]
    have hlow : 0 < 2 ^ 12 := by decide
    exact ⟨s.identityWord_lt hlow, (s.bits_identityWord_stepping hlow).trans hstep, s.bits_identityWord_part hlow,
      s.bits_identityWord_low hlow (by decide)⟩
  · rw [s.busRead_glb_cap2, ← hengines]
    have := s.part.sectors_le
    simp only [bits_eq]
    omega
  · intro a be v ho ha
    refine does_mono (does_registerWrite_identity s p a be v ho) ?_
    rintro t ⟨hpart, hst⟩
    exact State.busRead_identity_congr hpart hst (some p) ha

end Sys2Proof
end

section
/-!
SIMM (R184): what a write of a scalar register leaves, the decoding of the major opcode 0x1A, and how lih and lil make up a constant.
-/

namespace Sys2Proof.Machine

/-! ### A write of a scalar register -/

section
variable (s : Proc) (x : Word) {gd n : Nat}

theorem Proc.setG_sc_same (hpos : 0 < gd) (hlt : gd < 32) : (Proc.setG gd x s).sc gd = x := by
  have hne : gd ≠ 0 := by omega
  simp [Proc.setG, Proc.sc, hne, hlt]

theorem Proc.setG_sc_ne (hne : n ≠ gd) : (Proc.setG gd x s).sc n = s.sc n := by
  by_cases hgd : gd = 0
  · simp [Proc.setG, hgd]
  · simp [Proc.setG, Proc.sc, hgd, Vector.getElem?_setIfInBounds_ne hne.symm]

/-- Only the scalar registers change. -/
theorem Proc.setG_frame (gd : Nat) : { Proc.setG gd x s with g := s.g } = s := by
  by_cases hgd : gd = 0 <;> simp [Proc.setG, hgd]

end

/-! ### The words of SIMM -/

section
variable {w : Nat} (vec : Bool)

theorem kdecode_lih (hop : bits w 30 26 = 0x1A) (hfn : bits w 4 0 = 0) :
    kdecode vec w = some (.lih (bits w 25 21) (bits w 20 5)) := by
  simp [kdecode, hop, hfn]

theorem kdecode_lil (hop : bits w 30 26 = 0x1A) (hfn : bits w 4 0 = 1) :
    kdecode vec w = some (.lil (bits w 25 21) (bits w 20 5)) := by
  simp [kdecode, hop, hfn]

/-- R184: the functions from 2 up are reserved. -/
theorem kdecode_simm_reserved (hop : bits w 30 26 = 0x1A) (hfn : 2 ≤ bits w 4 0) : kdecode vec w = none := by
  obtain ⟨fn, hfn⟩ : ∃ fn, bits w 4 0 = fn + 2 := ⟨bits w 4 0 - 2, by omega⟩
  simp [kdecode, hop, hfn]

end

/-! ### The two halves of a constant -/

/-- IMM16 fits the upper half of a register. -/
theorem toNat_upperHalf {imm : Nat} (h : imm < 2 ^ 16) : (BitVec.ofNat 32 (imm * 65536)).toNat = imm * 65536 := by
  rw [BitVec.toNat_ofNat]
  omega

theorem upperHalf_eq_and_mask (c : Word) : BitVec.ofNat 32 (c.toNat / 65536 * 65536) = c &&& 0xFFFF0000#32 := by
  have hshift : BitVec.ofNat 32 (c.toNat / 65536 * 65536) = c >>> 16 <<< 16 := by
    apply BitVec.eq_of_toNat_eq
    simp [Nat.shiftLeft_eq, Nat.shiftRight_eq_div_pow]
  exact hshift.trans BitVec.shiftLeft_ushiftRight

theorem lowerHalf_eq_and_mask (c : Word) : BitVec.ofNat 32 (c.toNat % 65536) = c &&& 0x0000FFFF#32 := by
  apply BitVec.eq_of_toNat_eq
  rw [BitVec.toNat_ofNat, Nat.mod_eq_of_lt (by omega)]
  exact (Nat.and_two_pow_sub_one_eq_mod c.toNat 16).symm

/-- Two complementary masks: the halves that lih and lil write do not overlap, and together they are the whole word. -/
theorem upperHalf_or_lowerHalf (c : Word) :
    (BitVec.ofNat 32 (c.toNat / 65536 * 65536) &&& 0xFFFF0000#32) ||| BitVec.ofNat 32 (c.toNat % 65536) = c := by
  rw [upperHalf_eq_and_mask, lowerHalf_eq_and_mask, BitVec.and_assoc, BitVec.and_self, ← BitVec.and_or_distrib_left]
  exact BitVec.and_allOnes

end Sys2Proof.Machine

namespace Sys2Proof

open Sys2Proof.Machine

/-- Settles O13: lih and lil are one write of Gd each, and the halves they write do not overlap. -/
theorem simmBuildsConstants : Obligations.SimmBuildsConstants := by
  intro p vec pc next tok strip w gd imm hop hgd himm hpos runs only
  have hlt : gd < 32 := by
    rw [← hgd, bits_eq]
    omega
  have himmLt : imm < 2 ^ 16 := by
    rw [← himm, bits_eq]
    omega
  have honly (x : Word) : only p (Proc.setG gd x p) := ⟨p.setG_frame x gd, fun _ hne => p.setG_sc_ne x hne⟩
  refine ⟨fun hfn => ⟨.lih gd imm, ?_, rfl, rfl, rfl, rfl, rfl, honly _, ?_⟩,
    fun hfn => ⟨.lil gd imm, ?_, rfl, rfl, rfl, rfl, rfl, honly _, p.setG_sc_same _ hpos hlt⟩,
    kdecode_simm_reserved vec hop, fun c => ?_⟩
  · rw [kdecode_lih vec hop hfn, hgd, himm]
  · exact (congrArg BitVec.toNat (p.setG_sc_same _ hpos hlt)).trans (toNat_upperHalf himmLt)
  · rw [kdecode_lil vec hop hfn, hgd, himm]
  · intro r
    have hr : r.sc gd = BitVec.ofNat 32 (c.toNat / 65536 * 65536) := p.setG_sc_same _ hpos hlt
    calc _ = ((r.sc gd &&& 0xFFFF0000#32) ||| BitVec.ofNat 32 (c.toNat % 65536)) := r.setG_sc_same _ hpos hlt
      _ = c := by rw [hr, upperHalf_or_lowerHalf]

end Sys2Proof
end
